-- ==== Sys2Proof/Word.lean ====
section
/-!
DEFINITION. The word types of the U640 and the plainest arithmetic on them.
A beat has no fixed length, so instants are counts of tb (00_scope R5) and spans are integer picoseconds.
-/
namespace Sys2Proof

/-- A byte of a packet, a receipt, a record; a tag byte (R194). -/
abbrev Byte := BitVec 8

/-- A 40-bit word of the logic engine (R24, R200, R222, R223). -/
abbrev Word := BitVec 40

/-- A 24-bit data address (R220). -/
abbrev Addr := BitVec 24

/-- A 17-bit point index (R190). -/
abbrev Point := BitVec 17

/-- A 20-bit code address (R219). -/
abbrev CodeAddr := BitVec 20

/-- An instant of the time base, in tb of 5 ns (R5, R21). -/
abbrev Tb := Nat

/-- A quality code: 0 good, 1 uncertain, 2 stale, 3 bad (R194). -/
abbrev Quality := BitVec 2

/-- The least I40 integer (R222). -/
def i40Min : Int := -549755813888

/-- The greatest I40 integer (R222). -/
def i40Max : Int := 549755813887

/-- A value with its tag byte (R194, R203). -/
structure Tagged where
  val : Word
  tag : Byte
  deriving DecidableEq, Repr

/-- Picoseconds in one tb. -/
def psPerTb : Nat := 5000

end Sys2Proof
end

