-- ==== Sys2Proof/Syntax.lean ====
section
/-!
DEFINITION. The commands of the U640: one constructor of `Instr` for each row of spec/opcode_table.json.
Every event of the block, and the work of every host opcode, names its instant `now` in tb; the work of a
host opcode names the command it belongs to. An engine instruction carries its guard (R200) and operands.
-/
namespace Sys2Proof

/-- The two host ports (R89). -/
inductive Port where
  | spi | maint
  deriving DecidableEq, Repr

/-- A bus line (R481). -/
inductive Line where
  | a | b
  deriving DecidableEq, Repr

/-- The command whose work a row is: the port it came from and its host sequence number (R105). -/
structure CmdRef where
  port : Port
  seq : BitVec 16
  deriving DecidableEq, Repr

/-- The governing predicate of an instruction (R200): PRED and SENSE. -/
structure Guard where
  pred : BitVec 3
  sense : Bool
  deriving DecidableEq, Repr

/-- A general register code (R238): 0-7 h, 8-15 v0-v7, 16-23 v8-v15, 24-31 e. -/
abbrev Reg := BitVec 5

/-- A source predicate with its inversion bit (R239, formats P, PM, S, T). -/
structure PSrc where
  p : BitVec 3
  inv : Bool
  deriving DecidableEq, Repr

/-- The mode field and address field of format M (R240). -/
inductive Mode where
  | absPoint (pt : Point)
  | ind (k : BitVec 3)
  | indPost (k : BitVec 3)
  | indexed (k : BitVec 3) (off : BitVec 14)
  | viaReg (rs : Reg)
  deriving DecidableEq, Repr

/-- The region and offset of format DA (R241). -/
structure Abs where
  region : BitVec 2
  offset : BitVec 21
  deriving DecidableEq, Repr

/-- One entry of FORCE.SET (R139, R306). -/
structure ForceArg where
  addr : BitVec 32
  value : Word
  simulate : Bool
  deriving DecidableEq, Repr

/-- The segment header and image bytes of a segmented transfer (R131). -/
structure Segment where
  target : Nat
  offset : Nat
  total : Nat
  bytes : List Byte
  more : Bool
  deriving DecidableEq, Repr

/-- The applies values of a parameter (R691). -/
inductive Applies where
  | now | seal | chart | restart
  deriving DecidableEq, Repr

/-- What an overrun is charged to (R175, R722 type 0x20). -/
inductive OverrunCause where
  | postage | dirty | stack | illegal | retAtZero
  deriving DecidableEq, Repr

/-- Who sent a request to a closed collar (R14, R671). -/
inductive Requester where
  | scan
  | command (c : CmdRef)
  deriving DecidableEq, Repr

/-- The wake sources of DORMANT (R659) and the two other ways out of it (R658). -/
inductive WakeSource where
  | wake | lineA | lineB | hcs | mrx
  deriving DecidableEq, Repr

/-- A HELLO frame's body as received (R374), with the result of its CRC checks (R375). -/
structure HelloFrame where
  ok : Bool
  serial : List Byte
  epoch : Nat
  side : Nat
  role : Nat
  term : Nat
  headSeq : Nat
  progHash : List Byte
  configCrc : BitVec 32
  deriving DecidableEq, Repr

/-- A HEARTBEAT frame's body as received (R374). -/
structure HeartbeatFrame where
  ok : Bool
  role : Nat
  pairState : Nat
  term : Nat
  headSeq : Nat
  senderTb : Nat
  deriving DecidableEq, Repr

/-- A HANDOVER frame's body as received (R374). -/
structure HandoverFrame where
  ok : Bool
  lastSeq : Nat
  cause : Nat
  term : Nat
  releases : List (Nat × Nat)
  deriving DecidableEq, Repr

/-- A line of the seal ring (R328), with the view of its directory entry in a CARRY record (R326). -/
inductive RingLine where
  /-- word line: base data address, eight words with tags -/
  | words (base : Nat) (vals : List Tagged)
  /-- point line: line number, 64 tag bytes -/
  | points (line : Nat) (tags : List Byte)
  /-- shadow line of an analogue output line: index, held values with HELD bits -/
  | shadowWords (idx : Nat) (held : List (Option Word))
  /-- shadow line of a point line: index, held V bits with HELD bits -/
  | shadowPoints (idx : Nat) (held : List (Option Bool))
  deriving DecidableEq, Repr

/-- The record kinds of the seal ring (R324). -/
inductive RecKind where
  | seal | carry | image | state
  deriving DecidableEq, Repr

/-- The subkinds of a STATE record (R325 byte 29). -/
inductive StateKind where
  | none | load | run | stopHold | stopSafe | clear | resume
  deriving DecidableEq, Repr

/-- A record of the seal ring: the fields of its header (R325) and its lines (R327). -/
structure RingRec where
  kind : RecKind
  task : Nat
  seq : Nat
  stamp : Nat
  rtcValid : Bool
  rtcSec : Nat
  rtcSub : Nat
  /-- IMAGE: host sequence, index in the group, group count -/
  group : Nat × Nat × Nat
  chart : Nat
  follow : Option Nat
  progState : Nat
  edit : Bool
  sub : StateKind
  /-- byte 30: SF.CHGREQ bits [4:0] and the kind of the pending request -/
  chgReq : Nat
  chgKind : Nat
  edits : Nat
  powerCycles : Nat
  tailLine : Nat
  tailSeq : Nat
  /-- each line with its view: 0 both, 1 working only, 2 emitted only -/
  lines : List (Nat × RingLine)
  /-- ring line index of the header line, and the CRC of the trailer line as it stands (R328) -/
  pos : Nat
  crc : BitVec 32
  deriving DecidableEq, Repr

/-- A CAN frame on a line (R481, R490). -/
structure CanFrame where
  fd : Bool
  brs : Bool
  ext : Bool
  id : Nat
  data : List Byte
  deriving DecidableEq, Repr

/-- How a transmit attempt ended (R484-R487, R513). -/
inductive TxOutcome where
  | started | acknowledged | lostArbitration | error
  deriving DecidableEq, Repr

/-- An error seen by a bus controller, by its effect on the counters of ISO 11898-1 (R483). -/
inductive BusErr where
  | transmit | receive
  deriving DecidableEq, Repr

/-- The conditions of output diagnosis (R421). -/
inductive OutCond where
  | limit | thermal | openLoad | supplyShort
  deriving DecidableEq, Repr

/-- A window of a bus cycle (R496). -/
inductive BusWindow where
  | output
  | slot (n : Nat)
  deriving DecidableEq, Repr

/-- The commands of the U640. -/
inductive Instr where
  -- logic engine: system
  | nop (g : Guard)
  | eos (g : Guard)
  | chg (g : Guard) (chart : BitVec 3)
  | chgr (g : Guard) (rs : Reg)
  | wdci (g : Guard)
  | illegalInstruction (w : Word)
  -- predicate and point logic
  | pand (g : Guard) (pd : BitVec 3) (s1 s2 : PSrc)
  | pnand (g : Guard) (pd : BitVec 3) (s1 s2 : PSrc)
  | por (g : Guard) (pd : BitVec 3) (s1 s2 : PSrc)
  | pnor (g : Guard) (pd : BitVec 3) (s1 s2 : PSrc)
  | pxor (g : Guard) (pd : BitVec 3) (s1 s2 : PSrc)
  | pmov (g : Guard) (pd : BitVec 3) (s1 : PSrc)
  | btst (g : Guard) (pd : BitVec 3) (rs : Reg) (bit : BitVec 6)
  | qtst (g : Guard) (pd : BitVec 3) (rs : Reg) (q : BitVec 6)
  | pmovr (g : Guard) (rd : Reg) (s : PSrc)
  | ldp (g : Guard) (pd : BitVec 3) (m : Mode)
  | stp (g : Guard) (m : Mode) (s : PSrc)
  | ldpr (g : Guard) (rd : Reg) (m : Mode)
  | stpr (g : Guard) (m : Mode) (rs : Reg)
  -- integer
  | add (g : Guard) (rd rs1 rs2 : Reg)
  | sub (g : Guard) (rd rs1 rs2 : Reg)
  | and (g : Guard) (rd rs1 rs2 : Reg)
  | or (g : Guard) (rd rs1 rs2 : Reg)
  | xor (g : Guard) (rd rs1 rs2 : Reg)
  | adds (g : Guard) (rd rs1 rs2 : Reg)
  | subs (g : Guard) (rd rs1 rs2 : Reg)
  | min (g : Guard) (rd rs1 rs2 : Reg)
  | max (g : Guard) (rd rs1 rs2 : Reg)
  | minu (g : Guard) (rd rs1 rs2 : Reg)
  | maxu (g : Guard) (rd rs1 rs2 : Reg)
  | shl (g : Guard) (rd rs1 rs2 : Reg)
  | shr (g : Guard) (rd rs1 rs2 : Reg)
  | sar (g : Guard) (rd rs1 rs2 : Reg)
  | neg (g : Guard) (rd rs1 : Reg)
  | abs (g : Guard) (rd rs1 : Reg)
  | addi (g : Guard) (rd rs1 : Reg) (imm : BitVec 18)
  | andi (g : Guard) (rd rs1 : Reg) (imm : BitVec 18)
  | ori (g : Guard) (rd rs1 : Reg) (imm : BitVec 18)
  | xori (g : Guard) (rd rs1 : Reg) (imm : BitVec 18)
  | shli (g : Guard) (rd rs1 : Reg) (count : BitVec 6)
  | shri (g : Guard) (rd rs1 : Reg) (count : BitVec 6)
  | sari (g : Guard) (rd rs1 : Reg) (count : BitVec 6)
  | bset (g : Guard) (rd rs1 : Reg) (bit : BitVec 6)
  | bclr (g : Guard) (rd rs1 : Reg) (bit : BitVec 6)
  -- multiply and divide
  | mul (g : Guard) (rd rs1 rs2 : Reg)
  | muls (g : Guard) (rd rs1 rs2 : Reg)
  | div (g : Guard) (rd rs1 rs2 : Reg)
  | divu (g : Guard) (rd rs1 rs2 : Reg)
  | rem (g : Guard) (rd rs1 rs2 : Reg)
  -- accumulator
  | mpy (g : Guard) (a : BitVec 2) (rs1 rs2 : Reg)
  | mac (g : Guard) (a : BitVec 2) (rs1 rs2 : Reg)
  | msu (g : Guard) (a : BitVec 2) (rs1 rs2 : Reg)
  | macd (g : Guard) (a : BitVec 2) (xi xj : BitVec 3)
  | msud (g : Guard) (a : BitVec 2) (xi xj : BitVec 3)
  | clra (g : Guard) (a : BitVec 2)
  | mva (g : Guard) (rd : Reg) (a : BitVec 2) (sh : BitVec 6)
  | mvra (g : Guard) (a : BitVec 2) (rs : Reg)
  -- F40
  | fadd (g : Guard) (rd rs1 rs2 : Reg)
  | fsub (g : Guard) (rd rs1 rs2 : Reg)
  | fmul (g : Guard) (rd rs1 rs2 : Reg)
  | fdiv (g : Guard) (rd rs1 rs2 : Reg)
  | fsqrt (g : Guard) (rd rs1 : Reg)
  | fneg (g : Guard) (rd rs1 : Reg)
  | fabs (g : Guard) (rd rs1 : Reg)
  | fmin (g : Guard) (rd rs1 rs2 : Reg)
  | fmax (g : Guard) (rd rs1 rs2 : Reg)
  | itof (g : Guard) (rd rs1 : Reg)
  | ftoi (g : Guard) (rd rs1 : Reg)
  | ftrunc (g : Guard) (rd rs1 : Reg)
  -- moves, selects, address registers
  | mov (g : Guard) (rd rs : Reg)
  | movImm (g : Guard) (rd : Reg) (imm : BitVec 23)
  | movh (g : Guard) (rd : Reg) (imm : BitVec 20)
  | sel (g : Guard) (rd : Reg) (s : PSrc) (rs1 rs2 : Reg)
  | movx (g : Guard) (k : BitVec 3) (rs : Reg)
  | movm (g : Guard) (k : BitVec 3) (rs : Reg)
  | movb (g : Guard) (k : BitVec 3) (rs : Reg)
  | movn (g : Guard) (k : BitVec 3) (rs : Reg)
  | setx (g : Guard) (k : BitVec 3) (imm : BitVec 24)
  | setm (g : Guard) (k : BitVec 3) (imm : BitVec 24)
  | setb (g : Guard) (k : BitVec 3) (imm : BitVec 24)
  | setn (g : Guard) (k : BitVec 3) (imm : BitVec 24)
  | rdx (g : Guard) (rd : Reg) (k : BitVec 3)
  | qmax (g : Guard) (rd rs : Reg) (q : BitVec 2) (l : Bool)
  | tagr (g : Guard) (rd rs : Reg)
  -- compares
  | cmp (g : Guard) (pd : BitVec 3) (cc : BitVec 4) (rs1 rs2 : Reg)
  | cmpi (g : Guard) (pd : BitVec 3) (cc : BitVec 4) (rs1 : Reg) (imm : BitVec 16)
  | fcmp (g : Guard) (pd : BitVec 3) (cc : BitVec 4) (rs1 rs2 : Reg)
  -- loads and stores
  | ld (g : Guard) (rd : Reg) (m : Mode)
  | ldAbs (g : Guard) (rd : Reg) (addr : Abs)
  | st (g : Guard) (m : Mode) (rs : Reg)
  | stAbs (g : Guard) (addr : Abs) (rs : Reg)
  -- branches and calls
  | br (g : Guard) (target : CodeAddr)
  | beq (g : Guard) (pk : BitVec 3) (target : CodeAddr)
  | bne (g : Guard) (pk : BitVec 3) (target : CodeAddr)
  | jmp (g : Guard) (rs : Reg)
  | call (g : Guard) (target : CodeAddr)
  | calli (g : Guard) (rs : Reg)
  | ret (g : Guard)
  -- scanned blocks
  | ton (g : Guard) (pd : BitVec 3) (s1 : PSrc) (x : BitVec 3) (k : BitVec 10)
  | tof (g : Guard) (pd : BitVec 3) (s1 : PSrc) (x : BitVec 3) (k : BitVec 10)
  | tp (g : Guard) (pd : BitVec 3) (s1 : PSrc) (x : BitVec 3) (k : BitVec 10)
  | ctu (g : Guard) (pd : BitVec 3) (s1 s2 : PSrc) (x : BitVec 3) (k : BitVec 10)
  | ctd (g : Guard) (pd : BitVec 3) (s1 s2 : PSrc) (x : BitVec 3) (k : BitVec 10)
  | ctud (g : Guard) (pd : BitVec 3) (s1 s2 s3 : PSrc) (x : BitVec 3) (k : BitVec 10)
  | rtrig (g : Guard) (pd : BitVec 3) (s1 : PSrc) (x : BitVec 3) (k : BitVec 10)
  | ftrig (g : Guard) (pd : BitVec 3) (s1 : PSrc) (x : BitVec 3) (k : BitVec 10)
  -- ports and packets
  | packetArrival (now : Tb) (port : Port)
  | partialPacketTimeout (now : Tb) (port : Port)
  | status (now : Tb)
  | statusClr (now : Tb) (mask : BitVec 32)
  | put (now : Tb) (bytes : List Byte)
  | putQ (now : Tb) (bytes : List Byte)
  | take (now : Tb) (n : Nat)
  | takeQ (now : Tb) (n : Nat)
  | repeatLast (now : Tb) (n : Nat)
  | repeatLastQ (now : Tb) (n : Nat)
  | portReset (now : Tb)
  | unknownCommandByte (now : Tb) (b : Byte)
  | maintBreak (now : Tb) (durUs : Nat)
  | maintByteReceived (now : Tb) (b : Byte)
  -- admission and the life of a command
  | shareWindowStart (now : Tb)
  | heldCommandAgesOut (now : Tb) (c : CmdRef)
  | commandStageComplete (now : Tb) (c : CmdRef)
  | sessionIdleTimeout (now : Tb)
  | segmentTransferTimeout (now : Tb)
  -- host opcodes
  | sessionOpen (now : Tb) (c : CmdRef) (host : BitVec 32)
  | sessionClose (now : Tb) (c : CmdRef)
  | sessionNonce (now : Tb) (c : CmdRef)
  | sessionClaim (now : Tb) (c : CmdRef) (host : BitVec 32)
  | statusGet (now : Tb) (c : CmdRef)
  | admitQuery (now : Tb) (c : CmdRef) (packet : List Byte)
  | admitCancel (now : Tb) (c : CmdRef) (seqs : List (BitVec 16))
  | admitShares (now : Tb) (c : CmdRef) (v p s d : Nat)
  | imageRead (now : Tb) (c : CmdRef) (space n start : Nat)
  | imageWrite (now : Tb) (c : CmdRef) (space start : Nat) (vals : List Word)
  | imageWatch (now : Tb) (c : CmdRef) (task space : Nat) (addrs : List Nat) (timeoutUs : Nat)
  | paramRead (now : Tb) (c : CmdRef) (pids : List Nat)
  | paramWrite (now : Tb) (c : CmdRef) (entries : List (Nat × Nat))
  | paramCommit (now : Tb) (c : CmdRef)
  | paramValueTakesEffect (now : Tb) (kind : Applies)
  | progLoad (now : Tb) (c : CmdRef) (slot : Nat)
  | progEdit (now : Tb) (c : CmdRef) (seg : Segment)
  | progRun (now : Tb) (c : CmdRef)
  | progStop (now : Tb) (c : CmdRef) (mode : Nat)
  | progTasks (now : Tb) (c : CmdRef)
  | forceSet (now : Tb) (c : CmdRef) (entries : List ForceArg)
  | forceRelease (now : Tb) (c : CmdRef) (addrs : List (BitVec 32))
  | forceList (now : Tb) (c : CmdRef) (first : Nat)
  | chartLoad (now : Tb) (c : CmdRef) (seg : Segment)
  | chartSelect (now : Tb) (c : CmdRef) (chart : Nat)
  | chartInfo (now : Tb) (c : CmdRef) (chart : Nat)
  | sealStatus (now : Tb) (c : CmdRef)
  | retainClear (now : Tb) (c : CmdRef) (parts : BitVec 8)
  | twinStatus (now : Tb) (c : CmdRef)
  | twinChange (now : Tb) (c : CmdRef)
  | twinResync (now : Tb) (c : CmdRef)
  | dioStatus (now : Tb) (c : CmdRef)
  | dioTest (now : Tb) (c : CmdRef) (kind channel : Nat)
  | anaTrim (now : Tb) (c : CmdRef) (channel kind : Nat)
  | anaRelay (now : Tb) (c : CmdRef) (mask : BitVec 8)
  | anaHart (now : Tb) (c : CmdRef) (channel : Nat) (frame : List Byte)
  | anaStatus (now : Tb) (c : CmdRef)
  | busSend (now : Tb) (c : CmdRef) (line : Line) (frame : CanFrame)
  | busStatus (now : Tb) (c : CmdRef) (line : Line)
  | stationList (now : Tb) (c : CmdRef) (line : Line)
  | busSleep (now : Tb) (c : CmdRef) (line : Line) (mode : Nat)
  | dspWrite (now : Tb) (c : CmdRef) (first count : Nat) (bytes : List Byte)
  | dspMode (now : Tb) (c : CmdRef) (owner : Nat)
  | dspCheck (now : Tb) (c : CmdRef)
  | timeSet (now : Tb) (c : CmdRef) (year month day hour minute second : Nat)
  | timeGet (now : Tb) (c : CmdRef)
  | timeShift (now : Tb) (c : CmdRef) (shift : Int) (divisor : Nat)
  | timeTrim (now : Tb) (c : CmdRef) (source : Nat) (fixed : Int)
  | logRead (now : Tb) (c : CmdRef) (first limit : Nat)
  | logClear (now : Tb) (c : CmdRef) (last : Nat)
  | logMark (now : Tb) (c : CmdRef) (code : Nat) (data : List Byte)
  | wdStatus (now : Tb) (c : CmdRef)
  | updBegin (now : Tb) (c : CmdRef) (target kind length : Nat) (hash : List Byte)
  | updChunk (now : Tb) (c : CmdRef) (offset : Nat) (data : List Byte)
  | updApply (now : Tb) (c : CmdRef)
  | updConfirm (now : Tb) (c : CmdRef)
  | updAbandon (now : Tb) (c : CmdRef)
  | secAttest (now : Tb) (c : CmdRef) (nonce : List Byte)
  | secKeys (now : Tb) (c : CmdRef) (op slot : Nat) (data : List Byte)
  | secCert (now : Tb) (c : CmdRef) (which : Nat)
  | testSelf (now : Tb) (c : CmdRef) (unit : Nat)
  | testPace (now : Tb) (c : CmdRef)
  | devReset (now : Tb) (c : CmdRef) (kind : Nat)
  | unitReset (now : Tb) (c : CmdRef) (unit : Nat)
  | devDormant (now : Tb) (c : CmdRef) (mask : BitVec 16)
  -- scans, sealing, charts
  | scanReady (now : Tb)
  | roundMinExpiry (now : Tb)
  | fixedPeriodRelease (now : Tb) (task : BitVec 4)
  | overrun (now : Tb) (cause : OverrunCause)
  | sealPoint (now : Tb)
  | manifestAckDeadline (now : Tb)
  | emit (now : Tb)
  | emitEnd (now : Tb)
  | imageSlot (now : Tb)
  | classDSlice (now : Tb)
  | carryRecordWrite (now : Tb)
  | sealFault (now : Tb) (line : Nat)
  | chartPreloadComplete (now : Tb)
  -- timing, faults, collars
  | paceSample (now : Tb) (ps : Nat)
  | junctionSample (now : Tb) (tenths : Int)
  | tbLockLost (now : Tb)
  | tbLockRegained (now : Tb)
  | promiseBreach (now : Tb)
  | faultHaltRestart (now : Tb)
  | uncorrectableMemoryError (now : Tb) (store index : Nat)
  | unitFault (now : Tb) (unit : Nat)
  | collarReopen (now : Tb) (unit : Nat)
  | requestToClosedCollar (now : Tb) (unit : Nat) (who : Requester)
  -- power and start
  | vinFail (now : Tb)
  | vinValid
  | reEmit (now : Tb)
  | rstNReset (now : Tb) (lowNs : Nat)
  | dormantWake (source : WakeSource)
  | holdupCapacitanceMeasure (now : Tb) (deltaUv : Nat)
  | holdupSample (now : Tb) (mv : Nat)
  | holdupFault (now : Tb)
  | retentionRailLoss (ns : Nat)
  | vbatMeasure (now : Tb) (mv : Nat)
  | operatingSecond (now : Tb)
  | pstoreCompaction (now : Tb) (half : Fin 2)
  -- twin
  | laneAlignmentChange (now : Tb) (lane : Fin 2) (aligned : Bool)
  | hello (now : Tb) (f : HelloFrame)
  | manifest (now : Tb) (ok : Bool) (r : RingRec)
  | ack (now : Tb) (seq : Nat) (written : Bool)
  | heartbeatDue (now : Tb)
  | heartbeat (now : Tb) (f : HeartbeatFrame)
  | handover (now : Tb) (f : HandoverFrame)
  | taken (now : Tb) (term : Nat)
  | watchOutputsSafe (now : Tb)
  | drop (now : Tb) (reason : Nat)
  | config (now : Tb) (kind : Nat) (data : List Byte)
  | changeReq (now : Tb)
  | watchTimeout (now : Tb)
  | helmGivesUp (now : Tb)
  | twinStartWaitExpiry (now : Tb)
  | busHeartbeatDue (now : Tb) (line : Line)
  | busHeartbeatReceived (now : Tb) (line : Line) (side role term seq : Nat)
  -- digital field I/O
  | fieldLinkSilence (now : Tb)
  | safeStateStaggerStep (now : Tb)
  | diSampleTick (now : Tb) (group : Fin 6) (currents : List Nat)
  | outputDiagnosis (now : Tb) (output : Fin 24) (cond : OutCond) (present : Bool)
  | vfldSample (now : Tb) (mv : Nat)
  | fieldDieRestart (now : Tb)
  | restoreStaggerStep (now : Tb)
  | dioTestEnd (now : Tb) (measured : Int) (offSeen onSeen : Bool)
  -- analogue islands
  | anaOutputUpdate (now : Tb) (ch : Fin 8)
  | anaSample (now : Tb) (ch : Fin 8) (code : Int)
  | islandTemperatureSample (now : Tb) (ch : Fin 8) (tenths : Int)
  | relayCalibrationDue (now : Tb) (ch : Fin 8)
  | relayCalibrationStepEnd (now : Tb) (ch : Fin 8) (measured : Int)
  | handoverAbort (now : Tb) (ch : Fin 8)
  | activeStageFailure (now : Tb) (ch : Fin 8)
  | loopOpen (now : Tb) (ch : Fin 8) (present : Bool)
  | complianceLack (now : Tb) (ch : Fin 8) (headroomMv : Int) (present : Bool)
  | hartPoll (now : Tb) (ch : Fin 8)
  | hartReply (now : Tb) (ch : Fin 8) (reply : Option (List Byte))
  | hartRequest (now : Tb) (ch : Fin 8) (frame : List Byte)
  -- bus lines
  | busCycleStart (now : Tb) (line : Line)
  | busFrameReceived (now : Tb) (line : Line) (f : CanFrame)
  | inputWindowEnd (now : Tb) (line : Line)
  | confirmationWindowEnd (now : Tb) (line : Line)
  | busFrameTransmitted (now : Tb) (line : Line) (buf : Fin 3) (outcome : TxOutcome)
  | windowOrSlotEnd (now : Tb) (line : Line)
  | busOffRecovery (now : Tb) (line : Line)
  | fifoDrain (now : Tb) (line : Line)
  | filterAgeExpiry (now : Tb) (line : Line) (filter : Fin 32)
  | busWake (now : Tb) (line : Line)
  | transceiverSleepEntry (now : Tb) (line : Line)
  | timeReferenceFrame (now : Tb) (line : Line) (f : CanFrame)
  -- display
  | lcdFrameStart (now : Tb) (vdsp0Mv : Nat)
  | bistableUpdateStart (now : Tb) (vdsp0Mv : Nat)
  | bistablePhaseEnd (now : Tb) (vdsp0Mv : Nat)
  | fullRewrite (now : Tb)
  | displayNtcRead (now : Tb) (tenths : Int)
  | crackLoopMeasure (now : Tb) (ohm : Nat)
  -- clock and logbook
  | crystalTick (now : Tb)
  | trimSecond (now : Tb)
  | shiftComplete (now : Tb)
  | servoWindowEnd (now : Tb)
  | referenceAbsentTimeout (now : Tb)
  | periodicAnchor (now : Tb)
  | suppressedRecordDue (now : Tb)
  | logClearOverwrite (now : Tb)
  | healthWindowExpiry (now : Tb)
  -- watchdog
  | wdPeriodExpiry (now : Tb)
  | serviceProcessorCheckIn (now : Tb)
  | serviceProcessorReply (now : Tb) (tick : Nat)
  | wdReply (now : Tb) (value : Word) (tick : Nat)
  | wdCtrlWrite (now : Tb) (value : BitVec 32) (tick : Nat)
  | wdKeyWrite (now : Tb) (value : BitVec 32) (tick : Nat)
  -- stores to special function registers
  | sfPredStore (value : Word)
  | sfCtrlStore (value : Word)
  | sfRegisterWrite (addr : BitVec 12) (value : Word)
  -- further events
  | looseAckTimeout (now : Tb) (seq : Nat)
  | silenceVoteElapsed (now : Tb)
  | busError (now : Tb) (line : Line) (err : BusErr)
  | busWindowStart (now : Tb) (line : Line) (w : BusWindow)
  | relayHandoverBlocked (now : Tb) (ch : Fin 8)
  | modeChangeComplete (now : Tb) (ch : Fin 8)
  | panelImageCheck (now : Tb)
  | lrefZeroCrossing (now : Tb) (periodUs : Nat)
  | receiptWaitExpiry (now : Tb)
  | maintReceiptSent (now : Tb)
  | imageWatchTimeout (now : Tb) (c : CmdRef)
  | timeReferenceAgeExpiry (now : Tb) (line : Line)
  deriving DecidableEq, Repr

end Sys2Proof
end

