-- ==== Sys2Proof/Decode.lean ====
section
/-!
DEFINITION. The decoder of the logic engine's 40-bit words (R200, R238-R243) and, after it, their encoder. The rows of the command table give no
bits, so no word of the table spells a command.
-/
namespace Sys2Proof

/-- The field of n bits from bit i of a word. -/
def fld (w : Word) (i n : Nat) : BitVec n := w.extractLsb' i n

/-- PRED and SENSE (R200). -/
def decGuard (w : Word) : Guard := ⟨fld w 37 3, (fld w 36 1).getLsbD 0⟩

/-- A source predicate with its inversion bit just below it. -/
def decSrc (w : Word) (i : Nat) : PSrc := ⟨fld w i 3, w.getLsbD (i - 1)⟩

/-- The mode and address fields of format M (R240). `point` says whether mode 0b000 is permitted. -/
def decMode (w : Word) (point : Bool) : Option Mode :=
  match (fld w 20 3).toNat with
  | 0 => if point then some (.absPoint (fld w 0 17)) else none
  | 1 => some (.ind (fld w 17 3))
  | 2 => some (.indPost (fld w 17 3))
  | 3 => some (.indexed (fld w 17 3) (fld w 0 14))
  | 4 => some (.viaReg (fld w 15 5))
  | _ => none

/-- The region and offset of format DA (R241). -/
def decAbs (w : Word) : Option Abs := if fld w 21 2 = 3 then none else some ⟨fld w 21 2, fld w 0 21⟩

/-- Format R3. -/
def decR3 (w : Word) (f : Guard → Reg → Reg → Reg → Instr) : Option Instr :=
  some (f (decGuard w) (fld w 23 5) (fld w 18 5) (fld w 13 5))

/-- Format R3 with one source. -/
def decR2 (w : Word) (f : Guard → Reg → Reg → Instr) : Option Instr :=
  some (f (decGuard w) (fld w 23 5) (fld w 18 5))

/-- Format RI with imm18. -/
def decRI (w : Word) (f : Guard → Reg → Reg → BitVec 18 → Instr) : Option Instr :=
  some (f (decGuard w) (fld w 23 5) (fld w 18 5) (fld w 0 18))

/-- Format RI with a count or bit index in imm18 [5:0]. -/
def decRC (w : Word) (f : Guard → Reg → Reg → BitVec 6 → Instr) : Option Instr :=
  some (f (decGuard w) (fld w 23 5) (fld w 18 5) (fld w 0 6))

/-- Format P. -/
def decP (w : Word) (f : Guard → BitVec 3 → PSrc → PSrc → Instr) : Option Instr :=
  some (f (decGuard w) (fld w 25 3) (decSrc w 22) (decSrc w 18))

/-- Format AC. -/
def decAC (w : Word) (f : Guard → BitVec 2 → Reg → Reg → Instr) : Option Instr :=
  some (f (decGuard w) (fld w 26 2) (fld w 21 5) (fld w 16 5))

/-- Format AX with an immediate, and its register form. -/
def decAX (w : Word) (f : Guard → BitVec 3 → BitVec 24 → Instr) : Option Instr :=
  some (f (decGuard w) (fld w 25 3) (fld w 0 24))

def decAXr (w : Word) (f : Guard → BitVec 3 → Reg → Instr) : Option Instr :=
  some (f (decGuard w) (fld w 25 3) (fld w 19 5))

/-- Format T with one input. -/
def decT1 (w : Word) (f : Guard → BitVec 3 → PSrc → BitVec 3 → BitVec 10 → Instr) : Option Instr :=
  some (f (decGuard w) (fld w 25 3) (decSrc w 22) (fld w 10 3) (fld w 0 10))

def decT2 (w : Word) (f : Guard → BitVec 3 → PSrc → PSrc → BitVec 3 → BitVec 10 → Instr) : Option Instr :=
  some (f (decGuard w) (fld w 25 3) (decSrc w 22) (decSrc w 18) (fld w 10 3) (fld w 0 10))

/-- Opcodes 0x00 to 0x2F. -/
def decLow (w : Word) (op : Nat) : Option Instr :=
  let g := decGuard w
  match op with
  | 0x01 => some (.nop g)
  | 0x02 => some (.eos g)
  | 0x03 => some (.chg g (fld w 0 3))
  | 0x04 => some (.chgr g (fld w 23 5))
  | 0x05 => some (.wdci g)
  | 0x10 => decP w .pand
  | 0x11 => decP w .pnand
  | 0x12 => decP w .por
  | 0x13 => decP w .pnor
  | 0x14 => decP w .pxor
  | 0x15 => some (.pmov g (fld w 25 3) (decSrc w 22))
  | 0x16 => if fld w 14 6 < 40#6 then some (.btst g (fld w 25 3) (fld w 20 5) (fld w 14 6)) else none
  | 0x17 => if fld w 14 6 < 4#6 then some (.qtst g (fld w 25 3) (fld w 20 5) (fld w 14 6)) else none
  | 0x18 => some (.pmovr g (fld w 23 5) (decSrc w 20))
  | 0x20 => (decMode w true).map (.ldp g (fld w 25 3))
  | 0x21 => (decMode w true).map (fun m => .stp g m ⟨fld w 25 3, w.getLsbD 24⟩)
  | 0x22 => (decMode w true).map (.ldpr g (fld w 23 5))
  | 0x23 => (decMode w true).map (fun m => .stpr g m (fld w 23 5))
  | _ => none

/-- Opcodes 0x30 to 0x4F. -/
def decInt (w : Word) (op : Nat) : Option Instr :=
  match op with
  | 0x30 => decR3 w .add
  | 0x31 => decR3 w .sub
  | 0x32 => decR3 w .and
  | 0x33 => decR3 w .or
  | 0x34 => decR3 w .xor
  | 0x35 => decR3 w .adds
  | 0x36 => decR3 w .subs
  | 0x37 => decR3 w .min
  | 0x38 => decR3 w .max
  | 0x39 => decR3 w .minu
  | 0x3A => decR3 w .maxu
  | 0x3B => decR3 w .shl
  | 0x3C => decR3 w .shr
  | 0x3D => decR3 w .sar
  | 0x3E => decR2 w .neg
  | 0x3F => decR2 w .abs
  | 0x40 => decRI w .addi
  | 0x41 => decRI w .andi
  | 0x42 => decRI w .ori
  | 0x43 => decRI w .xori
  | 0x44 => decRC w .shli
  | 0x45 => decRC w .shri
  | 0x46 => decRC w .sari
  | 0x47 => if fld w 0 6 < 40#6 then decRC w .bset else none
  | 0x48 => if fld w 0 6 < 40#6 then decRC w .bclr else none
  | _ => none

/-- Opcodes 0x50 to 0x6F. -/
def decMove (w : Word) (op : Nat) : Option Instr :=
  let g := decGuard w
  match op with
  | 0x50 => some (.mov g (fld w 23 5) (fld w 18 5))
  | 0x51 => some (.movImm g (fld w 23 5) (fld w 0 23))
  | 0x52 => some (.movh g (fld w 23 5) (fld w 0 20))
  | 0x53 => some (.sel g (fld w 23 5) (decSrc w 20) (fld w 14 5) (fld w 9 5))
  | 0x54 => decAXr w .movx
  | 0x55 => decAXr w .movm
  | 0x56 => decAXr w .movb
  | 0x57 => decAXr w .movn
  | 0x58 => decAX w .setx
  | 0x59 => decAX w .setm
  | 0x5A => decAX w .setb
  | 0x5B => decAX w .setn
  | 0x5C => some (.rdx g (fld w 23 5) (fld w 20 3))
  | 0x5D => some (.qmax g (fld w 23 5) (fld w 18 5) (fld w 0 2) (w.getLsbD 2))
  | 0x5E => decR2 w .tagr
  | 0x60 => if fld w 21 4 < 10#4 then some (.cmp g (fld w 25 3) (fld w 21 4) (fld w 16 5) (fld w 11 5)) else none
  | 0x61 => if fld w 21 4 < 10#4 then some (.cmpi g (fld w 25 3) (fld w 21 4) (fld w 16 5) (fld w 0 16)) else none
  | 0x62 => if fld w 21 4 < 6#4 then some (.fcmp g (fld w 25 3) (fld w 21 4) (fld w 16 5) (fld w 11 5)) else none
  | _ => none

/-- Opcodes 0x70 to 0x9F. -/
def decArith (w : Word) (op : Nat) : Option Instr :=
  let g := decGuard w
  match op with
  | 0x70 => decR3 w .mul
  | 0x71 => decR3 w .muls
  | 0x72 => decR3 w .div
  | 0x73 => decR3 w .divu
  | 0x74 => decR3 w .rem
  | 0x80 => decAC w .mpy
  | 0x81 => decAC w .mac
  | 0x82 => decAC w .msu
  | 0x83 => some (.macd g (fld w 26 2) (fld w 23 3) (fld w 20 3))
  | 0x84 => some (.msud g (fld w 26 2) (fld w 23 3) (fld w 20 3))
  | 0x85 => some (.clra g (fld w 26 2))
  | 0x86 => some (.mva g (fld w 23 5) (fld w 21 2) (fld w 15 6))
  | 0x87 => some (.mvra g (fld w 26 2) (fld w 21 5))
  | 0x90 => decR3 w .fadd
  | 0x91 => decR3 w .fsub
  | 0x92 => decR3 w .fmul
  | 0x93 => decR3 w .fdiv
  | 0x94 => decR2 w .fsqrt
  | 0x95 => decR2 w .fneg
  | 0x96 => decR2 w .fabs
  | 0x97 => decR3 w .fmin
  | 0x98 => decR3 w .fmax
  | 0x99 => decR2 w .itof
  | 0x9A => decR2 w .ftoi
  | 0x9B => decR2 w .ftrunc
  | _ => none

/-- Opcodes 0xA0 to 0xCF. -/
def decHigh (w : Word) (op : Nat) : Option Instr :=
  let g := decGuard w
  match op with
  | 0xA0 => (decMode w false).map (.ld g (fld w 23 5))
  | 0xA1 => (decAbs w).map (.ldAbs g (fld w 23 5))
  | 0xA2 => (decMode w false).map (fun m => .st g m (fld w 23 5))
  | 0xA3 => (decAbs w).map (fun a => .stAbs g a (fld w 23 5))
  | 0xB0 => some (.br g (fld w 0 20))
  | 0xB1 => some (.beq g (fld w 25 3) (fld w 0 20))
  | 0xB2 => some (.bne g (fld w 25 3) (fld w 0 20))
  | 0xB3 => some (.jmp g (fld w 20 5))
  | 0xB4 => some (.call g (fld w 0 20))
  | 0xB5 => some (.calli g (fld w 20 5))
  | 0xB6 => some (.ret g)
  | 0xC0 => decT1 w .ton
  | 0xC1 => decT1 w .tof
  | 0xC2 => decT1 w .tp
  | 0xC3 => decT2 w .ctu
  | 0xC4 => decT2 w .ctd
  | 0xC5 => some (.ctud g (fld w 25 3) (decSrc w 22) (decSrc w 18) (decSrc w 14) (fld w 10 3) (fld w 0 10))
  | 0xC6 => decT1 w .rtrig
  | 0xC7 => decT1 w .ftrig
  | _ => none

/-- The instruction a word stands for; none for an illegal word (R242). Log entry 5 (DESIGN CHOICE). -/
def decodeWord (w : Word) : Option Instr :=
  let op := (fld w 28 8).toNat
  if op < 0x30 then decLow w op
  else if op < 0x50 then decInt w op
  else if op < 0x70 then decMove w op
  else if op < 0xA0 then decArith w op
  else decHigh w op

/-! ### The encoder (R200, R238-R241) -/

/-- A field at a bit position of a word. -/
def put {n : Nat} (i : Nat) (x : BitVec n) : Word := x.setWidth 40 <<< i

/-- An instruction word from its guard, opcode and operand field [27:0]. -/
def encWord (g : Guard) (op : BitVec 8) (body : Word) : Word :=
  put 37 g.pred ||| put 36 (BitVec.ofBool g.sense) ||| put 28 op ||| body

/-- A source predicate with its inversion bit just below it. -/
def encSrc (i : Nat) (s : PSrc) : Word := put i s.p ||| put (i - 1) (BitVec.ofBool s.inv)

/-- The mode and address fields of format M. -/
def encMode : Mode → Word
  | .absPoint p => put 0 p
  | .ind k => put 20 1#3 ||| put 17 k
  | .indPost k => put 20 2#3 ||| put 17 k
  | .indexed k off => put 20 3#3 ||| put 17 k ||| put 0 off
  | .viaReg r => put 20 4#3 ||| put 15 r

def encAbs (a : Abs) : Word := put 21 a.region ||| put 0 a.offset

/-- Formats R3, R3 with one source, RI, RC, P, AC, AX, its register form, and T. -/
def encR3 (op : BitVec 8) (g : Guard) (rd rs1 rs2 : Reg) : Word :=
  encWord g op (put 23 rd ||| put 18 rs1 ||| put 13 rs2)
def encR2 (op : BitVec 8) (g : Guard) (rd rs1 : Reg) : Word := encWord g op (put 23 rd ||| put 18 rs1)
def encRI (op : BitVec 8) (g : Guard) (rd rs1 : Reg) (imm : BitVec 18) : Word :=
  encWord g op (put 23 rd ||| put 18 rs1 ||| put 0 imm)
def encRC (op : BitVec 8) (g : Guard) (rd rs1 : Reg) (c : BitVec 6) : Word :=
  encWord g op (put 23 rd ||| put 18 rs1 ||| put 0 c)
def encP (op : BitVec 8) (g : Guard) (pd : BitVec 3) (s1 s2 : PSrc) : Word :=
  encWord g op (put 25 pd ||| encSrc 22 s1 ||| encSrc 18 s2)
def encAC (op : BitVec 8) (g : Guard) (a : BitVec 2) (rs1 rs2 : Reg) : Word :=
  encWord g op (put 26 a ||| put 21 rs1 ||| put 16 rs2)
def encAD (op : BitVec 8) (g : Guard) (a : BitVec 2) (xi xj : BitVec 3) : Word :=
  encWord g op (put 26 a ||| put 23 xi ||| put 20 xj)
def encAX (op : BitVec 8) (g : Guard) (k : BitVec 3) (imm : BitVec 24) : Word :=
  encWord g op (put 25 k ||| put 0 imm)
def encAXr (op : BitVec 8) (g : Guard) (k : BitVec 3) (rs : Reg) : Word := encWord g op (put 25 k ||| put 19 rs)
def encT (op : BitVec 8) (g : Guard) (pd : BitVec 3) (s1 s2 s3 : PSrc) (x : BitVec 3) (k : BitVec 10) : Word :=
  encWord g op (put 25 pd ||| encSrc 22 s1 ||| encSrc 18 s2 ||| encSrc 14 s3 ||| put 10 x ||| put 0 k)
def encB (op : BitVec 8) (g : Guard) (pk : BitVec 3) (target : CodeAddr) : Word :=
  encWord g op (put 25 pk ||| put 0 target)
def encC (op : BitVec 8) (g : Guard) (pd : BitVec 3) (cc : BitVec 4) (rs1 : Reg) (rest : Word) : Word :=
  encWord g op (put 25 pd ||| put 21 cc ||| put 16 rs1 ||| rest)
def encPR (op : BitVec 8) (g : Guard) (pd : BitVec 3) (rs : Reg) (f : BitVec 6) : Word :=
  encWord g op (put 25 pd ||| put 20 rs ||| put 14 f)

def noSrc : PSrc := ⟨0, false⟩

/-- The word of an instruction of the logic engine; none for the block's other commands and for an illegal word.
Log entry 5 (DESIGN CHOICE). -/
def encodeWord : Instr → Option Word
  | .nop g => some (encWord g 0x01 0)
  | .eos g => some (encWord g 0x02 0)
  | .chg g c => some (encWord g 0x03 (put 0 c))
  | .chgr g rs => some (encWord g 0x04 (put 23 rs))
  | .wdci g => some (encWord g 0x05 0)
  | .pand g pd s1 s2 => some (encP 0x10 g pd s1 s2)
  | .pnand g pd s1 s2 => some (encP 0x11 g pd s1 s2)
  | .por g pd s1 s2 => some (encP 0x12 g pd s1 s2)
  | .pnor g pd s1 s2 => some (encP 0x13 g pd s1 s2)
  | .pxor g pd s1 s2 => some (encP 0x14 g pd s1 s2)
  | .pmov g pd s1 => some (encP 0x15 g pd s1 noSrc)
  | .btst g pd rs b => some (encPR 0x16 g pd rs b)
  | .qtst g pd rs q => some (encPR 0x17 g pd rs q)
  | .pmovr g rd s => some (encWord g 0x18 (put 23 rd ||| encSrc 20 s))
  | .ldp g pd m => some (encWord g 0x20 (put 25 pd ||| encMode m))
  | .stp g m s => some (encWord g 0x21 (encSrc 25 s ||| encMode m))
  | .ldpr g rd m => some (encWord g 0x22 (put 23 rd ||| encMode m))
  | .stpr g m rs => some (encWord g 0x23 (put 23 rs ||| encMode m))
  | .add g rd a b => some (encR3 0x30 g rd a b)
  | .sub g rd a b => some (encR3 0x31 g rd a b)
  | .and g rd a b => some (encR3 0x32 g rd a b)
  | .or g rd a b => some (encR3 0x33 g rd a b)
  | .xor g rd a b => some (encR3 0x34 g rd a b)
  | .adds g rd a b => some (encR3 0x35 g rd a b)
  | .subs g rd a b => some (encR3 0x36 g rd a b)
  | .min g rd a b => some (encR3 0x37 g rd a b)
  | .max g rd a b => some (encR3 0x38 g rd a b)
  | .minu g rd a b => some (encR3 0x39 g rd a b)
  | .maxu g rd a b => some (encR3 0x3A g rd a b)
  | .shl g rd a b => some (encR3 0x3B g rd a b)
  | .shr g rd a b => some (encR3 0x3C g rd a b)
  | .sar g rd a b => some (encR3 0x3D g rd a b)
  | .neg g rd a => some (encR2 0x3E g rd a)
  | .abs g rd a => some (encR2 0x3F g rd a)
  | .addi g rd a i => some (encRI 0x40 g rd a i)
  | .andi g rd a i => some (encRI 0x41 g rd a i)
  | .ori g rd a i => some (encRI 0x42 g rd a i)
  | .xori g rd a i => some (encRI 0x43 g rd a i)
  | .shli g rd a c => some (encRC 0x44 g rd a c)
  | .shri g rd a c => some (encRC 0x45 g rd a c)
  | .sari g rd a c => some (encRC 0x46 g rd a c)
  | .bset g rd a c => some (encRC 0x47 g rd a c)
  | .bclr g rd a c => some (encRC 0x48 g rd a c)
  | .mov g rd rs => some (encR2 0x50 g rd rs)
  | .movImm g rd i => some (encWord g 0x51 (put 23 rd ||| put 0 i))
  | .movh g rd i => some (encWord g 0x52 (put 23 rd ||| put 0 i))
  | .sel g rd s a b => some (encWord g 0x53 (put 23 rd ||| encSrc 20 s ||| put 14 a ||| put 9 b))
  | .movx g k rs => some (encAXr 0x54 g k rs)
  | .movm g k rs => some (encAXr 0x55 g k rs)
  | .movb g k rs => some (encAXr 0x56 g k rs)
  | .movn g k rs => some (encAXr 0x57 g k rs)
  | .setx g k i => some (encAX 0x58 g k i)
  | .setm g k i => some (encAX 0x59 g k i)
  | .setb g k i => some (encAX 0x5A g k i)
  | .setn g k i => some (encAX 0x5B g k i)
  | .rdx g rd k => some (encWord g 0x5C (put 23 rd ||| put 20 k))
  | .qmax g rd rs q l => some (encWord g 0x5D (put 23 rd ||| put 18 rs ||| put 2 (BitVec.ofBool l) ||| put 0 q))
  | .tagr g rd rs => some (encR2 0x5E g rd rs)
  | .cmp g pd cc a b => some (encC 0x60 g pd cc a (put 11 b))
  | .cmpi g pd cc a i => some (encC 0x61 g pd cc a (put 0 i))
  | .fcmp g pd cc a b => some (encC 0x62 g pd cc a (put 11 b))
  | .mul g rd a b => some (encR3 0x70 g rd a b)
  | .muls g rd a b => some (encR3 0x71 g rd a b)
  | .div g rd a b => some (encR3 0x72 g rd a b)
  | .divu g rd a b => some (encR3 0x73 g rd a b)
  | .rem g rd a b => some (encR3 0x74 g rd a b)
  | .mpy g a x y => some (encAC 0x80 g a x y)
  | .mac g a x y => some (encAC 0x81 g a x y)
  | .msu g a x y => some (encAC 0x82 g a x y)
  | .macd g a xi xj => some (encAD 0x83 g a xi xj)
  | .msud g a xi xj => some (encAD 0x84 g a xi xj)
  | .clra g a => some (encAC 0x85 g a 0 0)
  | .mva g rd a sh => some (encWord g 0x86 (put 23 rd ||| put 21 a ||| put 15 sh))
  | .mvra g a rs => some (encAC 0x87 g a rs 0)
  | .fadd g rd a b => some (encR3 0x90 g rd a b)
  | .fsub g rd a b => some (encR3 0x91 g rd a b)
  | .fmul g rd a b => some (encR3 0x92 g rd a b)
  | .fdiv g rd a b => some (encR3 0x93 g rd a b)
  | .fsqrt g rd a => some (encR2 0x94 g rd a)
  | .fneg g rd a => some (encR2 0x95 g rd a)
  | .fabs g rd a => some (encR2 0x96 g rd a)
  | .fmin g rd a b => some (encR3 0x97 g rd a b)
  | .fmax g rd a b => some (encR3 0x98 g rd a b)
  | .itof g rd a => some (encR2 0x99 g rd a)
  | .ftoi g rd a => some (encR2 0x9A g rd a)
  | .ftrunc g rd a => some (encR2 0x9B g rd a)
  | .ld g rd m => some (encWord g 0xA0 (put 23 rd ||| encMode m))
  | .ldAbs g rd a => some (encWord g 0xA1 (put 23 rd ||| encAbs a))
  | .st g m rs => some (encWord g 0xA2 (put 23 rs ||| encMode m))
  | .stAbs g a rs => some (encWord g 0xA3 (put 23 rs ||| encAbs a))
  | .br g t => some (encB 0xB0 g 0 t)
  | .beq g pk t => some (encB 0xB1 g pk t)
  | .bne g pk t => some (encB 0xB2 g pk t)
  | .jmp g rs => some (encWord g 0xB3 (put 20 rs))
  | .call g t => some (encB 0xB4 g 0 t)
  | .calli g rs => some (encWord g 0xB5 (put 20 rs))
  | .ret g => some (encWord g 0xB6 0)
  | .ton g pd s x k => some (encT 0xC0 g pd s noSrc noSrc x k)
  | .tof g pd s x k => some (encT 0xC1 g pd s noSrc noSrc x k)
  | .tp g pd s x k => some (encT 0xC2 g pd s noSrc noSrc x k)
  | .ctu g pd s1 s2 x k => some (encT 0xC3 g pd s1 s2 noSrc x k)
  | .ctd g pd s1 s2 x k => some (encT 0xC4 g pd s1 s2 noSrc x k)
  | .ctud g pd s1 s2 s3 x k => some (encT 0xC5 g pd s1 s2 s3 x k)
  | .rtrig g pd s x k => some (encT 0xC6 g pd s noSrc noSrc x k)
  | .ftrig g pd s x k => some (encT 0xC7 g pd s noSrc noSrc x k)
  | _ => none

/-- No row of the command table gives bits. Log entry 5 (DESIGN CHOICE). -/
def decodeTableWord (_nbits _w : Nat) : Option Instr := none

end Sys2Proof
end

