-- ==== Sys2Proof/Config.lean ====
section
/-!
DEFINITION. What the manual leaves to the part or to chance: uninterpreted constants. No claim about one of them
can rest on a value of it.
-/
namespace Sys2Proof

/-- The n-th free value: session tokens (R116), nonces (R127), watchdog seeds (R593) and the choice of a short
RST_N pulse (R668). Log entry 3. -/
opaque Config.freeValue : Nat → BitVec 256

/-- The ordering variant of the part: tape and reel, or tray (R1, R2). Log entry 3 (DESIGN CHOICE). -/
opaque Config.tapeAndReel : Bool

/-- The integers r and s of a signature by the device's identity key, 66 bytes each (R614, R641, R644).
Log entry 3 (DESIGN CHOICE). -/
opaque Config.deviceSign : List Byte → BitVec 1056

/-- The pace model after n samples: beat at 25 °C in ps and slope in fs/K (R44). How the gauge refines it is not
stated. Log entries 3, 16 (DESIGN CHOICE). -/
opaque Config.paceModel : Nat → Nat × Nat

/-- The result byte and failure code of a self-test of a unit (TEST.SELF, R139): what the test finds is the part's.
Log entry 3 (DESIGN CHOICE). -/
opaque Config.selfTest : Nat → Nat → BitVec 24

/-- The latency of the twin link in tb, as measured at link-up (R370): the cable's and the part's.
Log entry 3 (DESIGN CHOICE). -/
opaque Config.twinLatency : Nat

/-- How many single-bit memory errors the n-th scrub finds and corrects (R25): the part's and chance's.
Log entry 3 (DESIGN CHOICE). -/
opaque Config.eccCount : Nat → Nat

end Sys2Proof
end

