-- ==== Sys2Proof/Machine/State.lean ====
section
/-!
DEFINITION. The state of the U640 as plain data, and the state right after reset.
Each structure holds the registers, buffers, counters and modes of one part of the device; a docstring names
the rules that give them. Items of the image are keyed by the 32-bit force address of R306 (points as their
index, words as 0x4000_0000 plus the data address). Sparse maps are lists sorted by key without default entries.
-/
namespace Sys2Proof.Machine

open Sys2Proof

/-- The reasons a step can stop with a fault. No meaning of this model raises one: every fault of the U640
(R85, R674) is a next state, so stopping is never needed. -/
inductive Fault where
  /-- Raised by nothing. Safe: a stop proves no claim about what follows. -/
  | none
  deriving DecidableEq, Repr

/-- The reasons a step can be refused. -/
inductive Refusal where
  /-- Raised by an arm of `exec` whose command has no meaning yet. Safe. -/
  | notModelled (mnemonic : String)
  deriving DecidableEq, Repr

/-- A sparse map keyed by natural numbers. -/
abbrev SMap (α : Type) := List (Nat × α)

/-! ### Logic engine (05, 06) -/

/-- A predicate register: a value bit and Q (R203). -/
structure Pred where
  v : Bool
  q : Quality
  deriving DecidableEq, Repr

/-- An accumulator: 88 bits and a tag byte (R203, R227). -/
structure Accum where
  val : BitVec 88
  tag : Byte
  deriving DecidableEq, Repr

/-- An address register: 24 bits and Q (R203). -/
structure XReg where
  val : BitVec 24
  q : Quality
  deriving DecidableEq, Repr

/-- The content of a window position: 16 registers and a link entry (R205, R206). -/
structure Window where
  r : Vector Tagged 16
  link : CodeAddr
  deriving DecidableEq, Repr

/-- The destination of a pending load (R212): a home register, a register of a window position, or a predicate. -/
inductive LoadDest where
  | home (i : Nat)
  | frame (pos i : Nat)
  | pred (i : Nat)
  | nowhere
  deriving DecidableEq, Repr

/-- A load whose destination is not yet written (R212-R214). -/
structure PendLoad where
  dest : LoadDest
  val : Tagged
  deriving DecidableEq, Repr

/-- The registers of the logic engine (R203), those that a context saves (R231) and the per-task SF registers
that EXECUTE clears (R204, R236). -/
structure Engine where
  h : Vector Tagged 8
  win : Vector Window 16
  /-- which task and call depth each window position holds, for spills and fills (R207, R208) -/
  owner : Vector (Option (Nat × Nat)) 16
  p : Vector Pred 8
  a : Vector Accum 4
  x : Vector XReg 8
  m : Vector (BitVec 24) 8
  b : Vector (BitVec 24) 8
  n : Vector (BitVec 24) 8
  pc : CodeAddr
  /-- SF.WPOS -/
  wpos : BitVec 4
  /-- SF.DEPTH (R210) -/
  depth : Nat
  ctrl : Word
  status : Word
  fpstat : Word
  amode : Word
  errpc : CodeAddr
  erraddr : BitVec 24
  /-- SF.PMCOUNT (R233) -/
  pmcount : Nat
  /-- SF.BEATS (R47) -/
  beats : Nat
  pend : Option PendLoad
  deriving DecidableEq, Repr

/-- What a context holds (R231): the engine's registers with the current and the parent window. The beat count is
per task (SF.BEATS). -/
structure Context where
  eng : Engine
  cur : Window
  parent : Option Window
  deriving DecidableEq, Repr

/-! ### Program, tasks and scans (04) -/

/-- The attributes of a task (R146, task table entry of R616). -/
structure TaskDef where
  present : Bool
  tolerant : Bool
  fixed : Bool
  proven : Bool
  periodMs : Nat
  entry : CodeAddr
  ctrl : BitVec 8
  p : Nat
  d : Nat
  wstk : Nat
  acq : BitVec 135
  emit : BitVec 139
  deriving DecidableEq, Repr

def TaskDef.absent : TaskDef :=
  { present := false, tolerant := false, fixed := false, proven := false, periodMs := 0, entry := 0, ctrl := 0,
    p := 0, d := 0, wstk := 0, acq := 0, emit := 0 }

/-- A task's state from scan to scan: SF.SKIPCOUNT, SF.TSLACK, SF.TDONE, SF.TBEATS, its last promise, the stamp and
RTC of its last sealed scan (R169, R186), and what its next scan's system points show (R197). -/
structure TaskRt where
  skipCount : Nat
  slack : Nat
  done : Nat
  lastPromise : Nat
  beats : Nat
  sealedOnce : Bool
  sealRtcValid : Bool
  sealRtc : Nat
  firstScan : Bool
  resumed : Bool
  chartChanged : Bool
  edited : Bool
  skipped : Bool
  fieldSafe : Bool
  /-- the next scan is skipped after a Tolerant overrun (R176) -/
  skipNext : Bool
  /-- shadow lines that EMIT changed, counted at the next ACQUIRE (R320) -/
  shadowDirty : List Nat
  /-- per line A, B: the FIFO overflow count at the previous ACQUIRE (R519) -/
  fifoSeen : Nat × Nat
  /-- the task's part of the window store (R207, R209), oldest first -/
  stack : List Window
  deriving DecidableEq, Repr

/-- Log entry 22 (DEDUCED). -/
def TaskRt.reset : TaskRt :=
  { skipCount := 0, slack := 0, done := 0, lastPromise := 0, beats := 0, sealedOnce := false, sealRtcValid := false,
    sealRtc := 0, firstScan := false, resumed := false, chartChanged := false, edited := false, skipped := false,
    fieldSafe := false, skipNext := false, shadowDirty := [], fifoSeen := (0, 0), stack := [] }

/-- The phases of a scan (R161-R172). ACQUIRE is one instant of the model, so no scan rests in it. -/
inductive Phase where
  | execute | seal | waitAck | emit | emitting
  deriving DecidableEq, Repr

/-- The three kinds of a chart request (R325 byte 30). -/
inductive ReqKind where
  | chg | select | refresh
  deriving DecidableEq, Repr

/-- A recorded chart request (R249, R287, R692). `sealed` says that the
scan has been sealed; `preloaded` that its preload is complete (R288). -/
structure ChgReq where
  chart : Nat
  kind : ReqKind
  ref : Option CmdRef
  madeBy : Nat
  isSealed : Bool
  preloaded : Bool
  deriving DecidableEq, Repr

/-- A scan in progress: stamp (R160), promise (R58), phase, dirtied lines (R166), discarded stores (R152) and what
an overrun restores (R249 rule 4). -/
structure Scan where
  id : Nat
  task : Nat
  stamp : Nat
  promise : Nat
  phase : Phase
  /-- EXECUTE began: SF.DIRTY counts these lines -/
  dirty : List Nat
  /-- lines counted from shadow changes of an earlier EMIT -/
  shadowDirty : List Nat
  firstDiscard : Option Nat
  pmovr : Bool
  rtcAtAcquire : Nat
  flagsAtAcquire : BitVec 8
  /-- SF.CHGREQ and the pending request before the scan's first chg, and the request it left (R249 rule 4) -/
  chgBefore : Option (Nat × Option ChgReq)
  chgMine : Option ChgReq
  /-- this scan is the change, edit or handover seal point (R289, R302, R395) -/
  isChange : Bool
  isEdit : Bool
  isHandover : Bool
  sealBegun : Nat
  sealSeq : Nat
  deriving DecidableEq, Repr

/-- An instance of a data initialisation, hook or type change of an edit (R300). -/
structure EditImage where
  baseHash : List Byte
  hash : List Byte
  patchBase : Nat
  patch : List Word
  hooks : List (Nat × Word)
  tasks : Vector TaskDef 16
  inits : List (Nat × Tagged)
  writeSet : List (BitVec 32)
  types : List (BitVec 32 × Nat × Nat)
  bytes : List Byte := []
  deriving DecidableEq, Repr

/-- A program image as loaded from its container (R612, R615, R616). -/
structure ProgImage where
  programId : Nat
  hash : List Byte
  tasks : Vector TaskDef 16
  codeBase : Nat
  code : List Word
  inits : List (Nat × Tagged)
  dext : Nat
  dspBase : Option Nat
  minFw : Nat
  deriving DecidableEq, Repr

/-- The loaded program (R178, R146), with the edits applied since PROG.LOAD (R300-R305). -/
structure Program where
  slot : Nat
  img : ProgImage
  tasks : Vector TaskDef 16
  edits : List EditImage
  /-- the program hash with edits chained (R644) -/
  chained : List Byte
  deriving DecidableEq, Repr

/-- The states of the program (R178). -/
inductive ProgState where
  | notLoaded | stopped | running
  deriving DecidableEq, Repr

/-- How a stopped program left its outputs (R180, R181). -/
inductive StopMode where
  | hold | safe
  deriving DecidableEq, Repr

/-- The booked access of one host command to the image (R69, R174). -/
inductive SlotWork where
  | read (c : CmdRef) (keys : List Nat)
  | write (c : CmdRef) (vals : List (Nat × Tagged))
  | forceSet (c : CmdRef) (es : List ForceArg)
  | forceRelease (c : CmdRef) (all : Bool) (addrs : List Nat)
  | dspWrite (c : CmdRef) (vals : List (Nat × Tagged))
  | editInit (c : CmdRef) (vals : List (Nat × Tagged))
  deriving DecidableEq, Repr

/-- The scheduler of scans (R154-R160), the stop in progress (R179), and the slot counters (R69). -/
structure Sched where
  running : Option Scan
  suspended : List (Scan × Context)
  /-- free-running tasks still to run in this round, ascending -/
  roundLeft : List Nat
  roundStart : Nat
  roundOpen : Bool
  /-- the free-running task whose scan was the last to start in this round -/
  roundLast : Option Nat
  /-- the instant at which the next round may start (R155) -/
  roundReady : Nat
  /-- a release instant of each fixed-period task that HANDOVER named (R397) -/
  phases : List (Nat × Nat)
  /-- fixed-period tasks released and waiting, with their release instants and the promises given there (R58, R157) -/
  waiting : List (Nat × Nat × Nat)
  trun : Option Nat
  firstStart : Option Nat
  nextScanId : Nat
  stopping : Option (StopMode × List CmdRef)
  stopMode : StopMode
  /-- TIMER_GAP_UNKNOWN, kept until PROG.RUN (R197) -/
  gapUnknown : Bool
  slotNo : Nat
  slotEnd : Nat
  slotWork : List SlotWork
  /-- an image slot, and a class D slice, have been given since the last scan (R51) -/
  slotDone : Bool
  sliceDone : Bool
  /-- station areas whose outputs stand at the chart's safe values (R181, R505) -/
  safeAreas : List Nat
  /-- what the last ACQUIRE froze of inputs that have changed outside it since (R163) -/
  frozen : SMap Tagged
  /-- length in ps of the slot and slice placed ahead of the next scan: Q of R58 -/
  aheadPs : Nat
  watches : List (CmdRef × Nat × List Nat × Nat)
  /-- an edit that waits for its seal point; true once its data initialisations are written (R302) -/
  editPending : Option (CmdRef × EditImage × Bool)
  handoverReq : Option (Option CmdRef)
  noMoreScans : Bool
  deriving DecidableEq, Repr

/-! ### Charts and forces (07) -/

/-- An output treatment entry (R277, R616). -/
structure Treat where
  first : Nat
  count : Nat
  qt : Quality
  hold : Bool
  subst : Word
  safe : Word
  deriving DecidableEq, Repr

/-- A chart image (R277, R615, R616). -/
structure ChartImage where
  chart : Nat
  version : Nat
  programId : Nat
  taskMask : BitVec 16
  params : SMap Nat
  treat : List Treat
  pages : List (List Byte)
  hash : List Byte
  bytes : List Byte := []
  deriving DecidableEq, Repr

/-- One copy of a chart in flash as its bytes stand (R280): the store header of 512 bytes and what is programmed of the
image before it; nothing of a part that is erased. -/
structure ChartCopy where
  header : List Byte
  data : List Byte
  deriving DecidableEq, Repr

/-- The state of a chart (R282, CHART.INFO of R139). -/
inductive ChartState where
  | empty | valid | conflict
  deriving DecidableEq, Repr

/-- A chart of the store: two copies and the working copy in service-processor memory (R280-R283). -/
structure ChartSlot where
  copy0 : ChartCopy
  copy1 : ChartCopy
  state : ChartState
  image : Option ChartImage
  deriving DecidableEq, Repr

def ChartCopy.blank : ChartCopy := { header := [], data := [] }

def ChartSlot.blank : ChartSlot :=
  { copy0 := ChartCopy.blank, copy1 := ChartCopy.blank, state := .empty, image := none }

/-- The charts and the pending change (R285-R294, R316, R724). -/
structure Charts where
  slots : Vector ChartSlot 8
  active : Nat
  /-- the pending request; SF.CHGREQ bit 4 -/
  req : Option ChgReq
  /-- SF.CHGREQ [3:0] -/
  reqField : Nat
  /-- the chart of a change that is committed and not yet swapped (R724) -/
  committed : Option ChgReq
  /-- requests that wait for the swap to be recorded (R724) -/
  deferred : List ChgReq
  /-- the running program resumed stopped because the chart is unusable (R316) -/
  unusable : Bool
  deriving DecidableEq, Repr

/-- An entry of the force table (R306). -/
structure Force where
  addr : Nat
  value : Word
  sim : Bool
  /-- the entry's store key is in CONFLICT and it is not applied (R354) -/
  conflict : Bool
  deriving DecidableEq, Repr

/-! ### Seal ring and parameter store (08) -/

/-- What a segment's header line states (R323): its sequence number, the line of the first record that begins in it (0:
none), the passes of the head. -/
structure SegHead where
  seq : Nat
  first : Nat
  passes : Nat
  deriving DecidableEq, Repr

/-- The seal ring (R322-R336). -/
structure Ring where
  recs : List RingRec
  /-- the header lines written, by segment (R323) -/
  segs : SMap SegHead
  /-- ring lines with an uncorrectable error (R341) -/
  badLines : List Nat
  /-- ring line index of the next line to write -/
  head : Nat
  nextSeq : Nat
  segSeq : Nat
  passes : Nat
  tailLine : Nat
  tailSeq : Nat
  broken : Bool
  resumes : Nat
  lastSealSeq : Nat
  lastSealTb : Nat
  /-- the carrying owed for the lines of SEAL records (R333), in parts of 1 / (390,786 - L) of a line -/
  carryOwed : Nat
  /-- TWIN_BASE of a Watch (R401, R403) -/
  base : Option (Nat × Nat)
  deriving DecidableEq, Repr

/-- The kinds of a parameter-store record (R347). -/
inductive PKind where
  | param | force | mark | groupOpen | groupClose
  deriving DecidableEq, Repr

/-- A record of the parameter store (R347): the body is empty in a tombstone. Marker and CRC words are as they stand. -/
structure PRec where
  marker : Byte
  kind : PKind
  scope : Nat
  key : Nat
  seq : Nat
  group : Nat
  version : Nat
  body : List Byte
  headCrc : BitVec 32
  bodyCrc : BitVec 32
  /-- byte position in the half's log -/
  pos : Nat
  deriving DecidableEq, Repr

/-- The parameter store: two halves in log order (R345-R349), group numbers and keys found in CONFLICT (R352, R354). -/
structure PStore where
  half0 : List PRec
  half1 : List PRec
  head0 : Nat
  head1 : Nat
  tail0 : Nat
  tail1 : Nat
  nextGroup : Nat
  conflicts : List (PKind × Nat × Nat)
  deriving DecidableEq, Repr

/-- A spread counter (R358, R359): the 16 cells as value, generation and the CRC byte as it stands. -/
structure SpreadCounter where
  cells : Vector (Nat × Nat × Byte) 16
  deriving DecidableEq, Repr

/-! ### Ports, sessions, commands, admission (02, 03) -/

/-- A port: receive buffer, transmit buffer, the last receipt taken whole, nonce and flags (R89-R104, R127). -/
structure PortSt where
  rx : List Byte
  lastByteAt : Nat
  rxErr : Bool
  /-- bytes are discarded up to the next break (R103) -/
  discarding : Bool
  /-- receipts placed and not yet taken whole -/
  tx : List (List Byte)
  /-- bytes of the first of them already taken -/
  taken : Nat
  lastTaken : List Byte
  /-- transmit bytes reserved for receipts to come (R70) -/
  reserved : Nat
  nonce : Option (List Byte)
  deriving DecidableEq, Repr

def PortSt.reset : PortSt :=
  { rx := [], lastByteAt := 0, rxErr := false, discarding := false, tx := [], taken := 0, lastTaken := [],
    reserved := 0, nonce := none }

/-- The classes of a command (R64). -/
inductive Cls where
  | v | p | s | d
  deriving DecidableEq, Repr

/-- Where a command stands (R74, R111). -/
inductive CmdPhase where
  | held | accepted | started | waiting
  deriving DecidableEq, Repr

/-- What a stage's bound covers besides its own work: nothing; the promises of the session's started commands (R124), or of
all its pending ones (R120); an instant of its own (R138). -/
inductive StageWait where
  | none | started | pending
  | till (tb : Nat)
  deriving DecidableEq, Repr

/-- The postage of one stage (R48, R135): service-processor beats, image-slot ps, MRAM bytes, twin-link bytes, a service
slot of a line, and time of its own in tb (R138). -/
structure Stage where
  beats : Nat
  slot : Nat
  mram : Nat
  twin : Nat
  bus : Option Line
  extra : Nat
  /-- class D slices on the logic engine that it needs (R81) -/
  slice : Nat
  /-- what its bound covers besides (R120, R124, R138) -/
  waits : StageWait
  /-- hold-up energy of its flash operation, in nJ (R654, R655) -/
  energy : Nat
  deriving DecidableEq, Repr

/-- The booking of one stage (R67-R70, R81): share window, class and tb of service-processor time; image slot and its ps;
the gap between scans of a class D slice; bytes into MRAM and on the twin link; bus slot; the bound on its completion; the
band of the ceiling used (R74). -/
structure Booking where
  win : Nat
  cls : Cls
  sp : Nat
  slot : Option (Nat × Nat)
  slice : Option Nat
  mram : Nat
  twin : Nat
  bus : Option (Line × Nat)
  bound : Nat
  band : Nat
  deriving DecidableEq, Repr

/-- A command between its first receipt and its final receipt (R71, R72, R77). -/
structure Cmd where
  ref : CmdRef
  opcode : BitVec 16
  cls : Cls
  token : BitVec 16
  deadlineUs : Nat
  franked : Bool
  packet : List Byte
  arrival : Nat
  promise : Nat
  phase : CmdPhase
  /-- stages left, this one first -/
  stages : List Stage
  frankDone : Bool
  /-- receipt bytes it needs from its acceptance on, and what of them is reserved (R70) -/
  bytes : Nat
  reservedBytes : Nat
  /-- the service-processor work of the stage in progress is done (R65); its class D slice has been given (R81) -/
  worked : Bool
  sliced : Bool
  bySession : Bool
  /-- its work has started (R63, R78) -/
  begun : Bool
  /-- the booking of the stage in progress, and those of later stages booked at arrival (R73) -/
  book : Option Booking
  later : List Booking
  deriving DecidableEq, Repr

/-- The outcome of a command's work that waits for its receipt to be placed (R71, R112). -/
structure CmdResult where
  ref : CmdRef
  opcode : BitVec 16
  status : BitVec 8
  reason : BitVec 8
  detail : BitVec 32
  payload : List Byte
  /-- the time field of DONE where it is not the instant of placement (R79) -/
  time : Option Nat
  deriving DecidableEq, Repr

/-- The session (R116). -/
structure Session where
  port : Port
  token : BitVec 16
  lastPacket : Nat
  /-- the pending set of PARAM.WRITE (R141, R695) -/
  pending : List (Nat × Nat)
  deriving DecidableEq, Repr

/-- An open segmented transfer (R132-R134). -/
structure Transfer where
  opcode : BitVec 16
  target : Nat
  total : Nat
  data : List Byte
  lastAt : Nat
  deriving DecidableEq, Repr

/-- The bookings of the admission controller (R67-R70): service-processor time per window and class, image slots,
MRAM and twin bytes per window, bus slots, class D slices, and the shares. -/
structure Bookings where
  sp : List (Nat × Cls × Nat)
  slots : List (Nat × Nat)
  mram : List (Nat × Nat)
  twin : List (Nat × Nat)
  bus : List (Line × Nat × CmdRef)
  /-- the shares in effect, and shares that take effect at a window (R79) -/
  shares : Nat × Nat × Nat × Nat
  sharesNext : List (Nat × (Nat × Nat × Nat × Nat))
  /-- gaps between scans whose class D slice is booked (R81) -/
  slices : List Nat
  latest : Nat
  deriving DecidableEq, Repr

/-- Ports, session and commands (03). Log entry 92 (DESIGN CHOICE). -/
structure HostSt where
  spi : PortSt
  maint : PortSt
  /-- bytes driven to the host in the last SPI transaction -/
  out : List Byte
  /-- MAINT_BAUD in effect, as its enumeration value (R102, R104) -/
  baud : Nat
  baudNext : Option Nat
  /-- a break of 100 ms or more has come since the start: the ports open at 115,200 (R102, R104) -/
  baudKept : Bool
  session : Option Session
  prevEnded : Bool
  workDiscarded : Bool
  cmds : List Cmd
  results : List CmdResult
  closing : Option CmdRef
  transfer : Option Transfer
  /-- the host owns the display block (R525) -/
  dspOwner : Bool
  /-- 2 ms waits of DEV.RESET (kind) and DEV.DORMANT (mask) after their DONE receipt (R144) -/
  resetWait : Option Nat
  dormantWait : Option (BitVec 16)
  deriving DecidableEq, Repr

/-! ### Twin (09) -/

/-- The roles of a device in a pair (TWIN.STATUS, R388). -/
inductive Role where
  | unpaired | helm | watch | starting
  deriving DecidableEq, Repr

/-- The pair states (R385). -/
inductive PairState where
  | noPartner | hello | resync | inStep | outOfStep | incompatible | isolated
  deriving DecidableEq, Repr

/-- A frame sent on the twin link (R374). -/
inductive TwinFrame where
  | manifest (seq : Nat)
  | ack (seq : Nat) (written : Bool)
  | heartbeat (role pairState term headSeq tb : Nat)
  | hello (role term headSeq : Nat)
  | handover (lastSeq cause term : Nat) (releases : List (Nat × Nat))
  | taken (term : Nat)
  | drop (reason : Nat)
  | config (kind : Nat) (data : List Byte)
  | changeReq
  deriving DecidableEq, Repr

/-- The twin link and the pair (09). Log entry 92 (DESIGN CHOICE). -/
structure Twin where
  role : Role
  pair : PairState
  lane0 : Bool
  lane1 : Bool
  helloDone : Bool
  partner : Option HelloFrame
  term : Nat
  /-- device mark HELM_TERM: term, first sequence, holder serial (R391) -/
  mark : Option (Nat × Nat × List Byte)
  lastLive : Nat
  lastSent : Nat
  ackedSeq : Nat
  appliedSeq : Nat
  ackLatency : Nat
  changes : Nat
  /-- difference of the Helm's tb and this device's (R370) -/
  offset : Int
  /-- last bus heartbeats per line: heard at all, heard with role Helm, heard with role starting (instant, term,
  sequence), own ones acknowledged (R390, R392, R399, R400) -/
  heardAny : Option Nat × Option Nat
  heardHelm : Option Nat × Option Nat
  heardStart : Option (Nat × Nat × Nat) × Option (Nat × Nat × Nat)
  hbAcked : Option Nat × Option Nat
  /-- the role is still tested at every heartbeat period (R390) -/
  startTest : Bool
  /-- the run epoch of pair time, on a device that took it over (R370) -/
  epochAs : Option Nat
  /-- TWIN.CHANGE commands waiting for TAKEN or for the role (R398, R406) -/
  changeRefs : List CmdRef
  handoverSent : Option (Nat × Nat)
  /-- the old Helm's outputs become safe at this instant (R398) -/
  safeAt : Option Nat
  /-- stage of R401, the command that asked, the base, and the record whose ACK ends stage 6 -/
  resyncStage : Nat
  resyncRef : Option CmdRef
  resyncBase : Nat × Nat
  resyncAck : Nat
  /-- an image whose CONFIG frames have not all come: its kind and what is here (R374) -/
  cfgKind : Nat
  cfgData : List Byte
  sent : List TwinFrame
  deriving DecidableEq, Repr

/-! ### Digital field I/O (10) -/

/-- Raw classes of an input sample (R412). -/
inductive Raw where
  | on | off | broken | between
  deriving DecidableEq, Repr

/-- An input: counter filter, break counter, filtered state, last raw class (R414, R415). -/
structure DiCh where
  c : Nat
  f : Bool
  b : Nat
  broken : Bool
  sampled : Bool
  raw : Raw
  underTest : Bool
  deriving DecidableEq, Repr

def DiCh.reset : DiCh :=
  { c := 0, f := false, b := 0, broken := false, sampled := false, raw := .off, underTest := false }

/-- An output: commanded value, switch, latches and reports (R421, R422), its pending turn in a stagger. -/
structure DoCh where
  cmd : Bool
  on : Bool
  limit : Bool
  thermal : Bool
  openLoad : Bool
  supplyShort : Bool
  deriving DecidableEq, Repr

def DoCh.reset : DoCh :=
  { cmd := false, on := false, limit := false, thermal := false, openLoad := false, supplyShort := false }

/-- A test of DIO.TEST in progress (R435). -/
structure DioTest where
  ref : CmdRef
  kind : Nat
  channel : Nat
  deriving DecidableEq, Repr

/-- The field die (10): inputs, outputs, supply monitor with its hold times (R428, R723), sequencer (R425-R431). -/
structure FieldSt where
  di : Vector DiCh 48
  do_ : Vector DoCh 24
  /-- instant at which each group's tick grid starts (R297) -/
  grid : Vector Nat 6
  vfld : Nat
  warn : Bool
  cut : Bool
  lockout : Bool
  warnSince : Option Nat
  cutSince : Option Nat
  /-- the field sequencer holds the safe state, since when and why (R427) -/
  safe : Option (Nat × Nat)
  /-- safe values held in the field die, by output point (R426) -/
  safeVals : BitVec 24
  /-- outputs of the safe state still to switch on, ascending (R426) -/
  safeTurns : List Nat
  /-- outputs still to energise after a cut-off (R430) -/
  turns : List Nat
  restoring : Bool
  /-- groups whose outputs wait for their owner's next EMIT after a cut-off (R430) -/
  needEmit : BitVec 3
  linkAlive : Bool
  /-- instant of the pause frame that went before the link's collar closed (R672) -/
  pauseAt : Option Nat
  shareBlank : Nat
  test : Option DioTest
  deriving DecidableEq, Repr

/-! ### Analogue islands (11) -/

/-- The trim corrections of a stage for a band: offset in nA and gain in ppm (R444, R446). -/
structure Trim where
  z : Int
  g : Int
  deriving DecidableEq, Repr

/-- An island's mode (R438, SF.ISLANDc of R478). -/
inductive AnaMode where
  | source | sink | input | changing
  deriving DecidableEq, Repr

/-- An analogue island (11). Currents are in nA. -/
structure Island where
  mode : AnaMode
  nextMode : AnaMode
  stageB : Bool
  faultA : Bool
  faultB : Bool
  chFault : Bool
  open_ : Bool
  comply : Bool
  clamped : Bool
  headroomMv : Int
  temp : Int
  band : Nat
  /-- trim corrections per band of stage A and of stage B (R444, R446) -/
  trimA : Vector Trim 8
  trimB : Vector Trim 8
  /-- trim in use of the active stage, blend steps left of the stage and of the measurement path (R452) -/
  useTrim : Trim
  blendLeft : Nat
  measLeft : Nat
  /-- output current now, set-point after R449, present move: start current, elapsed time in us (R450) -/
  current : Int
  setPoint : Int
  segFrom : Int
  segAt : Nat
  /-- the current is held from a swap to the first EMIT after it, then crosses over at a rate in uA/ms (R295) -/
  hold : Bool
  crossing : Bool
  xrate : Nat
  /-- a move at ANA_RAMP whatever ANA_GEN selects: to the safe current (R463) or after a compliance lack (R461) -/
  safeMove : Bool
  pass : Bool
  /-- latest completed sample in nA, whether one exists in this mode, and the mark of R457 -/
  meas : Int
  sampled : Bool
  uncertainNext : Bool
  uncertainNow : Bool
  /-- relay calibration: step in progress 1 to 6, corrections found, whether it is the hand-over of R458 -/
  step : Option Nat
  /-- steps 1 to 3 are done and step 4 waits (R456) -/
  calReady : Bool
  newTrim : Trim
  failOver : Bool
  relayDone : Nat
  relayNext : Nat
  calCount : Nat
  lastOff : Int
  lastGain : Int
  aborts : Nat
  /-- the ANA.RELAY in progress with its outcome here: 0 open, 1 handed over, 2 not -/
  relayRef : Option (CmdRef × Nat)
  trimRef : Option CmdRef
  /-- ANA.TRIM calibrates the former active stage -/
  trimSecond : Bool
  /-- operating second of the last housekeeping mark per band (R446) -/
  markAt : Vector (Option Nat) 8
  /-- HART: a frame on the wire, attempts of the present poll, whether the transaction is a host's -/
  hartBusy : Bool
  hartTries : Nat
  hartHost : Bool
  hartQueue : List (CmdRef × List Byte)
  hartLong : Option (List Byte)
  hartMiss : Nat
  hartOk : Bool
  hartLastReply : Option Nat
  hartStatus : Byte
  hartResp : Byte
  hartVars : List (Option (BitVec 32))
  hartErr : Nat
  hartCfgChanged : Bool
  hartSent : List Byte
  hartAnswered : Option Nat
  deriving DecidableEq, Repr

/-! ### Bus lines (12) -/

/-- The states of a station (R507). -/
inductive StState where
  | ok | missing | lost | mapErr | asleep
  deriving DecidableEq, Repr

/-- A remote station on a line (R502-R512). -/
structure Station where
  state : StState
  missed : Nat
  good : Nat
  sinceComplete : Nat
  confResult : Nat
  confirmed : Bool
  publishedNow : Bool
  /-- input frames of this cycle: index and bytes -/
  frames : List (Nat × List Byte)
  /-- the latest published set, by item key, with its carried tags -/
  pub : SMap Tagged
  hasPub : Bool
  fault : Bool
  /-- a frame or confirmation of this cycle had a wrong map ID (R507) -/
  mapBad : Bool
  deriving DecidableEq, Repr

def Station.reset : Station :=
  { state := .missing, missed := 0, good := 0, sinceComplete := 0, confResult := 0, confirmed := false,
    publishedNow := false, frames := [], pub := [], hasPub := false, fault := false, mapBad := false }

/-- A frame in a transmit buffer (R486). -/
structure TxFrame where
  frame : CanFrame
  ref : Option CmdRef
  heartbeat : Bool
  sync : Bool
  time : Bool
  postmark : Nat
  lost : Bool
  err : Bool
  deriving DecidableEq, Repr

/-- A bus line: its controller, sequencer and transceiver (12). Log entry 92 (DESIGN CHOICE). -/
structure BusLine where
  started : Bool
  asleep : Bool
  sleepReq : Option (Nat × Option CmdRef)
  wakeMode : Nat
  wakeRef : Option CmdRef
  tec : Nat
  recErr : Nat
  busOff : Bool
  busOffs : Nat
  txb : Vector (Option TxFrame) 3
  outQueue : List TxFrame
  fifo : List (CanFrame × Nat × Nat)
  fifoOvf : Nat
  cycle : Nat
  tk : Nat
  cycleRunning : Bool
  lastSync : Nat
  lateAt : Option Nat
  lateLogAt : Option Nat
  aborted : Nat
  discarded : Nat
  busy : Nat
  stations : Vector Station 64
  /-- foreign words by item key, and the instant each filter last matched (R512) -/
  filterAt : Vector (Option Nat) 32
  /-- output snapshot of the cycle, the stations whose frames carry SAFE, and whether it carries HOLD (R505) -/
  snap : SMap Tagged
  snapSafe : List Nat
  snapHold : Bool
  /-- time reference: postmark, RTC seconds and sub-second latched, carried seconds and sub-second, valid (R517) -/
  timeRef : Option (Nat × Nat × Nat × Nat × Nat × Bool)
  timeRefPrev : Option (Nat × Nat × Nat)
  timeRefOk : Bool
  /-- postmark of the last valid time-reference frame (R517) -/
  timeRefAt : Nat
  deriving DecidableEq, Repr

/-! ### Display (13) -/

/-- A bistable update in progress: the target frame, phases left as (common, set), band and start (R532, R533). -/
structure DspUpdate where
  target : List Byte
  left : List (Nat × Bool)
  band : Nat
  full : Option Nat
  /-- the hold-up energy it has reserved, in nJ (R655) -/
  energy : Nat
  deriving DecidableEq, Repr

/-- The display block of the field die (13). Log entry 92 (DESIGN CHOICE). -/
structure Display where
  /-- frame memory and the panel image, 144 bytes each (R523, R532) -/
  frame : List Byte
  panel : List Byte
  crc : BitVec 16
  blank : Bool
  band : Nat
  ntcFault : Bool
  rate : Nat
  blinkOff : Bool
  update : Option DspUpdate
  /-- instant of the last report of an update that never fits (R545) -/
  deferLogAt : Option Nat
  /-- the cause of a full rewrite that is due (R537, R538) -/
  rewrite : Option Nat
  crcBad : Nat
  crackBad : Nat
  goodCnt : Nat
  fault : Bool
  faultCode : Nat
  crackOhm : Nat
  degraded : Bool
  vdsp0 : Nat
  switches : Bool
  deriving DecidableEq, Repr

/-! ### Clock and logbook (14) -/

/-- The backup domain's clock and the trim servo (14). -/
structure Clock where
  sec : Nat
  sub : Nat
  valid : Bool
  range : Bool
  bkpLost : Bool
  /-- shift: counts left, divisor, ticks to the next action (R557) -/
  shiftLeft : Int
  shiftDiv : Nat
  shiftTicks : Nat
  shiftPend : Option (Int × Nat)
  setPend : Option (Nat × Option CmdRef)
  /-- trim accumulator and the correction that waits (R563, R561) -/
  acc : Int
  corr : Int
  secondDue : Bool
  shiftDone : Bool
  locked : Bool
  refPresent : Bool
  /-- since when it has been absent (R567) -/
  refAbsentAt : Option Nat
  servo : Int
  servoValid : Bool
  /-- learned trim per band: value, windows counted (R569) -/
  learned : Vector (Int × Nat) 8
  learnedAt : Nat
  trimStopped : Int
  anchorAt : Nat
  /-- LREF: the last period and the instant of its crossing; cycles since the window began (R566) -/
  lrefPeriodUs : Nat
  lrefAt : Nat
  lrefCount : Nat
  /-- the servo's window (R565): start and length in tb, whether the reference was absent in it, ticks spent in each
  band, and its first and last points as (reference, RTC) -/
  winAt : Nat
  winLen : Nat
  winBad : Bool
  winBands : Vector Nat 8
  winFirst : Option (Nat × Nat)
  winLast : Option (Nat × Nat)
  deriving DecidableEq, Repr

/-- A logbook record (R573, R574). -/
structure LogRec where
  seq : Nat
  type : Nat
  sev : Nat
  src : Nat
  opsec : Nat
  power : Nat
  flags : BitVec 8
  body : List Byte
  deriving DecidableEq, Repr

/-- The logbook (R573-R584). -/
structure Logbook where
  recs : List LogRec
  next : Nat
  oldest : Nat
  credits : Nat
  alarmCredits : Nat
  /-- records not written: type, severity and source, count (R579) -/
  suppressed : List (Nat × Nat × Nat)
  suppressedAt : Nat
  overwrite : Option Nat
  deriving DecidableEq, Repr

/-! ### Watchdog (15) -/

/-- The watchdog states (R600). -/
inductive WdState where
  | disabled | running | warned
  deriving DecidableEq, Repr

/-- The watchdog (15). -/
structure Watchdog where
  state : WdState
  period : Nat
  periodNext : Option Nat
  lock : Bool
  lfsr : BitVec 32
  mask : BitVec 17
  dbl : Bool
  dtask : Option Nat
  tick : Nat
  lastRes : Nat
  observed : BitVec 17
  implied : BitVec 17
  impliedVoid : Bool
  recDtask : Option Nat
  recAgent : Nat
  pwign : Bool
  keyerr : Bool
  /-- disable sequence: step reached and its tick (R605) -/
  keyStep : Nat
  keyTick : Nat
  engineMode : Bool
  count : Nat
  resetRecord : Bool
  faultN : Bool
  deriving DecidableEq, Repr

/-! ### Flash, update, keys (16) -/

/-- A marker word as erased, and as programmed (R618). -/
def markerClear : BitVec 32 := 0xFFFFFFFF
def markerSet : BitVec 32 := 0

/-- A firmware slot (R617-R620): descriptor, marker words as they read in flash, and what its image states. -/
structure FwSlot where
  desc : Option (Nat × Nat × List Byte)
  building : Bool
  /-- the words at trailer offsets 256, 260, 264 and 268 (R618) -/
  builtWord : BitVec 32
  trialWord : BitVec 32
  confirmedWord : BitVec 32
  rejectedWord : BitVec 32
  version : Nat
  epoch : Nat
  secVer : Nat
  bytes : List Byte
  deriving DecidableEq, Repr

def FwSlot.blank : FwSlot :=
  { desc := none, building := false, builtWord := markerClear, trialWord := markerClear, confirmedWord := markerClear,
    rejectedWord := markerClear, version := 0, epoch := 0, secVer := 0, bytes := [] }

/-- A program slot (R617-R620) with its image and its edit records: pending or committed (R302, R304). -/
structure ProgSlot where
  desc : Option (Nat × Nat × List Byte)
  building : Bool
  builtWord : BitVec 32
  rejectedWord : BitVec 32
  image : Option ProgImage
  bytes : List Byte
  edits : List (EditImage × Bool)
  deriving DecidableEq, Repr

def ProgSlot.blank : ProgSlot :=
  { desc := none, building := false, builtWord := markerClear, rejectedWord := markerClear, image := none, bytes := [],
    edits := [] }

/-- An open update (R622-R629). -/
structure Update where
  firmware : Bool
  delta : Bool
  length : Nat
  hash : List Byte
  slot : Nat
  staged : List Byte
  applying : Bool
  applied : Bool
  deriving DecidableEq, Repr

/-- An owner slot of the key store (R642). -/
structure OwnerSlot where
  state : Nat
  cert : List Byte
  deriving DecidableEq, Repr

/-- A copy of the key store in flash: its sequence, whether its content is whole, and the owner slots that it holds (R642). The
root and identity certificates are the same in both. -/
structure KeyCopy where
  seq : Nat
  whole : Bool
  owners : Vector OwnerSlot 4
  deriving DecidableEq, Repr

/-- Flash, the update in progress, keys and fuses (16). -/
structure Store where
  fw : Vector FwSlot 2
  prog : Vector ProgSlot 2
  runFw : Nat
  trial : Bool
  recovery : Bool
  update : Option Update
  /-- an F command is open (R137) -/
  flashOpen : Option CmdRef
  snapshot : Option PStore
  owners : Vector OwnerSlot 4
  keySeq : Nat
  keyCopies : Vector (Option KeyCopy) 2
  idCert : List Byte
  rootCert : List Byte
  rootHash : List Byte
  serial : List Byte
  wdwin : BitVec 2
  wdwinSet : Bool
  wdlockf : Bool
  wdsalt : BitVec 32
  svfuse : Nat
  healthAt : Option Nat
  deriving DecidableEq, Repr

/-! ### Power, reset, faults (17) -/

/-- The power modes (R658). -/
inductive PowerMode where
  | run | idle | halt | dormant | backup
  deriving DecidableEq, Repr

/-- Power, resets, collars, faults (01, 02, 17). -/
structure Power where
  mode : PowerMode
  /-- the re-emit of the start is done (R344, R660 step 8) -/
  resumed : Bool
  /-- the ports have opened since the start (R95) -/
  opened : Bool
  vinValid : Bool
  failing : Bool
  resetKind : Nat
  powerCycles : Nat
  tbLocked : Bool
  band : Nat
  junction : Int
  pace : Nat
  paceGood : Nat
  paceWarnAt : Option Nat
  paceModel : Nat
  paceSlope : Nat
  /-- closed collars by unit number, with the cause of R671, the command that waits, and requests aborted -/
  closed : List (Nat × Nat × Option CmdRef × Nat)
  unitResets : List (Nat × Nat)
  unitFault : Bool
  lastFault : Nat
  /-- the codes of the faults raised since the entry into HALT (R674, R675) -/
  haltFaults : List Nat
  haltAt : Nat
  haltRestarts : List Nat
  restartLimit : Bool
  haltReset : Option Nat
  stopping : Bool
  /-- the programme state asked for by DEV.RESET (R669) or a fault-halt restart (R677) -/
  startAs : Nat
  capMeasured : Option Nat
  holdupMv : Nat
  holdupLowSince : Option Nat
  holdupWeak : Bool
  holdupFault : Bool
  /-- demands reserved by started operations, in nJ (R655) -/
  reservedNj : Nat
  vbatMv : Nat
  vbatLow : Bool
  opsec : Nat
  faultReq : Bool
  wakeMask : BitVec 16
  ecc : Nat
  /-- SF.EVENT -/
  event : Word
  deriving DecidableEq, Repr

/-- The parameters in effect: those whose value differs from the default, and committed values whose moment has
not come (R686-R694). -/
structure Params where
  eff : SMap Nat
  /-- committed values not in effect: moment, PID, value (none for a deleted record) -/
  wait : List (Applies × Nat × Option Nat)
  /-- SEAL values of a commit whose DONE receipt is placed while a program runs: they wait for a scan to begin its SEAL (R691) -/
  sealWait : List (Nat × Option Nat)
  /-- SEAL values that take effect at the end of the EMIT of the scan in SEAL or EMIT (R691) -/
  sealing : List (Nat × Option Nat)
  deriving DecidableEq, Repr

/-- The state of the U640. -/
structure State where
  /-- the commands that wait, first in, first out -/
  pending : List Instr
  /-- the latest instant named in this run of the logic die (R21) -/
  tb : Tb
  eng : Engine
  sched : Sched
  prog : Option Program
  pstate : ProgState
  tasks : Vector TaskRt 16
  /-- code SRAM (R23) -/
  code : SMap Word
  /-- working data and image, the content at the last seal (R166), the emitted view (R341) -/
  image : SMap Tagged
  /-- system input points: 0 stale until the first ACQUIRE, 1 at it, 2 after it (R163, R197, R319) -/
  sysPhase : Nat
  sealedImg : SMap Tagged
  emitted : SMap Tagged
  /-- hold shadows: the last value sent under step 2 or 3 since PROG.RUN (R320) -/
  held : SMap Word
  /-- the last value each destination was sent (R170), and what each source delivers to ACQUIRE -/
  sent : SMap Tagged
  forces : List Force
  charts : Charts
  ring : Ring
  pstore : PStore
  spread : Vector SpreadCounter 3
  params : Params
  host : HostSt
  book : Bookings
  twin : Twin
  field : FieldSt
  ana : Vector Island 8
  busA : BusLine
  busB : BusLine
  dsp : Display
  clock : Clock
  log : Logbook
  wd : Watchdog
  store : Store
  power : Power
  /-- the model's own counter of free values drawn: not the U640's (log entry 3) -/
  freeIdx : Nat
  deriving DecidableEq, Repr

/-! ### Reset: the logic die just out of a power-on reset, on a device as manufactured (R658, R666 code 0x01).
Registers without a reset value in the spec stand at the values log entry 1 names. -/

/-- A register of value 0 with tag 0x00 (R204). -/
def Tagged.zero : Tagged := ⟨0, 0⟩

def Window.reset : Window := { r := Vector.replicate 16 Tagged.zero, link := 0 }

/-- The engine as EXECUTE finds it (R204); p0 reads 1 with Q good (R203). Log entry 1 (DESIGN CHOICE). -/
def Engine.reset : Engine :=
  { h := Vector.replicate 8 Tagged.zero, win := Vector.replicate 16 Window.reset, owner := Vector.replicate 16 none,
    p := (Vector.replicate 8 ⟨false, 0⟩).set 0 ⟨true, 0⟩, a := Vector.replicate 4 ⟨0, 0⟩,
    x := Vector.replicate 8 ⟨0, 0⟩, m := Vector.replicate 8 0, b := Vector.replicate 8 0, n := Vector.replicate 8 0,
    pc := 0, wpos := 0, depth := 0, ctrl := 0, status := 0, fpstat := 0, amode := 0, errpc := 0, erraddr := 0,
    pmcount := 0, beats := 0, pend := none }

/-- Log entry 1 (DESIGN CHOICE). -/
def Sched.reset : Sched :=
  { running := none, suspended := [], roundLeft := [], roundStart := 0, roundOpen := false, roundLast := none, roundReady := 0,
    phases := [], waiting := [], trun := none, firstStart := none, nextScanId := 0, stopping := none, stopMode := .hold,
    gapUnknown := false, slotNo := 0, slotEnd := 0, slotWork := [], slotDone := false, sliceDone := false, safeAreas := [], frozen := [], aheadPs := 0, watches := [], editPending := none,
    handoverReq := none, noMoreScans := false }

/-- Log entry 1 (DESIGN CHOICE). -/
def Charts.reset : Charts :=
  { slots := Vector.replicate 8 ChartSlot.blank, active := 0, req := none, reqField := 0, committed := none,
    deferred := [], unusable := false }

/-- Log entry 1 (DESIGN CHOICE). -/
def Ring.reset : Ring :=
  { recs := [], segs := [], badLines := [], head := 0, nextSeq := 0, segSeq := 0, passes := 0, tailLine := 0, tailSeq := 0, broken := false,
    resumes := 0, lastSealSeq := 0, lastSealTb := 0, carryOwed := 0, base := none }

/-- Log entry 1 (DESIGN CHOICE). -/
def PStore.reset : PStore :=
  { half0 := [], half1 := [], head0 := 0, head1 := 0, tail0 := 0, tail1 := 0, nextGroup := 1, conflicts := [] }

/-- Log entry 1 (DESIGN CHOICE). -/
def SpreadCounter.reset : SpreadCounter := { cells := Vector.replicate 16 (0, 0, 0) }

/-- The shares are at their defaults of R87. -/
def Bookings.reset : Bookings :=
  { sp := [], slots := [], mram := [], twin := [], bus := [], shares := (40, 30, 20, 10), sharesNext := [],
    slices := [], latest := 0 }

/-- Log entry 1 (DESIGN CHOICE). -/
def HostSt.reset : HostSt :=
  { spi := PortSt.reset, maint := PortSt.reset, out := [], baud := 0, baudNext := none, baudKept := false, session := none,
    prevEnded := false, workDiscarded := false, cmds := [], results := [], closing := none,
    transfer := none, dspOwner := false, resetWait := none, dormantWait := none }

/-- Log entry 1 (DESIGN CHOICE). -/
def Twin.reset : Twin :=
  { role := .unpaired, pair := .noPartner, lane0 := false, lane1 := false, helloDone := false, partner := none,
    term := 0, mark := none, lastLive := 0, lastSent := 0, ackedSeq := 0, appliedSeq := 0, ackLatency := 0,
    changes := 0, offset := 0, heardAny := (none, none), heardHelm := (none, none), heardStart := (none, none),
    hbAcked := (none, none), startTest := true, epochAs := none, changeRefs := [],
    handoverSent := none, safeAt := none, resyncStage := 0, resyncRef := none, resyncBase := (0, 0), resyncAck := 0,
    cfgKind := 0, cfgData := [], sent := [] }

/-- Every counter filter, latch and switch of the field die at 0 (R414, R432). Log entry 1 (DESIGN CHOICE). -/
def FieldSt.reset : FieldSt :=
  { di := Vector.replicate 48 DiCh.reset, do_ := Vector.replicate 24 DoCh.reset, grid := Vector.replicate 6 0,
    vfld := 24000, warn := false, cut := false, lockout := false, warnSince := none, cutSince := none, safe := none,
    safeVals := 0, safeTurns := [], turns := [], restoring := false, needEmit := 0, linkAlive := true, pauseAt := none,
    shareBlank := 0, test := none }

def Trim.zero : Trim := ⟨0, 0⟩

/-- An island in its default mode, input (R480). Log entry 1 (DESIGN CHOICE). -/
def Island.reset : Island :=
  { mode := .input, nextMode := .input, stageB := false, faultA := false, faultB := false, chFault := false,
    open_ := false, comply := false, clamped := false, headroomMv := 0, temp := 250, band := 2,
    trimA := Vector.replicate 8 Trim.zero, trimB := Vector.replicate 8 Trim.zero, useTrim := Trim.zero,
    blendLeft := 0, measLeft := 0, current := 0, setPoint := 0, segFrom := 0, segAt := 0, hold := false,
    crossing := false, xrate := 0, safeMove := false, pass := false, meas := 0, sampled := false,
    uncertainNext := false, uncertainNow := false, step := none, calReady := false, newTrim := Trim.zero, failOver := false,
    relayDone := 0, relayNext := 0, calCount := 0, lastOff := 0, lastGain := 0, aborts := 0, relayRef := none,
    trimRef := none, trimSecond := false, markAt := Vector.replicate 8 none, hartBusy := false, hartTries := 0,
    hartHost := false, hartQueue := [], hartLong := none, hartMiss := 0, hartOk := false, hartLastReply := none,
    hartStatus := 0, hartResp := 0, hartVars := [none, none, none, none], hartErr := 0, hartCfgChanged := false,
    hartSent := [], hartAnswered := none }

/-- Log entry 1 (DESIGN CHOICE). -/
def BusLine.reset : BusLine :=
  { started := false, asleep := false, sleepReq := none, wakeMode := 0, wakeRef := none, tec := 0, recErr := 0,
    busOff := false, busOffs := 0, txb := Vector.replicate 3 none, outQueue := [], fifo := [], fifoOvf := 0,
    cycle := 0, tk := 0, cycleRunning := false, lastSync := 0, lateAt := none, lateLogAt := none,
    aborted := 0, discarded := 0, busy := 0, stations := Vector.replicate 64 Station.reset,
    filterAt := Vector.replicate 32 none, snap := [], snapSafe := [], snapHold := false, timeRef := none,
    timeRefPrev := none, timeRefOk := false, timeRefAt := 0 }

/-- Log entry 1 (DESIGN CHOICE). -/
def Display.reset : Display :=
  { frame := List.replicate 144 0, panel := List.replicate 144 0, crc := 0, blank := false, band := 2,
    ntcFault := false, rate := 6, blinkOff := false, update := none, deferLogAt := none,
    rewrite := none, crcBad := 0, crackBad := 0, goodCnt := 0, fault := false, faultCode := 0, crackOhm := 0,
    degraded := false, vdsp0 := 0, switches := true }

/-- The time register at 2000-01-01T00:00:00 with VALID 0 (R550): the backup domain of a new device is cleared.
Log entry 1 (DESIGN CHOICE). -/
def Clock.reset : Clock :=
  { sec := 0, sub := 0, valid := false, range := false, bkpLost := true, shiftLeft := 0, shiftDiv := 64,
    shiftTicks := 0, shiftPend := none, setPend := none, acc := 0, corr := 0, secondDue := false, shiftDone := false,
    locked := false, refPresent := false, refAbsentAt := none, servo := 0, servoValid := false,
    learned := Vector.replicate 8 (0, 0), learnedAt := 0, trimStopped := 0, anchorAt := 0, lrefPeriodUs := 0,
    lrefAt := 0, lrefCount := 0, winAt := 0, winLen := 204800000000, winBad := true, winBands := Vector.replicate 8 0,
    winFirst := none, winLast := none }

/-- Both allowances are full and the sequence numbers start at 0 at manufacture (R579, R580).
Log entry 1 (DESIGN CHOICE). -/
def Logbook.reset : Logbook :=
  { recs := [], next := 0, oldest := 0, credits := 4096, alarmCredits := 256, suppressed := [], suppressedAt := 0,
    overwrite := none }

/-- EN is 1 and PERIOD is 1,000 ms (R606); the watchdog is RUNNING in SERVICE mode (R597). Log entry 1 (DESIGN CHOICE). -/
def Watchdog.reset : Watchdog :=
  { state := .running, period := 1000, periodNext := none, lock := false, lfsr := 1, mask := 0, dbl := false,
    dtask := none, tick := 0, lastRes := 0, observed := 0, implied := 0, impliedVoid := false, recDtask := none,
    recAgent := 0, pwign := false, keyerr := false, keyStep := 0, keyTick := 0, engineMode := false,
    count := 0, resetRecord := false, faultN := false }

/-- SHA-512 of no byte: the hash of the image that the reset firmware slot holds (log entry 1). -/
def emptyHash : List Byte :=
  [0xCF, 0x83, 0xE1, 0x35, 0x7E, 0xEF, 0xB8, 0xBD, 0xF1, 0x54, 0x28, 0x50, 0xD6, 0x6D, 0x80, 0x07, 0xD6, 0x20,
   0xE4, 0x05, 0x0B, 0x57, 0x15, 0xDC, 0x83, 0xF4, 0xA9, 0x21, 0xD3, 0x6C, 0xE9, 0xCE, 0x47, 0xD0, 0xD1, 0x3C,
   0x5D, 0x85, 0xF2, 0xB0, 0xFF, 0x83, 0x18, 0xD2, 0x87, 0x7E, 0xEC, 0x2F, 0x63, 0xB9, 0x31, 0xBD, 0x47, 0x41,
   0x7A, 0x81, 0xA5, 0x38, 0x32, 0x7A, 0xF9, 0x27, 0xDA, 0x3E]

/-- Firmware slot 0 CONFIRMED, every other slot EMPTY, no owner key, fuses unprogrammed. Log entry 1 (DESIGN CHOICE). -/
def Store.reset : Store :=
  { fw := #v[{ FwSlot.blank with
               desc := some (1, 0, emptyHash), builtWord := markerSet, confirmedWord := markerSet,
               version := 0x02030000, epoch := 1 }, FwSlot.blank],
    prog := #v[ProgSlot.blank, ProgSlot.blank], runFw := 0, trial := false, recovery := false, update := none,
    flashOpen := none, snapshot := none, owners := Vector.replicate 4 ⟨0, []⟩, keySeq := 0,
    keyCopies := #v[some ⟨0, true, Vector.replicate 4 ⟨0, []⟩⟩, none],
    idCert := [], rootCert := [], rootHash := [], serial := List.replicate 16 0, wdwin := 0, wdwinSet := false,
    wdlockf := false, wdsalt := 1, svfuse := 0, healthAt := none }

/-- Log entry 1 (DESIGN CHOICE). -/
def Power.reset : Power :=
  { mode := .idle, resumed := false, opened := false, vinValid := true, failing := false, resetKind := 1, powerCycles := 1,
    tbLocked := true, band := 2, junction := 250, pace := 0, paceGood := 0, paceWarnAt := none,
    paceModel := 0, paceSlope := 0, closed := [], unitResets := [], unitFault := false, lastFault := 0,
    haltFaults := [], haltAt := 0, haltRestarts := [], restartLimit := false, haltReset := none, stopping := false,
    startAs := 0, capMeasured := none, holdupMv := 33000, holdupLowSince := none, holdupWeak := false,
    holdupFault := false, reservedNj := 0, vbatMv := 3000, vbatLow := false, opsec := 0, faultReq := false,
    wakeMask := 0, ecc := 0, event := 0 }

/-- The machine right after reset. Log entries 1, 3 (DESIGN CHOICE). -/
def State.reset : State :=
  { pending := [], tb := 0, eng := Engine.reset, sched := Sched.reset, prog := none, pstate := .notLoaded,
    tasks := Vector.replicate 16 TaskRt.reset, code := [], image := [], sysPhase := 0, sealedImg := [], emitted := [], held := [],
    sent := [], forces := [], charts := Charts.reset, ring := Ring.reset, pstore := PStore.reset,
    spread := Vector.replicate 3 SpreadCounter.reset, params := { eff := [], wait := [], sealWait := [], sealing := [] }, host := HostSt.reset,
    book := Bookings.reset, twin := Twin.reset, field := FieldSt.reset, 
    ana := Vector.ofFn (fun c => { Island.reset with relayNext := 75 * c.val }),
    busA := BusLine.reset, busB := BusLine.reset, dsp := Display.reset, clock := Clock.reset, log := Logbook.reset,
    wd := Watchdog.reset, store := Store.reset, power := Power.reset, freeIdx := 0 }

end Sys2Proof.Machine
end

