-- ==== Sys2Proof/Machine/Ops.lean ====
section
/-!
DEFINITION. The named operations that every meaning is written over: sparse maps, register files, bytes and CRCs,
the fields of a tag byte, the image and its address map, time, free values, the logbook.
-/
namespace Sys2Proof.Machine

open Sys2Proof

/-! ### Sparse maps -/

/-- The value of a key: the listed one, or the default of the key. -/
def smGet {α : Type} (d : Nat → α) (m : SMap α) (k : Nat) : α :=
  match m with
  | [] => d k
  | (k', v) :: r => if k' = k then v else smGet d r k

/-- Remove a key. -/
def smErase {α : Type} : SMap α → Nat → SMap α
  | [], _ => []
  | (k', v) :: r, k => if k' = k then smErase r k else (k', v) :: smErase r k

/-- Put a key in its sorted place. -/
def smInsert {α : Type} : SMap α → Nat → α → SMap α
  | [], k, v => [(k, v)]
  | (k', v') :: r, k, v =>
    if k < k' then (k, v) :: (k', v') :: r
    else if k = k' then (k, v) :: r
    else (k', v') :: smInsert r k v

/-- Write a key: writing its default removes the entry. -/
def smSet {α : Type} [DecidableEq α] (d : Nat → α) (m : SMap α) (k : Nat) (v : α) : SMap α :=
  if v = d k then smErase m k else smInsert m k v

/-- Keys strictly rising from a lower bound. -/
def smSortedFrom {α : Type} : Nat → SMap α → Bool
  | _, [] => true
  | lo, (k, _) :: r => decide (lo ≤ k) && smSortedFrom (k + 1) r

/-- No entry equal to its default. -/
def smNoDefault {α : Type} [DecidableEq α] (d : Nat → α) : SMap α → Bool
  | [] => true
  | (k, v) :: r => !decide (v = d k) && smNoDefault d r

/-- The canonical form of a sparse map. -/
def smWf {α : Type} [DecidableEq α] (d : Nat → α) (m : SMap α) : Bool :=
  smSortedFrom 0 m && smNoDefault d m

/-! ### Register files -/

/-- Read a register file; an index beyond it reads the default. -/
def vget {α : Type} {n : Nat} (v : Vector α n) (i : Nat) (d : α) : α :=
  if h : i < n then v[i] else d

/-- Write a register file; an index beyond it changes nothing. -/
def vset {α : Type} {n : Nat} (v : Vector α n) (i : Nat) (x : α) : Vector α n :=
  if h : i < n then v.set i x else v

/-- Change one register of a file. -/
def vmod {α : Type} {n : Nat} (v : Vector α n) (i : Nat) (f : α → α) : Vector α n :=
  if h : i < n then v.set i (f v[i]) else v

/-! ### Bytes (R6, little-endian) -/

/-- The n low bytes of a number, low byte first. -/
def le : Nat → Nat → List Byte
  | 0, _ => []
  | n + 1, v => BitVec.ofNat 8 v :: le n (v / 256)

/-- The number that bytes spell, low byte first. -/
def unle : List Byte → Nat
  | [] => 0
  | b :: r => b.toNat + 256 * unle r

/-- A signed number in n bytes, two's complement. -/
def leInt (n : Nat) (v : Int) : List Byte := le n (v % (256 ^ n : Nat)).toNat

/-- The signed number that bytes spell. -/
def unleInt (bs : List Byte) : Int :=
  let v := unle bs
  if 2 * v < 256 ^ bs.length then (v : Int) else (v : Int) - (256 ^ bs.length : Nat)

/-- Bytes from an offset, n of them, padded with zeros when the list is shorter. -/
def slice (bs : List Byte) (off n : Nat) : List Byte :=
  let r := (bs.drop off).take n
  r ++ List.replicate (n - r.length) 0

/-- The little-endian number of n bytes at an offset. -/
def field (bs : List Byte) (off n : Nat) : Nat := unle (slice bs off n)

/-- Pad with zero bytes to a length. -/
def padTo (n : Nat) (bs : List Byte) : List Byte := bs ++ List.replicate (n - bs.length) 0

/-- A 40-bit value in 5 bytes followed by its tag (R6). -/
def leTagged (t : Tagged) : List Byte := le 5 t.val.toNat ++ [t.tag]

def boolBit (b : Bool) : Nat := if b then 1 else 0

/-! ### CRCs -/

/-- One bit of a reflected CRC-32C (R107): 0x82F6_3B78 is 0x1EDC_6F41 reflected. -/
def crc32cBit (c : BitVec 32) : BitVec 32 :=
  if c.getLsbD 0 then (c >>> 1) ^^^ 0x82F63B78#32 else c >>> 1

def crc32cByte (c : BitVec 32) (b : Byte) : BitVec 32 :=
  crc32cBit (crc32cBit (crc32cBit (crc32cBit (crc32cBit (crc32cBit (crc32cBit (crc32cBit
    (c ^^^ b.setWidth 32))))))))

/-- CRC-32C of packets, receipts, records and frames (R107). -/
def crc32c (bs : List Byte) : BitVec 32 := (bs.foldl crc32cByte 0xFFFFFFFF#32) ^^^ 0xFFFFFFFF#32

def crc8Bit (c : Byte) : Byte := if c.getLsbD 7 then (c <<< 1) ^^^ 0x07#8 else c <<< 1

/-- CRC-8 of a spread-counter cell and of the backup registers (R358, R664). -/
def crc8 (bs : List Byte) : Byte :=
  bs.foldl (fun c b => crc8Bit (crc8Bit (crc8Bit (crc8Bit (crc8Bit (crc8Bit (crc8Bit (crc8Bit (c ^^^ b))))))))) 0

def crc16Bit (c : BitVec 16) : BitVec 16 := if c.getLsbD 15 then (c <<< 1) ^^^ 0x1021#16 else c <<< 1

def crc16Byte (c : BitVec 16) (b : Byte) : BitVec 16 :=
  crc16Bit (crc16Bit (crc16Bit (crc16Bit (crc16Bit (crc16Bit (crc16Bit (crc16Bit
    (c ^^^ (b.setWidth 16 <<< (8 : Nat))))))))))

/-- CRC-16/CCITT of the display frame (R541). -/
def crc16 (bs : List Byte) : BitVec 16 := bs.foldl crc16Byte 0xFFFF#16

/-- A layout's bytes followed by the CRC-32C over them (R280, R323, R325, R374, R618). -/
def withCrc (bs : List Byte) : List Byte := bs ++ le 4 (crc32c bs).toNat

/-! ### The tag byte (R194) -/

def tagQ (t : Byte) : Quality := t.extractLsb' 1 2
def tagE (t : Byte) : Bool := t.getLsbD 7
def tagL (t : Byte) : Bool := t.getLsbD 6
def tagM (t : Byte) : Bool := t.getLsbD 5
def tagS (t : Byte) : Bool := t.getLsbD 4
def tagF (t : Byte) : Bool := t.getLsbD 3
def tagV (t : Byte) : Bool := t.getLsbD 0

/-- Build a tag byte from its fields. -/
def mkTag (e l m s f : Bool) (q : Quality) (v : Bool) : Byte :=
  BitVec.ofNat 8 (128 * boolBit e + 64 * boolBit l + 32 * boolBit m + 16 * boolBit s + 8 * boolBit f
    + 2 * q.toNat + boolBit v)

def setE (t : Byte) (e : Bool) : Byte := mkTag e (tagL t) (tagM t) (tagS t) (tagF t) (tagQ t) (tagV t)
def setS (t : Byte) (s : Bool) : Byte := mkTag (tagE t) (tagL t) (tagM t) s (tagF t) (tagQ t) (tagV t)
def setQ (t : Byte) (q : Quality) : Byte := mkTag (tagE t) (tagL t) (tagM t) (tagS t) (tagF t) q (tagV t)
def setL (t : Byte) (l : Bool) : Byte := mkTag (tagE t) l (tagM t) (tagS t) (tagF t) (tagQ t) (tagV t)
def setV (t : Byte) (v : Bool) : Byte := mkTag (tagE t) (tagL t) (tagM t) (tagS t) (tagF t) (tagQ t) v
def setMF (t : Byte) (m f : Bool) : Byte := mkTag (tagE t) (tagL t) m (tagS t) f (tagQ t) (tagV t)

def qGood : Quality := 0
def qUncertain : Quality := 1
def qStale : Quality := 2
def qBad : Quality := 3

/-- The worse of two qualities: the higher code. -/
def worseQ (a b : Quality) : Quality := if a.toNat < b.toNat then b else a

/-- Worsen the quality of a tag to at least q. -/
def worsenTag (t : Byte) (q : Quality) : Byte := setQ t (worseQ (tagQ t) q)

/-! ### Items of the image (R190-R193, R220, R306) -/

/-- The key of a data or analogue word. -/
def wKey (a : Nat) : Nat := 0x40000000 + a

def isPointKey (k : Nat) : Bool := decide (k < 0x20000)
def isWordKey (k : Nat) : Bool := decide (0x40000000 ≤ k)
def keyAddr (k : Nat) : Nat := k - 0x40000000

/-- A station's point range: base + 0x100 n + i with n 1 to 63 (R190). -/
def inStationPoints (base p : Nat) : Bool := decide (base + 0x100 ≤ p ∧ p < base + 0x4000)

/-- A system output point that R198 defines. -/
def sysOutDefined (p : Nat) : Bool := decide (0x1F000 ≤ p ∧ p ≤ 0x1F002)

/-- Points that the maps of R190 and R198 reserve, system input points apart. -/
def reservedPoint (p : Nat) : Bool :=
  if p < 0x10000 then
    !(decide (p ≤ 0x2F) || inStationPoints 0x1000 p || inStationPoints 0x5000 p || decide (0xF000 ≤ p))
  else
    !(decide (p ≤ 0x10017) || inStationPoints 0x11000 p || inStationPoints 0x15000 p || sysOutDefined p)

/-- A system input point (R197). -/
def sysInPoint (p : Nat) : Bool := decide (0xF000 ≤ p ∧ p ≤ 0xFFFF)

def inStationWords (base a : Nat) : Bool := decide (base + 32 ≤ a ∧ a < base + 2048)

/-- Analogue addresses that R192 assigns to nothing (R193). -/
def reservedWord (a : Nat) : Bool :=
  if a < 0x804000 then
    !(decide (a ≤ 0x800029) || inStationWords 0x800800 a || inStationWords 0x801800 a)
  else
    !(decide (a ≤ 0x804007) || inStationWords 0x804800 a || inStationWords 0x805800 a)

def inDataSram (a : Nat) : Bool := decide (a < 0x200000)
def inAnaIn (a : Nat) : Bool := decide (0x800000 ≤ a ∧ a < 0x804000)
def inAnaOut (a : Nat) : Bool := decide (0x804000 ≤ a ∧ a < 0x808000)
def inSf (a : Nat) : Bool := decide (0xFFF000 ≤ a)

/-- An unmapped data address (R220). -/
def unmapped (a : Nat) : Bool := !(inDataSram a || inAnaIn a || inAnaOut a || inSf a)

/-- What an unlisted item reads as: an input stands at 0 with Q stale until its ACQUIRE (R319); everything else at 0
with tag 0x00 (R194). System input points are stale through `sysPhase`. -/
def itemDefault (k : Nat) : Tagged :=
  if k < 0xF000 then ⟨0, 0x04⟩
  else if isWordKey k && inAnaIn (keyAddr k) then ⟨0, 0x04⟩
  else ⟨0, 0⟩

/-- The working content of an item. A system input point stands at V = 0 with Q stale until the first ACQUIRE, which sets
E of each (R163, R197, R319). -/
def getItem (s : State) (k : Nat) : Tagged :=
  let t := smGet itemDefault s.image k
  if sysInPoint k then
    (if s.sysPhase = 0 then ⟨0, 0x04⟩ else if s.sysPhase = 1 then ⟨0, setE t.tag true⟩ else t)
  else t

/-- Set the working content of an item. -/
def putItem (s : State) (k : Nat) (t : Tagged) : State := { s with image := smSet itemDefault s.image k t }

/-- Whether a standing force or simulation entry keeps stores and writes from an item (R195, R309). -/
def heldByForce (s : State) (k : Nat) : Bool := tagF (getItem s k).tag || tagM (getItem s k).tag

/-- The content of an item at its last seal (R166). -/
def sealedItem (s : State) (k : Nat) : Tagged := smGet itemDefault s.sealedImg k

/-- The line of an item: 64 points or 8 words (R168), numbered apart. -/
def lineOf (k : Nat) : Nat := if isPointKey k then k / 64 else k / 8

/-- Whether an item changed against its last seal: value, or tag bits [6:0] other than S (R166). -/
def changedItem (now sealed_ : Tagged) : Bool :=
  decide (now.val ≠ sealed_.val) || decide ((now.tag &&& 0x6F#8) ≠ (sealed_.tag &&& 0x6F#8))

/-- Store new content with E by R166: once set, E stays until the seal. -/
def storeItem (s : State) (k : Nat) (t : Tagged) : State :=
  let e := tagE (getItem s k).tag || changedItem t (sealedItem s k)
  putItem s k ⟨t.val, setE t.tag e⟩

def modSched (s : State) (f : Sched → Sched) : State := { s with sched := f s.sched }

/-! ### Time, free values, parameters of the device -/

/-- The instant of an event: tb never moves backward within a run (R21). Log entries 2, 7 (DESIGN CHOICE). -/
def State.at (s : State) (now : Tb) : State := { s with tb := Nat.max s.tb now }

/-- Draw the next free value (log entry 3). Log entry 3 (DESIGN CHOICE). -/
def State.draw (s : State) : BitVec 256 × State := (Config.freeValue s.freeIdx, { s with freeIdx := s.freeIdx + 1 })

/-- A draw that is not 0 in its low 32 bits: token and LFSR seed are non-zero (R116, R593). -/
def nonZero16 (v : BitVec 256) : BitVec 16 :=
  if v.setWidth 16 = 0#16 then 1#16 else v.setWidth 16

def nonZero32 (v : BitVec 256) : BitVec 32 :=
  if v.setWidth 32 = 0#32 then 1#32 else v.setWidth 32

/-- Ceiling division. -/
def cdiv (a b : Nat) : Nat := (a + b - 1) / b

/-- A span in ps, rounded up to whole tb. -/
def psToTb (ps : Nat) : Nat := cdiv ps psPerTb

/-- Microseconds in tb. -/
def usToTb (us : Nat) : Nat := us * 200

/-- Milliseconds in tb. -/
def msToTb (ms : Nat) : Nat := ms * 200000

/-! ### Session flags and clock flags -/

/-- Pair time (R370): the device's own tb plus its offset from the Helm's time base, 0 on a device without a partner. -/
def pairTb (s : State) (t : Nat) : Nat := ((t : Int) + s.twin.offset).toNat

/-- SF.RUNEPOCH (R148, R370): the power-cycle count, or that of the Helm whose pair time a device took over.
Log entry 65 (DEDUCED). -/
def runEpoch (s : State) : Nat := (s.twin.epochAs.getD s.power.powerCycles) % 2 ^ 24

/-- SF.RTCFLAGS [7:0] (R572). -/
def rtcFlags (s : State) : BitVec 8 :=
  let c := s.clock
  let learned := decide (3 ≤ (vget c.learned s.power.band (0, 0)).2)
  BitVec.ofNat 8 (boolBit c.valid + 2 * boolBit (!c.locked) + 4 * boolBit c.range
    + 8 * boolBit (decide (c.shiftLeft ≠ 0)) + 16 * boolBit c.locked
    + 32 * boolBit (!c.refPresent && decide ((smGet (fun _ => 0) s.params.eff 0x1D00) ∈ [1, 2, 3]))
    + 64 * boolBit learned + 128 * boolBit c.bkpLost)

/-! ### The logbook (R573-R580) -/

/-- Severities (R575). -/
def sevInfo : Nat := 0
def sevNotice : Nat := 1
/-- Log entry 55 (DEDUCED). -/
def sevWarning : Nat := 2
def sevAlarm : Nat := 3
def sevFault : Nat := 4

/-- The length in bytes of a record: a 16-byte header and its body, padded to a multiple of 4 (R573). -/
def LogRec.length (r : LogRec) : Nat := cdiv (16 + r.body.length) 4 * 4

/-- The bytes of a record (R573). -/
def LogRec.bytes (r : LogRec) : List Byte :=
  padTo r.length (le 2 r.length ++ [BitVec.ofNat 8 r.type, BitVec.ofNat 8 (32 * r.sev + r.src)] ++ le 4 r.seq
    ++ le 4 r.opsec ++ le 3 r.power ++ [r.flags] ++ r.body)

/-- Bytes of the logbook ring that the records hold, each with its CRC (R578). -/
def Logbook.bytesUsed (l : Logbook) : Nat := l.recs.foldl (fun n r => n + r.length + 4) 0

/-- The head overwrites the oldest records of the 16 MiB ring (R578). -/
def dropOldest : Nat → Logbook → Logbook
  | 0, l => l
  | n + 1, l =>
    if l.bytesUsed ≤ 16777216 then l
    else match l.recs with
      | [] => l
      | r :: rest => dropOldest n { l with recs := rest, oldest := Nat.max l.oldest (r.seq + 1) }

/-- Count a record that is not written (R579). -/
def suppress (l : Logbook) (type sev src : Nat) : Logbook :=
  let key := 32 * sev + src
  { l with
    suppressed :=
      if l.suppressed.any (fun e => e.1 = type ∧ e.2.1 = key) then
        l.suppressed.map (fun e => if e.1 = type ∧ e.2.1 = key then (e.1, e.2.1, e.2.2 + 1) else e)
      else l.suppressed ++ [(type, key, 1)] }

/-- Whether a record draws a credit, and from which allowance: 0 none, 1 logbook, 2 alarm (R579). -/
def creditClass (type sev : Nat) : Nat :=
  if type = 1 ∨ type = 2 ∨ type = 3 ∨ type = 5 ∨ sev = 4 then 0 else if sev = 3 then 2 else 1

/-- Write a record with its body from the tb on (R574), under the allowances of R579; the answer says whether it was
written: 0 written, 1 no credit, 2 no sequence number left (R580). -/
def logRaw (s : State) (type sev src : Nat) (body : List Byte) : Nat × State :=
  let l := s.log
  if 0x100000000 ≤ l.next then (2, s)
  else
    let cls := creditClass type sev
    if (cls = 1 ∧ l.credits = 0) ∨ (cls = 2 ∧ l.alarmCredits = 0) then
      (1, { s with log := suppress l type sev src })
    else
      let r : LogRec :=
        { seq := l.next, type, sev, src, opsec := s.power.opsec % 0x100000000, power := s.power.powerCycles,
          flags := rtcFlags s, body }
      let l' : Logbook :=
        { l with
          recs := l.recs ++ [r], next := l.next + 1,
          credits := if cls = 1 then l.credits - 1 else l.credits,
          alarmCredits := if cls = 2 then l.alarmCredits - 1 else l.alarmCredits }
      (0, { s with log := dropOldest 1024 l' })

/-- Write a record of R722: subject, code and values (R574). Log entry 74 (DESIGN CHOICE). -/
def log (s : State) (type sev src subject code : Nat) (vals : List Byte) : State :=
  (logRaw s type sev src (le 8 s.tb ++ le 2 subject ++ le 2 code ++ vals)).2

/-! ### Units and collars (R11-R18) -/

/-- Units behind the field die link close with it (01_architecture, after R18). -/
def collarClosed (s : State) (u : Nat) : Bool :=
  s.power.closed.any (fun e => e.1 = u)
    || ((decide (u = 7) || decide (0x10 ≤ u ∧ u ≤ 0x17)) && s.power.closed.any (fun e => e.1 = 6))

/-- The entry of the collar that keeps a unit absent: its own, or that of the field die link. -/
def closingEntry (s : State) (u : Nat) : Option (Nat × Nat × Option CmdRef × Nat) :=
  (s.power.closed.find? (fun e => decide (e.1 = u))).or
    (if u = 7 ∨ (0x10 ≤ u ∧ u < 0x18) then s.power.closed.find? (fun e => decide (e.1 = 6)) else none)

end Sys2Proof.Machine
end

