-- ==== Sys2Proof/Machine/F40.lean ====
section
/-!
DEFINITION. F40 numbers and their operations with the flags of SF.FPSTAT (R223-R226, R262, R263), exact rationals
rounded once.
-/
namespace Sys2Proof.Machine

open Sys2Proof

/-- The flags an F40 operation raises (SF.FPSTAT). -/
structure FpFlags where
  nx : Bool
  uf : Bool
  ovf : Bool
  dz : Bool
  iv : Bool
  deriving DecidableEq, Repr

def fpNone : FpFlags := ⟨false, false, false, false, false⟩
def fpIv : FpFlags := ⟨false, false, false, false, true⟩
def fpDz : FpFlags := ⟨false, false, false, true, false⟩

/-- The bits of SF.FPSTAT. -/
def fpBits (f : FpFlags) : Word :=
  BitVec.ofNat 40 (boolBit f.nx + 2 * boolBit f.uf + 4 * boolBit f.ovf + 8 * boolBit f.dz + 16 * boolBit f.iv)

/-- An F40 result with its flags; `bad` says that the result takes Q bad (R224, R263). -/
structure FRes where
  val : Word
  fl : FpFlags
  bad : Bool
  deriving DecidableEq, Repr

/-! ### Parts (R223) -/

def fSign (a : Word) : Bool := a.getLsbD 39
def fExp (a : Word) : Nat := (a.extractLsb' 31 8).toNat
def fFrac (a : Word) : Nat := (a.extractLsb' 0 31).toNat
def fIsNan (a : Word) : Bool := decide (fExp a = 255 ∧ fFrac a ≠ 0)
def fIsInf (a : Word) : Bool := decide (fExp a = 255 ∧ fFrac a = 0)

/-- Exponent 0 reads as ±0 whatever the fraction. -/
def fIsZero (a : Word) : Bool := decide (fExp a = 0)

def fNan : Word := 0x7FC0000000
def fInf (neg : Bool) : Word := if neg then 0xFF80000000 else 0x7F80000000
def fZero (neg : Bool) : Word := if neg then 0x8000000000 else 0

/-- The magnitude of a finite value as num / 2^158: 1.fraction × 2^(exponent − 127) = (2^31 + fraction) × 2^(exponent)
/ 2^158. -/
def fMag (a : Word) : Nat := if fExp a = 0 then 0 else (2147483648 + fFrac a) * 2 ^ fExp a

/-- The signed value × 2^158 of a finite value. -/
def fVal (a : Word) : Int := if fSign a then -(fMag a : Int) else fMag a

/-! ### Rounding (R224) -/

/-- Nearest, ties to even, of n / d. -/
def roundHalfEven (n d : Nat) : Nat :=
  let q := n / d
  let r := n % d
  if d < 2 * r ∨ (2 * r = d ∧ q % 2 = 1) then q + 1 else q

/-- Scale n / d by 2^k. -/
def scale (n d : Nat) (k : Int) : Nat × Nat := if 0 ≤ k then (n * 2 ^ k.toNat, d) else (n, d * 2 ^ (-k).toNat)

/-- Round a positive rational n / d to F40: 32 significant bits with the exponent unbounded, then underflow and
overflow (R224). Log entry 37 (DEDUCED). -/
def fRound (neg : Bool) (n d : Nat) : FRes :=
  let e0 : Int := (Nat.log2 n : Int) - (Nat.log2 d : Int)
  let (a, b) := scale n d (-e0)
  let e : Int := if a < b then e0 - 1 else e0
  let (a, b) := scale n d (31 - e)
  let q0 := roundHalfEven a b
  let inexact := decide (a % b ≠ 0)
  let q := if q0 = 4294967296 then 2147483648 else q0
  let e := if q0 = 4294967296 then e + 1 else e
  if e < -126 then ⟨fZero neg, ⟨true, true, false, false, false⟩, false⟩
  else if 127 < e then ⟨fInf neg, ⟨true, false, true, false, false⟩, true⟩
  else
    let w := (e + 127).toNat * 2147483648 + (q - 2147483648)
    ⟨BitVec.ofNat 40 (w + if neg then 549755813888 else 0), ⟨inexact, false, false, false, false⟩, false⟩

/-- Round a signed rational n / d; an exact 0 is +0. -/
def fRoundInt (n : Int) (d : Nat) : FRes :=
  if n = 0 then ⟨0, fpNone, false⟩ else fRound (decide (n < 0)) n.natAbs d

def fExact (w : Word) : FRes := ⟨w, fpNone, false⟩
def fNanRes (fl : FpFlags) : FRes := ⟨fNan, fl, true⟩

/-! ### Operations (R262, R263) -/

def two158 : Nat := 2 ^ 158

def fAdd (a b : Word) : FRes :=
  if fIsNan a || fIsNan b then fNanRes fpNone
  else if fIsInf a && fIsInf b then (if fSign a = fSign b then fExact a else fNanRes fpIv)
  else if fIsInf a then fExact a
  else if fIsInf b then fExact b
  else if fIsZero a && fIsZero b then fExact (fZero (fSign a && fSign b))
  else fRoundInt (fVal a + fVal b) two158

/-- Invert bit 39. -/
def fFlip (a : Word) : Word := a ^^^ 0x8000000000

def fSub (a b : Word) : FRes := if fIsNan b then fNanRes fpNone else fAdd a (fFlip b)

def fMul (a b : Word) : FRes :=
  let neg := fSign a ^^ fSign b
  if fIsNan a || fIsNan b then fNanRes fpNone
  else if (fIsInf a && fIsZero b) || (fIsZero a && fIsInf b) then fNanRes fpIv
  else if fIsInf a || fIsInf b then fExact (fInf neg)
  else if fIsZero a || fIsZero b then fExact (fZero neg)
  else fRound neg (fMag a * fMag b) (two158 * two158)

def fDiv (a b : Word) : FRes :=
  let neg := fSign a ^^ fSign b
  if fIsNan a || fIsNan b then fNanRes fpNone
  else if (fIsZero a && fIsZero b) || (fIsInf a && fIsInf b) then fNanRes fpIv
  else if fIsInf a then fExact (fInf neg)
  else if fIsInf b || fIsZero a then fExact (fZero neg)
  else if fIsZero b then ⟨fInf neg, fpDz, true⟩
  else fRound neg (fMag a) (fMag b)

/-- Integer square root, by bits from the top: `n` bits are left to find. -/
def isqrtAux : Nat → Nat → Nat → Nat
  | 0, _, r => r
  | n + 1, v, r =>
    let c := r + 2 ^ n
    if c * c ≤ v then isqrtAux n v c else isqrtAux n v r

def isqrt (bits v : Nat) : Nat := isqrtAux bits v 0

/-- The root of (2^31 + f) × 2^(e − 158) from 2 s + sticky of a widened square root. -/
def fSqrt (a : Word) : FRes :=
  if fIsNan a then fNanRes fpNone
  else if fIsZero a then fExact (fZero (fSign a))
  else if fSign a then fNanRes fpIv
  else if fIsInf a then fExact a
  else
    let odd := fExp a % 2
    let m := (2147483648 + fFrac a) * 2 ^ odd * 2 ^ 64
    let s := isqrt 50 m
    let n := 2 * s + (if s * s = m then 0 else 1)
    let k : Int := ((fExp a : Int) - odd - 158) / 2 - 32 - 1
    let (p, d) := scale n 1 k
    fRound false p d

/-- Order with −0 below +0 (R263, fmin and fmax). -/
def fOrd (a : Word) : Int :=
  let mag : Int := if fIsZero a then 0 else ((a &&& 0x7FFFFFFFFF).toNat : Int)
  if fSign a then -mag - 1 else mag

/-- An input with exponent 0 reads as ±0. -/
def fCanon (a : Word) : Word := if fIsZero a then fZero (fSign a) else a

/-- Log entry 37 (DEDUCED). -/
def fMin (a b : Word) : FRes :=
  if fIsNan a || fIsNan b then fNanRes fpNone else fExact (fCanon (if fOrd a ≤ fOrd b then a else b))

/-- Log entry 37 (DEDUCED). -/
def fMax (a b : Word) : FRes :=
  if fIsNan a || fIsNan b then fNanRes fpNone else fExact (fCanon (if fOrd b ≤ fOrd a then a else b))

/-- `fneg` and `fabs` raise no flag; a NaN operand gives a NaN with Q bad (R263). Log entry 37 (DEDUCED). -/
def fNeg (a : Word) : FRes := ⟨fFlip a, fpNone, fIsNan a⟩
/-- Log entry 37 (DEDUCED). -/
def fAbs (a : Word) : FRes := ⟨a &&& 0x7FFFFFFFFF, fpNone, fIsNan a⟩

def itof (a : Word) : FRes := fRoundInt a.toInt 1

/-- The result of a conversion to I40: value, clamp (L), Q bad (R225). -/
def clampI40 (v : Int) : Word × Bool :=
  if i40Max < v then (BitVec.ofInt 40 i40Max, true)
  else if v < i40Min then (BitVec.ofInt 40 i40Min, true)
  else (BitVec.ofInt 40 v, false)

/-- Log entry 37 (DEDUCED). -/
def ftoiWith (round : Nat → Nat → Nat) (a : Word) : Word × Bool × Bool :=
  if fIsNan a then (0, false, true)
  else if fIsInf a then ((clampI40 (if fSign a then i40Min - 1 else i40Max + 1)).1, true, false)
  else
    let m := round (fMag a) two158
    let r := clampI40 (if fSign a then -(m : Int) else m)
    (r.1, r.2, false)

def ftoi (a : Word) : Word × Bool × Bool := ftoiWith roundHalfEven a
def ftrunc (a : Word) : Word × Bool × Bool := ftoiWith (fun n d => n / d) a

/-- A comparison; none when a NaN is involved (R224, R267: +0 and −0 are equal). -/
def fCmp (cc : Nat) (a b : Word) : Option Bool :=
  if fIsNan a || fIsNan b then none
  else
    let key := fun (w : Word) =>
      if fIsInf w then (if fSign w then -(2 ^ 420 : Int) else 2 ^ 420) else fVal w
    let x := key a
    let y := key b
    match cc with
    | 0 => some (decide (x = y))
    | 1 => some (decide (x ≠ y))
    | 2 => some (decide (x < y))
    | 3 => some (decide (x ≤ y))
    | 4 => some (decide (y < x))
    | _ => some (decide (y ≤ x))

/-! ### binary32 (R226) -/

/-- F40 to IEEE 754 binary32. -/
def toBinary32 (a : Word) : BitVec 32 :=
  let sign := if fSign a then 0x80000000 else 0
  if fIsNan a then 0x7FC00000
  else if fIsInf a then BitVec.ofNat 32 (sign + 0x7F800000)
  else if fIsZero a then BitVec.ofNat 32 sign
  else
    let v := roundHalfEven (fExp a * 2147483648 + fFrac a) 256
    BitVec.ofNat 32 (sign + min v 0x7F800000)

/-- binary32 to F40. -/
def ofBinary32 (b : BitVec 32) : Word :=
  let neg := b.getLsbD 31
  let e := (b.extractLsb' 23 8).toNat
  let f := (b.extractLsb' 0 23).toNat
  if e = 255 ∧ f ≠ 0 then fNan
  else if e = 255 then fInf neg
  else if e = 0 then fZero neg
  else BitVec.ofNat 40 ((if neg then 549755813888 else 0) + e * 2147483648 + f * 256)

/-- The F40 nearest a rational, used for measured values. -/
def f40OfRat (n : Int) (d : Nat) : Word := (fRoundInt n d).val

end Sys2Proof.Machine
end

