-- ==== Sys2Proof/Machine/Flags.lean ====
section
/-!
DEFINITION. The tag rules (R228-R230) and the sticky flags of SF.STATUS and SF.FPSTAT that instructions set
(R222, R224, R225, R257).
-/
namespace Sys2Proof.Machine

open Sys2Proof

/-! ### SF.STATUS and SF.FPSTAT (R236) -/

def stOv : Word := 1
def stDiv0 : Word := 2
def stAerr : Word := 4
def stPmovr : Word := 8

def orStatus (e : Engine) (b : Word) : Engine := { e with status := e.status ||| b }
def orFpstat (e : Engine) (b : Word) : Engine := { e with fpstat := e.fpstat ||| b }

/-- SF.CTRL.PMASK, ACCSAT and OVQ. -/
def ctrlPmask (e : Engine) : Bool := e.ctrl.getLsbD 0
def ctrlAccsat (e : Engine) : Bool := e.ctrl.getLsbD 1
def ctrlOvq (e : Engine) : Bool := e.ctrl.getLsbD 2

/-- AERR at the present instruction; R205 gives no effective address. Log entry 33 (DEDUCED). -/
def setAerr (e : Engine) : Engine := { orStatus e stAerr with errpc := e.pc }

/-- AERR of an access at an effective address (R216, R221). -/
def setAerrAt (e : Engine) (a : BitVec 24) : Engine := { setAerr e with erraddr := a }

/-! ### Tag rules -/

/-- WORST over the tags of operands; `l` is a clamp of the instruction itself. -/
def tagWorst (ts : List Byte) (l : Bool) : Byte :=
  let q := ts.foldl (fun q t => worseQ q (tagQ t)) qGood
  mkTag false (l || ts.any tagL) (ts.any tagM) false false q false

/-- L and M of the deciding operands, with Q good (R228, R229). -/
def tagDecided (ts : List Byte) : Byte :=
  mkTag false (ts.any tagL) (ts.any tagM) false false qGood false

/-- DOM over operands given with whether each decides the result (R229): a deciding operand must be good. -/
def tagDom (ops : List (Byte × Bool)) (l : Bool) : Byte :=
  let ds := ops.filter (fun o => o.2 && decide (tagQ o.1 = qGood))
  if ds.isEmpty then tagWorst (ops.map (·.1)) l else tagDecided (ds.map (·.1))

/-- Whether an operand decides under DOM. -/
def decides (t : Byte) (c : Bool) : Bool := c && decide (tagQ t = qGood)

/-- COPY for moves: E, S and F are 0. -/
def tagMove (t : Byte) : Byte := mkTag false (tagL t) (tagM t) false false (tagQ t) (tagV t)

/-- SEL: the chosen operand's tag worsened by the selecting predicate (R228). -/
def tagSel (t : Byte) (q : Quality) : Byte := worsenTag (tagMove t) q

/-- Make Q bad when a condition holds. -/
def badIf (t : Byte) (b : Bool) : Byte := if b then worsenTag t qBad else t

/-! ### Integer results (R222, R257) -/

def inI40 (v : Int) : Bool := decide (i40Min ≤ v) && decide (v ≤ i40Max)

/-- An integer result that wraps, with its overflow. -/
def wrapI40 (v : Int) : Word × Bool := (BitVec.ofInt 40 v, !inI40 v)

/-- OV of a wrapping instruction: sticky, and bad when OVQ is 1. -/
def ovTag (e : Engine) (t : Byte) (ov : Bool) : Byte := badIf t (ov && ctrlOvq e)
def ovStatus (e : Engine) (ov : Bool) : Engine := if ov then orStatus e stOv else e

/-- The shift count of a word read as unsigned (R256). -/
def shiftLeft (a : Word) (c : Nat) : Word × Bool :=
  if 40 ≤ c then (0, false)
  else
    let r := a <<< c
    (r, decide (r.toInt ≠ a.toInt * 2 ^ c))

def shiftRight (a : Word) (c : Nat) : Word := if 40 ≤ c then 0 else a >>> c
def shiftArith (a : Word) (c : Nat) : Word := a.sshiftRight (if 40 ≤ c then 40 else c)

/-- The conditions of compares by cc (R267); codes above 9 are illegal words. -/
def ccHolds (cc : Nat) (a b : Word) : Bool :=
  match cc with
  | 0 => decide (a = b)
  | 1 => decide (a ≠ b)
  | 2 => decide (a.toInt < b.toInt)
  | 3 => decide (a.toInt ≤ b.toInt)
  | 4 => decide (b.toInt < a.toInt)
  | 5 => decide (b.toInt ≤ a.toInt)
  | 6 => decide (a.toNat < b.toNat)
  | 7 => decide (a.toNat ≤ b.toNat)
  | 8 => decide (b.toNat < a.toNat)
  | _ => decide (b.toNat ≤ a.toNat)

/-! ### Accumulators (R227, R230) -/

def accMax : Int := 154742504910672534362390527
def accMin : Int := -154742504910672534362390528

/-- Clamp to the 88-bit range. -/
def clampAcc (v : Int) : BitVec 88 × Bool :=
  if accMax < v then (BitVec.ofInt 88 accMax, true)
  else if v < accMin then (BitVec.ofInt 88 accMin, true)
  else (BitVec.ofInt 88 v, false)

/-- Add or subtract a product: a decided product adds nothing and does not count (R229, R260). -/
def accStep (a : Accum) (x y : Tagged) (neg : Bool) : Accum :=
  if decides x.tag (decide (x.val = 0)) || decides y.tag (decide (y.val = 0)) then a
  else
    let p := x.val.toInt * y.val.toInt
    let r := clampAcc (if neg then a.val.toInt - p else a.val.toInt + p)
    { val := r.1, tag := tagWorst [a.tag, tagWorst [x.tag, y.tag] false] r.2 }

/-- A move from an accumulator (R227): the word, whether it clamped, whether it wrapped. -/
def accMove (a : BitVec 88) (sh : Nat) (sat : Bool) : Word × Bool × Bool :=
  let v := (a.sshiftRight sh).toInt
  if inI40 v then (BitVec.ofInt 40 v, false, false)
  else if sat then ((clampI40 v).1, true, false)
  else (BitVec.ofInt 40 v, false, true)

end Sys2Proof.Machine
end

