-- ==== Sys2Proof/Machine/Params.lean ====
section
/-!
DEFINITION. The parameter space (18_parameter_space): every PID with its type, range, default, applies value and
scope, and where a value comes from (R682-R690).
-/
namespace Sys2Proof.Machine

open Sys2Proof

/-- A parameter's row (R684): type code of R140, permitted intervals, default, applies, chart scope. -/
structure PInfo where
  type : Nat
  ranges : List (Int × Int)
  dflt : Nat
  applies : Applies
  chart : Bool
  deriving DecidableEq, Repr

def tU8 : Nat := 1
def tU16 : Nat := 2
def tU32 : Nat := 3
def tI32 : Nat := 4
def tU64 : Nat := 5
def tF40 : Nat := 7
def tEnum : Nat := 8

/-- The encoding of a signed 32-bit default in the value field (R140, R683). -/
def i32 (v : Int) : Nat := (v % 4294967296).toNat

def pGlobal (type : Nat) (lo hi : Int) (dflt : Nat) (applies : Applies) : PInfo :=
  { type, ranges := [(lo, hi)], dflt, applies, chart := false }

def pChart (type : Nat) (lo hi : Int) (dflt : Nat) : PInfo :=
  { type, ranges := [(lo, hi)], dflt, applies := .chart, chart := true }

/-- F40 100.0: 1.5625 × 2^6 (R480). -/
def f40Hundred : Nat := 0x42C8000000

/-- Device, admission, scan, chart, retention and twin ranges (R87, R145, R199, R315, R364, R409, R681, R699). -/
def paramLow (pid : Nat) : Option PInfo :=
  if pid = 0x0100 then some (pGlobal tU64 0 18446744073709551615 0 .now)
  else if pid = 0x0110 then some (pGlobal tEnum 0 6 0 .now)
  else if pid = 0x0111 then some (pGlobal tU16 0 3600 0 .now)
  else if pid = 0x0120 then some (pGlobal tU16 10 10000 200 .now)
  else if pid = 0x0121 then some (pGlobal tU8 0 15 3 .now)
  else if pid = 0x0122 then some (pGlobal tEnum 0 1 1 .now)
  else if pid = 0x0201 then some (pGlobal tU8 10 85 40 .now)
  else if pid = 0x0202 then some (pGlobal tU8 5 80 30 .now)
  else if pid = 0x0203 then some (pGlobal tU8 5 80 20 .now)
  else if pid = 0x0204 then some (pGlobal tU8 5 80 10 .now)
  else if pid = 0x0205 then some (pGlobal tU8 1 64 4 .now)
  else if pid = 0x0206 then some (pChart tU16 1 50 4)
  else if pid = 0x0207 then some (pChart tU16 0 100 10)
  else if pid = 0x0301 then some { pChart tU32 20 1000000 500 with applies := .seal }
  else if pid = 0x0302 then some { pChart tU32 0 1000000 0 with applies := .seal }
  else if pid = 0x0303 then some (pGlobal tEnum 0 1 0 .seal)
  else if pid = 0x0401 then some (pGlobal tU8 0 7 0 .now)
  else if pid = 0x0501 then some (pGlobal tEnum 0 2 0 .now)
  else if pid = 0x0502 then some (pGlobal tU32 0 31536000 0 .now)
  else if pid = 0x0503 then some (pGlobal tU16 16 512 64 .now)
  else if pid = 0x0601 then some (pGlobal tEnum 0 1 0 .restart)
  else if pid = 0x0602 then some (pGlobal tU8 0 1 0 .restart)
  else if pid = 0x0603 then some (pGlobal tEnum 0 1 1 .seal)
  else if pid = 0x0604 then some { pGlobal tU32 0 0 0 .now with ranges := [(0, 0), (300, 2000000)] }
  else if pid = 0x0605 then some (pGlobal tU16 500 20000 1000 .now)
  else if pid = 0x0606 then some (pGlobal tU16 100 10000 500 .restart)
  else if pid = 0x0607 then some (pGlobal tEnum 0 1 1 .now)
  else none

/-- Digital field I/O (R436). -/
def paramDigital (pid : Nat) : Option PInfo :=
  if pid < 0x1180 then
    match (pid - 0x1000) % 8 with
    | 0 => some (pChart tEnum 0 3 1)
    | 1 => some (pChart tU8 1 255 3)
    | 2 => some (pChart tEnum 0 1 0)
    | 3 => some { pChart tU16 0 0 0 with ranges := [(0, 0), (100, 1450)] }
    | 4 => some { pChart tU16 0 0 0 with ranges := [(0, 0), (100, 1450)] }
    | _ => none
  else if pid < 0x1198 then
    match (pid - 0x1180) % 4 with
    | 0 => some (pChart tU16 1 1000 100)
    | 1 => some (pGlobal tEnum 0 1 0 .now)
    | _ => none
  else if 0x1200 ≤ pid ∧ pid < 0x12C0 then
    match (pid - 0x1200) % 8 with
    | 0 => some (pChart tEnum 0 2 0)
    | 1 => some (pChart tEnum 0 2 1)
    | 2 => some (pGlobal tEnum 0 1 0 .restart)
    | _ => none
  else if pid = 0x1301 then some (pGlobal tU8 1 250 20 .now)
  else none

/-- Analogue channels (R480), by offset in the channel block. -/
def paramChannel (k : Nat) : Option PInfo :=
  match k with
  | 0x00 => some (pChart tEnum 0 2 2)
  | 0x01 => some (pChart tEnum 0 1 1)
  | 0x02 => some (pChart tEnum 0 2 0)
  | 0x03 => some (pChart tF40 0 0 0)
  | 0x04 => some (pChart tF40 0 0 f40Hundred)
  | 0x05 => some (pChart tU16 0 1000 100)
  | 0x06 => some { pChart tU8 0 0 0 with ranges := [(0, 0), (2, 16)] }
  | 0x07 => some (pChart tU32 3500000 4000000 3800000)
  | 0x08 => some (pChart tU32 20000000 22000000 20500000)
  | 0x09 => some (pChart tU32 0 4000000 3600000)
  | 0x0A => some (pChart tU32 20000000 24000000 21000000)
  | 0x0B => some (pChart tEnum 0 1 0)
  | 0x0C => some (pChart tU32 0 100000 0)
  | 0x0D => some (pChart tU32 100 1000000 10000)
  | 0x0E => some { pChart tU32 0 0 2000 with ranges := [(0, 0), (100, 100000)] }
  | 0x0F => some (pChart tU32 0 24000000 3600000)
  | 0x10 => some (pChart tEnum 0 3 3)
  | 0x11 => some (pChart tEnum 0 3 3)
  | 0x12 => some { pGlobal tU32 0 0 600 .now with ranges := [(0, 0), (60, 86400)] }
  | 0x13 => some (pGlobal tEnum 0 1 0 .restart)
  | 0x14 => some (pChart tEnum 0 2 0)
  | 0x15 => some (pChart tU8 1 63 1)
  | 0x16 => some (pChart tU16 500 60000 1000)
  | 0x17 => some (pChart tU8 0 255 57)
  | 0x18 => some (pGlobal tU32 0 0xFFFFFF 0 .restart)
  | 0x19 => some (pChart tU64 0 0xFFFFFFFFFFFF 0)
  | _ => none

/-- The default band boundaries of islands and display, in 0.1 °C (R480, R545). -/
def bandDefaults : List Int := [-150, 100, 350, 600, 800, 1000, 1150]

def paramAnalogue (pid : Nat) : Option PInfo :=
  if pid < 0x1600 then paramChannel ((pid - 0x1400) % 0x40)
  else if pid = 0x1600 ∨ pid = 0x1601 then some (pGlobal tU16 0 0xFFFF 0 .restart)
  else if pid ≤ 0x1608 then some (pGlobal tI32 (-400) 1250 (i32 (bandDefaults.getD (pid - 0x1602) 0)) .now)
  else if 0x1700 ≤ pid then
    if pid % 2 = 0 then some (pChart tU32 0 25000000 0) else some (pChart tF40 0 0 0)
  else none

/-- Line block (R520), by offset. -/
def paramLine (k : Nat) : Option PInfo :=
  match k with
  | 0x00 => some (pChart tEnum 0 2 0)
  | 0x01 => some (pChart tEnum 0 3 2)
  | 0x02 => some (pChart tEnum 0 5 2)
  | 0x03 => some (pChart tU8 60 90 80)
  | 0x04 => some (pChart tU8 60 90 75)
  | 0x05 => some (pChart tU8 1 16 8)
  | 0x06 => some (pChart tU8 1 4 1)
  | 0x07 => some (pChart tU32 500 100000 10000)
  | 0x08 => some (pChart tU16 20 2000 100)
  | 0x09 => some (pChart tU8 1 15 2)
  | 0x0A => some (pChart tU8 1 15 2)
  | 0x0B => some (pChart tU8 0 32 4)
  | 0x0C => some (pChart tEnum 0 1 0)
  | 0x0D => some (pChart tU16 0 1000 0)
  | 0x0E => some (pChart tU8 0 63 0)
  | 0x0F => some (pGlobal tEnum 0 1 1 .now)
  | 0x10 => some (pGlobal tU32 0 0x7FF 0 .now)
  | 0x11 => some (pGlobal tU32 0 0x7FF 0x7FF .now)
  | 0x12 => some (pGlobal tU8 0 8 8 .now)
  | 0x13 => some (pGlobal tU64 0 18446744073709551615 0 .now)
  | 0x14 => some (pGlobal tU64 0 18446744073709551615 0 .now)
  | _ => none

/-- Lines, filters and stations (R520). -/
def paramBus (pid : Nat) : Option PInfo :=
  if pid < 0x1A00 then
    let k := pid % 0x100
    if k < 0x20 then paramLine k
    else if k < 0xA0 then
      match (k - 0x20) % 4 with
      | 0 => some (pChart tU32 0 0x3FFFFFFF 0)
      | 1 => some (pChart tU32 0 0x3FFFFFFF 0)
      | 2 => some (pChart tU32 0 0x3FFFFFF 0)
      | _ => some (pChart tU16 0 60000 1000)
    else none
  else
    if pid % 0x100 < 4 then none
    else match pid % 4 with
      | 0 => some (pChart tEnum 0 2 0)
      | 1 => some (pChart tU32 0 0x3FFFFFFF 0)
      | 2 => some (pChart tU16 0 0xFFFF 0)
      | _ => none

def lcdRateDefaults : List Nat := [5, 6, 6, 6, 6, 7, 7, 7]
def pulseDefaults : List Nat := [60, 40, 25, 20, 15, 12, 10, 10]

/-- Display (R545). -/
def paramDisplay (k : Nat) : Option PInfo :=
  if k = 0x00 then some (pChart tEnum 0 2 0)
  else if k = 0x01 then some (pChart tU8 1 8 4)
  else if k = 0x02 then some (pChart tEnum 0 2 1)
  else if k = 0x03 then some (pChart tEnum 0 3 1)
  else if k = 0x04 then some (pChart tEnum 0 2 1)
  else if k = 0x05 then some (pChart tEnum 0 1 0)
  else if k = 0x06 then some { pChart tU8 0 31 0xFF with ranges := [(0, 31), (255, 255)] }
  else if k = 0x07 then some (pChart tEnum 0 1 0)
  else if k = 0x08 then some (pGlobal tU16 50 400 200 .now)
  else if k = 0x09 then some (pGlobal tU8 0 7 0 .now)
  else if k ≤ 0x0F then some (pGlobal tI32 (-400) 1250 (i32 (bandDefaults.getD (k - 0x0A) 0)) .now)
  else if k < 0x18 then some (pChart tEnum 0 7 (lcdRateDefaults.getD (k - 0x10) 0))
  else if k < 0x20 then some (pGlobal tU16 1 200 (pulseDefaults.getD (k - 0x18) 0) .now)
  else if k < 0x28 then some (pGlobal tU16 1 200 (pulseDefaults.getD (k - 0x20) 0) .now)
  else if k = 0x28 then some (pGlobal tI32 (-400) 1250 (i32 1150) .now)
  else none

/-- Time, logbook, watchdog, update (R585, R611, R646, R145). -/
def paramHigh (pid : Nat) : Option PInfo :=
  if pid = 0x1D00 then some (pGlobal tEnum 0 4 0 .now)
  else if pid = 0x1D01 then some (pGlobal tI32 (-4096) 4095 0 .now)
  else if pid = 0x1D02 then some (pGlobal tU16 64 4096 1024 .now)
  else if pid = 0x1D03 then some (pGlobal tEnum 0 2 1 .now)
  else if pid = 0x1D04 then some (pGlobal tEnum 0 1 0 .now)
  else if pid = 0x1D05 then some (pGlobal tEnum 0 1 0 .now)
  else if pid = 0x1E00 then some (pGlobal tU16 60 3600 3600 .now)
  else if pid = 0x1F00 then some (pGlobal tU16 1 4096 100 .now)
  else if pid = 0x1F01 then some (pGlobal tEnum 0 1 1 .now)
  else if pid = 0x1F02 then some (pGlobal tEnum 0 1 0 .now)
  else if pid = 0x2001 then some (pGlobal tU16 10 600 120 .now)
  else if pid = 0x2010 then some (pGlobal tU32 0 0xFFFFFFFF 0 .now)
  else none

/-- The row of a PID; none for a reserved PID (R682, R684, R685). Log entry 90 (DEDUCED). -/
def paramInfo (pid : Nat) : Option PInfo :=
  if pid < 0x1000 then paramLow pid
  else if pid < 0x1400 then paramDigital pid
  else if pid < 0x1800 then paramAnalogue pid
  else if pid < 0x1C00 then paramBus pid
  else if pid < 0x1D00 then paramDisplay (pid - 0x1C00)
  else if pid < 0x10000 then paramHigh pid
  else none

/-- The default of a PID, 0 for a reserved one. -/
def paramDefault (pid : Nat) : Nat := ((paramInfo pid).map (·.dflt)).getD 0

/-- The width in bytes of a type (R140); an enumeration is read as one byte. -/
def typeWidth (t : Nat) : Nat :=
  match t with
  | 1 => 1 | 2 => 2 | 3 => 4 | 4 => 4 | 5 => 8 | 6 => 5 | 7 => 5 | _ => 1

/-- A value of a type as an integer. -/
def paramInt (t v : Nat) : Int := if t = 4 ∧ 2147483648 ≤ v then (v : Int) - 4294967296 else v

/-- Whether a value passes check 1 for its PID (R683). Log entry 90 (DEDUCED). -/
def paramValueOk (i : PInfo) (v : Nat) : Bool :=
  decide (v < 256 ^ typeWidth i.type) &&
    (if i.type = 7 then decide ((v / 2147483648) % 256 ≠ 255)
     else i.ranges.any (fun r => decide (r.1 ≤ paramInt i.type v ∧ paramInt i.type v ≤ r.2)))

/-- The value in effect of a parameter: the one that differs from its default, or the default (R686, R687). -/
def par (s : State) (pid : Nat) : Nat := smGet paramDefault s.params.eff pid

/-- A signed value in effect. -/
def parInt (s : State) (pid : Nat) : Int := paramInt 4 (par s pid)

/-- Set the value in effect of a parameter. -/
def setPar (s : State) (pid v : Nat) : State :=
  { s with params := { s.params with eff := smSet paramDefault s.params.eff pid v } }

/-- The parameters that only a command writes (R696). -/
def commandOnly (pid : Nat) : Bool :=
  decide (pid ∈ [0x0201, 0x0202, 0x0203, 0x0204, 0x1D00, 0x1D01])

/-- The parameters that each device of a pair holds for itself (R402). -/
def perDevice (pid : Nat) : Bool :=
  decide (pid ∈ [0x0110, 0x0111, 0x0602, 0x0606, 0x1D00, 0x1D01])

/-- The parameters on which the proof of set admission depends (R52). -/
def entersProof (pid : Nat) : Bool :=
  decide (pid ∈ [0x0206, 0x0207, 0x0301, 0x0302, 0x0601, 0x0603]) || decide (0x1A00 ≤ pid ∧ pid < 0x1C00)

/-- The chart-image section to which a chart-scope PID belongs (R688). -/
def paramSection (pid : Nat) : Nat :=
  if pid < 0x1000 then 0x0302
  else if pid < 0x1200 then 0x0303
  else if pid < 0x1400 then 0x0304
  else if pid < 0x1800 then 0x0305
  else if pid < 0x1C00 then 0x0306
  else 0x0307

end Sys2Proof.Machine
end

