-- ==== Sys2Proof/Machine/Receipts.lean ====
section
/-!
DEFINITION. Ports, receipts, the outcome of a command's work and its end (R89-R115), and the energy gauge that
gates writes (R29, R653-R655).
-/
namespace Sys2Proof.Machine

open Sys2Proof

/-! ### Ports -/

def portSt (s : State) : Port → PortSt
  | .spi => s.host.spi
  | .maint => s.host.maint

def setPort (s : State) (p : Port) (x : PortSt) : State :=
  match p with
  | .spi => { s with host := { s.host with spi := x } }
  | .maint => { s with host := { s.host with maint := x } }

/-- Both ports accept packets from the end of resume on (R95), once the pace gauge is qualified and TB locked (R22, R43, R660
step 9); they stay open until the next reset of the logic die. -/
def portOpen (s : State) : Bool := s.power.opened

/-- Work is admitted while the ports are open, until a stop closes admission (R337, R669), and never while TB is not
locked (R22). -/
def accepting (s : State) : Bool := portOpen s && s.power.tbLocked && !s.power.failing && !s.power.stopping

/-- HATTN_N is driven low while the port accepts packets and TX_NEXT is non-zero (R101). -/
def hattnLow (s : State) : Bool := portOpen s && !s.host.spi.tx.isEmpty

/-- Free bytes of a receive buffer of 8,192 bytes (R89, R94). -/
def rxFree (x : PortSt) : Nat := 8192 - x.rx.length

/-- TX_NEXT: length of the next receipt, or what is left of it (R94). -/
def txNext (x : PortSt) : Nat :=
  match x.tx with
  | [] => 0
  | r :: _ => r.length - x.taken

/-- Bytes in a transmit buffer not yet taken. -/
def txBytes (x : PortSt) : Nat := x.tx.foldl (fun n r => n + r.length) 0 - x.taken

/-- Transmit bytes that a port has free for receipts: 128 KiB less the LOST reserve (R89, R90). -/
def txFree (s : State) (p : Port) : Nat := 131072 - 1056 - txBytes (portSt s p) - (portSt s p).reserved

/-! ### Receipts (R108) -/

/-- Status codes (R110). -/
def stDone : BitVec 8 := 0x00
def stAccepted : BitVec 8 := 0x01
def stHeld : BitVec 8 := 0x02
def stCapacity : BitVec 8 := 0x10
def stDeadline : BitVec 8 := 0x11
def stClass : BitVec 8 := 0x12
def stState : BitVec 8 := 0x13
def stAuth : BitVec 8 := 0x14
def stFormat : BitVec 8 := 0x15
def stSession : BitVec 8 := 0x16
def stQueue : BitVec 8 := 0x17
def stHorizon : BitVec 8 := 0x18
def stFault : BitVec 8 := 0x20
def stLost : BitVec 8 := 0x21

/-- A receipt's bytes (R108). `flags` holds NOTICE and MORE in place. -/
def mkReceipt (flags opcode : Nat) (status reason : BitVec 8) (seq token time detail : Nat) (payload : List Byte) :
    List Byte :=
  let body := [0x5F#8, BitVec.ofNat 8 (0x10 + flags)] ++ le 2 (28 + payload.length) ++ le 2 opcode
    ++ [status, reason] ++ le 2 seq ++ le 2 token ++ le 8 time ++ le 4 detail ++ payload
  body ++ le 4 (crc32c body).toNat

/-- Place a receipt in a port's transmit buffer (R99). -/
def place (s : State) (p : Port) (r : List Byte) : State :=
  let x := portSt s p
  setPort s p { x with tx := x.tx ++ [r] }

/-- Give back transmit bytes reserved for receipts to come (R70). -/
def unreserve (s : State) (p : Port) (n : Nat) : State :=
  let x := portSt s p
  setPort s p { x with reserved := x.reserved - n }

/-! ### Commands and their results -/

/-- Log entry 42 (DEDUCED). -/
def findCmd (s : State) (c : CmdRef) : Option Cmd := s.host.cmds.find? (fun x => x.ref = c)

def findResult (s : State) (c : CmdRef) : Option CmdResult := s.host.results.find? (fun x => x.ref = c)

/-- Change the first record of a command: a port without the session may number two alike (R114). Log entry 42 (DEDUCED). -/
def updFirst (c : CmdRef) (f : Cmd → Cmd) : List Cmd → List Cmd
  | [] => []
  | x :: r => if x.ref = c then f x :: r else x :: updFirst c f r

/-- Replace a command's record. -/
def updCmd (s : State) (c : CmdRef) (f : Cmd → Cmd) : State :=
  { s with host := { s.host with cmds := updFirst c f s.host.cmds } }

/-- The session has had a pending command up to now (R121). -/
def touchSession (s : State) (x : Cmd) : State :=
  if x.bySession then
    { s with host := { s.host with
        session := s.host.session.map (fun z => { z with lastPacket := Nat.max z.lastPacket s.tb }) } }
  else s

/-- The latest bound of the bookings that commands hold (R79). -/
def latestBound (cmds : List Cmd) : Nat :=
  cmds.foldl (fun m x => (x.book.toList ++ x.later).foldl (fun m b => Nat.max m b.bound) m) 0

/-- The hold-up energy that the stage in progress has reserved (R655). -/
def stageEnergy (x : Cmd) : Nat := if x.worked then (x.stages.head?.map (·.energy)).getD 0 else 0

def freeEnergy (s : State) (n : Nat) : State :=
  { s with power := { s.power with reservedNj := s.power.reservedNj - n } }

/-- Forget a command, its promises, its reserved bytes and energy (R70, R77, R79, R655). -/
def removeCmd (s : State) (c : CmdRef) : State :=
  match findCmd s c with
  | none => s
  | some x =>
    let cmds := s.host.cmds.eraseP (fun y => decide (y.ref = c))
    touchSession (unreserve
      { freeEnergy s (stageEnergy x) with
        host := { s.host with cmds, results := s.host.results.filter (fun y => y.ref ≠ c) },
        book := { s.book with latest := latestBound cmds } }
      c.port x.reservedBytes) x

/-- Set the outcome of a command's work; it waits for COMMAND_STAGE_COMPLETE to place its receipt (R71, R111). -/
def setResult (s : State) (c : CmdRef) (status reason : BitVec 8) (detail : BitVec 32) (payload : List Byte) : State :=
  match findCmd s c with
  | none => s
  | some x =>
    let r : CmdResult := { ref := c, opcode := x.opcode, status, reason, detail, payload, time := none }
    { s with host := { s.host with results := s.host.results.filter (fun y => y.ref ≠ c) ++ [r] } }

/-- The transfer that a segment belongs to is abandoned when the segment fails (R134). -/
def dropTransfer (s : State) (x : Cmd) : State :=
  { s with host := { s.host with
      transfer := s.host.transfer.filter (fun t => !decide (t.opcode = x.opcode ∧ t.target = field x.packet 16 1)) } }

/-- The work of a command is done with this payload. -/
def done (s : State) (c : CmdRef) (payload : List Byte) : State := setResult s c stDone 0 0 payload

/-- The work of a command ends with REFUSED_STATE under R63 (R112). -/
def refuseState (s : State) (c : CmdRef) (reason : BitVec 8) : State := setResult s c stState reason 0 []

/-- Place a command's final receipt and forget it. DONE carries the completion and the slack to the promise
(R72); the others carry the instant of placement and their detail word (R112). Work that has outlived its promise is never
DONE: the command stands until the timing fault of R84 discards it (R83). -/
def finishNow (s : State) (c : CmdRef) (status reason : BitVec 8) (detail : Nat) (payload : List Byte) : State :=
  match findCmd s c with
  | none => s
  | some x =>
    if status = stDone ∧ x.promise < s.tb then s
    else
      let d := if status = stDone then min (x.promise - s.tb) 0xFFFFFFFF else detail
      let s := if status = stDone then s else dropTransfer s x
      removeCmd (place s c.port (mkReceipt 0 x.opcode.toNat status reason c.seq.toNat x.token.toNat s.tb d payload)) c

/-- The work of a command ends at this event, outside its booked stage: DONE is placed at once. -/
def doneNow (s : State) (c : CmdRef) (payload : List Byte) : State := finishNow s c stDone 0 0 payload

def doneNow? (s : State) (c : Option CmdRef) (payload : List Byte) : State :=
  match c with
  | none => s
  | some c => doneNow s c payload

/-- A host command whose request a closed collar answered ends with FAULT_DISCARDED and the unit number (R17); the
detail word gives the cause of R671. -/
def abortedBy (s : State) (c : CmdRef) (unit cause : Nat) : State :=
  finishNow s c stFault (BitVec.ofNat 8 unit) cause []

/-- A request to a closed collar is answered REQ_ABORTED: a scan goes on (R671), a command ends (R17). -/
def requestAborted (s : State) (u : Nat) (who : Requester) : State :=
  match closingEntry s u with
  | none => s
  | some e =>
    let s := { s with power := { s.power with closed := s.power.closed.map (fun x =>
      if x.1 = e.1 then (x.1, x.2.1, x.2.2.1, x.2.2.2 + 1) else x) } }
    match who with
    | .scan => s
    | .command c => abortedBy s c u e.2.1

/-- A command waits beyond its booked stage for a later event. -/
def waitFor (s : State) (c : CmdRef) : State := updCmd s c (fun x => { x with phase := .waiting })

/-- FAULT_DISCARDED for every command not yet DONE (R85, R674). -/
def discardCommands (s : State) (reason : BitVec 8) (detail : Nat) : State :=
  s.host.cmds.foldl (fun s x => finishNow s x.ref stFault reason detail []) s

/-! ### The share of the gauge (R653-R655), in nJ -/

/-- E_seal: 26.4 mJ (R654). -/
def eSeal : Nat := 26400000

/-- Usable energy at a voltage for a measured fall ΔV in µV: ½ × 0.95 × 10 µC / ΔV × (V² − 81 V²) (R652, R653). -/
def eUsable (deltaUv mv : Nat) : Nat := 4750 * (mv * mv - 81000000) / deltaUv

/-- E_use (R653): 0 below 9.0 V and before the capacitance is measured. -/
def eUse (s : State) : Nat :=
  match s.power.capMeasured with
  | none => 0
  | some d => if s.power.holdupMv < 9000 then 0 else eUsable d s.power.holdupMv

/-- Whether an operation of a demand may start (R655). -/
def energyFor (s : State) (demand : Nat) : Bool := decide (eSeal + s.power.reservedNj + demand ≤ eUse s)

def reserveEnergy (s : State) (n : Nat) : State :=
  { s with power := { s.power with reservedNj := s.power.reservedNj + n } }

/-- A parameter-store group or a spread-counter increment: 0.1 mJ plus 0.02 mJ a page (R654). -/
def eGroup (pages : Nat) : Nat := 100000 + 20000 * pages

end Sys2Proof.Machine
end

