-- ==== Sys2Proof/Machine/PStore.lean ====
section
/-!
DEFINITION. The parameter store (R345-R357) and the spread counters (R358-R360).
-/
namespace Sys2Proof.Machine

open Sys2Proof

/-- What a group writes: a record's kind, scope, key and body; no body deletes the key (R351). -/
structure PWrite where
  kind : PKind
  scope : Nat
  key : Nat
  body : Option (List Byte)
  deriving DecidableEq, Repr

/-- The scope byte of a global record (R347). -/
def globalScope : Nat := 0x0F

/-- The length in bytes of a record (R347). -/
def PRec.length (r : PRec) : Nat := 28 + cdiv r.body.length 4 * 4

/-- Kind codes of records (R347). -/
def pkindCode : PKind → Nat
  | .param => 1
  | .force => 2
  | .mark => 3
  | .groupOpen => 4
  | .groupClose => 5

/-- Bytes 1 to 19 of a record (R347). -/
def PRec.fields (r : PRec) : List Byte :=
  [BitVec.ofNat 8 (pkindCode r.kind), BitVec.ofNat 8 r.scope, BitVec.ofNat 8 r.body.length] ++ le 4 r.key ++ le 4 r.seq
    ++ le 4 r.group ++ le 2 r.version ++ [0, 0]

/-- The body with its padding (R347). -/
def PRec.padded (r : PRec) : List Byte := padTo (cdiv r.body.length 4 * 4) r.body

/-- The CRC of bytes 0 to 19. -/
def PRec.headSum (r : PRec) : BitVec 32 := crc32c (r.marker :: r.fields)

/-- The body CRC: 0 when the body is empty. -/
def PRec.bodySum (r : PRec) : BitVec 32 := if r.body.isEmpty then 0 else crc32c r.padded

def PRec.live (r : PRec) : Bool := decide (r.marker = 0xA5)
def PRec.headOk (r : PRec) : Bool := decide (r.headCrc = r.headSum)
def PRec.bodyOk (r : PRec) : Bool := decide (r.bodyCrc = r.bodySum)

/-- A record's bytes in its half's log (R347). -/
def PRec.bytes (r : PRec) : List Byte :=
  r.marker :: r.fields ++ le 4 r.headCrc.toNat ++ r.padded ++ le 4 r.bodyCrc.toNat

def PRec.valid (r : PRec) : Bool := r.live && r.headOk && r.bodyOk

def sameKey (r : PRec) (k : PKind) (scope key : Nat) : Bool := r.kind = k && r.scope = scope && r.key = key

def half (p : PStore) (h : Nat) : List PRec := if h % 2 = 0 then p.half0 else p.half1

/-- Append a record to a half's log (R346). -/
def appendRec (p : PStore) (h : Nat) (r : PRec) : PStore :=
  if h % 2 = 0 then
    { p with half0 := p.half0 ++ [{ r with pos := p.head0 }], head0 := p.head0 + r.length }
  else
    { p with half1 := p.half1 ++ [{ r with pos := p.head1 }], head1 := p.head1 + r.length }

/-- The highest sequence of a key with a checking header, in either half (R349, R352). Log entry 62 (DEDUCED). -/
def highestSeq (p : PStore) (k : PKind) (scope key : Nat) : Nat :=
  (p.half0 ++ p.half1).foldl (fun n r => if sameKey r k scope key && r.live && r.headOk then Nat.max n r.seq else n) 0

/-- The candidate of a half: the valid record of highest sequence, the later of equals (R352). -/
def candidate (rs : List PRec) (k : PKind) (scope key : Nat) : Option PRec :=
  rs.foldl (fun best r =>
    if sameKey r k scope key && r.valid then
      match best with
      | none => some r
      | some b => if b.seq ≤ r.seq then some r else some b
    else best) none

/-- A live record with its CRCs, before it has a place. -/
def recOf (k : PKind) (scope key seq group : Nat) (body : List Byte) : PRec :=
  let r : PRec := { marker := 0xA5, kind := k, scope, key, seq, group, version := 0, body, headCrc := 0, bodyCrc := 0, pos := 0 }
  { r with headCrc := r.headSum, bodyCrc := r.bodySum }

/-! ### Pages (R346) -/

/-- The 8-byte header of a log page: its sequence, and where the first record that begins in it lies. `page` counts the 248
payload bytes of each page from the start of the half's log. -/
def pageHeader (rs : List PRec) (page : Nat) : List Byte :=
  let first := match rs.find? (fun r => decide (r.pos / 248 = page)) with
    | none => 0xFFFF
    | some r => 8 + r.pos % 248
  le 4 page ++ le 2 first ++ [0, 0]

/-- A log page of a half: its header and the record bytes that fall into it. -/
def pageBytes (rs : List PRec) (page : Nat) : List Byte :=
  let lo := page * 248
  pageHeader rs page ++ padTo 248 (rs.flatMap (fun r =>
    (r.bytes.zipIdx.filter (fun x => decide (lo ≤ r.pos + x.2 ∧ r.pos + x.2 < lo + 248))).map (·.1)))

/-- Write one entry: the record with sequence n to half n mod 2 (R349), or two tombstones (R351). A key leaves
CONFLICT when a group writes a new record for it (R354). -/
def writeEntry (p : PStore) (group : Nat) (w : PWrite) : PStore :=
  let n := highestSeq p w.kind w.scope w.key + 1
  let p := { p with conflicts := p.conflicts.filter (fun c => c ≠ (w.kind, w.scope, w.key)) }
  match w.body with
  | some b => appendRec p n (recOf w.kind w.scope w.key n group b)
  | none =>
    appendRec (appendRec p n (recOf w.kind w.scope w.key n group [])) (n + 1)
      (recOf w.kind w.scope w.key (n + 1) group [])

/-- Records in a group: a deletion makes two. -/
def groupCount (ws : List PWrite) : Nat := ws.foldl (fun n w => n + (if w.body.isSome then 1 else 2)) 0

/-- Pages of a group, 248 record bytes each (R346). Log entry 62 (DEDUCED). -/
def groupPages (ws : List PWrite) : Nat :=
  cdiv (ws.foldl (fun n w => n + (match w.body with | some b => 28 + cdiv b.length 4 * 4 | none => 56)) 64) 248

/-- Write a group: group open in half 0, its records, group close in half 0 (R348). -/
def writeGroup (p : PStore) (ws : List PWrite) : PStore :=
  let g := p.nextGroup
  let p := appendRec p 0 (recOf .groupOpen globalScope 0 0 g (le 4 (groupCount ws)))
  let p := ws.foldl (fun p w => writeEntry p g w) p
  let p := appendRec p 0 (recOf .groupClose globalScope 0 0 g [0, 0, 0, 0])
  { p with nextGroup := g + 1 }

/-- What CONFIG frames carry of a parameter group: kind, scope, key and body of each mirrored write (R402).
Log entry 50 (DESIGN CHOICE). -/
def configEntries (ws : List PWrite) : List (List Byte) :=
  (ws.filter (fun w => w.kind ≠ .mark && !(w.kind = .param && perDevice w.key))).map (fun w =>
    [if w.kind = .param then 1 else 2, BitVec.ofNat 8 w.scope, BitVec.ofNat 8 (w.body.getD []).length, 0]
      ++ le 4 w.key ++ w.body.getD [])

/-- Entries put together to the 252 bytes of data that a CONFIG frame carries (R374). -/
def packEntries : List (List Byte) → List (List Byte)
  | [] => []
  | e :: es =>
    match packEntries es with
    | [] => [e]
    | f :: fs => if e.length + f.length ≤ 252 then (e ++ f) :: fs else e :: f :: fs

/-- The CONFIG frames of a parameter group. -/
def groupFrames (ws : List PWrite) : List TwinFrame := (packEntries (configEntries ws)).map (.config 1)

/-- Whether both lanes are aligned: with one, the link carries HEARTBEAT frames only (R372). -/
def bothLanes (s : State) : Bool := s.twin.lane0 && s.twin.lane1

/-- A Helm mirrors each group that it completes to its Watch (R402). -/
def mirrorGroup (s : State) (ws : List PWrite) : State :=
  if s.twin.role = .helm ∧ s.twin.pair = .inStep ∧ bothLanes s ∧ configEntries ws ≠ [] then
    { s with twin := { s.twin with sent := s.twin.sent ++ groupFrames ws, lastSent := s.tb } }
  else s

/-- Write a group of the state's store, when the gauge admits it (R350), and of the snapshot of an update until the next
start (R632). -/
def groupWrite (s : State) (ws : List PWrite) : Option State :=
  if energyFor s (eGroup (groupPages ws)) then
    let snapshot := if s.store.trial then s.store.snapshot else s.store.snapshot.map (fun p => writeGroup p ws)
    some (mirrorGroup { s with pstore := writeGroup s.pstore ws, store := { s.store with snapshot } } ws)
  else none

/-- Device marks by code (R347): HELM_TERM (R391), TWIN_BASE (R401), trim (R446), DSP_INCOMPLETE (R536),
TIME_LAST_SET (R554), TIME_LEARNED (R570). -/
def markTimeLastSet : Nat := 0x0D01
def markTimeLearned : Nat := 0x0D02
def markHelmTerm : Nat := 0x0601
def markTrim (c b : Nat) : Nat := 0x0A00 + 8 * c + b
def markDspIncomplete : Nat := 0x0C01
def markTwinBase : Nat := 0x0602

/-- The newer of the two halves' candidates of a key (R352). -/
def newestRec (p : PStore) (k : PKind) (scope key : Nat) : Option PRec :=
  match candidate p.half0 k scope key, candidate p.half1 k scope key with
  | none, none => none
  | some a, none => some a
  | none, some b => some b
  | some a, some b => if a.seq < b.seq then some b else some a

/-- The value of a key in the store after recovery: none when neither half has a candidate, when the newest is a
tombstone, or in CONFLICT (R351, R352, R354). -/
def pstoreGet (p : PStore) (k : PKind) (scope key : Nat) : Option (List Byte) :=
  if p.conflicts.contains (k, scope, key) then none
  else match newestRec p k scope key with
    | none => none
    | some r => if r.body.isEmpty then none else some r.body

/-- The keys of records of kinds 1 to 3 in either half, each once. -/
def pstoreKeys (p : PStore) : List (PKind × Nat × Nat) :=
  ((p.half0 ++ p.half1).foldl (fun ks r =>
    if r.kind = .groupOpen ∨ r.kind = .groupClose ∨ ¬ r.headOk ∨ ¬ r.live then ks
    else if ks.contains (r.kind, r.scope, r.key) then ks else ks ++ [(r.kind, r.scope, r.key)]) [])

/-! ### Recovery (R355) -/

/-- Group numbers of group-open records without a group close. -/
def openGroups (p : PStore) : List (Nat × Nat) :=
  (p.half0.filter (fun r => r.kind = .groupOpen && r.live && r.headOk
      && !p.half0.any (fun c => c.kind = .groupClose && c.live && c.headOk && c.group = r.group))).map
    (fun r => (r.group, unle r.body))

def inGroup (g : Nat) (r : PRec) : Bool :=
  r.group = g && r.kind ≠ .groupOpen && r.kind ≠ .groupClose && r.live

/-- Complete or roll back one open group (R355); the Bool says whether it was completed. -/
def recoverGroup (p : PStore) (g c : Nat) : Bool × PStore :=
  let rs := (p.half0 ++ p.half1).filter (inGroup g)
  if decide (rs.length = c) && rs.all (fun r => r.headOk && r.bodyOk) then
    (true, appendRec p 0 (recOf .groupClose globalScope 0 0 g [0, 0, 0, 0]))
  else
    let kill := fun r => if inGroup g r then { r with marker := 0 } else r
    (false, appendRec { p with half0 := p.half0.map kill, half1 := p.half1.map kill } 0
      (recOf .groupClose globalScope 0 0 g [1, 0, 0, 0]))

/-- Every open group is completed or rolled back before any other use; a rollback is logged (R355). -/
def recoverPStore (s : State) : State :=
  (openGroups s.pstore).foldl (fun s gc =>
    let (ok, p) := recoverGroup s.pstore gc.1 gc.2
    let s := { s with pstore := p }
    if ok then s else log s 0x41 sevNotice 0x00 (gc.1 % 65536) 0 (le 4 gc.1)) s

/-! ### Reading at start-up (R352) -/

/-- CONFLICT: the parity half holds copies of the highest sequence, none valid, and the other a valid one. -/
def keyConflict (p : PStore) (k : PKind) (scope key : Nat) : Bool :=
  let h := highestSeq p k scope key
  let own := (half p h).filter (fun r => sameKey r k scope key && r.headOk && r.live && r.seq = h)
  let other := (half p (h + 1)).filter (fun r => sameKey r k scope key && r.seq = h)
  !own.isEmpty && !own.any (·.valid) && other.any (·.valid)

/-- A stray: a record of a key in the half its sequence does not belong to. -/
def isStray (h : Nat) (k : PKind) (scope key : Nat) (r : PRec) : Bool :=
  sameKey r k scope key && r.live && r.headOk && decide (r.seq % 2 ≠ h % 2)

/-- The format version that the firmware reads and writes: every layout of the manual is of this one.
Log entry 52 (DEDUCED). -/
def formatVersion : Nat := 0

/-- A record whose format version the firmware does not read stays in place, and its key is in CONFLICT (R633).
Log entry 52 (DEDUCED). -/
def unreadKey (p : PStore) (k : PKind) (scope key : Nat) : Bool :=
  (newestRec p k scope key).any (fun r => !r.body.isEmpty && decide (r.version ≠ formatVersion))

/-- Read one key at start-up: find CONFLICT first, then erase strays (R352). Log entry 52 (DEDUCED). -/
def readKey (s : State) (key : PKind × Nat × Nat) : State :=
  let (k, scope, n) := key
  let p := s.pstore
  if keyConflict p k scope n then
    log { s with pstore := { p with conflicts := p.conflicts ++ [key] } } 0x43 sevAlarm 0x00 (n % 65536) (pkindCode k)
      (le 1 scope ++ le 4 (highestSeq p k scope n))
  else
    let strays := p.half0.filter (isStray 0 k scope n) ++ p.half1.filter (isStray 1 k scope n)
    let p' := { p with
      half0 := p.half0.map (fun r => if isStray 0 k scope n r then { r with marker := 0 } else r),
      half1 := p.half1.map (fun r => if isStray 1 k scope n r then { r with marker := 0 } else r) }
    strays.foldl (fun s r => log s 0x42 sevInfo 0x00 (n % 65536) (pkindCode k) (le 1 scope ++ le 4 r.seq))
      { s with pstore := if unreadKey p' k scope n then { p' with conflicts := p'.conflicts ++ [key] } else p' }

/-- Every key is read after recovery (R352). -/
def readPStore (s : State) : State :=
  let s := recoverPStore s
  (pstoreKeys s.pstore).foldl readKey { s with pstore := { s.pstore with conflicts := [] } }

/-! ### Compaction (R356) -/

/-- Pages of a half's log that hold records, from the oldest to the head. -/
def usedPages (p : PStore) (h : Nat) : Nat :=
  if h % 2 = 0 then cdiv (p.head0 - p.tail0) 248 else cdiv (p.head1 - p.tail1) 248

/-- Free pages of a half's log of 2,046 pages. -/
def freePages (p : PStore) (h : Nat) : Nat := 2046 - usedPages p h

/-- Compact a half: copy the candidates in the oldest page to the head, drop spent tombstones, erase the page. -/
def compactHalf (p : PStore) (h : Nat) : PStore :=
  let tail := if h % 2 = 0 then p.tail0 else p.tail1
  let stop := (tail / 248 + 1) * 248
  let old := (half p h).filter (fun r => r.pos < stop)
  let keep := old.filter (fun r =>
    decide (candidate (half p h) r.kind r.scope r.key = some r) && r.kind ≠ .groupOpen && r.kind ≠ .groupClose
      && !(r.body.isEmpty
        && (match candidate (half p (h + 1)) r.kind r.scope r.key with
            | none => true
            | some o => o.body.isEmpty)))
  let p := keep.foldl (fun p r => appendRec p h r) p
  if h % 2 = 0 then { p with half0 := p.half0.filter (fun r => stop ≤ r.pos), tail0 := Nat.max p.tail0 stop }
  else { p with half1 := p.half1.filter (fun r => stop ≤ r.pos), tail1 := Nat.max p.tail1 stop }

/-! ### Spread counters (R358-R360) -/

/-- Bytes 0 to 12 of a cell of counter k (R358). -/
def cellFields (k v g : Nat) : List Byte := le 8 v ++ le 4 g ++ le 1 k

/-- The 16 bytes of a cell (R358). -/
def cellBytes (k : Nat) (x : Nat × Nat × Byte) : List Byte := cellFields k x.1 x.2.1 ++ [x.2.2, 0, 0]

/-- Whether a cell's CRC checks (R360). -/
def cellOk (k : Nat) (x : Nat × Nat × Byte) : Bool := decide (x.2.2 = crc8 (cellFields k x.1 x.2.1))

/-- The valid cell of the highest generation: value and generation (R360). -/
def SpreadCounter.newest (c : SpreadCounter) (k : Nat) : Nat × Nat :=
  c.cells.toList.foldl (fun b x => if decide (b.2 < x.2.1) && cellOk k x then (x.1, x.2.1) else b) (0, 0)

/-- Write the value into cell (g + 1) mod 16 with generation g + 1 (R359). -/
def SpreadCounter.put (c : SpreadCounter) (k v : Nat) : SpreadCounter :=
  let g := (c.newest k).2
  { cells := vset c.cells ((g + 1) % 16) (v, g + 1, crc8 (cellFields k v (g + 1))) }

/-- Set a spread counter of the state. -/
def spreadPut (s : State) (k v : Nat) : State :=
  { s with spread := vmod s.spread k (fun c => c.put k v) }

def spreadValue (s : State) (k : Nat) : Nat := ((vget s.spread k SpreadCounter.reset).newest k).1

end Sys2Proof.Machine
end

