-- ==== Sys2Proof/Machine/AnaCore.lean ====
section
/-!
DEFINITION. The analogue islands' settings and what other parts ask of them: engineering units (R447, R448), set-point
limits (R449), safe currents (R463, R466), the swap of modes (R295, R296), tags of the measured words (R462, R472)
and the islands' reports (R477-R479). Currents are in nA.
-/
namespace Sys2Proof.Machine

open Sys2Proof

def anaPid (c k : Nat) : Nat := 0x1400 + 0x40 * c + k
def anaP (s : State) (c k : Nat) : Nat := par s (anaPid c k)
def island (s : State) (c : Nat) : Island := vget s.ana c Island.reset
def modAna (s : State) (c : Nat) (f : Island → Island) : State := { s with ana := vmod s.ana c f }

def modeOf (n : Nat) : AnaMode := if n = 0 then .source else if n = 1 then .sink else .input
def modeCode : AnaMode → Nat
  | .source => 0
  | .sink => 1
  | .input => 2
  | .changing => 3

def isOutputMode (m : AnaMode) : Bool := m = .source || m = .sink

/-- The island's mode under the active chart: the one that it has or changes to. -/
def anaModeNow (s : State) (c : Nat) : AnaMode :=
  if (island s c).mode = .changing then (island s c).nextMode else (island s c).mode

/-! ### Characteristics (R447, R448) -/

/-- The points of a channel's table, from a valuation of PIDs. -/
def tablePoints (v : Nat → Nat) (c : Nat) : List (Int × Word) :=
  (List.range (v (anaPid c 6))).map (fun j =>
    ((v (0x1700 + 0x20 * c + 2 * j) : Int), BitVec.ofNat 40 (v (0x1701 + 0x20 * c + 2 * j))))

def risingI : List (Int × Word) → Bool
  | a :: b :: r => decide (a.1 < b.1) && risingI (b :: r)
  | _ => true

def risingE (d : Int) : List (Int × Word) → Bool
  | a :: b :: r => decide (d * fVal a.2 < d * fVal b.2) && risingE d (b :: r)
  | _ => true

/-- R448, R465 and R467 hold of channel c: span, table, sharing, HART role, and the limits of R480. -/
def anaOk (v : Nat → Nat) (c : Nat) : Bool :=
  let k := fun n => v (anaPid c n)
  let pts := tablePoints v c
  decide (fVal (BitVec.ofNat 40 (k 3)) ≠ fVal (BitVec.ofNat 40 (k 4)))
    && (decide (k 2 ≠ 2) || (decide (2 ≤ k 6) && risingI pts
        && (decide (k 0 = 2) || risingE 1 pts || risingE (-1) pts)))
    && decide (k 9 ≤ k 7) && decide (k 8 ≤ k 0xA)
    && (decide (k 0 ≠ 1) || decide (3500000 ≤ k 0xF))
    && (decide (k 0x13 = 0) || (decide (k 0 = 1) && decide (k 0x14 = 0)))
    && (decide (k 0x14 ≠ 1) || decide (k 0 = 1)) && (decide (k 0x14 ≠ 2) || decide (k 0 = 0))

/-- The segment whose end points bracket a value, the first or last beyond the ends. -/
def segmentI (x : Int) : List (Int × Word) → Option ((Int × Word) × (Int × Word))
  | a :: b :: r => if r.isEmpty || decide (x < b.1) then some (a, b) else segmentI x (b :: r)
  | _ => none

def segmentE (d x : Int) : List (Int × Word) → Option ((Int × Word) × (Int × Word))
  | a :: b :: r => if r.isEmpty || decide (d * x < d * fVal b.2) then some (a, b) else segmentE d x (b :: r)
  | _ => none

/-- Nearest integer to n / d, ties away from zero. -/
def roundDiv (n d : Int) : Int :=
  if d = 0 then 0
  else
    let q : Int := ((2 * n.natAbs + d.natAbs) / (2 * d.natAbs) : Nat)
    if (n < 0) = (d < 0) then q else -q

/-- The scale at which the square root is taken. Log entry 57 (DEDUCED). -/
def sqrtScale : Nat := 2 ^ 60

/-- The engineering value of a current (R447), rounded once to F40. Log entry 57 (DEDUCED). -/
def toEu (s : State) (c : Nat) (i : Int) : Word :=
  let lo := fVal (BitVec.ofNat 40 (anaP s c 3))
  let span := fVal (BitVec.ofNat 40 (anaP s c 4)) - lo
  let one : Int := 16000000
  match anaP s c 2 with
  | 0 => f40OfRat (lo * one + (i - 4000000) * span) (16000000 * two158)
  | 1 =>
    if (i - 4000000) * 10000 < (anaP s c 5 : Int) * one then BitVec.ofNat 40 (anaP s c 3)
    else
      let r := isqrt 64 ((i - 4000000).toNat * (sqrtScale * sqrtScale) / 16000000)
      f40OfRat (lo * sqrtScale + r * span) (sqrtScale * two158)
  | _ =>
    match segmentI i (tablePoints (par s) c) with
    | none => BitVec.ofNat 40 (anaP s c 3)
    | some (a, b) =>
      let d := b.1 - a.1
      f40OfRat (fVal a.2 * d + (i - a.1) * (fVal b.2 - fVal a.2)) (d.toNat * two158)

/-- A current beyond every range, for infinities (R449 step 4). -/
def hugeCurrent : Int := 1000000000000

/-- The current of a commanded engineering value (R448); none for a NaN. Log entry 57 (DEDUCED). -/
def fromEu (s : State) (c : Nat) (w : Word) : Option Int :=
  if fIsNan w then none
  else
    let lo := fVal (BitVec.ofNat 40 (anaP s c 3))
    let span := fVal (BitVec.ofNat 40 (anaP s c 4)) - lo
    let up := !fSign w
    if fIsInf w then
      match anaP s c 2 with
      | 1 => some (if up then hugeCurrent else 4000000)
      | 2 =>
        let rising := risingE 1 (tablePoints (par s) c)
        some (if up = rising then hugeCurrent else -hugeCurrent)
      | _ => some (if up = decide (0 < span) then hugeCurrent else -hugeCurrent)
    else
      let x := fVal w - lo
      match anaP s c 2 with
      | 0 => some (4000000 + roundDiv (16000000 * x) span)
      | 1 => if x < 0 then some 4000000 else some (4000000 + roundDiv (16000000 * x * x) (span * span))
      | _ =>
        let pts := tablePoints (par s) c
        let d : Int := if risingE 1 pts then 1 else -1
        (segmentE d (fVal w) pts).map (fun (a, b) =>
          a.1 + roundDiv ((fVal w - fVal a.2) * (b.1 - a.1)) (fVal b.2 - fVal a.2))

/-! ### Set-points (R449, R463, R466) -/

/-- Log entry 59 (DEDUCED). -/
def clampI (lo hi v : Int) : Int := if v < lo then lo else if hi < v then hi else v

/-- Step 3 of R449: the range of the mode (R438), narrower for a shared channel (R466). -/
def modeClamp (s : State) (c : Nat) (m : AnaMode) (v : Int) : Int :=
  match m with
  | .sink => if anaP s c 0x13 = 1 then clampI 3500000 21000000 v else clampI 3500000 24000000 v
  | _ => clampI 0 24000000 v

/-- Limit a set-point; `free` skips step 2. The Bool is OUT_CLAMPED. -/
def limitSetPoint (s : State) (c : Nat) (free : Bool) (prev : Int) (v : Option Int) : Int × Bool :=
  match v with
  | none => (prev, true)
  | some v =>
    let a := if free then v else clampI (anaP s c 7) (anaP s c 8) v
    let b := modeClamp s c (anaModeNow s c) a
    (b, decide (b ≠ v))

/-- A new set-point redirects the move from the present current; after a swap it starts the crossover (R295, R450). -/
def aim (a : Island) (v : Int) (cl : Bool) : Island :=
  { a with setPoint := v, clamped := cl, segFrom := a.current, segAt := 0, safeMove := false, pass := false,
           crossing := a.crossing || a.hold, hold := false }

/-- A value of the channel's output word reaches the island (R172, R449); input channels have none. -/
def sendSetPoint (s : State) (c : Nat) (w : Word) (subst : Bool) : State :=
  let a := island s c
  if a.mode = .input then s
  else
    let (v, cl) := limitSetPoint s c subst a.setPoint (fromEu s c w)
    if a.mode = .changing then modAna s c (fun a => { a with clamped := cl })
    else modAna s c (fun a => aim a v cl)

/-- A channel's safe action: PASS where shared (R466), else a move to ANA_SAFE at ANA_RAMP (R463). -/
def anaSafe (s : State) (c : Nat) : State :=
  let a := island s c
  if !isOutputMode a.mode then s
  else if anaP s c 0x13 = 1 then modAna s c (fun a => { a with pass := true })
  else
    let (v, cl) := limitSetPoint s c true a.setPoint (some (anaP s c 0xF))
    modAna s c (fun a => { aim a v cl with safeMove := true, crossing := false })

def anaSafeAll (s : State) : State := (List.range 8).foldl anaSafe s

/-- The least current of an output mode: where it starts and where a mode change ramps it (R296, R464). -/
def floorCurrent (m : AnaMode) : Int := if m = .sink then 3500000 else 0

/-! ### Swap (R295, R296) and restart (R464) -/

/-- A channel at a swap: `old` gives the old chart's values. -/
def anaSwap (old : Nat → Nat) (s : State) (c : Nat) : State :=
  let m := modeOf (anaP s c 0)
  let a := island s c
  let s := modAna s c (fun a => { a with hartCfgChanged := true, hartLong := none, hartMiss := 0 })
  if a.mode = .changing then modAna s c (fun a => { a with nextMode := m })
  else if a.mode = m then
    modAna s c (fun a => { a with hold := isOutputMode m, crossing := false, safeMove := false, xrate := anaP s c 0xE })
  else
    modAna s c (fun x => { x with
      mode := .changing, nextMode := m, sampled := false, crossing := isOutputMode a.mode, hold := false,
      safeMove := false, pass := false, xrate := old (anaPid c 0xE),
      setPoint := if isOutputMode a.mode then floorCurrent a.mode else x.setPoint, step := none })

/-- A trim from the marks over the factory coefficients: of stage A at byte 0, of stage B at byte 8 (R446). -/
def markedTrim (s : State) (c off b : Nat) : Trim :=
  match pstoreGet s.pstore .mark globalScope (markTrim c b) with
  | none => Trim.zero
  | some m => ⟨unleInt (slice m off 4), unleInt (slice m (off + 4) 4)⟩

/-- An island takes the marks over its factory coefficients (R446). -/
def loadTrim (s : State) (c : Nat) : State :=
  modAna s c (fun a =>
    let a := { a with
      trimA := Vector.ofFn (fun b => markedTrim s c 0 b.val), trimB := Vector.ofFn (fun b => markedTrim s c 8 b.val) }
    if a.blendLeft = 0 then { a with useTrim := vget (if a.stageB then a.trimB else a.trimA) a.band Trim.zero } else a)

def loadTrims (s : State) : State := (List.range 8).foldl loadTrim s

/-- An island that starts with the field die: reloaded from the active chart (R464), with its marks (R446). -/
def anaRestart (s : State) (c : Nat) : State :=
  let s := loadTrim s c
  let m := modeOf (anaP s c 0)
  modAna s c (fun a => { a with
    mode := m, nextMode := m, current := floorCurrent m, setPoint := floorCurrent m, segFrom := floorCurrent m,
    segAt := 0, hold := false, crossing := false, safeMove := false, pass := false, sampled := false, step := none,
    open_ := false, comply := false })

/-- In lockout the islands lose their supply (R464). -/
def anaLockout (s : State) : State :=
  (List.range 8).foldl (fun s c => modAna s c (fun a => { a with
    current := if a.mode = .sink then 3100000 else 0, sampled := false, hartBusy := false, step := none })) s

/-! ### Tags (R462, R472) -/

def islandDown (s : State) (c : Nat) : Bool := collarClosed s (0x10 + c)

/-- Above ANA_FAULT_LO and ANA_SIG_HI, the uncertain band of R462. -/
def anaSat (s : State) (c : Nat) : Bool :=
  let i := (island s c).meas
  decide (anaModeNow s c = .input)
    && (decide ((anaP s c 9 : Int) ≤ i ∧ i < anaP s c 7) || decide ((anaP s c 8 : Int) < i ∧ i ≤ anaP s c 0xA))

/-- Q and L of the measured word: the worst of the rows that apply; between modes the rows of neither do (R296). -/
def measTag (s : State) (c : Nat) : Quality × Bool :=
  let a := island s c
  let input := decide (a.mode = .input)
  let out := !input && isOutputMode a.mode
  let bad := (input && (decide (a.meas < anaP s c 9) || decide ((anaP s c 0xA : Int) < a.meas)))
    || (input && decide (25000000 < a.meas)) || a.open_ || a.chFault
  let unc := anaSat s c || (out && a.comply) || a.uncertainNow || !a.sampled || decide (1250 < a.temp)
  (if bad then qBad else if unc then qUncertain else qGood,
    anaSat s c || (input && decide (25000000 < a.meas)) || (out && a.comply))

/-- The measured word for ACQUIRE. A closed collar keeps the value last acquired, bad. -/
def measWord (s : State) (c : Nat) : Tagged :=
  let old := getItem s (wKey (0x800000 + c))
  if islandDown s c then ⟨old.val, mkTag false false false false false qBad false⟩
  else
    let (q, l) := measTag s c
    ⟨toEu s c (island s c).meas, mkTag false l false false false q false⟩

def hartMaster (s : State) (c : Nat) : Bool := decide (anaP s c 0x14 = 2) && decide (anaModeNow s c = .source)

/-- HART variable v of channel c for ACQUIRE (R472). -/
def hartWord (s : State) (c v : Nat) : Tagged :=
  let a := island s c
  let val := (a.hartVars.getD v none)
  let bad : Tagged := ⟨0, mkTag false false false false false qBad false⟩
  if !hartMaster s c then bad
  else
    match val with
    | none => bad
    | some b =>
      let fresh := match a.hartLastReply with
        | none => false
        | some t => decide (s.tb ≤ t + 3 * msToTb (anaP s c 0x16))
      let lim := if v = 0 then a.hartStatus.getLsbD 0 else a.hartStatus.getLsbD 1
      let q := if a.hartStatus.getLsbD 7 || decide (a.hartResp ≠ 0) || islandDown s c then qBad
        else if !fresh then qStale
        else if a.hartStatus.getLsbD 4 || lim then qUncertain else qGood
      ⟨ofBinary32 b, mkTag false lim false false false q false⟩

/-! ### Reports (R477-R479) -/

def hartOkNow (s : State) (c : Nat) : Bool :=
  let a := island s c
  match anaP s c 0x14 with
  | 2 => a.hartOk
  | 1 => (match a.hartAnswered with | none => false | some t => decide (s.tb ≤ t + msToTb 60000))
  | _ => false

/-- System point k of channel c. -/
def anaPoint (s : State) (c k : Nat) : Bool :=
  let a := island s c
  match k with
  | 0 => a.open_
  | 1 => a.comply
  | 2 => a.faultA || a.faultB
  | 3 => a.chFault || islandDown s c
  | 4 => (match a.step with | some n => decide (4 ≤ n) | none => false)
  | 5 => hartOkNow s c
  | 6 => a.clamped
  | _ => anaSat s c

/-- ANA_FAULT: any STAGE_FAULT or CHANNEL_FAULT. -/
def anaFault (s : State) : Bool := (List.range 8).any (fun c => anaPoint s c 2 || anaPoint s c 3)

def anaFlags (s : State) (c : Nat) : Nat := (List.range 8).foldl (fun n k => n + 2 ^ k * boolBit (anaPoint s c k)) 0

/-- SF.ISLANDc (R478). -/
def sfIsland (s : State) (c : Nat) : Word :=
  let a := island s c
  let t : Nat := ((a.temp / 10) % 256).toNat
  BitVec.ofNat 40 (65536 * t + 8192 * (a.band % 8) + 4096 * boolBit a.stageB + 2048 * boolBit a.step.isSome
    + 1024 * boolBit a.hartBusy + 512 * boolBit a.faultA + 256 * boolBit a.faultB + 128 * boolBit (decide (1250 < a.temp))
    + 64 * boolBit (islandDown s c) + 32 * boolBit a.comply + 16 * boolBit a.open_ + 8 * boolBit a.clamped
    + 4 * boolBit (decide (a.blendLeft ≠ 0) || decide (a.measLeft ≠ 0)) + modeCode a.mode)

/-- The offset correction in the two bytes of ANA.STATUS. One beyond them, which R455 admits, is shown as a free value.
Log entry 56 (DESIGN CHOICE). -/
def offsetBytes (s : State) (c : Nat) (z : Int) : List Byte :=
  if -32768 ≤ z ∧ z ≤ 32767 then leInt 2 z else le 2 (Config.freeValue (s.freeIdx + c)).toNat

/-- The channel block of ANA.STATUS (R479). Log entry 56 (DESIGN CHOICE). -/
def anaBlock (s : State) (c : Nat) : List Byte :=
  let a := island s c
  let role := anaP s c 0x14
  let h := if role = 0 then 0 else if role = 1 then 1 else if a.hartOk then 2 else 3
  le 1 (modeCode a.mode) ++ le 1 (anaFlags s c) ++ le 1 (boolBit a.stageB) ++ le 1 a.band ++ leInt 4 a.meas
    ++ leInt 4 a.setPoint ++ leInt 2 a.headroomMv ++ leInt 2 a.temp ++ le 4 (s.power.opsec - a.relayDone)
    ++ offsetBytes s c a.lastOff ++ leInt 2 a.lastGain ++ le 1 h ++ le 1 (if role = 1 then anaP s c 0x15 else 0)
    ++ le 2 a.hartErr ++ le 4 a.calCount

end Sys2Proof.Machine
end

