-- ==== Sys2Proof/Machine/Ring.lean ====
section
/-!
DEFINITION. The seal ring (R317-R336): lines, records, the head and the tail, live copies, carrying, and the rebuild
of the retained state (R341).
-/
namespace Sys2Proof.Machine

open Sys2Proof

/-! ### Line keys: points k/64, words (0x4000_0000 + a)/8 (R168), hold shadows 0x2000_0000 + index (R320) -/

def shadowKey (idx : Nat) : Nat := 0x20000000 + idx
def isShadowLine (l : Nat) : Bool := decide (0x20000000 ≤ l ∧ l < 0x20000000 + 4096)
def isWordLine (l : Nat) : Bool := decide (0x8000000 ≤ l ∧ l < 0x8200000)

/-- The base data address of a word line. -/
def lineBase (l : Nat) : Nat := (l - 0x8000000) * 8

/-- The shadow line of an output item (R320, R326). -/
def shadowOf (k : Nat) : Nat :=
  if isPointKey k then (k - 0x10000) / 64 else 1024 + (keyAddr k - 0x804000) / 8

/-- The base address of the display block of the loaded program (R521). -/
def dspBase (s : State) : Option Nat := s.prog.bind (·.img.dspBase)

/-- DEXT of the loaded program (R317). Log entry 46 (DEDUCED). -/
def dext (s : State) : Nat := (s.prog.map (·.img.dext)).getD 0

/-- The hold value of an item; none while its HELD bit is 0 (R320). -/
def heldOf (h : SMap Word) (k : Nat) : Option Word := (h.find? (fun e => e.1 = k)).map (·.2)

/-- The eight items of a word line and the 64 of a point line. -/
def wordLineKeys (base : Nat) : List Nat := (List.range 8).map (fun i => wKey (base + i))
def pointLineKeys (n : Nat) : List Nat := (List.range 64).map (fun i => 0x10000 + 64 * n + i)

/-- The content of a line for the ring (R328). -/
def ringLineOf (s : State) (l : Nat) : RingLine :=
  if isShadowLine l then
    let idx := l - 0x20000000
    if idx < 1024 then
      .shadowPoints idx ((pointLineKeys idx).map (fun k => (heldOf s.held k).map (fun w => w.getLsbD 0)))
    else
      .shadowWords idx ((wordLineKeys (0x804000 + 8 * (idx - 1024))).map (heldOf s.held))
  else if isWordLine l then .words (lineBase l) ((wordLineKeys (lineBase l)).map (getItem s))
  else .points (l - 1024) ((pointLineKeys (l - 1024)).map (fun k => (getItem s k).tag))

/-- Kind and line number of a directory entry (R326): 1 word, 2 point, 3 shadow; a word line of the analogue outputs from
0x4_0000 on. -/
def lineId : RingLine → Nat × Nat
  | .words base _ => (1, if base < 0x200000 then base / 8 else 0x40000 + (base - 0x804000) / 8)
  | .points n _ => (2, n)
  | .shadowWords i _ => (3, i)
  | .shadowPoints i _ => (3, i)

/-- An output line of the emitted view: point lines, analogue output lines, the first five lines of the display
block (R341). -/
def emittedLine (dsp : Option Nat) (l : RingLine) : Bool :=
  match l with
  | .points _ _ => true
  | .words base _ =>
    inAnaOut base || (match dsp with | none => false | some d => decide (d ≤ base ∧ base < d + 40))
  | _ => false

/-! ### Positions -/

def ringLines : Nat := 393216
def ringRecordLines : Nat := 392832

/-- Ring lines of a record, header, bitmaps and trailer included (R324). -/
def recSize (r : RingRec) : Nat := r.lines.length + (if r.kind = .seal then 4 else 2)

/-- Record-line number of a ring line; a header line counts as its segment's first record line. -/
def recLine (pos : Nat) : Nat := pos / 1024 * 1023 + (if pos % 1024 = 0 then 0 else pos % 1024 - 1)

/-- The ring line of a record-line number. -/
def ringLine (r : Nat) : Nat := r / 1023 % 384 * 1024 + r % 1023 + 1

/-- The ring line n record lines after a record begins. -/
def lineAt (pos n : Nat) : Nat := ringLine (recLine pos + n)

/-- The head after n record lines, and the segments whose header lines are written on the way (R323). -/
def advanceHead (head n : Nat) : Nat × List Nat :=
  let r := recLine head
  let last := (r + n - 1) / 1023
  let first := if head % 1024 = 0 then head / 1024 else head / 1024 + 1
  let segs := (List.range (last + 1 - first)).map (fun i => (first + i) % 384)
  let e := r + n
  ((if e % 1023 = 0 then e / 1023 % 384 * 1024 else ringLine e), segs)

/-! ### The bytes of a record (R325-R328) -/

/-- A directory entry with its view (R326). -/
def dirEntry (vl : Nat × RingLine) : Nat := (lineId vl.2).1 * 2 ^ 22 + vl.1 * 2 ^ 20 + (lineId vl.2).2

/-- Bits as bytes: bit i at byte i div 8 and bit i mod 8 (R327, R328). -/
def bitBytes (n : Nat) (bit : Nat → Bool) : List Byte :=
  (List.range n).map (fun j => BitVec.ofNat 8 ((List.range 8).foldl (fun v i => v + 2 ^ i * boolBit (bit (8 * j + i))) 0))

/-- The last four bytes of a shadow line: its index, and 0x03 (R328). -/
def shadowTail (idx : Nat) : List Byte := le 2 idx ++ [0, 0x03]

/-- A line's 64 bytes (R328). -/
def lineBytes : RingLine → List Byte
  | .words base vals =>
    padTo 40 (vals.flatMap (fun t => le 5 t.val.toNat)) ++ padTo 8 (vals.map (·.tag)) ++ le 3 base
      ++ List.replicate 12 0 ++ [0x01]
  | .points _ tags => padTo 64 tags
  | .shadowWords idx held =>
    padTo 40 (held.flatMap (fun h => le 5 ((h.map (·.toNat)).getD 0)))
      ++ padTo 20 (held.map (fun h => BitVec.ofNat 8 (boolBit h.isSome))) ++ shadowTail idx
  | .shadowPoints idx held =>
    padTo 60 (bitBytes 8 (fun i => (held.getD i none).getD false) ++ bitBytes 8 (fun i => (held.getD i none).isSome))
      ++ shadowTail idx

def recKindCode : RecKind → Nat
  | .seal => 1
  | .carry => 2
  | .image => 3
  | .state => 4

def subCode : StateKind → Nat
  | .none => 0
  | .load => 1
  | .run => 2
  | .stopHold => 3
  | .stopSafe => 4
  | .clear => 5
  | .resume => 6

/-- Bytes 20 to 27: the RTC at writing, the IMAGE group, or 0 (R325). -/
def timeField (r : RingRec) : Nat :=
  match r.kind with
  | .seal | .state => 2 ^ 63 * boolBit r.rtcValid + 2 ^ 15 * (r.rtcSec % 2 ^ 34) + r.rtcSub % 2 ^ 15
  | .image => r.group.1 % 65536 + 65536 * (r.group.2.1 % 256) + 16777216 * (r.group.2.2 % 256)
  | .carry => 0

def isPointLine : RingLine → Bool
  | .points _ _ => true
  | _ => false

/-- The header line (R325). -/
def headerLine (r : RingRec) : List Byte :=
  let chart := r.chart % 8 + (match r.follow with | none => 0 | some c => 8 + 16 * (c % 8))
  let points := r.lines.countP (fun vl => isPointLine vl.2)
  let spec := match r.kind with
    | .seal | .state => le 2 (r.lines.length - points) ++ le 2 points
    | _ => r.lines.flatMap (fun vl => le 3 (dirEntry vl))
  withCrc (le 2 0x5EA1 ++ [BitVec.ofNat 8 (recKindCode r.kind), BitVec.ofNat 8 r.task] ++ le 8 r.seq ++ le 8 r.stamp
    ++ le 8 (timeField r) ++ [BitVec.ofNat 8 chart,
      BitVec.ofNat 8 (r.progState % 4 + 4 * boolBit r.edit + 16 * subCode r.sub),
      BitVec.ofNat 8 (r.chgReq % 32 + 32 * (r.chgKind % 4)), BitVec.ofNat 8 r.edits]
    ++ le 4 r.powerCycles ++ le 4 r.tailLine ++ le 8 r.tailSeq ++ padTo 12 spec)

/-- The two bitmap lines of a SEAL record (R327). -/
def bitmapLines (r : RingRec) : List (List Byte) :=
  if r.kind = .seal then
    let has := fun i => r.lines.any (fun vl => decide (lineId vl.2 = (2, i)))
    [bitBytes 64 has, bitBytes 64 (fun i => has (512 + i))]
  else []

/-- Every line of a record before its trailer (R324, R327). -/
def bodyLines (r : RingRec) : List (List Byte) :=
  headerLine r :: bitmapLines r ++ r.lines.map (fun vl => lineBytes vl.2)

/-- The CRC of the trailer (R328). -/
def recCrc (r : RingRec) : BitVec 32 := crc32c (bodyLines r).flatten

/-- The trailer line as it stands (R328). -/
def trailerLine (r : RingRec) : List Byte :=
  padTo 64 (le 2 0xE7D1 ++ [0, 0] ++ le 8 r.seq ++ le 4 ((bodyLines r).length + 1) ++ le 4 r.crc.toNat)

/-- The lines of a record in ring order (R324). -/
def recBytes (r : RingRec) : List (List Byte) := bodyLines r ++ [trailerLine r]

/-- A record is complete when its trailer's CRC checks (R324). -/
def recComplete (r : RingRec) : Bool := decide (r.crc = recCrc r)

/-- A segment's header line (R323). -/
def segLine (h : SegHead) : List Byte :=
  withCrc (padTo 60 (le 2 0x5E5B ++ [0, 0] ++ le 8 h.seq ++ le 4 h.first ++ le 4 h.passes))

/-! ### Live copies (R331) -/

/-- The views a line of a record changes: working copy, emitted view (R341). -/
def lineViews (dsp : Option Nat) (kind : RecKind) (vl : Nat × RingLine) : Bool × Bool :=
  match kind with
  | .seal | .state => (true, emittedLine dsp vl.2)
  | .image => (true, false)
  | .carry => (decide (vl.1 ≠ 2), decide (vl.1 ≠ 1) && emittedLine dsp vl.2)

/-- Whether later records hold a newer copy of a line for the working copy or the emitted view. -/
def newerCopy (dsp : Option Nat) (later : List RingRec) (id : Nat × Nat) : Bool × Bool :=
  (later.any (fun r => r.lines.any (fun vl => lineId vl.2 = id && (lineViews dsp r.kind vl).1)),
   later.any (fun r => r.lines.any (fun vl => lineId vl.2 = id && (lineViews dsp r.kind vl).2)))

/-- For which views a copy is live, given the later records. -/
def liveViews (dsp : Option Nat) (r : RingRec) (later : List RingRec) (vl : Nat × RingLine) : Bool × Bool :=
  let v := lineViews dsp r.kind vl
  let n := newerCopy dsp later (lineId vl.2)
  (v.1 && !n.1, v.2 && !n.2)

def isLive (dsp : Option Nat) (r : RingRec) (later : List RingRec) (vl : Nat × RingLine) : Bool :=
  let v := liveViews dsp r later vl
  v.1 || v.2

/-- The list from the oldest record with a live copy on; the head's record stays (R325 bytes 36-47). -/
def trimRecs (dsp : Option Nat) : List RingRec → List RingRec
  | [] => []
  | [r] => [r]
  | r :: rest => if r.lines.any (isLive dsp r rest) then r :: rest else trimRecs dsp rest

/-- Every live copy with its segment, view and content, oldest first. -/
def liveLines (dsp : Option Nat) : List RingRec → List (Nat × Nat × RingLine)
  | [] => []
  | r :: rest =>
    let off := if r.kind = .seal then 3 else 1
    ((r.lines.zipIdx.filter (fun x => isLive dsp r rest x.1)).map (fun x =>
        let v := liveViews dsp r rest x.1
        (lineAt r.pos (off + x.2) / 1024, (if v.1 && v.2 then 0 else if v.1 then 1 else 2), x.1.2)))
      ++ liveLines dsp rest

/-! ### Writing a record -/

/-- The program state of a record header (R325 byte 29). -/
def progStateCode : ProgState → Nat
  | .notLoaded => 0
  | .stopped => 1
  | .running => 2

def reqKindCode : ReqKind → Nat
  | .chg => 0
  | .select => 1
  | .refresh => 2

/-- What a record says of the chart request: SF.CHGREQ [4:0] and the kind of a pending request. -/
def reqCodes (s : State) (fieldChart : Nat) (req : Option ChgReq) : Nat × Nat :=
  let r := req.or s.charts.committed
  (fieldChart + 16 * boolBit r.isSome, (r.map (fun r => reqKindCode r.kind)).getD 0)

/-- SF.CHGREQ [4:0] and the request's kind as a record leaves them (R325 byte 30): a request of a `chg` is sealed with the
scan that made it (R249 rule 4), so the record of another scan states what stood before that scan. -/
def sealedReq (s : State) (by_ : Option Nat) : Nat × Nat :=
  match s.charts.req with
  | some r =>
    if r.kind = .chg ∧ r.isSealed = false ∧ some r.madeBy ≠ by_ then
      match (s.sched.running.toList ++ s.sched.suspended.map (·.1)).find? (fun sc => decide (sc.id = r.madeBy)) with
      | some sc =>
        (match sc.chgBefore with
          | some (f, old) => reqCodes s f old
          | none => reqCodes s s.charts.reqField none)
      | none => reqCodes s s.charts.reqField none
    else reqCodes s s.charts.reqField s.charts.req
  | none => reqCodes s s.charts.reqField none

/-- The scan in progress has sealed an edit whose hooks are not yet in place (R302 step 4). -/
def editSealed (s : State) : Bool :=
  s.sched.running.any (fun sc => sc.isEdit && decide (sc.phase ≠ .execute ∧ sc.phase ≠ .seal))

/-- The header fields common to the records of an instant (R325): a record between a change seal point and its swap names
the following chart, one after an edit seal point counts the edit. -/
def recHeader (s : State) (kind : RecKind) (sub : StateKind) (lines : List (Nat × RingLine)) : RingRec :=
  let timed := decide (kind = .seal ∨ kind = .state)
  { kind, task := 0xFF, seq := 0, stamp := pairTb s s.tb, rtcValid := timed && s.clock.valid,
    rtcSec := if timed then s.clock.sec else 0, rtcSub := if timed then s.clock.sub else 0, group := (0, 0, 0),
    chart := s.charts.active, follow := s.charts.committed.map (·.chart),
    progState := progStateCode s.pstate, edit := false, sub, chgReq := (sealedReq s none).1,
    chgKind := (sealedReq s none).2,
    edits := ((s.prog.map (fun p => p.edits.length)).getD 0 + boolBit (editSealed s)) % 256, powerCycles := runEpoch s,
    tailLine := 0, tailSeq := 0, lines, pos := 0, crc := 0 }

/-- A Helm with an IN_STEP or RESYNC Watch sends every record of its ring as a MANIFEST (R377), on a link of two lanes (R372). -/
def sendManifest (s : State) (seq : Nat) : State :=
  if s.twin.role = .helm ∧ bothLanes s ∧ (s.twin.pair = .inStep ∨ (s.twin.pair = .resync ∧ 4 ≤ s.twin.resyncStage)) then
    { s with twin := { s.twin with sent := s.twin.sent ++ [.manifest seq], lastSent := s.tb } }
  else s

/-- The header lines that the head writes on entering segments with a record (R323): `begins` says that the record begins
in the first of them, `head` is the head after it. Answers the headers with the segment sequence and the passes reached. -/
def enterSegs (begins : Bool) (head : Nat) (m : SMap SegHead) (seq passes : Nat) : List Nat → SMap SegHead × Nat × Nat
  | [] => (m, seq, passes)
  | x :: xs =>
    let p := passes + boolBit (decide (x = 0))
    let first := if begins then 1 else if head / 1024 = x ∧ head % 1024 ≠ 0 then head % 1024 else 0
    enterSegs false head (smInsert m x { seq := seq + 1, first, passes := p }) (seq + 1) p xs

/-- The ring lines that a record occupies, segment headers written on the way included. -/
def linesOf (pos size : Nat) (segs : List Nat) : List Nat :=
  (List.range size).map (lineAt pos) ++ segs.map (fun x => x * 1024)

/-- Put a record into the ring at a line: its segments' headers, and an end of errors in the lines rewritten. -/
def ringPut (g : Ring) (recs : List RingRec) (from_ pos size head seq : Nat) (segs : List Nat) : Ring :=
  let (hs, ss, ps) := enterSegs (decide (from_ % 1024 = 0)) head g.segs g.segSeq g.passes segs
  { g with recs, head, nextSeq := seq + 1, segs := hs, segSeq := ss, passes := ps,
           badLines := g.badLines.filter (fun l => !(linesOf pos size segs).contains l) }

/-- Append a record at the head. The error is the ring line index at which the seal fault of R336 arises: the head
would have to enter a segment that holds a live copy. A LOAD or CLEAR record ends the life of every older one. -/
def ringAppend (s : State) (r : RingRec) : Except Nat State :=
  let d := dspBase s
  let g := s.ring
  let pos := if g.head % 1024 = 0 then g.head + 1 else g.head
  let fresh := decide (r.sub = .load ∨ r.sub = .clear)
  let (head, segs) := advanceHead g.head (recSize r)
  let live := (liveLines d g.recs).map (·.1)
  match segs.find? (fun x => live.contains x) with
  | some x => .error (x * 1024)
  | none =>
    let r := { r with seq := g.nextSeq, pos }
    let recs := trimRecs d (if fresh then [r] else g.recs ++ [r])
    let tail := recs.head?.getD r
    let r' := { r with tailLine := tail.pos, tailSeq := tail.seq }
    let recs := recs.dropLast ++ [{ r' with crc := recCrc r' }]
    .ok (sendManifest { s with ring := { ringPut g recs g.head pos (recSize r) head g.nextSeq segs with
      tailLine := tail.pos, tailSeq := tail.seq } } r.seq)

/-- Bytes from the tail line to the end of the head record (R363); 0 while BROKEN (R343). -/
def ringFill (g : Ring) : Nat :=
  if g.broken || g.recs.isEmpty then 0 else ((g.head + ringLines - g.tailLine) % ringLines) * 64

/-- The tail segment: the one that holds the oldest live copy (R331, R332). -/
def tailSegment (s : State) : Option Nat := (liveLines (dspBase s) s.ring.recs).head?.map (·.1)

/-- The lines of a CARRY record: up to four live copies of the tail segment (R332). -/
def carryLines (s : State) : List (Nat × RingLine) :=
  (((liveLines (dspBase s) s.ring.recs).filter (fun x => some x.1 = tailSegment s)).map (·.2)).take 4

/-- Whether there are lines to carry: the head's own segment is not carried. -/
def carryDue (s : State) : Bool :=
  !s.ring.broken && (tailSegment s).any (fun x => decide (x ≠ s.ring.head / 1024)) && !(carryLines s).isEmpty

/-! ### Rebuild (R341) -/

/-- The initial data and image of a program (R194): E, M, S and F at 0. Log entry 30 (DEDUCED). -/
def baseImage (p : Program) : SMap Tagged :=
  p.img.inits.foldl (fun m e => smSet itemDefault m e.1 e.2) []

/-- What the rebuild carries along the ring. -/
structure Rebuild where
  work : SMap Tagged
  emit : SMap Tagged
  held : SMap Word
  aside : List RingRec
  resumes : Nat
  deriving DecidableEq, Repr

/-- Put the items of a line into an image, E cleared: a record's lines are sealed (R168). -/
def applyLine (m : SMap Tagged) (l : RingLine) : SMap Tagged :=
  match l with
  | .words base vals =>
    (vals.zipIdx).foldl (fun m x => smSet itemDefault m (wKey (base + x.2)) ⟨x.1.val, setE x.1.tag false⟩) m
  | .points n tags =>
    (tags.zipIdx).foldl (fun m x => smSet itemDefault m (0x10000 + 64 * n + x.2) ⟨0, setE x.1 false⟩) m
  | _ => m

def setHeld (h : SMap Word) (k : Nat) (v : Option Word) : SMap Word :=
  match v with
  | none => smErase h k
  | some w => smInsert h k w

/-- Put a shadow line into the hold shadows. -/
def applyShadow (h : SMap Word) (l : RingLine) : SMap Word :=
  match l with
  | .shadowWords i vs =>
    (vs.zipIdx).foldl (fun h x => setHeld h (wKey (0x804000 + 8 * (i - 1024) + x.2)) x.1) h
  | .shadowPoints i vs =>
    (vs.zipIdx).foldl (fun h x => setHeld h (0x10000 + 64 * i + x.2)
      (x.1.map (fun b => if b then 1 else 0))) h
  | _ => h

/-- Apply the lines of a record under the views of R341. -/
def applyRec (dsp : Option Nat) (b : Rebuild) (r : RingRec) : Rebuild :=
  r.lines.foldl (fun b vl =>
    let v := lineViews dsp r.kind vl
    { b with work := if v.1 then applyLine b.work vl.2 else b.work,
             emit := if v.2 then applyLine b.emit vl.2 else b.emit,
             held := if v.1 then applyShadow b.held vl.2 else b.held }) b

/-- One record of the walk. An IMAGE group is kept aside until it is whole (R330, R341). -/
def rebuildRec (dsp : Option Nat) (base : SMap Tagged) (b : Rebuild) (r : RingRec) : Rebuild :=
  match r.kind with
  | .image =>
    let aside := if r.group.2.1 = 1 then [r] else b.aside ++ [r]
    if aside.length = r.group.2.2 then (aside.foldl (applyRec dsp) { b with aside := [] }) else { b with aside }
  | .state =>
    match r.sub with
    | .load => { b with work := base, emit := base, held := [], aside := [], resumes := 0 }
    | .clear => { b with work := base, emit := base, held := [], aside := [] }
    | .resume => { applyRec dsp b r with resumes := b.resumes + 1 }
    | _ => applyRec dsp b r
  | _ => applyRec dsp b r

/-- The walk from tail to head: the ring line index of a break, or the rebuilt state and the head record. -/
def walkRing (dsp : Option Nat) (base : SMap Tagged) (bad : List Nat) : List RingRec → Option Nat → Rebuild →
    Option RingRec → Except Nat (Rebuild × Option RingRec)
  | [], _, b, h => .ok (b, h)
  | r :: rest, prev, b, _ =>
    let inOrder := match prev with | none => true | some p => decide (r.seq = p + 1)
    if !recComplete r || !inOrder || r.lines.any (fun vl => vl.1 = 3)
        || (List.range (recSize r)).any (fun i => bad.contains (lineAt r.pos i)) then .error r.pos
    else walkRing dsp base bad rest (some r.seq) (rebuildRec dsp base b r) (some r)

/-- An incomplete record at the head is ignored, not a break (R339). -/
def completeRecs (recs : List RingRec) : List RingRec :=
  match recs.getLast? with
  | none => recs
  | some r => if recComplete r then recs else recs.dropLast

/-- Whether an item is an output item: a point from 0x1_0000, an analogue output word, or a display word
(words 0 to 39 of the block). -/
def isOutputItem (dsp : Option Nat) (k : Nat) : Bool :=
  if isPointKey k then decide (0x10000 ≤ k)
  else inAnaOut (keyAddr k)
    || (match dsp with | none => false | some d => decide (d ≤ keyAddr k ∧ keyAddr k < d + 40))

/-- E of each output item where the working copy and the emitted view differ (R341). -/
def markDiffs (dsp : Option Nat) (work emit : SMap Tagged) : SMap Tagged :=
  let keys := ((work ++ emit).map (·.1)).filter (isOutputItem dsp)
  keys.foldl (fun m k =>
    let w := smGet itemDefault work k
    smSet itemDefault m k ⟨w.val, setE w.tag (changedItem w (smGet itemDefault emit k))⟩) work

/-- What every item stood at in the last seal: the emitted view for output items, the working copy for data. -/
def sealedView (dsp : Option Nat) (work emit : SMap Tagged) : SMap Tagged :=
  (work.filter (fun e => !isOutputItem dsp e.1)).foldl (fun m e => smInsert m e.1 e.2)
    (emit.filter (fun e => isOutputItem dsp e.1))

/-! ### Newest copies and dirty lines (R166, R168, R176) -/

/-- The newest copy of a line in the ring for the working copy; the record list is oldest first. -/
def newestCopy (recs : List RingRec) (id : Nat × Nat) : Option RingLine :=
  recs.foldl (fun b r =>
    r.lines.foldl (fun b vl => if lineId vl.2 = id && (lineViews none r.kind vl).1 then some vl.2 else b) b) none

/-- The items of a line. -/
def lineKeys (l : Nat) : List Nat :=
  if isWordLine l then wordLineKeys (lineBase l) else if isShadowLine l then [] else pointLineKeys (l - 1024)

/-- Restore a line that an abandoned scan dirtied from its newest copy in the ring, or from the initial data when the
ring holds none (R176). E is what R166 gives for the restored content. -/
def restoreLine (s : State) (l : Nat) : State :=
  let src : SMap Tagged := match newestCopy s.ring.recs (lineId (ringLineOf s l)) with
    | some c => applyLine [] c
    | none => (s.prog.map baseImage).getD []
  (lineKeys l).foldl (fun s k =>
    let t := smGet itemDefault src k
    putItem s k ⟨t.val, setE t.tag (changedItem t (sealedItem s k))⟩) s

/-- After a seal record: E of every item of the sealed lines is cleared, and their content is what later stores
compare against (R166, R168). -/
def sealLine (s : State) (l : Nat) : State :=
  let e := emittedLine (dspBase s) (ringLineOf s l)
  (lineKeys l).foldl (fun s k =>
    let t := getItem s k
    let t' : Tagged := ⟨t.val, setE t.tag false⟩
    let s := putItem s k t'
    { s with sealedImg := smSet itemDefault s.sealedImg k t',
             emitted := if e then smSet itemDefault s.emitted k t' else s.emitted }) s

/-- Lines in the order of a SEAL record: word lines, shadow lines, point lines, each ascending (R327). -/
def recordOrder (ls : List Nat) : List Nat :=
  let u := ls.eraseDups
  ((u.filter isWordLine).mergeSort (· ≤ ·)) ++ ((u.filter isShadowLine).mergeSort (· ≤ ·))
    ++ ((u.filter (fun l => !isWordLine l && !isShadowLine l)).mergeSort (· ≤ ·))

end Sys2Proof.Machine
end

