-- ==== Sys2Proof/Machine/ChartCore.lean ====
section
/-!
DEFINITION. The charts as other parts ask of them: the active chart's image, its tasks, the values of chart-scope
parameters, the output treatment (R147, R277, R278, R287, R686-R688).
-/
namespace Sys2Proof.Machine

open Sys2Proof

/-! ### The active chart -/

def chartSlot (s : State) (c : Nat) : ChartSlot := vget s.charts.slots c ChartSlot.blank

def activeImage (s : State) : Option ChartImage := (chartSlot s s.charts.active).image

/-- A chart that is not empty, not in CONFLICT and bound to the loaded program (R287). -/
def chartUsable (s : State) (c : Nat) : Bool :=
  match s.prog, (chartSlot s c).image with
  | some p, some i => (chartSlot s c).state = .valid && i.programId = p.img.programId
  | _, _ => false

/-- The tasks that the active chart enables (R147), among the program's. -/
def enabledTasks (s : State) : List Nat :=
  match s.prog, activeImage s with
  | some p, some i =>
    (List.range 16).filter (fun t => i.taskMask.getLsbD t && (vget p.tasks t TaskDef.absent).present)
  | _, _ => []

def taskDef (s : State) (t : Nat) : TaskDef :=
  (s.prog.map (fun p => vget p.tasks t TaskDef.absent)).getD TaskDef.absent

def enabledFree (s : State) : List Nat := (enabledTasks s).filter (fun t => !(taskDef s t).fixed)
def enabledFixed (s : State) : List Nat := (enabledTasks s).filter (fun t => (taskDef s t).fixed)

/-- The value a chart gives a chart-scope parameter: the store's record for that chart, else the image's, else the
default (R351, R687); a key in CONFLICT gives the default (R354). -/
def chartValue (s : State) (c pid : Nat) : Nat :=
  if s.pstore.conflicts.contains (PKind.param, c, pid) then paramDefault pid
  else match pstoreGet s.pstore .param c pid with
  | some b => unle b
  | none =>
    match (chartSlot s c).image with
    | some i => smGet paramDefault i.params pid
    | none => paramDefault pid

def isChartPid (pid : Nat) : Bool := ((paramInfo pid).map (·.chart)).getD false

/-- The value of a waiting entry: a deleted record gives what the chart or the default gives. -/
def waitValue (s : State) (pid : Nat) (v : Option Nat) : Nat :=
  match v with
  | some v => v
  | none => if isChartPid pid then chartValue s s.charts.active pid else paramDefault pid

/-- The chart-scope PIDs that a chart or the store gives a value. -/
def chartPids (s : State) (c : Nat) : List Nat :=
  ((((chartSlot s c).image.map (fun i => i.params.map (·.1))).getD [])
    ++ (((s.pstore.half0 ++ s.pstore.half1).filter (fun r => r.kind = .param && r.scope = c)).map (·.key))).eraseDups

/-- Put the chart-scope values of a chart into effect: at its swap, at PROG.LOAD and at a start (R290, R688). -/
def loadChartParams (s : State) (c : Nat) : State :=
  let glob := s.params.eff.filter (fun e => !((paramInfo e.1).map (·.chart)).getD false)
  let eff := (chartPids s c).foldl (fun m pid =>
    if ((paramInfo pid).map (·.chart)).getD false then smSet paramDefault m pid (chartValue s c pid) else m) glob
  { s with params := { s.params with eff } }

/-! ### Output treatment (R277, R278) -/

/-- The treatment entry that names an item. -/
def namedTreat (i : ChartImage) (k : Nat) : Option Treat :=
  i.treat.find? (fun t => decide (t.first ≤ k ∧ k < t.first + t.count))

/-- The treatment of an item: what the chart names, or the defaults of R278. `safe` is the safe value of an unnamed
item. -/
def treatOf (s : State) (k : Nat) (safe : Word) : Treat :=
  match (activeImage s).bind (fun i => namedTreat i k) with
  | some t => t
  | none => { first := k, count := 1, qt := qGood, hold := false, subst := safe, safe }

end Sys2Proof.Machine
end

