-- ==== Sys2Proof/Machine/BusCore.lean ====
section
/-!
DEFINITION. The bus lines as other parts ask of them: bit rates and windows (R482, R496-R498), station maps and item
encodings (R490-R494, R502), the state of stations (R507, R508), the swap of a line (R298) and its reports (R518, R519).
-/
namespace Sys2Proof.Machine

open Sys2Proof

def lineOfBus (s : State) : Line → BusLine
  | .a => s.busA
  | .b => s.busB

def modLine (s : State) (l : Line) (f : BusLine → BusLine) : State :=
  match l with
  | .a => { s with busA := f s.busA }
  | .b => { s with busB := f s.busB }

def lineNo : Line → Nat
  | .a => 0
  | .b => 1

/-- The unit number of a line's controller (R11). -/
def busUnit (l : Line) : Nat := 3 + lineNo l

def busPid (l : Line) (k : Nat) : Nat := 0x1800 + 0x100 * lineNo l + k
def busP (s : State) (l : Line) (k : Nat) : Nat := par s (busPid l k)
def stPid (l : Line) (n k : Nat) : Nat := 0x1A00 + 0x100 * lineNo l + 4 * n + k
def stP (s : State) (l : Line) (n k : Nat) : Nat := par s (stPid l n k)

def station (s : State) (l : Line) (n : Nat) : Station := vget (lineOfBus s l).stations n Station.reset
def modStation (s : State) (l : Line) (n : Nat) (f : Station → Station) : State :=
  modLine s l (fun b => { b with stations := vmod b.stations n f })

/-- The station numbers 1 to 63. -/
def stationNumbers : List Nat := (List.range 63).map (· + 1)

/-! ### Maps (R502, R520) -/

/-- Mapped input points, input words, output points, output words of BUS_ST_MAP. -/
def mapInPts (m : Nat) : Nat := m % 512
def mapInWords (m : Nat) : Nat := m / 512 % 64
def mapOutPts (m : Nat) : Nat := m / 32768 % 512
def mapOutWords (m : Nat) : Nat := m / 16777216 % 64

def stMap (s : State) (l : Line) (n : Nat) : Nat := stP s l n 1
def isExchange (s : State) (l : Line) (n : Nat) : Bool := decide (stP s l n 0 = 1)
def isForeign (s : State) (l : Line) (n : Nat) : Bool := decide (stP s l n 0 = 2)

def exchangeStations (s : State) (l : Line) : List Nat := stationNumbers.filter (isExchange s l)

/-- Item keys of a station (R190, R192). -/
def stInPoint (l : Line) (n i : Nat) : Nat := 0x1000 + 0x4000 * lineNo l + 0x100 * n + i
def stOutPoint (l : Line) (n i : Nat) : Nat := 0x11000 + 0x4000 * lineNo l + 0x100 * n + i
def stInWord (l : Line) (n j : Nat) : Nat := wKey (0x800800 + 0x1000 * lineNo l + 32 * n + j)
def stOutWord (l : Line) (n j : Nat) : Nat := wKey (0x804800 + 0x1000 * lineNo l + 32 * n + j)

/-- Every input item key of a station. -/
def stInKeys (l : Line) (n : Nat) : List Nat :=
  (List.range 256).map (stInPoint l n) ++ (List.range 32).map (stInWord l n)

/-- The postmark of a frame now: the controllers' clock is TB divided by 5 (R484). -/
def postmark (s : State) : Nat := s.tb / 5 * 5

/-- The line and number of the station that an item belongs to (R190, R192). -/
def stationOfKey (k : Nat) : Option (Line × Nat) :=
  if isPointKey k then
    if inStationPoints 0x1000 k then some (.a, (k - 0x1000) / 0x100)
    else if inStationPoints 0x5000 k then some (.b, (k - 0x5000) / 0x100)
    else if inStationPoints 0x11000 k then some (.a, (k - 0x11000) / 0x100)
    else if inStationPoints 0x15000 k then some (.b, (k - 0x15000) / 0x100)
    else none
  else
    let a := keyAddr k
    if inStationWords 0x800800 a then some (.a, (a - 0x800800) / 32)
    else if inStationWords 0x801800 a then some (.b, (a - 0x801800) / 32)
    else if inStationWords 0x804800 a then some (.a, (a - 0x804800) / 32)
    else if inStationWords 0x805800 a then some (.b, (a - 0x805800) / 32)
    else none

/-- Whether an entry on an item takes effect: a station's item only while the chart maps the station (R307). -/
def forceActs (s : State) (k : Nat) : Bool :=
  match stationOfKey k with
  | none => true
  | some (l, n) => decide (stP s l n 0 ≠ 0)

/-- An input item, whose E the next ACQUIRE judges by R163. -/
def isInputItem (k : Nat) : Bool := decide (k < 0xF000) || (isWordKey k && inAnaIn (keyAddr k))

/-- Before an input item changes between two ACQUIREs, what the last one froze is kept for R163. -/
def keepFrozen (s : State) (k : Nat) : State :=
  if isInputItem k && !s.sched.frozen.any (fun e => decide (e.1 = k)) then
    modSched s (fun x => { x with frozen := smInsert x.frozen k (getItem s k) })
  else s

/-- Change an item outside ACQUIRE and EMIT, with E by R166. -/
def setItem (s : State) (k : Nat) (t : Tagged) : State := storeItem (keepFrozen s k) k t

/-! ### Frames (R490, R494, R497) -/

/-- The CAN FD lengths; those up to 8 are also the classical ones. -/
def canLengths : List Nat := [0, 1, 2, 3, 4, 5, 6, 7, 8, 12, 16, 20, 24, 32, 48, 64]

/-- The smallest CAN FD length that holds n bytes. -/
def canLength (n : Nat) : Nat := (canLengths.find? (fun k => decide (n ≤ k))).getD 64

/-- Frame indices and their data lengths for mapped points and words: 120 points and 10 words a frame. -/
def pointFrames (pts : Nat) : List (Nat × Nat) :=
  (List.range (cdiv pts 120)).map (fun p => (p, canLength (4 + cdiv (min 120 (pts - 120 * p)) 2)))
def wordFrames (words : Nat) : List (Nat × Nat) :=
  (List.range (cdiv words 10)).map (fun w => (3 + w, canLength (4 + 6 * min 10 (words - 10 * w))))

def inFrames (m : Nat) : List (Nat × Nat) := pointFrames (mapInPts m) ++ wordFrames (mapInWords m)
def outFrames (m : Nat) : List (Nat × Nat) := pointFrames (mapOutPts m) ++ wordFrames (mapOutWords m)

/-- Rates in kbit/s (R482). -/
def nbrRate (v : Nat) : Nat := match v with | 0 => 125 | 1 => 250 | 2 => 500 | _ => 1000
def dbrRate (nbr v : Nat) : Nat :=
  match v with | 0 => nbrRate nbr | 1 => 1000 | 2 => 2000 | 3 => 4000 | 4 => 5000 | _ => 8000

/-- T_f and T_c in ps (R497). -/
def tF (ra rd n : Nat) : Nat := 34000000000 / ra + (30 + 8 * n) * 1250000000 / rd
def tC (ra n : Nat) : Nat := (8 * n + 47 + (8 * n + 33) / 4) * 1000000000 / ra

/-- Window lengths of a line under a valuation, in ps: input, output, confirmation, slot (R496, R497). -/
structure Windows where
  sync : Nat
  syncTime : Nat
  input : Nat
  output : Nat
  conf : Nat
  slot : Nat
  slots : Nat
  deriving DecidableEq, Repr

def windowsOf (v : Nat → Nat) (l : Line) : Windows :=
  let k := fun n => v (busPid l n)
  let ra := nbrRate (k 1)
  let rd := dbrRate (k 1) (k 2)
  let sts := stationNumbers.filter (fun n => decide (v (stPid l n 0) = 1))
  let sum := fun (f : Nat → List (Nat × Nat)) =>
    (sts.flatMap (fun n => f (v (stPid l n 1)))).foldl (fun t x => t + tF ra rd x.2) 0
  let resp := k 8 * 1000000
  let outs := (sts.filter (fun n => !(outFrames (v (stPid l n 1))).isEmpty)).length
  let slot := Nat.max (tF ra rd 64) (tC ra 8)
  { sync := tF ra rd 12, syncTime := tF ra rd 12 + (if k 0xD ≠ 0 then tF ra rd 8 else 0),
    input := resp + sum inFrames + (if k 0xE ≠ 0 then tF ra rd 8 else 0), output := sum outFrames,
    conf := resp + outs * tF ra rd 8, slot,
    slots := if k 0 = 2 then k 0xB else if k 0 = 1 then k 7 * 900000 / slot else 0 }

/-- R498 holds of a line: rates, station maps, filters, windows. -/
def lineOk (v : Nat → Nat) (l : Line) : Bool :=
  let k := fun n => v (busPid l n)
  let w := windowsOf v l
  let maps := stationNumbers.all (fun n =>
    decide (v (stPid l n 0) ≠ 1)
      || (let m := v (stPid l n 1)
          decide (mapInPts m ≤ 256 ∧ mapInWords m ≤ 32 ∧ mapOutPts m ≤ 256 ∧ mapOutWords m ≤ 32)
            && decide (m % 0x40000000 ≠ 0)))
  let filters := (List.range 32).all (fun f =>
    let t := k (0x22 + 4 * f)
    decide (t % 4 ≠ 1)
      || (decide (v (stPid l (t / 256 % 64) 0) = 2) && decide (t / 256 % 64 ≠ 0)
          && decide (1 ≤ t / 2097152 % 32 ∧ t / 2097152 % 32 ≤ 16)
          && decide (t / 65536 % 32 + t / 2097152 % 32 ≤ 32)))
  decide (nbrRate (k 1) ≤ dbrRate (k 1) (k 2)) && maps && filters
    && (decide (k 0 ≠ 2)
      || decide (w.syncTime + w.input + w.output + w.conf + w.slots * w.slot ≤ k 7 * 900000))

def windows (s : State) (l : Line) : Windows := windowsOf (par s) l

/-- Whether the cycle with this number carries TIME: every BUS_TIME_TX cycles. -/
def carriesTime (s : State) (l : Line) (cycle : Nat) : Bool :=
  decide (busP s l 0xD ≠ 0) && decide (cycle % busP s l 0xD = 0)

/-- Offsets in ps from t_k: end of input window, end of output window, end of confirmation, service slots. -/
def inputEnd (s : State) (l : Line) (cycle : Nat) : Nat :=
  let w := windows s l
  (if carriesTime s l cycle then w.syncTime else w.sync) + w.input
def outputEnd (s : State) (l : Line) (cycle : Nat) : Nat := inputEnd s l cycle + (windows s l).output
def serviceStart (s : State) (l : Line) (cycle : Nat) : Nat :=
  if busP s l 0 = 2 then outputEnd s l cycle + (windows s l).conf else 0

/-- The scheduled start of a cycle (R496). -/
def cycleStart (s : State) (l : Line) (cycle : Nat) : Nat :=
  (lineOfBus s l).tk + (cycle - (lineOfBus s l).cycle) * usToTb (busP s l 7)

/-- Slot identifiers of the bookings: cycle and slot number. -/
def slotId (cycle n : Nat) : Nat := cycle * 4096 + n

/-! ### Item encodings (R494) -/

/-- A point nibble of an input frame. -/
def pointOfNibble (n : Nat) : Tagged :=
  ⟨0, mkTag false (decide (n / 8 % 2 = 1)) false false false (BitVec.ofNat 2 (n / 2)) (decide (n % 2 = 1))⟩

/-- A word with its tag byte of an input frame: Q and L count. -/
def wordOfBytes (bs : List Byte) : Tagged :=
  let t := BitVec.ofNat 8 (field bs 5 1)
  ⟨BitVec.ofNat 40 (field bs 0 5), mkTag false (tagL t) false false false (tagQ t) false⟩

/-- The items of an input frame by index, with station and map (R494). -/
def frameItems (l : Line) (n m idx : Nat) (bs : List Byte) : List (Nat × Tagged) :=
  if idx < 3 then
    ((List.range 120).filter (fun i => decide (120 * idx + i < mapInPts m))).map (fun i =>
      (stInPoint l n (120 * idx + i), pointOfNibble (field bs (4 + i / 2) 1 / (if i % 2 = 0 then 1 else 16) % 16)))
  else
    ((List.range 10).filter (fun i => decide (10 * (idx - 3) + i < mapInWords m))).map (fun i =>
      (stInWord l n (10 * (idx - 3) + i), wordOfBytes (slice bs (4 + 6 * i) 6)))

/-- An output point nibble. -/
def nibbleOfPoint (t : Tagged) : Nat := boolBit (tagV t.tag) + 2 * (tagQ t.tag).toNat + 8 * boolBit (tagS t.tag)

/-- The data of an output frame from the snapshot (R493, R494). -/
def outFrameData (get : Nat → Tagged) (l : Line) (n m idx flags ctag mapId : Nat) : List Byte :=
  let head := le 1 (ctag % 16) ++ le 1 flags ++ le 2 mapId
  if idx < 3 then
    let cnt := min 120 (mapOutPts m - 120 * idx)
    let nib := fun i => if i < cnt then nibbleOfPoint (get (stOutPoint l n (120 * idx + i))) else 0
    let body := (List.range (cdiv cnt 2)).map (fun i => BitVec.ofNat 8 (nib (2 * i) + 16 * nib (2 * i + 1)))
    padTo (canLength (4 + cdiv cnt 2)) (head ++ body)
  else
    let cnt := min 10 (mapOutWords m - 10 * (idx - 3))
    let body := (List.range cnt).flatMap (fun i =>
      let t := get (stOutWord l n (10 * (idx - 3) + i))
      le 5 t.val.toNat ++ [t.tag &&& 0x5F#8])
    padTo (canLength (4 + 6 * cnt)) (head ++ body)

/-! ### ACQUIRE from a station (R507, R508, R511) -/

/-- Whether a station's inputs are held stale. -/
def stationStale (s : State) (l : Line) (n : Nat) : Bool :=
  match (station s l n).state with
  | .lost | .mapErr | .asleep => true
  | _ => false

/-- An input that stands at 0 with Q stale (R319, R507). -/
def staleItem : Tagged := ⟨0, mkTag false false false false false qStale false⟩

/-- The value ACQUIRE takes for an input item of a mapped station; none leaves the item as it stands. A station without a
published set reads 0, stale (R507). Log entry 61 (DEDUCED). -/
def stationItem (s : State) (l : Line) (n k : Nat) : Option Tagged :=
  let st := station s l n
  let hold : Tagged := let t := getItem s k; ⟨t.val, setQ t.tag qStale⟩
  if isForeign s l n then
    if isPointKey k then some ⟨0, mkTag false false false false false qBad false⟩
    else (st.pub.find? (fun e => e.1 = k)).map (·.2)
  else if isExchange s l n then
    if stationStale s l n then some hold
    else if st.hasPub then
      (st.pub.find? (fun e => e.1 = k)).map (fun e =>
        (⟨e.2.val, if st.fault then worsenTag e.2.tag qBad else e.2.tag⟩ : Tagged))
    else some staleItem
  else none

def lostOrMapErr (st : Station) : Bool := st.state = .lost || st.state = .mapErr

def lostCount (s : State) (l : Line) : Nat :=
  (exchangeStations s l).countP (fun n => lostOrMapErr (station s l n))

/-! ### Start, swap and stop of a line (R298, R501, R507, R670) -/

/-- A station as it starts: MISSING, nothing published. Log entry 61 (DEDUCED). -/
def Station.fresh : Station := Station.reset

/-- Take every frame of a line out of its buffers; host frames end with a DONE reason (R513). -/
def dropFrames (s : State) (l : Line) (reason : Nat) : State :=
  let b := lineOfBus s l
  let refs := (b.txb.toList.filterMap (fun f => f.bind (·.ref))) ++ b.outQueue.filterMap (·.ref)
  let s := modLine s l (fun b => { b with txb := Vector.replicate 3 none, outQueue := [] })
  let s := { s with book := { s.book with bus := s.book.bus.filter (fun x => x.1 ≠ l) } }
  refs.foldl (fun s c => doneNow s c ([0, BitVec.ofNat 8 reason] ++ le 8 0)) s

/-- A line starts: its first cycle follows within 2 ms, its stations as after a swap (R501, R507, R516). -/
def startLine (s : State) (l : Line) : State :=
  modLine s l (fun b => { b with
    started := true, asleep := false, cycleRunning := false, stations := Vector.replicate 64 Station.fresh })

def timingPids (l : Line) : List Nat := [1, 2, 3, 4, 5, 6, 7].map (busPid l)

/-- An output frame of a station in a transmit buffer or before it (R490). -/
def outFrameOf (n : Nat) (f : TxFrame) : Bool :=
  f.ref.isNone && !f.frame.ext && decide (f.frame.id / 512 = 2) && decide (f.frame.id % 64 = n)

/-- A station that the new chart leaves out: its points are bad from the swap, and it is sent no further output frames
(R298). -/
def removeStation (s : State) (l : Line) (n : Nat) : State :=
  let s := (stInKeys l n).foldl (fun s k => let t := getItem s k; setItem s k ⟨t.val, setQ t.tag qBad⟩) s
  modLine (modStation s l n (fun _ => Station.fresh)) l (fun b => { b with
    txb := b.txb.map (fun f => f.filter (fun f => !outFrameOf n f)),
    outQueue := b.outQueue.filter (fun f => !outFrameOf n f) })

/-- A station that only the new chart has: its inputs are 0 and stale until its first published set (R298, R507). -/
def addStation (s : State) (l : Line) (n : Nat) : State :=
  modStation ((stInKeys l n).foldl (fun s k => setItem s k staleItem) s) l n (fun _ => Station.fresh)

/-- A line at a chart swap (R298): `old` gives the old chart's values. A station in both charts keeps its state. -/
def busSwap (old : Nat → Nat) (s : State) (l : Line) : State :=
  let changed := (timingPids l ++ [busPid l 0]).any (fun p => decide (old p ≠ par s p))
  let s := stationNumbers.foldl (fun s n =>
    let was := old (stPid l n 0)
    let is := stP s l n 0
    if was ≠ 0 ∧ is = 0 then removeStation s l n
    else if was = 0 ∧ is ≠ 0 then addStation s l n
    else s) s
  if changed then
    let s := dropFrames s l 5
    let rejoin := (lineOfBus s l).busOff
    let s := modLine s l (fun b => { b with cycleRunning := false, busOff := false,
                                            tec := if rejoin then 0 else b.tec,
                                            recErr := if rejoin then 0 else b.recErr })
    if rejoin then log s 0x83 sevNotice (busUnit l) (64 * lineNo l) 0 [0, 0] else s
  else if (lineOfBus s l).busOff ∧ busP s l 0xF = 0 then
    log (modLine s l (fun b => { b with busOff := false, tec := 0, recErr := 0 })) 0x83 sevNotice (busUnit l)
      (64 * lineNo l) 0 [0, 0]
  else s

/-! ### Reports -/

/-- Log entry 72 (PRESUMED). -/
def errorPassive (b : BusLine) : Bool := !b.busOff && (decide (127 < b.tec) || decide (127 < b.recErr))

/-- BUS_CYCLE_LATE: a cycle began late within the last second (R519). -/
def cycleLate (s : State) (l : Line) : Bool :=
  match (lineOfBus s l).lateAt with
  | none => false
  | some t => decide (s.tb ≤ t + 200000000)

/-- SF.BUSA and SF.BUSB (R518). -/
def sfBus (s : State) (l : Line) : Word :=
  let b := lineOfBus s l
  let st := if busP s l 0 = 0 ∨ ¬ b.started then 3 else if b.busOff then 2 else if errorPassive b then 1 else 0
  BitVec.ofNat 40 (16777216 * lostCount s l + 65536 * (b.tec % 256) + 256 * min b.recErr 255 + 16 * (b.cycle % 16)
    + 8 * boolBit b.timeRefOk + 4 * boolBit b.asleep + st)

/-- A bus diagnostic point of a line, k 0 to 5 (R519). -/
def busPoint (s : State) (l : Line) (k : Nat) (ovfSeen : Nat) : Bool :=
  let b := lineOfBus s l
  match k with
  | 0 => errorPassive b
  | 1 => b.busOff
  | 2 => b.asleep
  | 3 => cycleLate s l
  | 4 => decide (ovfSeen < b.fifoOvf)
  | _ => b.timeRefOk

/-- State byte of STATION.LIST. -/
def stationCode (s : State) (l : Line) (n : Nat) : Nat :=
  if isForeign s l n then
    (if (station s l n).pub.any (fun e => decide (tagQ e.2.tag = 0)) then 6 else 7)
  else if !isExchange s l n then 0
  else match (station s l n).state with
    | .ok => 1
    | .missing => 2
    | .lost => 3
    | .mapErr => 4
    | .asleep => 5

/-- The STATION.LIST payload's entries. -/
def stationBytes (s : State) (l : Line) : List Byte :=
  stationNumbers.flatMap (fun n =>
    let st := station s l n
    le 1 (stationCode s l n) ++ le 1 (min st.missed 15 + 16 * (st.confResult % 16)) ++ le 2 (min st.sinceComplete 0xFFFF))

/-- The BUS.STATUS payload. Log entry 56 (DESIGN CHOICE). -/
def busStatusBytes (s : State) (l : Line) : List Byte :=
  let b := lineOfBus s l
  let st := if busP s l 0 = 0 then 4 else if b.asleep then 3 else if b.busOff then 2 else if errorPassive b then 1 else 0
  le 1 (lineNo l) ++ le 1 (busP s l 0) ++ le 1 st ++ le 1 b.tec ++ le 1 (min b.recErr 255) ++ le 1 (lostCount s l)
    ++ le 1 b.fifo.length ++ le 1 0 ++ le 8 b.lastSync ++ le 4 b.cycle ++ le 4 b.fifoOvf ++ le 2 b.busOffs
    ++ le 2 b.aborted ++ le 2 b.busy ++ le 2 b.discarded

end Sys2Proof.Machine
end

