-- ==== Sys2Proof/Machine/DspCore.lean ====
section
/-!
DEFINITION. The display block as other parts ask of it: frames (R522, R523), the safe page (R542), bistable phases
(R532), checks (R541).
-/
namespace Sys2Proof.Machine

open Sys2Proof

def modDsp (s : State) (f : Display → Display) : State := { s with dsp := f s.dsp }

def dspP (s : State) (k : Nat) : Nat := par s (0x1C00 + k)

/-- Bits of a word pair of a common as 72 bits: word 4c or 4c + 2 low, the next high (R521). -/
def commonBits (w : Nat → Word) (k : Nat) : Nat := (w k).toNat % 2 ^ 36 + 2 ^ 36 * ((w (k + 1)).toNat % 2 ^ 36)

/-- A byte of frame memory (R523) from the ON and BLINK bits of a common. -/
def frameByte (on blink j : Nat) : Byte :=
  BitVec.ofNat 8 ((List.range 4).foldl (fun v i =>
    v + 4 ^ i * ((on / 2 ^ (4 * j + i)) % 2 + 2 * ((blink / 2 ^ (4 * j + i)) % 2))) 0)

/-- The frame of the block's own bits. -/
def blockFrame (w : Nat → Word) : List Byte :=
  (List.range 8).flatMap (fun c =>
    (List.range 18).map (fun j => frameByte (commonBits w (4 * c)) (commonBits w (4 * c + 2)) j))

/-- A page of the active chart's text set (R522). -/
def textPage (s : State) (p : Nat) : Option (List Byte) := (activeImage s).bind (fun i => i.pages[p]?)

def blankFrame : List Byte := List.replicate 144 0

def orFrames (a b : List Byte) : List Byte := (a.zip b).map (fun x => x.1 ||| x.2)

/-- The composed frame of R522 from the block's words. -/
def composeFrame (s : State) (w : Nat → Word) : List Byte :=
  let f := blockFrame w
  let ctl := (w 32).toNat
  if ctl / 32 % 2 = 1 then
    match textPage s (ctl % 32) with
    | some p => orFrames f p
    | none => f
  else f

/-- The word k of the block as last sent by EMIT. -/
def sentDspWord (s : State) (k : Nat) : Word :=
  match dspBase s with
  | none => 0
  | some d => (smGet itemDefault s.sent (wKey (d + k))).val

/-- EMIT or a re-emit sends a composed frame with its CRC (R522, R541). -/
def sendFrame (s : State) (f : List Byte) : State :=
  modDsp s (fun d => { d with frame := f, crc := crc16 f })

/-- The safe page, blank when DSP_SAFE_PAGE names none (R542). -/
def safeFrame (s : State) : List Byte := (textPage s (dspP s 6)).getD blankFrame

/-- The display in the safe state: an LCD shows the safe page; a bistable panel only while the logic side drives it
(R542). -/
def dspSafe (s : State) (logic : Bool) : State :=
  if dspP s 0 = 1 ∨ (dspP s 0 = 2 ∧ logic) then
    let f := safeFrame s
    modDsp s (fun d => { d with frame := f, crc := crc16 f })
  else s

/-! ### What the panel shows -/

/-- ON bits of a frame byte, BLINK segments off while the blink half is off. -/
def shownByte (off : Bool) (b : Byte) : Byte :=
  BitVec.ofNat 8 ((List.range 4).foldl (fun v i =>
    let on := b.getLsbD (2 * i)
    let bl := b.getLsbD (2 * i + 1)
    v + 4 ^ i * boolBit (on && !(bl && off))) 0)

def shownFrame (off : Bool) (f : List Byte) : List Byte := f.map (shownByte off)

/-- The target of a bistable update (R532, R534). -/
def bistableTarget (s : State) : List Byte :=
  if s.dsp.blank then blankFrame else shownFrame (decide (dspP s 5 = 1) && s.dsp.blinkOff) s.dsp.frame

/-- Common c of a frame. -/
def commonOf (f : List Byte) (c : Nat) : List Byte := slice f (18 * c) 18

/-- Segments to turn on, and to turn off, of a common. -/
def needsSet (p t : List Byte) (c : Nat) : Bool :=
  ((commonOf p c).zip (commonOf t c)).any (fun x => decide (x.2 &&& ~~~x.1 ≠ 0))
def needsReset (p t : List Byte) (c : Nat) : Bool :=
  ((commonOf p c).zip (commonOf t c)).any (fun x => decide (x.1 &&& ~~~x.2 ≠ 0))

/-- The phases of an update, commons ascending, set before reset, empty ones skipped (R532). -/
def updatePhases (p t : List Byte) (duty : Nat) : List (Nat × Bool) :=
  (List.range duty).flatMap (fun c =>
    (if needsSet p t c then [(c, true)] else []) ++ (if needsReset p t c then [(c, false)] else []))

/-- The phases of a full rewrite (R537). -/
def rewritePhases (duty : Nat) : List (Nat × Bool) := (List.range duty).flatMap (fun c => [(c, true), (c, false)])

/-- The duration of phases in ms under the pulse table of a band (R532, R545). -/
def phasesMs (s : State) (band : Nat) (ps : List (Nat × Bool)) : Nat :=
  ps.foldl (fun n p => n + 1 + (if p.2 then dspP s (0x18 + band) else dspP s (0x20 + band))) 0

/-- The display kinds, duties and biases of two charts agree (R543). -/
def dspSame (a b : Nat → Nat) : Bool := [0x1C00, 0x1C01, 0x1C02].all (fun p => decide (a p = b p))

/-- Turn on, or off, the segments of a common that a target wants on, or off (R532). -/
def pulseCommon (p t : List Byte) (c : Nat) (set : Bool) : List Byte :=
  (p.zip (t.zip (List.range p.length))).map (fun x =>
    if x.2.2 / 18 ≠ c then x.1 else if set then x.1 ||| x.2.1 else x.1 &&& x.2.1)

/-- The phase in progress has ended: the panel image follows it (R532). -/
def pulseDone (s : State) : State :=
  match s.dsp.update with
  | some u =>
    match u.left with
    | [] => s
    | (c, set) :: rest =>
      modDsp s (fun d => { d with panel := pulseCommon d.panel u.target c set, update := some { u with left := rest } })
  | none => s

/-- An update is cut short: its pulse in progress ends at full width and the panel image is kept (R539).
Log entry 77 (DEDUCED). -/
def cutUpdate (s : State) : State :=
  match s.dsp.update with
  | none => s
  | some u =>
    let s := pulseDone s
    { s with dsp := { s.dsp with update := none }, power := { s.power with reservedNj := s.power.reservedNj - u.energy } }

/-- The words of the display block in the emitted view. -/
def emittedDspWord (s : State) (k : Nat) : Word :=
  match dspBase s with
  | none => 0
  | some d => (smGet itemDefault s.emitted (wKey (d + k))).val

/-- The panel image at a start: the emitted view's composed frame (R538), unless DSP_INCOMPLETE stands or a reset has cut
an update short, after which the field die's own record goes on (R539). Log entry 77 (DEDUCED). -/
def startPanel (s : State) (cut : Bool) : State :=
  if cut || s.dsp.rewrite.isSome || (dspBase s).isNone || decide (dspP s 0 ≠ 2) then s
  else modDsp s (fun d => { d with panel := shownFrame false (composeFrame s (emittedDspWord s)) })

/-! ### Checks (R541) -/

def checksCrc (s : State) : Bool := decide (dspP s 3 = 1) || decide (dspP s 3 = 3)
def checksCrack (s : State) : Bool := decide (dspP s 3 = 2) || decide (dspP s 3 = 3)

/-- Set or clear DSP_FAULT with its record. -/
def setDspFault (s : State) (b : Bool) (code : Nat) : State :=
  if s.dsp.fault = b then s
  else log (modDsp s (fun d => { d with fault := b, faultCode := if b then code else 0 })) (if b then 0x90 else 0x91)
    (if b then sevAlarm else sevNotice) 0x07 0 code []

/-- A check's result: after two bad CRC checks in a row or three bad loop measurements the fault stands; after ten good
checks it clears. Log entry 78 (DEDUCED). -/
def dspCheckResult (s : State) (crc good : Bool) : State :=
  if good then
    let s := modDsp s (fun d => { d with
      crcBad := if crc then 0 else d.crcBad, crackBad := if crc then d.crackBad else 0, goodCnt := d.goodCnt + 1 })
    if 10 ≤ s.dsp.goodCnt then setDspFault s false s.dsp.faultCode else s
  else
    let s := modDsp s (fun d => { d with
      crcBad := if crc then d.crcBad + 1 else d.crcBad, crackBad := if crc then d.crackBad else d.crackBad + 1,
      goodCnt := 0 })
    if crc && decide (2 ≤ s.dsp.crcBad) then setDspFault s true 1
    else if !crc && decide (3 ≤ s.dsp.crackBad) then setDspFault s true 2 else s

end Sys2Proof.Machine
end

