-- ==== Sys2Proof/Machine/FieldCore.lean ====
section
/-!
DEFINITION. What other parts need of the field die and its sequencer: gangs, the outputs, the safe state (R278, R419,
R420, R425-R427).
-/
namespace Sys2Proof.Machine

open Sys2Proof

/-- The safe value of a point under a chart; an unnamed one is 0 (R278). -/
def safePointOf (i : Option ChartImage) (k : Nat) : Bool :=
  match i.bind (fun i => namedTreat i k) with
  | none => false
  | some t => t.safe.getLsbD 0

def safePoint (s : State) (k : Nat) : Bool := safePointOf (activeImage s) k

/-! ### Gangs (R419, R420) -/

def doGang (s : State) (n : Nat) : Nat := par s (0x1200 + 8 * n)

/-- The lead of an output's gang: its lowest member. -/
def gangLead (s : State) (n : Nat) : Nat :=
  match doGang s n with
  | 1 => n / 2 * 2
  | 2 => n / 4 * 4
  | _ => n

def gangMembers (s : State) (lead : Nat) : List Nat :=
  match doGang s lead with
  | 1 => [lead, lead + 1]
  | 2 => [lead, lead + 1, lead + 2, lead + 3]
  | _ => [lead]

def gangLeads (s : State) : List Nat := (List.range 24).filter (fun n => gangLead s n = n)

def doAt (s : State) (n : Nat) : DoCh := vget s.field.do_ n DoCh.reset

def modField (s : State) (f : FieldSt → FieldSt) : State := { s with field := f s.field }

def setDo (s : State) (n : Nat) (f : DoCh → DoCh) : State :=
  modField s (fun x => { x with do_ := vmod x.do_ n f })

/-- Change every member of a gang. -/
def setGang (s : State) (lead : Nat) (f : DoCh → DoCh) : State :=
  (gangMembers s lead).foldl (fun s n => setDo s n f) s

/-- Latched off by overload or overtemperature (R421, R422). -/
def latched (d : DoCh) : Bool := d.limit || d.thermal

/-- Whether the field die may energise an output now: not latched, no cut-off, no lockout (R422, R428). -/
def mayEnergise (s : State) (n : Nat) : Bool := !latched (doAt s n) && !s.field.cut && !s.field.lockout

/-- Set FIELD_SAFE for the next scan of each task (R427). -/
def markFieldSafe (s : State) : State :=
  { s with tasks := s.tasks.map (fun t => { t with fieldSafe := true }) }

/-- The output areas of stations (R616). -/
def stationAreas : List Nat := (List.range 63).map (11 + ·) ++ (List.range 63).map (74 + ·)

/-- The field sequencer applies the safe state (R426, R427) with its cause: 1 silence, 2 watchdog-stop path,
3 PROG.STOP with mode 1 or DEV.DORMANT. Outputs of safe value 0 switch off at once; the others take turns. Station frames
carry the chart's safe values from then on (R181, R505). Log entry 69 (DEDUCED). -/
def applySafe (s : State) (cause : Nat) : State :=
  let s := modSched s (fun x => { x with safeAreas := stationAreas })
  if s.field.lockout || s.field.safe.isSome then s
  else
    let want := fun n => s.field.safeVals.getLsbD (gangLead s n)
    let turns := (gangLeads s).filter (fun n => want n && !(doAt s n).on && mayEnergise s n)
    let s := (List.range 24).foldl (fun s n =>
      setDo s n (fun d => { d with cmd := want n, on := d.on && want n })) s
    let s := modField s (fun x => { x with safe := some (s.tb, cause), safeTurns := turns, turns := [],
                                           restoring := false })
    log (markFieldSafe (dspSafe (anaSafeAll s) (decide (cause = 3)))) 0x66 sevAlarm 0x06 0 cause (le 8 s.tb)

/-- An output, with its gang, is switched on in its turn (R426, R430). -/
def energiseTurn (s : State) (lead : Nat) : State :=
  if (doAt s lead).cmd && mayEnergise s lead then setGang s lead (fun d => { d with on := true }) else s

/-- The local outputs' safe values of the active chart, loaded into the field die at a swap (R426, R290). -/
def loadSafeVals (s : State) : State :=
  let bits := (List.range 24).foldl (fun v n => v + 2 ^ n * boolBit (safePoint s (0x10000 + n))) 0
  modField s (fun x => { x with safeVals := BitVec.ofNat 24 bits })

/-- Delivered quality of an output (R429). -/
def deliveredQ (s : State) (_n : Nat) : Quality :=
  if s.field.cut || s.field.lockout then qBad else if s.field.warn then qUncertain else qGood

end Sys2Proof.Machine
end

