-- ==== Sys2Proof/Machine/WdCore.lean ====
section
/-!
DEFINITION. The watchdog's registers, periods, check-ins and the classification of a reply (R586-R609). Instants of
the WDO clock are ticks of the present period.
-/
namespace Sys2Proof.Machine

open Sys2Proof

def modWd (s : State) (f : Watchdog → Watchdog) : State := { s with wd := f s.wd }

/-- P = 1,024 × PERIOD ticks (R587). -/
def wdP (w : Watchdog) : Nat := 1024 * w.period

/-- The window opens at tick W = P × f (R587). -/
def wdW (s : State) : Nat :=
  let p := wdP s.wd
  match s.store.wdwin.toNat with
  | 1 => p / 8
  | 2 => p / 4
  | 3 => 3 * p / 4
  | _ => p / 2

/-- The open window is [W, P) (R587). -/
def wdOpen (s : State) (tick : Nat) : Bool := decide (wdW s ≤ tick ∧ tick < wdP s.wd)

/-- One step of the LFSR (R593). -/
def lfsrStep (v : BitVec 32) : BitVec 32 :=
  let f := (v.getLsbD 31 ^^ v.getLsbD 21) ^^ (v.getLsbD 1 ^^ v.getLsbD 0)
  (v <<< 1) ||| (if f then 1#32 else 0#32)

/-- n steps. -/
def lfsrSteps : Nat → BitVec 32 → BitVec 32
  | 0, v => v
  | n + 1, v => lfsrSteps n (lfsrStep v)

/-- A draw: 32 steps (R593). -/
def lfsrDraw (v : BitVec 32) : BitVec 32 := lfsrSteps 32 v

/-- The expected reply (R592). -/
def wdExpected (query : BitVec 32) (mask : BitVec 17) (salt : BitVec 32) : BitVec 32 :=
  query.rotateLeft 11 ^^^ mask.setWidth 32 ^^^ salt

/-- The mask with which a reply was computed (R596). -/
def wdImplied (query : BitVec 32) (value : BitVec 32) (salt : BitVec 32) : BitVec 17 :=
  (value ^^^ query.rotateLeft 11 ^^^ salt).setWidth 17

/-- A period starts: the mask and DOUBLE are cleared, and a period written in the window takes effect (R589, R604). -/
def wdPeriodStart (s : State) : State :=
  modWd s (fun w => { w with
    mask := 0, dbl := false, dtask := none, tick := 0, period := w.periodNext.getD w.period,
    periodNext := none })

/-- Who serves (R597): the engine while the program runs on a device that is not a Watch, from its first scan on. -/
def wdEngineMode (s : State) : Bool :=
  s.pstate = .running && s.twin.role ≠ .watch && s.power.mode ≠ .halt && s.sched.firstStart.isSome

/-- A change of serving mode starts a period (R589). -/
def wdSyncMode (s : State) : State :=
  let m := wdEngineMode s
  if s.wd.engineMode = m then s
  else
    let s := modWd s (fun w => { w with engineMode := m })
    if s.wd.state = .disabled then s else wdPeriodStart s

/-- A check-in of an agent, a task or 16 for the service processor, also while the watchdog is disabled (R250, R590); a second one
in one period is a double check-in (R591). -/
def wdCheckIn (s : State) (agent : Nat) : State :=
    modWd s (fun w =>
      if w.mask.getLsbD agent ∧ w.state ≠ .disabled then
        { w with dbl := true, dtask := if w.dbl then w.dtask else some agent }
      else { w with mask := w.mask ||| BitVec.ofNat 17 (2 ^ agent) })

/-- What a reply or an expiry amounts to (R595). -/
inductive WdClass where
  | good | early | wrong | dbl | expiry
  deriving DecidableEq, Repr

def WdClass.code : WdClass → Nat
  | .good => 1
  | .early => 2
  | .wrong => 3
  | .dbl => 4
  | .expiry => 5

/-- The first row of R595 that applies. -/
def wdClassify (s : State) (value : BitVec 32) (tick : Nat) : WdClass :=
  if tick < wdW s then .early
  else if s.wd.dbl then .dbl
  else if value ≠ wdExpected s.wd.lfsr s.wd.mask s.store.wdsalt then .wrong
  else .good

/-- A good service: new challenge, WARN, KEYERR and the FAULT_N of a watchdog reset cleared, a period starts (R589,
R593, R600, R609, R679). It records no result: LASTRES is of the last bad service or expiry (R596). -/
def wdGood (s : State) (agent : Nat) : State :=
  let warned := decide (s.wd.state = .warned)
  let s := modWd s (fun w => { w with
    state := .running, lfsr := lfsrDraw w.lfsr, keyerr := false, faultN := false })
  let s := if warned then log s 0xB1 sevNotice 0x1B agent 1 [] else s
  wdPeriodStart s

/-- The values of R596 at a bad service or an expiry. `value` is the reply, none for an expiry. -/
def wdRecord (s : State) (c : WdClass) (agent : Nat) (value : Option (BitVec 32)) : State :=
  modWd s (fun w => { w with
    lastRes := c.code, observed := w.mask, recDtask := w.dtask, recAgent := agent,
    implied := match value with
      | none => w.implied
      | some v => wdImplied w.lfsr v s.store.wdsalt,
    impliedVoid := value.isNone })

/-- Body values of records 0xB0 and 0xB2 (R722). Log entry 82 (DEDUCED). -/
def wdRecordVals (w : Watchdog) : List Byte :=
  le 4 w.observed.toNat ++ le 4 (if w.impliedVoid then 0 else w.implied.toNat) ++ le 1 (w.recDtask.getD 0xFF)

/-- SF.EVENT bit WDX (R235). -/
def evWdx : Word := 1

/-- First-expiry actions (R601): WARN and SF.EVENT.WDX, a record, a period. -/
def wdFirst (s : State) : State :=
  let s := modWd s (fun w => { w with state := .warned })
  let s := { s with power := { s.power with event := s.power.event ||| evWdx } }
  wdPeriodStart (log s 0xB0 sevAlarm 0x1B s.wd.recAgent s.wd.lastRes (wdRecordVals s.wd))

/-- A bad service or an expiry (R600): from RUNNING the first-expiry actions; the Bool says that a watchdog reset
follows, from WARNED. -/
def wdBad (s : State) (c : WdClass) (agent : Nat) (value : Option (BitVec 32)) : State × Bool :=
  match s.wd.state with
  | .disabled => (s, false)
  | .running => (wdFirst (wdRecord s c agent value), false)
  | .warned => (wdRecord s c agent value, true)

/-- A reply of an agent at a tick (R588, R595). A disabled watchdog takes none. Log entry 82 (DEDUCED). -/
def wdReplyAt (s : State) (agent : Nat) (value : BitVec 32) (tick : Nat) : State × Bool :=
  if s.wd.state = .disabled then (s, false)
  else
    let c := wdClassify s value tick
    let s := modWd s (fun w => { w with tick := Nat.max w.tick tick })
    if c = .good then (wdGood s agent, false) else wdBad s c agent (some value)

/-! ### Control registers (R604, R605) -/

/-- A write of PERIOD (R604). Log entry 54 (DEDUCED). -/
def wdWritePeriod (s : State) (p tick : Nat) : State :=
  if wdOpen s tick && decide (1 ≤ p ∧ p ≤ 4096) && s.wd.state ≠ .disabled then
    modWd s (fun w => { w with periodNext := some p, pwign := false })
  else modWd s (fun w => { w with pwign := true })

/-- EN ← 1 (R600): a disabled watchdog starts a period. -/
def wdEnable (s : State) : State :=
  if s.wd.state = .disabled then wdPeriodStart (modWd s (fun w => { w with state := .running })) else s

def wdLocked (s : State) : Bool := s.wd.lock || s.store.wdlockf

/-- EN ← 0: it completes a disable sequence or sets KEYERR (R605). Log entry 54 (DEDUCED). -/
def wdDisable (s : State) (tick : Nat) : State :=
  if s.wd.state = .disabled then s
  else if wdLocked s then modWd s (fun w => { w with keyerr := true, keyStep := 0 })
  else if s.wd.keyStep = 2 && decide (s.wd.keyTick ≤ tick ∧ tick ≤ s.wd.keyTick + 16) then
    modWd s (fun w => { w with state := .disabled, keyStep := 0 })
  else modWd s (fun w => { w with keyerr := true, keyStep := 0 })

/-- A write to WD_KEY (R605). Log entry 54 (DEDUCED). -/
def wdKey (s : State) (v : BitVec 32) (tick : Nat) : State :=
  let key := (v.toNat) % 65536
  if wdLocked s then modWd s (fun w => { w with keyerr := true, keyStep := 0 })
  else if key = 0x6D41 then modWd s (fun w => { w with keyStep := 1, keyTick := tick })
  else if key = 0x92BE && s.wd.keyStep = 1 && decide (s.wd.keyTick ≤ tick ∧ tick ≤ s.wd.keyTick + 16) then
    modWd s (fun w => { w with keyStep := 2, keyTick := tick })
  else modWd s (fun w => { w with keyStep := 0 })

/-- LOCK ← 1 sets it and locks itself and EN; 0 does nothing. -/
def wdSetLock (s : State) (b : Bool) : State := if b then modWd s (fun w => { w with lock := true }) else s

/-- SF.WDSTAT (R609). -/
def wdStat (s : State) : Word :=
  let w := s.wd
  BitVec.ofNat 40 (2 ^ 33 * w.lastRes + 2 ^ 28 * (w.recDtask.getD 0 % 32) + 2 ^ 27 * boolBit w.dbl
    + 2 ^ 26 * boolBit (decide (w.state = .warned)) + 2 ^ 25 * boolBit (wdOpen s w.tick) + 2 ^ 24 * boolBit w.pwign
    + 2 ^ 23 * boolBit w.lock + 2 ^ 22 * boolBit s.store.wdlockf + 2 ^ 21 * boolBit (decide (w.state ≠ .disabled))
    + 2 ^ 20 * boolBit w.engineMode + 2 ^ 18 * s.store.wdwin.toNat + 2 ^ 17 * boolBit w.keyerr + w.implied.toNat)

end Sys2Proof.Machine
end

