-- ==== Sys2Proof/Machine/TwinCore.lean ====
section
/-!
DEFINITION. What other parts need of the pair: pair states, DROP, HANDOVER and the term (R383-R397).
-/
namespace Sys2Proof.Machine

open Sys2Proof

def modTwin (s : State) (f : Twin → Twin) : State := { s with twin := f s.twin }

/-- Codes of the pair states (R385). -/
def pairCode : PairState → Nat
  | .noPartner => 0
  | .hello => 1
  | .resync => 2
  | .inStep => 3
  | .outOfStep => 4
  | .incompatible => 5
  | .isolated => 6

/-- The link is up while both lanes are aligned and HELLO is done (R372). -/
def linkUp (s : State) : Bool := s.twin.lane0 && s.twin.lane1 && s.twin.helloDone

/-- A device of a pair (R366). -/
def paired (s : State) : Bool := s.twin.role ≠ .unpaired

/-- Whether the lanes carry a frame: a HEARTBEAT goes on every lane that is aligned, any other frame needs both (R372). -/
def carried (s : State) : TwinFrame → Bool
  | .heartbeat _ _ _ _ _ => s.twin.lane0 || s.twin.lane1
  | _ => bothLanes s

/-- Send a frame on the twin link (R374). -/
def twinSend (s : State) (f : TwinFrame) : State :=
  if carried s f then
    modTwin s (fun t => { t with sent := t.sent ++ [f], lastSent := s.tb })
  else s

/-- A requested change that can no longer come about, since the Watch is not IN_STEP any more (R395): its TWIN.CHANGE
commands are refused, and scans go on. Log entry 66 (DEDUCED). -/
def endChange (s : State) : State :=
  let refs := s.twin.changeRefs
  let s := modSched s (fun x => { x with
    handoverReq := none, noMoreScans := x.noMoreScans && x.handoverReq.isNone })
  let s := modTwin s (fun t => { t with changeRefs := [], handoverSent := t.handoverSent.filter (fun x => x.2 ≠ 0) })
  refs.foldl (fun s c => finishNow s c stState 0x05 0 []) s

/-- Enter a pair state and log it (R408, R575). -/
def setPair (s : State) (p : PairState) : State :=
  if s.twin.pair = p then s
  else
    let old := pairCode s.twin.pair
    let s := if s.twin.pair = .inStep then endChange s else s
    let sev := if p = .outOfStep ∨ p = .incompatible ∨ p = .isolated then sevAlarm else sevInfo
    log (modTwin s (fun t => { t with pair := p })) 0x50 sev 0x05 (pairCode p) old []

/-- A resynchronisation in progress ends without success: its TWIN.RESYNC finds no Watch in RESYNC (R404). -/
def endResync (s : State) : State :=
  let ref := s.twin.resyncRef
  let s := modTwin s (fun t => { t with resyncStage := 0, resyncRef := none })
  match ref with
  | some c => finishNow s c stState 0x05 0 []
  | none => s

/-- The Helm treats its Watch as OUT_OF_STEP and sends DROP where the link carries it (R383, R386). -/
def dropWatch (s : State) (reason : Nat) : State :=
  if s.twin.role = .helm ∧ (s.twin.pair = .inStep ∨ s.twin.pair = .resync) then
    let s := endResync (setPair s .outOfStep)
    if linkUp s then log (twinSend s (.drop reason)) 0x52 sevAlarm 0x05 (pairCode s.twin.pair) reason [] else s
  else s

/-- Pieces of at most 252 bytes; the fuel is the number of bytes. -/
def pieces : Nat → List Byte → List (List Byte)
  | 0, _ => []
  | n + 1, bs => if bs.isEmpty then [] else bs.take 252 :: pieces n (bs.drop 252)

/-- An image goes out in CONFIG frames of up to 252 bytes of data (R374). -/
def sendImage (s : State) (kind : Nat) (bytes : List Byte) : State :=
  (pieces bytes.length bytes).foldl (fun s b => twinSend s (.config kind b)) s

/-- A Helm sends its Watch the image of a chart (kind 3) or an edit (kind 2) that it takes, ahead of the records that depend
on it (R386, R401). Log entry 50 (DESIGN CHOICE). -/
def mirrorImage (s : State) (kind : Nat) (bytes : List Byte) : State :=
  if s.twin.role = .helm ∧ (s.twin.pair = .inStep ∨ s.twin.pair = .resync) then sendImage s kind bytes else s

/-- The next release of a fixed-period task after an instant (R157). -/
def nextRelease (s : State) (t : Nat) : Nat :=
  match (s.sched.phases.find? (fun x => x.1 = t)).map (·.2) |>.or s.sched.trun with
  | none => s.tb
  | some r =>
    let p := msToTb (taskDef s t).periodMs
    if p = 0 ∨ s.tb < r then r else r + ((s.tb - r) / p + 1) * p

/-- tb until the next release of each fixed-period task (R374). -/
def releaseList (s : State) : List (Nat × Nat) := (enabledFixed s).map (fun t => (t, nextRelease s t - s.tb))

/-- HANDOVER to an IN_STEP Watch, naming the last complete record (R394-R396). -/
def sendHandover (s : State) (cause : Nat) : State :=
  if s.twin.role = .helm ∧ s.twin.pair = .inStep then
    let last := s.ring.nextSeq - 1
    modTwin (twinSend s (.handover last cause s.twin.term (releaseList s)))
      (fun t => { t with handoverSent := some (s.tb, cause) })
  else s

/-- Write HELM_TERM with a term one higher than the highest known (R391), for this device as holder.
Log entry 65 (DEDUCED). -/
def writeTerm (s : State) : State :=
  let term := s.twin.term + 1
  let first := s.ring.nextSeq
  let body := le 4 term ++ le 8 first ++ s.store.serial
  let s := modTwin s (fun t => { t with term, mark := some (term, first, s.store.serial) })
  (groupWrite s [{ kind := .mark, scope := globalScope, key := markHelmTerm, body := some body }]).getD s

/-- T_fast and WATCH_TIMEOUT in tb (R409). -/
def watchTimeout (s : State) : Nat :=
  if par s 0x0604 ≠ 0 then usToTb (par s 0x0604)
  else if s.pstate ≠ .running then 3 * msToTb 1
  else
    let free := if (enabledFree s).isEmpty then [] else [usToTb (par s 0x0301)]
    let all := free ++ (enabledFixed s).map (fun t => msToTb (taskDef s t).periodMs)
    match all with
    | [] => 3 * msToTb 1
    | x :: xs => 3 * xs.foldl min x

end Sys2Proof.Machine
end

