-- ==== Sys2Proof/Machine/Faults.lean ====
section
/-!
DEFINITION. Faults that stop admitted work, and fault halt (R84-R86, R674-R679); the watchdog reset up to the reset of
the die (R602).
-/
namespace Sys2Proof.Machine

open Sys2Proof

def modPower (s : State) (f : Power → Power) : State := { s with power := f s.power }
def modHost (s : State) (f : HostSt → HostSt) : State := { s with host := f s.host }

/-- FAULT_N is driven low (R679); it is released while the logic die is unpowered. -/
def faultNLow (s : State) : Bool :=
  decide (s.power.mode ≠ .dormant ∧ s.power.mode ≠ .backup) &&
    (s.power.faultReq || decide (s.power.mode = .halt) || s.store.recovery || s.power.holdupFault || s.wd.faultN)

/-- RUN and IDLE follow the program and the role (R658); the watchdog's mode follows both (R597). -/
def syncMode (s : State) : State :=
  let run := decide (s.pstate = .running) && decide (s.twin.role = .unpaired ∨ s.twin.role = .helm) && s.power.resumed
    && !s.store.recovery && !s.power.holdupFault
  wdSyncMode (match s.power.mode with
    | .run => if run then s else modPower s (fun p => { p with mode := .idle })
    | .idle => if run then modPower s (fun p => { p with mode := .run }) else s
    | _ => s)

/-- Forget every reference to a host command that waits for an event: none is pending any more. -/
def clearWaits (s : State) : State :=
  let line := fun (l : BusLine) => { l with
    sleepReq := l.sleepReq.map (fun x => (x.1, none)), wakeRef := none,
    txb := l.txb.map (fun f => f.map (fun f => { f with ref := none })),
    outQueue := l.outQueue.filter (fun f => f.ref.isNone) }
  { s with
    sched := { s.sched with
      watches := [], slotWork := [], stopping := s.sched.stopping.map (fun x => (x.1, [])),
      editPending := none, handoverReq := s.sched.handoverReq.map (fun _ => none) },
    charts := { s.charts with
      req := (match s.charts.req with
        | some r => if r.kind = .select then none else some r
        | none => none),
      committed := s.charts.committed.map (fun r => { r with ref := none }),
      deferred := s.charts.deferred.filter (fun r => r.kind = .refresh) },
    host := { s.host with closing := none },
    twin := { s.twin with changeRefs := [], resyncRef := none },
    field := { s.field with test := none },
    ana := s.ana.map (fun a => { a with relayRef := none, trimRef := none, hartQueue := [], hartHost := false }),
    busA := line s.busA, busB := line s.busB,
    clock := { s.clock with setPend := s.clock.setPend.map (fun x => (x.1, none)) },
    store := { s.store with flashOpen := none },
    power := { s.power with closed := s.power.closed.map (fun e => (e.1, e.2.1, none, e.2.2.2)) } }

/-- Stop the logic engine at once: the scans in progress emit nothing (R674). -/
def stopEngine (s : State) : State :=
  { s with
    sched := { s.sched with running := none, suspended := [], waiting := [], roundLeft := [], roundOpen := false },
    eng := { s.eng with pend := none } }

/-- The restart condition of a fault by its code (R674, R86). -/
def codeCondition (s : State) (code : Nat) : Bool :=
  match code with
  | 0x81 => decide (s.power.junction ≤ 1200)
  | 0x82 => s.power.tbLocked
  | 0x87 => decide (eSeal ≤ eUse s)
  | _ => true

/-- The restart conditions of every fault raised since the entry into HALT hold (R674, R677, R86). -/
def restartCondition (s : State) : Bool :=
  ((s.power.lastFault + 0x7F) :: s.power.haltFaults).all (codeCondition s)

/-- Fault halt (R674, R675): discards, FAULT_N, the record, HANDOVER with a cause, the field link falls silent, the
safe states at once where the fault's row says so. In HALT a further fault discards the commands that R676 has let in; one
not raised there before is recorded, and its restart condition joins the others. Log entry 93 (DEDUCED). -/
def enterHalt (s : State) (code detail : Nat) (atOnce : Bool) (cause : Nat) : State :=
  let halted := decide (s.power.mode = .halt)
  let known := halted && ((s.power.lastFault + 0x7F) :: s.power.haltFaults).contains code
  let s := stopEngine s
  let s := clearWaits (discardCommands s (BitVec.ofNat 8 code) detail)
  let s := if known then s else log s 0xD1 sevFault 0x1A code 0 (le 4 detail)
  if halted then
    modPower s (fun p => if known then p else { p with
      lastFault := code - 0x7F, haltFaults := p.haltFaults ++ [p.lastFault + 0x7F, code] })
  else
    let s := modPower s (fun p => { p with
      mode := .halt, lastFault := code - 0x7F, haltFaults := [code], haltAt := s.tb, haltReset := none })
    let s := sendHandover s cause
    let s := modField s (fun f => { f with linkAlive := false })
    let s := if atOnce then applySafe s 2 else s
    wdSyncMode s

/-- The ports open (R43, R95, R660 step 9): the host link takes MAINT_BAUD, unless a long break has set 115,200 bit/s since
the start (R102, R104). -/
def openPorts (s : State) : State :=
  if !s.power.opened && s.power.resumed && s.power.tbLocked && decide (1000 ≤ s.power.paceGood) then
    modHost (modPower s (fun p => { p with opened := true })) (fun h => { h with
      baud := if h.baudKept then 0 else par s 0x0110 })
  else s

/-- The detail word of a fault and its handling by code (R674). -/
def raiseFault (s : State) (code detail : Nat) : State := enterHalt s code detail false 1

/-- A Guarded overrun takes the watchdog-stop path (R177). -/
def guardedStop (s : State) (task : Nat) : State := enterHalt s 0x84 (0xFFFF0000 + task) true 3

/-- Steps 1 to 4 of a watchdog reset (R602). -/
def wdResetSteps (s : State) : State :=
  let n := (s.wd.count + 1) % 0x100000000
  let s := modWd s (fun w => { w with count := n, resetRecord := true, faultN := true })
  let s := spreadPut s 2 n
  applySafe s 2

end Sys2Proof.Machine
end

