-- ==== Sys2Proof/Machine/Crypto.lean ====
section
/-!
DEFINITION. The crypto engine's checks: SHA-512 and the verification of a signature over P-521, the curve of R639. The
manual names both and leaves their definitions to FIPS 180-4 and FIPS 186-4 (log entry 4, PRESUMED).
-/
namespace Sys2Proof.Machine

open Sys2Proof

/-! ### SHA-512 -/

/-- The 64-bit words of a number of n words, most significant first: how FIPS 180-4 writes its tables. -/
def words64 (n v : Nat) : List (BitVec 64) := (List.range n).map (fun i => BitVec.ofNat 64 (v / 2 ^ (64 * (n - 1 - i))))

/-- The initial hash value: square roots of the first eight primes. -/
def sha512Init : List (BitVec 64) := words64 8
  0x6a09e667f3bcc908bb67ae8584caa73b3c6ef372fe94f82ba54ff53a5f1d36f1510e527fade682d19b05688c2b3e6c1f1f83d9abfb41bd6b5be0cd19137e2179

/-- The round constants, eight to a row: cube roots of the first eighty primes. -/
def sha512Rows : List Nat :=
  [0x428a2f98d728ae227137449123ef65cdb5c0fbcfec4d3b2fe9b5dba58189dbbc3956c25bf348b53859f111f1b605d019923f82a4af194f9bab1c5ed5da6d8118,
   0xd807aa98a303024212835b0145706fbe243185be4ee4b28c550c7dc3d5ffb4e272be5d74f27b896f80deb1fe3b1696b19bdc06a725c71235c19bf174cf692694,
   0xe49b69c19ef14ad2efbe4786384f25e30fc19dc68b8cd5b5240ca1cc77ac9c652de92c6f592b02754a7484aa6ea6e4835cb0a9dcbd41fbd476f988da831153b5,
   0x983e5152ee66dfaba831c66d2db43210b00327c898fb213fbf597fc7beef0ee4c6e00bf33da88fc2d5a79147930aa72506ca6351e003826f142929670a0e6e70,
   0x27b70a8546d22ffc2e1b21385c26c9264d2c6dfc5ac42aed53380d139d95b3df650a73548baf63de766a0abb3c77b2a881c2c92e47edaee692722c851482353b,
   0xa2bfe8a14cf10364a81a664bbc423001c24b8b70d0f89791c76c51a30654be30d192e819d6ef5218d69906245565a910f40e35855771202a106aa07032bbd1b8,
   0x19a4c116b8d2d0c81e376c085141ab532748774cdf8eeb9934b0bcb5e19b48a8391c0cb3c5c95a634ed8aa4ae3418acb5b9cca4f7763e373682e6ff3d6b2b8a3,
   0x748f82ee5defb2fc78a5636f43172f6084c87814a1f0ab728cc702081a6439ec90befffa23631e28a4506cebde82bde9bef9a3f7b2c67915c67178f2e372532b,
   0xca273eceea26619cd186b8c721c0c207eada7dd6cde0eb1ef57d4f7fee6ed17806f067aa72176fba0a637dc5a2c898a6113f9804bef90dae1b710b35131c471b,
   0x28db77f523047d8432caab7b40c724933c9ebe0a15c9bebc431d67c49c100d4c4cc5d4becb3e42b6597f299cfc657e2a5fcb6fab3ad6faec6c44198c4a475817]

def sha512Consts : List (BitVec 64) := sha512Rows.flatMap (words64 8)

/-- Eight bytes, most significant first. -/
def be64 (v : Nat) : List Byte := (le 8 v).reverse

/-- The padded message of FIPS 180-4: 0x80, zeros, the bit length in 16 bytes. -/
def shaPad (bs : List Byte) : List Byte :=
  let z := (240 - (bs.length + 1) % 128) % 128
  bs ++ 0x80#8 :: List.replicate z 0#8 ++ be64 (bs.length * 8 / 2 ^ 64) ++ be64 (bs.length * 8 % 2 ^ 64)

/-- The 64-bit words of bytes, most significant byte first. -/
def shaWords : Nat → List Byte → List (BitVec 64)
  | 0, _ => []
  | n + 1, bs => BitVec.ofNat 64 (unle (bs.take 8).reverse) :: shaWords n (bs.drop 8)

/-- Extend the message schedule; the list holds the latest word first. -/
def shaExtend : Nat → List (BitVec 64) → List (BitVec 64)
  | 0, w => w
  | n + 1, w =>
    let a := w.getD 1 0
    let b := w.getD 14 0
    let s1 := a.rotateRight 19 ^^^ a.rotateRight 61 ^^^ (a >>> (6 : Nat))
    let s0 := b.rotateRight 1 ^^^ b.rotateRight 8 ^^^ (b >>> (7 : Nat))
    shaExtend n ((s1 + w.getD 6 0 + s0 + w.getD 15 0) :: w)

/-- One round on the eight working variables. -/
def shaRound (v : List (BitVec 64)) (kw : BitVec 64) : List (BitVec 64) :=
  match v with
  | [a, b, c, d, e, f, g, h] =>
    let t1 := h + (e.rotateRight 14 ^^^ e.rotateRight 18 ^^^ e.rotateRight 41) + ((e &&& f) ^^^ (~~~e &&& g)) + kw
    let t2 := (a.rotateRight 28 ^^^ a.rotateRight 34 ^^^ a.rotateRight 39) + ((a &&& b) ^^^ (a &&& c) ^^^ (b &&& c))
    [t1 + t2, a, b, c, d + t1, e, f, g]
  | _ => v

def shaBlock (h : List (BitVec 64)) (block : List Byte) : List (BitVec 64) :=
  let w := (shaExtend 64 (shaWords 16 block).reverse).reverse
  let v := (List.zipWith (· + ·) sha512Consts w).foldl shaRound h
  List.zipWith (· + ·) h v

def shaBlocks : Nat → List (BitVec 64) → List Byte → List (BitVec 64)
  | 0, h, _ => h
  | n + 1, h, bs => shaBlocks n (shaBlock h (bs.take 128)) (bs.drop 128)

/-- The SHA-512 of bytes, 64 bytes. Log entry 4 (PRESUMED). -/
def sha512 (bs : List Byte) : List Byte :=
  let m := shaPad bs
  (shaBlocks (m.length / 128) sha512Init m).flatMap (fun w => be64 w.toNat)

/-! ### P-521 -/

/-- Log entry 4 (PRESUMED). -/
def p521 : Nat := 2 ^ 521 - 1
def n521 : Nat := 0x1fffffffffffffffffffffffffffffffffffffffffffffffffffffffffffffffffa51868783bf2f966b7fcc0148f709a5d03bb5c9b8899c47aebb6fb71e91386409
def b521 : Nat := 0x51953eb9618e1c9a1f929a21a0b68540eea2da725b99b315f3b8b489918ef109e156193951ec7e937b1652c0bd3bb1bf073573df883d2c34f1ef451fd46b503f00
def g521 : Nat × Nat :=
  (0xc6858e06b70404e9cd9e3ecb662395b4429c648139053fb521f828af606b4d3dbaa14b5e77efe75928fe1dc127a2ffa8de3348b3c1856a429bf97e7e31c2e5bd66,
   0x11839296a789a3bc0045c8a5fb42c7d1bd998f54449579b446817afbd17273e662c97ee72995ef42640c550b9013fad0761353c7086a272c24088be94769fd16650)

/-- base ^ e mod m, over n bits of e. -/
def powMod : Nat → Nat → Nat → Nat → Nat
  | 0, _, _, _ => 1
  | n + 1, base, e, m =>
    let r := powMod n (base * base % m) (e / 2) m
    if e % 2 = 1 then r * base % m else r

/-- Inverse modulo a prime of at most 521 bits. -/
def invMod (a m : Nat) : Nat := powMod 521 (a % m) (m - 2) m

/-- Point addition; none is the point at infinity. -/
def pointAdd (a b : Option (Nat × Nat)) : Option (Nat × Nat) :=
  match a, b with
  | none, q => q
  | p, none => p
  | some (x1, y1), some (x2, y2) =>
    let l := if x1 = x2 then
        if (y1 + y2) % p521 = 0 then none
        else some ((3 * x1 * x1 + (p521 - 3)) * invMod (2 * y1) p521 % p521)
      else some ((y2 + (p521 - y1)) * invMod (x2 + (p521 - x1)) p521 % p521)
    l.map (fun l =>
      let x := (l * l + (p521 - x1) + (p521 - x2)) % p521
      (x, (l * (x1 + (p521 - x)) + (p521 - y1)) % p521))

/-- k times a point, over n bits of k. -/
def pointMul : Nat → Nat → Option (Nat × Nat) → Option (Nat × Nat)
  | 0, _, _ => none
  | n + 1, k, q =>
    let r := pointMul n (k / 2) (pointAdd q q)
    if k % 2 = 1 then pointAdd q r else r

def onCurve (q : Nat × Nat) : Bool :=
  decide (q.1 < p521 ∧ q.2 < p521) && decide ((q.2 * q.2 + 3 * q.1) % p521 = (q.1 * q.1 * q.1 + b521) % p521)

/-- Verify a signature (r, s) over a SHA-512 digest with a public point. -/
def ecdsaVerify (pub : Nat × Nat) (digest : List Byte) (r s : Nat) : Bool :=
  if decide (r = 0 ∨ s = 0 ∨ n521 ≤ r ∨ n521 ≤ s) || !onCurve pub then false
  else
    let e := unle digest.reverse
    let w := invMod s n521
    match pointAdd (pointMul 521 (e * w % n521) (some g521)) (pointMul 521 (r * w % n521) (some pub)) with
    | none => false
    | some q => decide (q.1 % n521 = r)

/-! ### Signature blocks, certificates and franks (R125, R614, R639-R643) -/

/-- Verify a signature block of 136 bytes with a public key of 132 bytes (R125, R639). Log entry 4 (PRESUMED). -/
def verifyBlock (key digest block : List Byte) : Bool :=
  ecdsaVerify (field key 0 66, field key 66 66) digest (field block 4 66) (field block 70 66)

/-- The public key of a certificate (R639). -/
def certKey (cert : List Byte) : List Byte := slice cert 32 132

def certUse (cert : List Byte) : Nat := field cert 28 2

/-- The root certificate's key, when ROOTHASH matches it (R639). -/
def rootKey (s : State) : Option (List Byte) :=
  if sha512 (certKey s.store.rootCert) = s.store.rootHash then some (certKey s.store.rootCert) else none

/-- Whether a certificate is accepted under R640, in a role. -/
def certAccepted (s : State) (cert : List Byte) (role : Nat) : Bool :=
  match rootKey s with
  | none => false
  | some k =>
    decide (cert.length = 368 ∧ field cert 0 2 = 0x5EC7 ∧ field cert 2 1 = role ∧ field cert 3 1 = 1)
      && decide (slice cert 168 64 = sha512 k)
      && verifyBlock k (sha512 (slice cert 0 232)) (slice cert 232 136)
      && (decide (slice cert 4 16 = s.store.serial)
          || (decide (slice cert 4 16 = List.replicate 16 0) && decide (role ≠ 3)))

def ownerSlot (s : State) (i : Nat) : OwnerSlot := vget s.store.owners i ⟨0, []⟩

def anyOwnerValid (s : State) : Bool := s.store.owners.toList.any (fun o => o.state = 1)

end Sys2Proof.Machine
end

