-- ==== Sys2Proof/Machine/Image.lean ====
section
/-!
DEFINITION. Image containers and their contents (R612-R616), and the static checks of programs, charts and edits
(R46, R150, R209, R243, R277, R300, R301, R317, R393, R413, R419, R423, R521).
-/
namespace Sys2Proof.Machine

open Sys2Proof

/-- The image hash of an image's bytes: over all but the signature block (R614). Log entry 94 (DEDUCED). -/
def imageHash (bs : List Byte) : List Byte := sha512 (bs.take (bs.length - 136))

/-- A section of a container: type and content (R613). -/
structure Sect where
  type : Nat
  off : Nat
  data : List Byte
  deriving DecidableEq, Repr

/-- A container whose header, table and section CRCs check (R612, R613). -/
structure Container where
  kind : Nat
  version : Nat
  epoch : Nat
  secVer : Nat
  minFw : Nat
  programId : Nat
  target : Nat
  chart : Nat
  baseHash : List Byte
  targetHash : List Byte
  hash : List Byte
  block : List Byte
  sects : List Sect
  bytes : List Byte
  deriving DecidableEq, Repr

/-- One section-table entry, if it lies between the table and the signature block and its CRC checks (R613). -/
def parseSect (bs : List Byte) (count i : Nat) : Option Sect :=
  let e := 256 + 16 * i
  let off := field bs (e + 4) 4
  let len := field bs (e + 8) 4
  if 256 + 16 * count ≤ off ∧ off + len + 136 ≤ bs.length ∧
      (crc32c (slice bs off len)).toNat = field bs (e + 12) 4 then
    some { type := field bs e 2, off, data := slice bs off len }
  else none

/-- Sections must not overlap (R613). -/
def disjointSects : List Sect → Bool
  | [] => true
  | a :: r => r.all (fun b => decide (a.off + a.data.length ≤ b.off ∨ b.off + b.data.length ≤ a.off)) && disjointSects r

/-- Parse a container of the whole of the given bytes. -/
def parseContainer (bs : List Byte) : Option Container :=
  let count := field bs 8 2
  if bs.length < 392 ∨ field bs 0 2 ≠ 0x5E1A ∨ field bs 3 1 ≠ 1 ∨ field bs 4 4 ≠ bs.length ∨ count = 0 ∨ 64 < count
  then none
  else
    let ss := (List.range count).filterMap (parseSect bs count)
    if ss.length = count && disjointSects ss then
      some
        { kind := field bs 2 1, version := field bs 12 4, epoch := field bs 16 1, secVer := field bs 17 1,
          minFw := field bs 18 2, programId := field bs 20 8, target := field bs 28 1, chart := field bs 29 1,
          baseHash := slice bs 32 64, targetHash := slice bs 96 64, hash := sha512 (bs.take (bs.length - 136)),
          block := slice bs (bs.length - 136) 136, sects := ss, bytes := bs }
    else none

/-- The first section of a type. -/
def sectOf (c : Container) (t : Nat) : Option (List Byte) := (c.sects.find? (fun s => s.type = t)).map (·.data)

def sectCount (c : Container) (t : Nat) : Nat := (c.sects.filter (fun s => s.type = t)).length

/-- The signer of an image is of the kind R615 names and its signature verifies: 0 yes, 2 no, 4 the owner slot is
empty or revoked (R626). -/
def checkSigner (s : State) (c : Container) : Nat :=
  let signer := field c.block 0 1
  let use := if c.kind = 5 then 4 else 2
  if c.kind = 1 ∨ (c.kind = 5 ∧ c.target = 1) then
    match sectOf c 0x0104 with
    | none => 2
    | some cert =>
      if signer = 0x10 && certAccepted s cert 2 && verifyBlock (certKey cert) c.hash c.block then 0 else 2
  else if 4 ≤ signer then 2
  else
    let o := ownerSlot s signer
    if o.state ≠ 1 then 4
    else if certUse o.cert / use % 2 = 1 && verifyBlock (certKey o.cert) c.hash c.block then 0 else 2

/-! ### Task tables (R146, R616) -/

def parseTask (bs : List Byte) (i : Nat) : TaskDef :=
  let e := slice bs (64 * i) 64
  let fl := field e 1 1
  { present := fl % 2 = 1, tolerant := fl / 2 % 2 = 1, fixed := fl / 4 % 2 = 1, proven := fl / 8 % 2 = 1,
    periodMs := field e 2 2, entry := BitVec.ofNat 20 (field e 4 3), ctrl := BitVec.ofNat 8 (field e 7 1),
    p := field e 8 4, d := field e 12 4, wstk := field e 16 2, acq := BitVec.ofNat 135 (field e 20 17),
    emit := BitVec.ofNat 139 (field e 37 18) }

def parseTasks (bs : List Byte) : Vector TaskDef 16 := Vector.ofFn (fun i => parseTask bs i.val)

/-- Areas that two masks share. -/
def overlaps {n : Nat} (a b : BitVec n) : Bool := decide (a &&& b ≠ 0)

/-- Pairs of distinct tasks for which a relation holds. -/
def anyPair (ts : List TaskDef) (f : TaskDef → TaskDef → Bool) : Bool :=
  ts.zipIdx.any (fun a => ts.zipIdx.any (fun b => decide (a.2 ≠ b.2) && f a.1 b.1))

/-- A task table keeps R46, R146, R150 and R209. -/
def tasksOk (v : Vector TaskDef 16) : Bool :=
  let ts := v.toList.filter (·.present)
  !ts.isEmpty
    && ts.all (fun t => decide (0 < t.p ∧ 0 < t.d)
        && (if t.fixed then decide (1 ≤ t.periodMs ∧ t.periodMs ≤ 1000) else decide (t.periodMs = 0))
        && decide (1 ≤ t.wstk ∧ t.wstk ≤ 4095))
    && decide (ts.foldl (fun n t => n + t.wstk) 0 ≤ 4096)
    && !anyPair ts (fun a b => overlaps a.emit b.emit || (a.fixed && overlaps a.acq b.acq))

/-! ### Code and data (R243, R318, R615) -/

/-- Bytes of code words from an offset. -/
def codeWords : Nat → List Byte → List Word
  | 0, _ => []
  | n + 1, bs => BitVec.ofNat 40 (unle (bs.take 5)) :: codeWords n (bs.drop 5)

/-- A code section: base and words. -/
def parseCode (bs : List Byte) : Nat × List Word := (field bs 0 4, codeWords (field bs 4 4) (bs.drop 8))

/-- No word is illegal but the all-zero word (R243). -/
def codeLegal (ws : List Word) : Bool := ws.all (fun w => decide (w = 0) || (decodeWord w).isSome)

/-- A value with its tag in an initialisation: only L and Q count for a word (R194). -/
def initTagged (bs : List Byte) : Tagged :=
  ⟨BitVec.ofNat 40 (field bs 0 5), mkTag false (tagL (BitVec.ofNat 8 (field bs 5 1))) false false false
    (tagQ (BitVec.ofNat 8 (field bs 5 1))) false⟩

/-- Data initialisations: runs of start, count, mode, values (R615). Fuel is the byte count. -/
def parseInits : Nat → List Byte → List (Nat × Tagged)
  | 0, _ => []
  | f + 1, bs =>
    if bs.length < 12 then []
    else
      let start := field bs 0 4
      let n := field bs 4 4
      if field bs 8 1 = 0 then
        let v := initTagged (slice bs 12 6)
        (List.range n).map (fun i => (wKey (start + i), v)) ++ parseInits f (bs.drop 20)
      else
        (List.range n).map (fun i => (wKey (start + i), initTagged (slice bs (12 + 6 * i) 6)))
          ++ parseInits f (bs.drop (12 + cdiv (6 * n) 4 * 4))

/-- A program image from its container (R615, R616). -/
def parseProgram (c : Container) : Option ProgImage :=
  match sectOf c 0x0201, sectOf c 0x0202, sectOf c 0x0204 with
  | some t, some code, some lay =>
    let (base, ws) := parseCode code
    let inits := match sectOf c 0x0203 with | none => [] | some b => parseInits b.length b
    let d := field lay 4 4
    some
      { programId := c.programId, hash := c.hash, tasks := parseTasks t, codeBase := base, code := ws, inits,
        dext := field lay 0 4, dspBase := if d = 0xFFFFFFFF then none else some d, minFw := c.minFw }
  | _, _, _ => none

/-- The words a display block keeps for its hold shadow: 40 to 79 (R521). -/
def dspShadowWord (base : Option Nat) (a : Nat) : Bool :=
  match base with
  | none => false
  | some b => decide (b + 40 ≤ a ∧ a < b + 80)

/-- Step 6 of R625 for a program image: R46, R146, R150, R209, R243, R317, R318, R521. -/
def programOk (p : ProgImage) : Bool :=
  tasksOk p.tasks && codeLegal p.code && decide (p.codeBase + p.code.length ≤ 0xC0000)
    && decide (p.dext % 8 = 0 ∧ 8 ≤ p.dext ∧ p.dext ≤ 2097152)
    && p.inits.all (fun e => isWordKey e.1 && decide (keyAddr e.1 < p.dext))
    && (match p.dspBase with | none => true | some b => decide (b % 8 = 0 ∧ b + 80 ≤ p.dext))

/-! ### Charts (R277, R615, R616) -/

/-- Parameter entries of 12 bytes. -/
def parseParams : Nat → List Byte → List (Nat × Nat)
  | 0, _ => []
  | f + 1, bs => if bs.length < 12 then [] else (field bs 0 2, field bs 4 8) :: parseParams f (bs.drop 12)

/-- The item key of an address in the force address layout (R306). -/
def forceKey (a : Nat) : Nat := if a / 0x40000000 = 0 then a % 0x1000000 else wKey (a % 0x1000000)

/-- Output treatment entries of 20 bytes. -/
def parseTreats : Nat → List Byte → List Treat
  | 0, _ => []
  | f + 1, bs =>
    if bs.length < 20 then []
    else
      { first := forceKey (field bs 0 4), count := field bs 4 2, qt := BitVec.ofNat 2 (field bs 6 1),
        hold := field bs 6 1 / 4 % 2 = 1, subst := BitVec.ofNat 40 (field bs 8 5),
        safe := BitVec.ofNat 40 (field bs 13 5) } :: parseTreats f (bs.drop 20)

/-- The pages of a text set. -/
def parsePages (bs : List Byte) : List (List Byte) :=
  (List.range (field bs 0 1)).map (fun i => slice bs (4 + 144 * i) 144)

/-- Parameter sections of a chart, in ascending type. -/
def chartSectTypes : List Nat := [0x0302, 0x0303, 0x0304, 0x0305, 0x0306, 0x0307]

/-- Every parameter entry of a section names a chart-scope PID of its section, with a permitted value (R616). -/
def sectParamsOk (t : Nat) (es : List (Nat × Nat)) : Bool :=
  es.all (fun e =>
    match paramInfo e.1 with
    | none => false
    | some i => i.chart && decide (paramSection e.1 = t) && paramValueOk i e.2)

def sectEntries (c : Container) (t : Nat) : List (Nat × Nat) :=
  let b := (sectOf c t).getD []
  let b := if t = 0x0302 then b.drop 4 else b
  parseParams b.length b

/-- No two treatment entries cover one item (R616); a QT of 3 is none of R277's values. -/
def treatsOk : List Treat → Bool
  | [] => true
  | a :: r =>
    decide (a.qt ≠ qBad) && r.all (fun b => decide (a.first + a.count ≤ b.first ∨ b.first + b.count ≤ a.first))
      && treatsOk r

/-- A chart image from its container; none where it breaks R277 or R616. -/
def parseChart (c : Container) : Option ChartImage :=
  let types := [0x0301, 0x0302, 0x0303, 0x0304, 0x0305, 0x0306, 0x0307, 0x0308, 0x0309]
  if c.kind ≠ 3 ∨ ¬ (types.all (fun t => sectCount c t = 1)) then none
  else
    let es := chartSectTypes.map (fun t => (t, sectEntries c t))
    let treat := parseTreats ((sectOf c 0x0308).getD []).length ((sectOf c 0x0308).getD [])
    let pages := (sectOf c 0x0309).getD []
    if es.all (fun x => sectParamsOk x.1 x.2) && treatsOk treat && decide (field pages 0 1 ≤ 32) then
      some
        { chart := c.chart, version := field ((sectOf c 0x0301).getD []) 0 4, programId := c.programId,
          taskMask := BitVec.ofNat 16 (field ((sectOf c 0x0302).getD []) 0 2),
          params := es.foldl (fun m x => x.2.foldl (fun m e => smSet paramDefault m e.1 e.2) m) [],
          treat, pages := parsePages pages, hash := c.hash, bytes := c.bytes }
    else none

/-! ### Rules over parameter values in a chart or a pending set: `v` gives the value of a PID (R413, R419, R423) -/

/-- I(V) in nA for a threshold set and a voltage in 0.1 V (R413). -/
def diCurrent (set v : Nat) : Nat := (v * 100 - 7000) * 1000000 / ((if set = 2 then 33000 else 56000) + 1600)

/-- Default thresholds in 0.1 V (R413). -/
def diVonDefault (set : Nat) : Nat := if set = 2 then 504 else 770
def diVoffDefault (set : Nat) : Nat := if set = 2 then 288 else 440

def diIon (set v : Nat) : Nat := diCurrent set (if v = 0 then diVonDefault set else v)
def diIoff (set v : Nat) : Nat := diCurrent set (if v = 0 then diVoffDefault set else v)

/-- One input's thresholds keep R413; wire-break is not for set 0 (R436). -/
def diOk (v : Nat → Nat) (c : Nat) : Bool :=
  let set := v (0x1000 + 8 * c)
  let on := diIon set (v (0x1003 + 8 * c))
  let off := diIoff set (v (0x1004 + 8 * c))
  !(decide (set = 0) && decide (v (0x1002 + 8 * c) = 1))
    && (decide (set < 2)
        || decide (500000 ≤ on ∧ on ≤ 2200000 ∧ 300000 ≤ off ∧ off + 200000 ≤ on))

/-- Every member of a gang carries the gang's value (R419). -/
def gangsOk (v : Nat → Nat) : Bool :=
  (List.range 24).all (fun n =>
    match v (0x1200 + 8 * n) with
    | 1 => decide (v (0x1200 + 8 * (n / 2 * 2)) = 1) && decide (v (0x1200 + 8 * (n / 2 * 2 + 1)) = 1)
    | 2 => (List.range 4).all (fun i => decide (v (0x1200 + 8 * (n / 4 * 4 + i)) = 2))
    | _ => true)

/-- A device of a pair needs a line with heartbeats (R393). -/
def heartbeatsOk (v : Nat → Nat) : Bool :=
  let role := fun (l : Nat) => v (0x1800 + 0x100 * l)
  (decide (role 0 ≠ 0) || decide (role 1 ≠ 0))
    && (List.range 2).all (fun l => decide (role l ≠ 2) || decide (1 ≤ v (0x180B + 0x100 * l)))

/-- The digital and pair rules over a chart's values. `shared` and `safe` are DO_SHARED and the safe values. -/
def chartFieldOk (v : Nat → Nat) (twin : Bool) (safe : Nat → Bool) : Bool :=
  (List.range 48).all (diOk v) && gangsOk v
    && (List.range 24).all (fun n => !(decide (v (0x1202 + 8 * n) = 1) && safe n))
    && (!twin || heartbeatsOk v)

/-! ### Edits (R300, R301, R615) -/

def parseHooks : Nat → List Byte → List (Nat × Word)
  | 0, _ => []
  | f + 1, bs =>
    if bs.length < 8 then []
    else (field bs 0 3, BitVec.ofNat 40 (field bs 3 5)) :: parseHooks f (bs.drop 8)

def parseAddrs : Nat → List Byte → List (BitVec 32)
  | 0, _ => []
  | f + 1, bs => if bs.length < 4 then [] else BitVec.ofNat 32 (field bs 0 4) :: parseAddrs f (bs.drop 4)

def parseTypes : Nat → List Byte → List (BitVec 32 × Nat × Nat)
  | 0, _ => []
  | f + 1, bs =>
    if bs.length < 8 then []
    else (BitVec.ofNat 32 (field bs 0 4), field bs 4 1, field bs 5 1) :: parseTypes f (bs.drop 8)

/-- An edit image from its container. -/
def parseEdit (c : Container) : Option EditImage :=
  if c.kind ≠ 4 then none
  else
    let (base, ws) := match sectOf c 0x0401 with | none => (0xC0000, []) | some b => parseCode b
    let get := fun t => (sectOf c t).getD []
    match sectOf c 0x0201 with
    | none => none
    | some t =>
      some
        { baseHash := c.baseHash, hash := c.hash, patchBase := base, patch := ws,
          hooks := parseHooks (get 0x0402).length (get 0x0402), tasks := parseTasks t,
          inits := parseInits (get 0x0203).length (get 0x0203),
          writeSet := parseAddrs (get 0x0405).length (get 0x0405),
          types := parseTypes (get 0x0406).length (get 0x0406), bytes := c.bytes }

/-- The offset in an image of a byte of a section. Log entry 117 (DEDUCED). -/
def sectAt (bs : List Byte) (t rel : Nat) : Nat :=
  (((parseContainer bs).bind (fun c => (c.sects.find? (fun s => s.type = t)).map (·.off))).getD 0) + rel

/-- The first position in a list that fails a test. -/
def firstBad {α : Type} (ok : α → Bool) (l : List α) : Option Nat := (l.zipIdx.find? (fun x => !ok x.1)).map (·.2)

/-- The first entry of a task table with which the table up to it breaks R46, R146, R150 or R209. -/
def badTask (v : Vector TaskDef 16) : Nat :=
  ((List.range 16).find? (fun t => (vget v t TaskDef.absent).present &&
    !tasksOk (Vector.ofFn (fun i => if i.val ≤ t then vget v i.val TaskDef.absent else TaskDef.absent)))).getD 0

/-- The offset in a section of data initialisations of the first run that reaches DEXT (R318). Fuel is the byte count. -/
def badRun (dext : Nat) : Nat → Nat → List Byte → Nat
  | 0, at_, _ => at_
  | f + 1, at_, bs =>
    let n := field bs 4 4
    let len := if field bs 8 1 = 0 then 20 else 12 + cdiv (6 * n) 4 * 4
    if bs.length < 12 ∨ (0 < n ∧ dext < field bs 0 4 + n) then at_ else badRun dext f (at_ + len) (bs.drop len)

/-- The first check of R301's second row that an edit fails: section type, offset in it (R613, R615).
Log entry 117 (DEDUCED). -/
def editBad (p : Program) (e : EditImage) : Option (Nat × Nat) :=
  let lo := e.patchBase
  let hi := e.patchBase + e.patch.length
  let lit := fun (w : Word) => codeLegal [w]
  let inits := ((parseContainer e.bytes).bind (fun c => sectOf c 0x0203)).getD []
  let when := fun (b : Bool) (x : Nat × Nat) => if b then some x else none
  [when (decide (lo < 0xC0000 ∨ 0x100000 < hi)
      || p.edits.any (fun o => decide (lo < o.patchBase + o.patch.length ∧ o.patchBase < hi))) (0x0401, 0),
    when (decide (64 < e.hooks.length)) (0x0402, 512),
    (firstBad (fun (h : Nat × Word) => !decide (lo ≤ h.1 ∧ h.1 < hi)) e.hooks).map (fun i => (0x0402, 8 * i)),
    when (!tasksOk e.tasks) (0x0201, 64 * badTask e.tasks),
    (firstBad lit e.patch).map (fun i => (0x0401, 8 + 5 * i)),
    (firstBad (fun (h : Nat × Word) => lit h.2) e.hooks).map (fun i => (0x0402, 8 * i + 3)),
    when (decide (4096 < e.inits.length) || e.inits.any (fun i => decide (p.img.dext ≤ keyAddr i.1)))
      (0x0203, badRun p.img.dext inits.length 0 inits)].findSome? id

/-- Rows 1 and 2 of R301 for an edit on the loaded program: none when it passes, or status, reason and detail. The detail of
row 2 is the failing field's offset in the image after the 28 bytes that go before an image in its packet (R114, R131).
Log entry 117 (DEDUCED). -/
def checkEdit (s : State) (e : EditImage) : Option (BitVec 8 × BitVec 8 × Nat) :=
  match s.prog with
  | none => some (stState, 0x01, 0)
  | some p =>
    if e.baseHash ≠ p.chained ∨ 255 ≤ p.edits.length then some (stState, 0x01, 0)
    else (editBad p e).map (fun x => (stFormat, 0x07, 28 + sectAt e.bytes x.1 x.2))

/-! ### Code SRAM (R23, R219, R304) -/

def codeDefault : Nat → Word := fun _ => 0

def putWords (m : SMap Word) (base : Nat) (ws : List Word) : SMap Word :=
  (ws.zipIdx).foldl (fun m x => smSet codeDefault m ((base + x.2) % 0x100000) x.1) m

/-- Code SRAM of a program with the edits that are part of it (R304). Log entry 63 (DEDUCED). -/
def buildCode (p : ProgImage) (edits : List EditImage) : SMap Word :=
  edits.foldl (fun m e =>
    e.hooks.foldl (fun m h => smSet codeDefault m h.1 h.2) (putWords m e.patchBase e.patch))
    (putWords [] p.codeBase p.code)

/-- The program hash with edits chained (R644). -/
def chainHash (h : List Byte) (edits : List EditImage) : List Byte :=
  edits.foldl (fun h e => sha512 (h ++ e.hash)) h

/-- The loaded program made of a slot's image and committed edits. -/
def mkProgram (slot : Nat) (p : ProgImage) (edits : List EditImage) : Program :=
  { slot, img := p, tasks := (edits.getLast?.map (·.tasks)).getD p.tasks, edits, chained := chainHash p.hash edits }

end Sys2Proof.Machine
end

