-- ==== Sys2Proof/Machine/ClockCore.lean ====
section
/-!
DEFINITION. The time register, calendar, trim, shift and anchors (R546-R572, R576, R577).
-/
namespace Sys2Proof.Machine

open Sys2Proof

def modClock (s : State) (f : Clock → Clock) : State := { s with clock := f s.clock }

/-- The logic die runs: not in DORMANT or BACKUP (R658). -/
def dieRuns (s : State) : Bool := s.power.mode ≠ .dormant && s.power.mode ≠ .backup

/-! ### Calendar (R551) -/

/-- Days from 2000-01-01 to a date. -/
def daysFrom (y m d : Nat) : Nat :=
  let y' := if m ≤ 2 then y - 1 else y
  let mp := if m ≤ 2 then m + 9 else m - 3
  let doy := (153 * mp + 2) / 5 + d - 1
  let n := y' - 1600
  n * 365 + n / 4 - n / 100 + n / 400 + doy - 146037

/-- Year, month and day of a count of days from 2000-01-01. -/
def dateOf (days : Nat) : Nat × Nat × Nat :=
  let z := days + 146037
  let era := z / 146097
  let doe := z % 146097
  let yoe := (doe - doe / 1460 + doe / 36524 - doe / 146096) / 365
  let doy := doe - (365 * yoe + yoe / 4 - yoe / 100)
  let mp := (5 * doy + 2) / 153
  let m := if mp < 10 then mp + 3 else mp - 9
  let y := yoe + era * 400 + 1600
  ((if m ≤ 2 then y + 1 else y), m, doy - (153 * mp + 2) / 5 + 1)

def leapYear (y : Nat) : Bool := decide (y % 4 = 0) && (decide (y % 100 ≠ 0) || decide (y % 400 = 0))

def monthDays (y m : Nat) : Nat :=
  if m = 2 then (if leapYear y then 29 else 28) else if m = 4 ∨ m = 6 ∨ m = 9 ∨ m = 11 then 30 else 31

/-- The last calendar second (R552). -/
def lastSecond : Nat := 12622780799

/-- The end of the time register (R548). -/
def maxSeconds : Nat := 17179869183

/-- The calendar as the TIME.SET payload; frozen past the last second (R552). -/
def calendarBytes (sec : Nat) : List Byte :=
  let t := min sec lastSecond
  let (y, m, d) := dateOf (t / 86400)
  let r := t % 86400
  le 2 y ++ le 1 m ++ le 1 d ++ le 1 (r / 3600) ++ le 1 (r / 60 % 60) ++ le 1 (r % 60) ++ le 1 0

def secondsOf (y m d hh mm ss : Nat) : Nat := daysFrom y m d * 86400 + hh * 3600 + mm * 60 + ss

/-! ### Trim in force (R564, R569, R571) -/

/-- The learned entry nearest to a band, if any. -/
def nearestLearned (c : Clock) (band : Nat) : Option Int :=
  let dist := fun (b : Nat) => (b - band) + (band - b)
  (((List.range 8).filter (fun b => decide (3 ≤ (vget c.learned b (0, 0)).2))).foldl (fun best b =>
    match best with
    | none => some b
    | some o => if dist b < dist o then some b else some o) none).map (fun b => (vget c.learned b (0, 0)).1)

/-- Dead reckoning (R569). -/
def deadReckoning (s : State) : Int :=
  let e := vget s.clock.learned s.power.band (0, 0)
  if 3 ≤ e.2 then e.1
  else if s.clock.servoValid then s.clock.servo
  else (nearestLearned s.clock s.power.band).getD 0

def trimInForce (s : State) : Int :=
  if !dieRuns s then s.clock.trimStopped
  else
    match par s 0x1D00 with
    | 4 => parInt s 0x1D01
    | 0 => deadReckoning s
    | _ => if s.clock.locked then s.clock.servo else deadReckoning s

/-! ### Anchors and clock events (R576, R577, R574) -/

/-- Write an anchor with a cause: 0 periodic, 1 start, 2 became valid, 3 set, 4 shift complete. -/
def anchor (s : State) (cause : Nat) : State :=
  let c := s.clock
  let body := le 8 s.tb ++ le 5 c.sec ++ le 2 c.sub ++ le 1 cause ++ leInt 2 (trimInForce s) ++ le 1 (par s 0x1D00)
    ++ le 1 s.power.band ++ (if c.valid then calendarBytes c.sec else List.replicate 8 0)
  let s := (logRaw s 0x01 sevInfo 0x1C body).2
  modClock s (fun c => { c with anchorAt := s.power.opsec })

/-- A clock event record, type 0xA0 (R574). -/
def clockEvent (s : State) (code : Nat) : State :=
  log s 0xA0 (if code = 8 then sevWarning else if code = 2 then sevNotice else sevInfo) 0x1C code code []

/-! ### The crystal tick (R546-R548, R552, R555, R557, R561, R563) -/

/-- Advance the time register by some counts (R546, R548); the Bool says that a second passed. -/
def advanceTime (c : Clock) (n : Nat) : Clock × Bool :=
  if maxSeconds ≤ c.sec ∧ 32767 ≤ c.sub + n - 1 then ({ c with sec := maxSeconds, sub := 32767 }, false)
  else
    let sub := c.sub + n
    if 32767 < sub then
      if maxSeconds ≤ c.sec then ({ c with sec := maxSeconds, sub := 32767 }, false)
      else ({ c with sub := sub - 32768, sec := c.sec + 1 }, true)
    else ({ c with sub }, false)

/-- A new shift that was asked for begins at this tick (R557). -/
def beginShift (c : Clock) : Clock :=
  match c.shiftPend with
  | none => c
  | some (n, d) => { c with shiftPend := none, shiftLeft := n, shiftDiv := d, shiftTicks := 0 }

/-- How many counts this tick advances, with what is left of shift and correction (R557, R561, R563). -/
def tickCounts (c : Clock) : Nat × Clock :=
  let t := c.shiftTicks + 1
  if c.shiftLeft ≠ 0 ∧ c.shiftDiv ≤ t then
    let left := if 0 < c.shiftLeft then c.shiftLeft - 1 else c.shiftLeft + 1
    ((if 0 < c.shiftLeft then 2 else 0),
      { c with shiftLeft := left, shiftTicks := 0, shiftDone := c.shiftDone || decide (left = 0) })
  else
    let c := if c.shiftLeft ≠ 0 then { c with shiftTicks := t } else c
    if 0 < c.corr then (2, { c with corr := c.corr - 1 })
    else if c.corr < 0 then (0, { c with corr := c.corr + 1 })
    else (1, c)

/-- One tick of the RTC crystal, in every power mode of the backup domain. -/
def crystalTickOp (s : State) : State :=
  match s.clock.setPend with
  | some (sec, ref) =>
    let s := modClock s (fun c => { c with
      sec, sub := 0, valid := true, range := false, bkpLost := false, shiftLeft := 0, shiftPend := none,
      shiftTicks := 0, shiftDone := false, setPend := none })
    doneNow? (anchor s 3) ref []
  | none =>
    let c := beginShift s.clock
    let (n, c) := tickCounts c
    let (c, second) := advanceTime c n
    let passes := decide (lastSecond < c.sec) && !c.range
    let s := { s with clock := { c with
      secondDue := c.secondDue || second, range := c.range || passes,
      winBands := if dieRuns s then vmod c.winBands s.power.band (· + 1) else c.winBands } }
    if passes && dieRuns s then clockEvent s 8 else s

/-- The trim step at a second of the time register (R563). -/
def trimSecondOp (s : State) : State :=
  if !s.clock.secondDue then s
  else
    let acc := s.clock.acc + 32 * trimInForce s
    modClock s (fun c =>
      if 15625 ≤ acc then { c with acc := acc - 15625, corr := c.corr + 1, secondDue := false }
      else if acc ≤ -15625 then { c with acc := acc + 15625, corr := c.corr - 1, secondDue := false }
      else { c with acc, secondDue := false })

def clampInt (lo hi v : Int) : Int := if v < lo then lo else if hi < v then hi else v

/-- Add counts to the shift in progress, or begin one, at the next crystal tick (R557, R559). -/
def shiftBy (s : State) (n : Int) (d : Nat) : State :=
  let rest := match s.clock.shiftPend with | some (m, _) => m | none => s.clock.shiftLeft
  let busy := decide (rest ≠ 0)
  let sum := rest + n
  let k := clampInt (-32767) 32767 sum
  let s := modClock s (fun c => { c with shiftPend := some (k, d), shiftLeft := k, shiftDiv := d, shiftTicks := 0 })
  let s := if busy then clockEvent s 9 else s
  if k = sum then s else clockEvent s 4

/-! ### Reference presence (R566) -/

/-- Nominal LREF frequency in mHz. -/
def lrefNom (s : State) : Nat :=
  match par s 0x1D03 with
  | 0 => 16700
  | 2 => 60000
  | _ => 50000

/-- The longest period within 2 % of the nominal frequency, in tb. Log entry 60 (DEDUCED). -/
def lrefLimit (s : State) : Nat := usToTb (100000000000 / (98 * lrefNom s))

/-- LREF is present while its measured frequency lies within 2 % of nominal: the last period did, and the present one is
not already longer. Log entry 60 (DEDUCED). -/
def lrefPresent (s : State) : Bool :=
  let p := s.clock.lrefPeriodUs
  decide (0 < p) && decide (98 * lrefNom s * p ≤ 100 * 1000000000 ∧ 100 * 1000000000 ≤ 102 * lrefNom s * p)
    && decide (s.tb ≤ s.clock.lrefAt + lrefLimit s)

/-- Log entry 60 (DEDUCED). -/
def refPresentNow (s : State) : Bool :=
  match par s 0x1D00 with
  | 1 => lrefPresent s
  | 2 => s.busA.timeRefOk
  | 3 => s.busB.timeRefOk
  | _ => false

/-- Note whether the reference is present, and since when it is not; a window with an absence does not count (R565,
R567). -/
def refSync (s : State) : State :=
  let p := refPresentNow s
  modClock s (fun c => { c with
    refPresent := p,
    refAbsentAt := if p then none
      else if c.refPresent || c.refAbsentAt.isNone then
        some (if par s 0x1D00 = 1 then Nat.min s.tb (c.lrefAt + lrefLimit s) else s.tb)
      else c.refAbsentAt,
    winBad := c.winBad || !p })

/-- A servo window begins (R565, R567). -/
def newWindow (s : State) : State :=
  modClock s (fun c => { c with
    winAt := s.tb, winLen := msToTb (1000 * par s 0x1D02), winBad := !refPresentNow s, winBands := Vector.replicate 8 0,
    winFirst := none, winLast := none, lrefCount := 0 })

/-- The RTC as one count of 1/32,768 s. -/
def rtcCount (c : Clock) : Nat := 32768 * c.sec + c.sub

/-- Change LOCKED, with its clock event (R567). -/
def setLocked (s : State) (b : Bool) : State :=
  if s.clock.locked = b then s
  else clockEvent (modClock s (fun c => { c with locked := b })) (if b then 2 else 3)

/-- Load a time that a bus gives a clock that is not valid (R556). -/
def setFromBus (s : State) (sec sub : Nat) : State :=
  let s := modClock s (fun c => { c with sec, sub, valid := true, bkpLost := false })
  anchor (clockEvent s 7) 2

end Sys2Proof.Machine
end

