-- ==== Sys2Proof/Machine/Start.lean ====
section
/-!
DEFINITION. The start of the logic die (R340, R341, R352, R360, R630, R660-R667): firmware, parameter store, spread
counters, ring, charts, forces and watchdog. The re-emit is the event RE_EMIT.
-/
namespace Sys2Proof.Machine

open Sys2Proof

def modStore (s : State) (f : Store → Store) : State := { s with store := f s.store }

/-! ### Slots and firmware (R619-R621, R630) -/

def fwSlot (s : State) (i : Nat) : FwSlot := vget s.store.fw i FwSlot.blank
def progSlot (s : State) (i : Nat) : ProgSlot := vget s.store.prog i ProgSlot.blank

def setFwSlot (s : State) (i : Nat) (f : FwSlot → FwSlot) : State :=
  modStore s (fun x => { x with fw := (vmod x.fw i f) })

def setProgSlot (s : State) (i : Nat) (f : ProgSlot → ProgSlot) : State :=
  modStore s (fun x => { x with prog := (vmod x.prog i f) })

/-! BUILT and CONFIRMED count as set only when they read 0; TRIAL and REJECTED once any of their bits reads 0 (R619). -/

def markerAll (w : BitVec 32) : Bool := decide (w = markerSet)
def markerAny (w : BitVec 32) : Bool := decide (w ≠ markerClear)

def FwSlot.built (x : FwSlot) : Bool := markerAll x.builtWord
def FwSlot.confirmed (x : FwSlot) : Bool := markerAll x.confirmedWord
def FwSlot.trial (x : FwSlot) : Bool := markerAny x.trialWord
def FwSlot.rejected (x : FwSlot) : Bool := markerAny x.rejectedWord
def ProgSlot.built (x : ProgSlot) : Bool := markerAll x.builtWord
def ProgSlot.rejected (x : ProgSlot) : Bool := markerAny x.rejectedWord

/-- The 128-byte descriptor of a slot's trailer (R618): kind 1 firmware, 2 program; nothing where it is erased. -/
def descBytes (kind slot : Nat) (d : Option (Nat × Nat × List Byte)) : List Byte :=
  match d with
  | none => []
  | some (seq, len, hash) =>
    withCrc (padTo 124 (le 2 0x5E5D ++ [BitVec.ofNat 8 kind, BitVec.ofNat 8 slot] ++ le 4 seq ++ le 4 len ++ padTo 64 hash))

/-- An erased flash word after a programming that stopped part-way: bits have gone from 1 to 0, which ones is open (R619).
Log entry 113 (DEDUCED). -/
def tornWord (s : State) : BitVec 32 × State := let (v, s) := s.draw; (v.setWidth 32, s)

/-- Whether the image that a slot holds matches the hash of its descriptor (R28). -/
def hashMatches (d : Option (Nat × Nat × List Byte)) (bs : List Byte) : Bool :=
  d.any (fun x => decide (imageHash bs = x.2.2))

/-- The state code of a firmware slot (R620). -/
def fwState (x : FwSlot) : Nat :=
  if x.desc.isSome && x.rejected then 5
  else if x.building then 1
  else if x.desc.isNone || !x.built then 0
  else if x.confirmed then 4
  else if x.trial then 3
  else 2

/-- The state code of a program slot (R620). -/
def progSlotState (x : ProgSlot) : Nat :=
  if x.desc.isSome && x.rejected then 5
  else if x.building then 1
  else if x.desc.isNone || !x.built then 0
  else 4

def applySeq (d : Option (Nat × Nat × List Byte)) : Nat := (d.map (·.1)).getD 0

/-- The CONFIRMED slot with the highest apply sequence; of equals the one whose number is the parity slot (R621). -/
def confirmedSlot (s : State) : Option Nat :=
  let c0 := fwState (fwSlot s 0) = 4
  let c1 := fwState (fwSlot s 1) = 4
  let n0 := applySeq (fwSlot s 0).desc
  let n1 := applySeq (fwSlot s 1).desc
  if c0 ∧ c1 then (if n0 < n1 then some 1 else if n1 < n0 then some 0 else some (n0 % 2))
  else if c0 then some 0 else if c1 then some 1 else none

/-- A slot whose hash fails is marked REJECTED and skipped (R630). -/
def rejectSlot (s : State) (i : Nat) : State :=
  log (setFwSlot s i (fun x => { x with rejectedWord := markerSet })) 0xC2 sevAlarm 0x00 i 2 []

/-- A TRIAL slot is rejected at the next start: a fallback (R630). -/
def rejectTrial (s : State) (i : Nat) : State :=
  if fwState (fwSlot s i) = 3 then log (setFwSlot s i (fun x => { x with rejectedWord := markerSet })) 0xC2 sevAlarm 0x00 i 1 []
  else s

/-- A start that falls back from a trial writes the snapshot back over the parameter store (R633); group numbers that the
trial has used are not used again (R348). -/
def restoreSnapshot (s : State) : State :=
  match s.store.trial && decide (fwState (fwSlot s s.store.runFw) ≠ 4), s.store.snapshot with
  | true, some p =>
    modStore { s with pstore := { p with nextGroup := Nat.max p.nextGroup s.pstore.nextGroup } } (fun x => { x with
      snapshot := none })
  | _, _ => s

/-- The firmware that runs is in TRIAL, neither confirmed nor rejected (R630, R631). -/
def inTrial (s : State) : Bool := s.store.trial && decide (fwState (fwSlot s s.store.runFw) = 3)

/-- The slot to try next: a READY one whose apply sequence exceeds that of the CONFIRMED one, or else that one (R630). -/
def bootCandidate (s : State) : Option Nat :=
  let c := confirmedSlot s
  let newer := fun (i : Nat) => fwState (fwSlot s i) = 2
    && decide (((c.map (fun j => applySeq (fwSlot s j).desc)).getD 0) < applySeq (fwSlot s i).desc)
  if newer 0 then some 0 else if newer 1 then some 1 else c

/-- Try the slots in turn, each against its hash before it boots; a slot that fails is rejected and the next is tried. -/
def chooseFirmware : Nat → State → Option Nat × State
  | 0, s => (none, s)
  | n + 1, s =>
    match bootCandidate s with
    | none => (none, s)
    | some i => if hashMatches (fwSlot s i).desc (fwSlot s i).bytes then (some i, s) else chooseFirmware n (rejectSlot s i)

/-- The choice of firmware at a start (R630): a READY slot boots in TRIAL, and no bootable slot is recovery (R635). -/
def bootFirmware (s : State) : State :=
  match chooseFirmware 2 (restoreSnapshot (rejectTrial (rejectTrial s 0) 1)) with
  | (some i, s) =>
    if fwState (fwSlot s i) = 2 then
      modStore (setFwSlot s i (fun x => { x with trialWord := markerSet }))
        (fun x => { x with runFw := i, trial := true, recovery := false, healthAt := none })
    else modStore s (fun x => { x with runFw := i, trial := false, recovery := false, healthAt := none })
  | (none, s) =>
    if s.store.recovery then s
    else log (modStore s (fun x => { x with trial := false, recovery := true, healthAt := none }))
      0xC4 sevFault 0x00 0 0 []

/-- UPD.CONFIRM or UPD.ABANDON programs its marker, or SEC.KEYS its copy of the key store (no slot is 0xFF, which a fuse has): its
work is done and its receipt is not placed. -/
def marking (s : State) (op : BitVec 16) : Bool :=
  s.host.cmds.any (fun x => decide (x.opcode = op)
    && (findResult s x.ref).any (fun r => decide (r.status = stDone) && decide (r.payload.head? ≠ some 0xFF)))

/-- The die stops at once while a copy of the key store is being written: whether it is whole is open (R642).
Log entry 81 (DEDUCED). -/
def tearKeys (s : State) : State :=
  if marking s 0x1102 then
    let (v, s) := s.draw
    modStore s (fun x => { x with
      keyCopies := vmod x.keyCopies (x.keySeq % 2) (fun c => c.map (fun c => { c with whole := c.whole && v.getLsbD 0 })) })
  else s

/-- The die stops at once while a marker or the key store is being programmed: the word is left part-way (R339, R619, R668).
BUILT is dealt with at the next start (R627). Log entry 113 (DEDUCED). -/
def tearMarkers (s : State) : State :=
  let s := tearKeys s
  let s := if marking s 0x1004 then
      let (w, s) := tornWord s
      setFwSlot s s.store.runFw (fun x => { x with confirmedWord := w })
    else s
  match s.store.update with
  | some u =>
    if marking s 0x1005 && u.applied then
      let (w, s) := tornWord s
      setFwSlot s u.slot (fun x => { x with rejectedWord := w })
    else s
  | none => s

/-- The steps that end with the DONE receipt of UPD.APPLY, UPD.CONFIRM and UPD.ABANDON (R625, R628, R629, R631, R636). -/
def finishUpdate (s : State) (op : BitVec 16) : State :=
  let step := fun (s : State) (slot code : Nat) => log s 0xC0 sevNotice 0x00 slot code []
  if op = 0x1004 then
    let i := s.store.runFw
    step (modStore s (fun x => { x with
      svfuse := Nat.max x.svfuse (fwSlot s i).secVer, snapshot := none, update := none, trial := false, healthAt := none })) i 3
  else
  match s.store.update with
  | none => s
  | some u =>
    if op = 0x1003 then
      let s := if u.firmware then setFwSlot s u.slot (fun x => { x with building := false })
        else setProgSlot s u.slot (fun x => { x with building := false })
      step (modStore s (fun x => { x with
        update := if u.firmware then some { u with applying := false, applied := true, staged := [] } else none })) u.slot 2
    else if op = 0x1005 then
      step (modStore s (fun x => { x with
        update := none, healthAt := none, snapshot := if x.trial then x.snapshot else none })) u.slot 4
    else s

/-- BUILT was not programmed to its end: it does not read 0 (R619, R627). -/
def unbuilt (s : State) (w : BitVec 32) : BitVec 32 × State :=
  if markerAll w then let (v, s) := s.draw; (nonZero32 v, s) else (w, s)

/-- An apply in progress is discarded; an update not applied closes, a firmware update in a trial that has ended
closes too (R627, R628, R667). -/
def closeUpdates (s : State) : State :=
  match s.store.update with
  | none => s
  | some u =>
    let s :=
      if u.applying then
        let s := if u.firmware then
            let (w, s) := unbuilt s (fwSlot s u.slot).builtWord
            setFwSlot s u.slot (fun x => { x with building := false, builtWord := w })
          else
            let (w, s) := unbuilt s (progSlot s u.slot).builtWord
            setProgSlot s u.slot (fun x => { x with building := false, builtWord := w })
        log s 0xC1 sevInfo 0x00 u.slot 0 []
      else s
    if u.firmware ∧ u.applied ∧ fwState (fwSlot s u.slot) = 2 then s else modStore s (fun x => { x with update := none })

/-! ### Charts at start-up (R282, R353) -/

def ChartCopy.erased (c : ChartCopy) : Bool := c.header.isEmpty && c.data.isEmpty

/-- The store header of a copy (R280). -/
def chartHeader (chart k seq : Nat) (bs : List Byte) : List Byte :=
  withCrc (padTo 508 (le 2 0x5E5C ++ [BitVec.ofNat 8 chart, BitVec.ofNat 8 k] ++ le 4 seq ++ le 4 bs.length ++ sha512 bs))

/-- The header is complete when its marker stands and its CRC checks (R280). -/
def ChartCopy.headerOk (c : ChartCopy) : Bool :=
  decide (c.header.length = 512) && decide (field c.header 0 2 = 0x5E5C)
    && decide (field c.header 508 4 = (crc32c (c.header.take 508)).toNat)

def ChartCopy.seq (c : ChartCopy) : Nat := field c.header 4 4

/-- The image of a copy that matches the length and the hash of its header (R280). -/
def ChartCopy.image (c : ChartCopy) : Option ChartImage :=
  if c.headerOk && decide (c.data.length = field c.header 8 4) && decide (sha512 c.data = slice c.header 12 64) then
    (parseContainer c.data).bind parseChart
  else none

/-- A copy is valid when its header is complete and its image matches its hash (R280). -/
def copyValid (c : ChartCopy) : Bool := c.image.isSome

/-- How R352 and R353 read two copies: the highest sequence of a complete header, whether neither copy is used, the copy that is
stray, and the copy that is read. -/
structure CopyRead where
  high : Nat
  conflict : Bool
  stray : Option Nat
  pick : Option Nat
  deriving DecidableEq, Repr

/-- The two-copy rule on copies 0 and 1, each given as its sequence and the validity of its content where its header is complete
(R352, R353): the CONFLICT test first, then the stray copy of an equal sequence, then the valid copy of the higher sequence. -/
def readCopies (a b : Option (Nat × Bool)) : CopyRead :=
  let copy := fun (k : Nat) => if k % 2 = 0 then a else b
  let h := Nat.max ((a.map (·.1)).getD 0) ((b.map (·.1)).getD 0)
  let stray := if a.isSome && decide (a.map (·.1) = b.map (·.1)) then some ((h + 1) % 2) else none
  let valid := fun (k : Nat) => decide (stray ≠ some k) && (copy k).any (·.2)
  let seq : Nat → Nat := fun k => ((copy k).map (·.1)).getD 0
  { high := h, conflict := decide (copy h = some (h, false) ∧ copy (h + 1) = some (h, true)), stray,
    pick := if valid 0 && (!valid 1 || decide (seq 1 ≤ seq 0)) then some 0 else if valid 1 then some 1 else none }

/-- A chart copy's sequence and validity (R280). -/
def ChartCopy.read (c : ChartCopy) : Option (Nat × Bool) := if c.headerOk then some (c.seq, copyValid c) else none

/-- The copies of a chart as R353 reads them; without a valid copy it is empty or in CONFLICT (R282). -/
def readChart (s : State) (c : Nat) : State :=
  let x := chartSlot s c
  let put := fun (s : State) (y : ChartSlot) => { s with charts := { s.charts with slots := vset s.charts.slots c y } }
  let r := readCopies x.copy0.read x.copy1.read
  let vals := le 1 c ++ le 4 r.high
  if r.conflict then
    log (put s { x with state := .conflict, image := none }) 0x43 sevAlarm 0x00 c 0x10 vals
  else
    let k0 := if r.stray = some 0 then { x.copy0 with header := [] } else x.copy0
    let k1 := if r.stray = some 1 then { x.copy1 with header := [] } else x.copy1
    let s := if r.stray.isSome then log s 0x42 sevInfo 0x00 c 0x10 vals else s
    match r.pick with
    | some k => put s { copy0 := k0, copy1 := k1, state := .valid, image := if k = 0 then k0.image else k1.image }
    | none =>
      if k0.erased && k1.erased then put s { copy0 := k0, copy1 := k1, state := .empty, image := none }
      else log (put s { copy0 := k0, copy1 := k1, state := .conflict, image := none }) 0x43 sevAlarm 0x00 c 0x10 vals

def readCharts (s : State) : State := (List.range 8).foldl readChart s

/-! ### The key store at start-up (R353, R642) -/

def KeyCopy.read (c : KeyCopy) : Nat × Bool := (c.seq, c.whole)

/-- The key store is read from its two copies; with neither used, every owner slot is empty. Log entry 81 (DEDUCED). -/
def readKeys (s : State) : State :=
  let copies := s.store.keyCopies
  let r := readCopies ((vget copies 0 none).map KeyCopy.read) ((vget copies 1 none).map KeyCopy.read)
  let vals := le 1 0 ++ le 4 r.high
  let use := fun (s : State) (c : Option KeyCopy) => modStore s (fun x => { x with
    owners := (c.map (·.owners)).getD (Vector.replicate 4 ⟨0, []⟩), keySeq := (c.map (·.seq)).getD r.high })
  if r.conflict then log (use s none) 0x43 sevAlarm 0x00 0 0x11 vals
  else
    let s := match r.stray with
      | some k => log (modStore s (fun x => { x with keyCopies := vset x.keyCopies k none })) 0x42 sevInfo 0x00 0 0x11 vals
      | none => s
    use s (r.pick.bind (fun k => vget copies k none))

/-! ### Parameters and forces from the store (R351, R686) -/

/-- Global parameters from the store; values of PIDs that are not valid are ignored. -/
def loadGlobals (s : State) : State :=
  let pids := ((pstoreKeys s.pstore).filter (fun k => k.1 = .param && decide (k.2.1 = globalScope))).map (·.2.2)
  let eff := pids.foldl (fun m pid =>
    match pstoreGet s.pstore .param globalScope pid with
    | none => m
    | some b => smSet paramDefault m pid (unle b)) []
  { s with params := { eff, wait := [], sealWait := [], sealing := [] } }

/-- Bytes 4-11 of a FORCE.SET entry (R347): value, simulate bit. -/
def forceOf (addr : Nat) (b : List Byte) (conflict : Bool) : Force :=
  { addr := forceKey addr, value := BitVec.ofNat 40 (field b 0 5), sim := field b 5 1 % 2 = 1, conflict }

/-- The force table from the store, in ascending address order (R311, R354). -/
def loadForces (s : State) : State :=
  let ks := ((pstoreKeys s.pstore).filter (fun k => k.1 = .force)).map (·.2.2)
  let fs := ks.filterMap (fun a => (pstoreGet s.pstore .force globalScope a).map (fun b => forceOf a b false))
  let cs := (s.pstore.conflicts.filter (fun k => k.1 = .force)).map (fun k => forceOf k.2.2 [] true)
  { s with forces := (fs ++ cs).mergeSort (fun a b => a.addr ≤ b.addr) }

def forceAt (s : State) (k : Nat) : Option Force :=
  s.forces.find? (fun f => f.addr = k && !f.conflict && forceActs s k)

/-- The item content of a force or simulation entry (R308): Q good, L 0, F or M. -/
def forcedItem (old : Tagged) (f : Force) (point : Bool) : Tagged :=
  if point then ⟨0, mkTag (tagE old.tag) false f.sim (tagS old.tag) (!f.sim) qGood (f.value.getLsbD 0)⟩
  else ⟨f.value, mkTag (tagE old.tag) false f.sim (tagS old.tag) (!f.sim) qGood false⟩

/-- Apply an entry to its item, with E by R166. -/
def applyForce (s : State) (f : Force) : State :=
  if f.conflict || !forceActs s f.addr then s else setItem s f.addr (forcedItem (getItem s f.addr) f (isPointKey f.addr))

def applyForces (s : State) : State := s.forces.foldl applyForce s

/-! ### The ring at a start (R341, R343, R186) -/

/-- What a task's newest SEAL record carries (R169, R186). -/
def taskFromRing (recs : List RingRec) (t : Nat) : TaskRt :=
  match (recs.filter (fun r => r.kind = .seal && r.task = t)).getLast? with
  | none => TaskRt.reset
  | some r =>
    { TaskRt.reset with
      sealedOnce := true, sealRtcValid := r.rtcValid, sealRtc := r.rtcSec * 32768 + r.rtcSub }

/-- Edits that a head record names as applied (R304). -/
def committedEdits (x : ProgSlot) (n : Nat) : List EditImage := (x.edits.map (·.1)).take n

def codeOf (n : Nat) : ProgState := if n = 2 then .running else if n = 1 then .stopped else .notLoaded

/-- The chart requests that a head record names (R294, R325 bytes 30 and 31). -/
def headCharts (c : Charts) (h : RingRec) : Charts :=
  let pend : Option ChgReq :=
    if h.chgReq / 16 = 1 ∧ h.chgKind ≠ 1 ∧ h.follow = none then
      some
        { chart := h.chgReq % 16, kind := if h.chgKind = 0 then .chg else .refresh, ref := none,
          madeBy := 0, isSealed := true, preloaded := false }
    else none
  { c with
    req := pend, reqField := if pend.isSome then h.chgReq % 16 else 0,
    committed := h.follow.map (fun c =>
      { chart := c, kind := if h.chgKind = 0 then .chg else if h.chgKind = 1 then .select else .refresh, ref := none,
        madeBy := 0, isSealed := true, preloaded := true }),
    deferred := [], unusable := false }

/-- The retained state from the ring for the program in its slot. Log entry 94 (DEDUCED). -/
def rebuildProgram (s : State) (p : Program) : State :=
  let recs := completeRecs s.ring.recs
  let n := (recs.getLast?.map (·.edits)).getD 0
  let edits := committedEdits (progSlot s p.slot) n
  let p := mkProgram p.slot p.img edits
  let s := setProgSlot s p.slot (fun x => { x with edits := (x.edits.take n).map (fun e => (e.1, true)) })
  let s := { s with prog := some p, code := buildCode p.img edits }
  let base := baseImage p
  let b0 : Rebuild := { work := base, emit := base, held := [], aside := [], resumes := 0 }
  match walkRing p.img.dspBase base s.ring.badLines recs none b0 none with
  | .error line =>
    let s := { s with
      image := base, sealedImg := base, emitted := base, held := [], pstate := .stopped,
      ring := { s.ring with broken := true } }
    log s 0x40 sevFault 0x19 (line / 1024) 0 (le 4 line)
  | .ok (b, head) =>
    let work := markDiffs p.img.dspBase b.work b.emit
    let s := { s with
      image := work, emitted := b.emit, held := b.held, sealedImg := sealedView p.img.dspBase b.work b.emit,
      tasks := Vector.ofFn (fun t => taskFromRing recs t.val), ring := { s.ring with recs, resumes := b.resumes } }
    match head with
    | none => s
    | some h => { s with pstate := codeOf h.progState, charts := { headCharts s.charts h with active := h.chart } }

/-- A start checks the program in its slot against its hash before it copies it (R28); one that fails is not loaded.
Log entry 94 (DEDUCED). -/
def rebuild (s : State) : State :=
  let none_ := { s with prog := none, pstate := .notLoaded, image := [], sealedImg := [], emitted := [], held := [] }
  match s.prog with
  | none => none_
  | some p => if imageHash (progSlot s p.slot).bytes = p.img.hash then rebuildProgram s p else none_

/-! ### Backup registers (R664), watchdog (R603, R606) -/

/-- A start that finds the backup registers cleared reloads them from the spread counters (R664, R608). -/
def checkBackup (s : State) : State :=
  if s.power.powerCycles = 0 then
    let s := modPower s (fun p => { p with powerCycles := spreadValue s 1 })
    let s := modWd s (fun w => { w with count := spreadValue s 2 })
    log (modClock s (fun c => { c with valid := false })) 0xD4 sevAlarm 0x1C 0 0 []
  else s

/-- The power-cycle count saturates at 0xFF_FFFF (R340, R358). -/
def countPowerCycle (s : State) : State :=
  let n := min (Nat.max s.power.powerCycles (spreadValue s 1) + 1) 0xFFFFFF
  spreadPut (modPower s (fun p => { p with powerCycles := n })) 1 n

/-- The watchdog at a start (R593, R603, R606, R666). -/
def startWatchdog (s : State) (kind : Nat) : State :=
  let (v, s) := s.draw
  let w := s.wd
  let keep := decide (kind = 3)
  let s := { s with
    wd := { Watchdog.reset with
      lfsr := lfsrDraw (nonZero32 v), lock := w.lock && decide (kind ≠ 1), count := w.count, faultN := w.faultN,
      lastRes := if keep then w.lastRes else 0, observed := if keep then w.observed else 0,
      implied := if keep then w.implied else 0, impliedVoid := keep && w.impliedVoid,
      recDtask := if keep then w.recDtask else none, recAgent := if keep then w.recAgent else 0 } }
  if w.resetRecord then log s 0xB2 sevFault 0x1B s.wd.recAgent s.wd.lastRes (wdRecordVals s.wd) else s

/-! ### Marks (R391, R446, R536, R570) -/

def loadMarks (s : State) : State :=
  let s := match pstoreGet s.pstore .mark globalScope markHelmTerm with
    | none => modTwin s (fun t => { t with mark := none, term := 0 })
    | some b =>
      modTwin s (fun t => { t with mark := some (field b 0 4, field b 4 8, slice b 12 16), term := field b 0 4 })
  let s := match pstoreGet s.pstore .mark globalScope markTimeLearned with
    | none => modClock s (fun c => { c with learned := Vector.replicate 8 (0, 0) })
    | some b =>
      modClock s (fun c => { c with
        learned := Vector.ofFn (fun i => (unleInt (slice b (2 * i.val) 2), 3 * (field b 16 1 / 2 ^ i.val % 2))) })
  let s := match pstoreGet s.pstore .mark globalScope markTwinBase with
    | none => { s with ring := { s.ring with base := none } }
    | some b => { s with ring := { s.ring with base := some (field b 0 8, field b 8 4) } }
  let s := loadTrims s
  { s with
    dsp := { s.dsp with
      rewrite := if (pstoreGet s.pstore .mark globalScope markDspIncomplete).isSome then some 1 else s.dsp.rewrite } }

/-! ### The start itself -/

/-- The pair at a start (R366, R388): no link, no role until the steps of R389 and R390. -/
def startTwin (s : State) : State :=
  let t := s.twin
  { s with
    twin := { Twin.reset with
      role := if par s 0x0601 = 1 then .starting else .unpaired, mark := t.mark, term := t.term, changes := t.changes } }

/-- A start of the logic die with a reset kind (R340, R660, R667). The device is then in IDLE, its state rebuilt and
its outputs not yet re-emitted. -/
def dieStart (s : State) (kind : Nat) : State :=
  let ended := s.host.session.isSome || s.host.prevEnded
  let lost := s.host.workDiscarded || s.host.cmds.any (·.bySession)
  let gap := s.sched.gapUnknown
  let cut := s.dsp.update.isSome
  let s := cutUpdate s
  let p := s.power
  let s := { s with
    tb := 0, eng := Engine.reset, sched := { Sched.reset with gapUnknown := gap }, sent := [], sysPhase := 0,
    host := { HostSt.reset with prevEnded := ended, workDiscarded := lost },
    power := { p with
      mode := .idle, resumed := false, opened := false, vinValid := true, failing := false, resetKind := kind, paceGood := 0,
      paceWarnAt := none,
      closed := if s.field.lockout then [(6, 2, none, 0)] else [], unitResets := [], unitFault := false, lastFault := 0,
      haltFaults := [], haltReset := none, stopping := false, capMeasured := none, holdupLowSince := none, holdupWeak := false,
      holdupFault := false, reservedNj := 0, faultReq := false, wakeMask := 0, restartLimit := false,
      ecc := if kind = 1 then 0 else p.ecc, event := 0,
      haltRestarts := if kind = 6 then p.haltRestarts ++ [p.opsec] else p.haltRestarts },
    busA := BusLine.reset, busB := BusLine.reset,
    field := { s.field with linkAlive := false, pauseAt := none, test := none, grid := Vector.replicate 6 0 },
    dsp := { s.dsp with update := none, deferLogAt := none },
    params := { s.params with wait := [], sealWait := [], sealing := [] },
    store := { s.store with flashOpen := none } }
  let s := checkBackup s
  let s := closeUpdates (bootFirmware s)
  let s := loadGlobals (readPStore s)
  let s := countPowerCycle s
  let s := modPower s (fun q => { q with opsec := Nat.max q.opsec (spreadValue s 0) })
  let s := { s with book := { Bookings.reset with shares := (par s 0x0201, par s 0x0202, par s 0x0203, par s 0x0204) } }
  let s := startTwin (loadMarks s)
  let s := rebuild (readCharts (readKeys s))
  let s := applyForces (loadForces (loadChartParams s s.charts.active))
  let s := loadSafeVals (startWatchdog s kind)
  let s := if s.field.safe.isSome then markFieldSafe s else s
  let s := newWindow (refSync (modClock (startPanel s cut) (fun c => { c with
    lrefPeriodUs := 0, lrefAt := 0, refPresent := false, refAbsentAt := none })))
  anchor (log s 0xD0 sevInfo 0x1A kind 0 []) 1

/-- The logic die stops: the trim in force stays, and LOCKED ends (R571, R572). Log entry 22 (DEDUCED). -/
def dieStop (s : State) : State :=
  let t := trimInForce s
  modClock s (fun c => { c with trimStopped := t, locked := false })

/-- A watchdog reset (R602): its steps, then a start with kind 0x03. -/
def watchdogReset (s : State) : State := dieStart (dieStop (tearMarkers (wdResetSteps s))) 3

/-- What a reply, a bad service or an expiry leads to. -/
def wdAfter (r : State × Bool) : State := if r.2 then watchdogReset r.1 else r.1

end Sys2Proof.Machine
end

