-- ==== Sys2Proof/Machine/Timing.lean ====
section
/-!
DEFINITION. Bands and ceilings (R35-R37), the proven cost of a scan, set admission and what it yields (R53-R57,
R333-R335, R381), and the promise of a scan (R58). Spans are in ps.
-/
namespace Sys2Proof.Machine

open Sys2Proof

/-! ### Bands and ceilings -/

/-- Ceilings of the bands, ps (R35). -/
def ceilings : List Nat := [700, 720, 750, 790, 830, 880, 930, 980]

def bandCeiling (b : Nat) : Nat := ceilings.getD b 980

/-- c_max (R52). -/
def cMax : Nat := 1029

/-- c_adm of a band (R37). -/
def cAdmOf (b : Nat) : Nat := if b < 7 then bandCeiling (b + 1) else cMax

def cAdm (s : State) : Nat := cAdmOf s.power.band

/-- Lower boundaries of bands 1 to 7, 0.1 °C (R35). -/
def bandBounds : List Int := [-150, 100, 350, 600, 800, 1000, 1150]

/-- The reported band rises at a boundary and falls 2 °C below it (R36, R451, R540). Log entry 55 (DEDUCED). -/
def bandStep (bounds : List Int) (b : Nat) (t : Int) : Nat :=
  let up := bounds.countP (fun x => decide (x ≤ t))
  let keep := bounds.countP (fun x => decide (x - 20 < t))
  if b < up then up else Nat.min b keep

/-! ### Costs (R53) -/

def usPs (us : Nat) : Nat := us * 1000000

/-- A: ACQUIRE. -/
def costA (t : TaskDef) : Nat := if t.acq.toNat / 2 ^ 9 = 0 then usPs 4 else usPs 10

/-- S: SEAL; the MRAM term is the larger. -/
def costS (t : TaskDef) : Nat := usPs 2 + t.d * 160000

/-- E: EMIT. -/
def costE : Nat := usPs 3

/-- K under values of the parameters: 3 µs in tight mode with an IN_STEP Watch, else 0 (R382). -/
def kOf (s : State) (v : Nat → Nat) : Nat :=
  if s.twin.role = .helm ∧ s.twin.pair = .inStep ∧ v 0x0603 = 1 then usPs 3 else 0

/-- K in force (R382). Log entry 9 (DEDUCED). -/
def tightK (s : State) : Nat := kOf s (par s)

/-- What set admission is asked about: tasks with their numbers, chart values, allowance K, retained lines L, and whether
the device is paired. -/
structure TaskSet where
  tasks : List (Nat × TaskDef)
  ceiling : Nat
  roundMin : Nat
  slotMax : Nat
  slice : Nat
  k : Nat
  lines : Nat
  twin : Bool
  deriving DecidableEq, Repr

def TaskSet.g (x : TaskSet) : Nat := usPs (x.slotMax + x.slice)
def TaskSet.free (x : TaskSet) : List (Nat × TaskDef) := x.tasks.filter (fun t => !t.2.fixed)
def TaskSet.fix (x : TaskSet) : List (Nat × TaskDef) := x.tasks.filter (fun t => t.2.fixed)

def periodPs (t : TaskDef) : Nat := usPs (t.periodMs * 1000)

/-- C of R53. -/
def TaskSet.cost (x : TaskSet) (t : TaskDef) : Nat := costA t + t.p * cMax + costS t + costE + x.k + x.g

/-- cx of R55. -/
def TaskSet.costX (x : TaskSet) (t : TaskDef) : Nat := x.cost t + 60 * cMax

/-- b of R55: the longest non-preemptive stretch. -/
def TaskSet.block (x : TaskSet) : Nat :=
  x.tasks.foldl (fun m t => Nat.max m (costS t.2 + costE + x.k)) 0 + x.g + usPs 10

/-- Interference of tasks in a span. -/
def TaskSet.interfere (x : TaskSet) (hs : List (Nat × TaskDef)) (span : Nat) : Nat :=
  hs.foldl (fun n h => n + (if periodPs h.2 = 0 then 0 else cdiv span (periodPs h.2)) * x.costX h.2) 0

/-- The iterations of R55: from a value until it is stable or beyond a limit. -/
def settle (f : Nat → Nat) (limit : Nat) : Nat → Nat → Nat
  | 0, v => v
  | n + 1, v => let v' := f v; if v' = v then v else if limit < v' then v' else settle f limit n v'

def settleFuel : Nat := 40000

/-- The round bound (R55). -/
def TaskSet.round (x : TaskSet) : Nat :=
  let base := x.free.foldl (fun n t => n + x.cost t.2) 0
  settle (fun r => base + x.interfere x.fix r) (usPs x.ceiling) settleFuel base

/-- The response bound of a fixed-period task (R55). -/
def TaskSet.response (x : TaskSet) (j : Nat × TaskDef) : Nat :=
  let base := x.block + x.costX j.2
  let higher := x.fix.filter (fun h => decide (h.1 < j.1))
  settle (fun r => base + x.interfere higher r) (periodPs j.2) settleFuel base

/-- The largest excess among the failing conditions of R55, ps (R56). -/
def TaskSet.excess (x : TaskSet) : Nat :=
  x.fix.foldl (fun m j => Nat.max m (x.response j - periodPs j.2)) (x.round - usPs x.ceiling)

/-- W_s of R334, ps. -/
def TaskSet.ws (x : TaskSet) : Nat :=
  if x.free.isEmpty then
    match x.fix.map (fun t => periodPs t.2) with
    | [] => 0
    | p :: ps => ps.foldl Nat.min p
  else usPs (Nat.max x.roundMin (9 * x.free.length))

/-- Λ and N of R334. -/
def TaskSet.load (x : TaskSet) : Nat × Nat :=
  let reps := fun (t : TaskDef) => (if periodPs t = 0 then 0 else cdiv x.ws (periodPs t)) + 1
  (x.free.foldl (fun n t => n + t.2.d) 0 + x.fix.foldl (fun n t => n + reps t.2 * t.2.d) 0,
   x.free.length + x.fix.foldl (fun n t => n + reps t.2) 0)

/-- 390,786 − L (R333). -/
def TaskSet.spare (x : TaskSet) : Nat := 390786 - x.lines

/-- The left side of R334 or R381 × (390,786 − L), given the times of a line and of a carried line, less the right side ×
(390,786 − L): the excess. -/
def TaskSet.overload (x : TaskSet) (line carried pct : Nat) : Nat :=
  let (la, n) := x.load
  ((la + 4 * n) * line * x.spare + x.lines * la * carried) - x.ws * pct / 100 * x.spare

/-- Set admission: none when proven; else the resource code and the detail word (R56, R335, R381). -/
def TaskSet.refusal (x : TaskSet) : Option (BitVec 8 × Nat) :=
  if x.tasks.isEmpty then none
  else if x.excess ≠ 0 then some (0x01, psToTb x.excess)
  else
    let o := x.overload 160000 240000 80
    if o ≠ 0 then some (0x03, cdiv o (x.spare * 2500))
    else
      let w := x.overload 102400 153600 75
      if x.twin && decide (w ≠ 0) then some (0x04, cdiv w (x.spare * 1600)) else none

/-- W_img in tb (R57). -/
def TaskSet.wImg (x : TaskSet) : Nat :=
  if x.tasks.isEmpty then psToTb (usPs x.slotMax)
  else
    let a := x.free.map (fun j => settle (fun w => x.cost j.2 + x.interfere x.fix w) (usPs 2000000) settleFuel (x.cost j.2))
    let b := x.fix.map (fun j => x.g + x.response j)
    psToTb ((a ++ b).foldl Nat.max 0)

/-- Bytes per share window that proven seals with their carrying take (R57, R333): the left side of R334 over W_s, scaled to
1 ms and rounded up. Log entry 95 (DESIGN CHOICE). -/
def TaskSet.sealBytes (x : TaskSet) : Nat :=
  if x.ws = 0 then 0
  else
    let (la, n) := x.load
    cdiv (((la + 4 * n) * 64 * x.spare + x.lines * la * 96) * usPs 1000) (x.spare * x.ws)

/-! ### The sets of the device -/

/-- L of R321. -/
def retainedLines (s : State) : Nat := dext s / 8 + 9221

/-- The set that a chart enables, under values and a task table. -/
def setOf (s : State) (v : Nat → Nat) (mask : BitVec 16) (tasks : Vector TaskDef 16) : TaskSet :=
  { tasks := ((List.range 16).map (fun t => (t, vget tasks t TaskDef.absent))).filter
      (fun t => t.2.present && mask.getLsbD t.1),
    ceiling := v 0x0301, roundMin := v 0x0302, slotMax := v 0x0206, slice := v 0x0207, k := kOf s v,
    lines := retainedLines s, twin := decide (v 0x0601 = 1) }

/-- The set in force. -/
def runningSet (s : State) : TaskSet :=
  match s.prog, activeImage s with
  | some p, some i => setOf s (par s) i.taskMask p.tasks
  | _, _ => setOf s (par s) 0 (Vector.replicate 16 TaskDef.absent)

/-- A chart's values for set admission, under a change of the device's global values. -/
def valueFor (s : State) (c pid : Nat) : Nat :=
  if ((paramInfo pid).map (·.chart)).getD false then chartValue s c pid else par s pid

/-- Charts usable and bound to the loaded program (R286). -/
def usableCharts (s : State) : List Nat := (List.range 8).filter (chartUsable s)

/-- Set admission for every usable chart with a task table (R286): the first failure. -/
def admitCharts (s : State) (tasks : Vector TaskDef 16) : Option (BitVec 8 × Nat) :=
  (usableCharts s).findSome? (fun c =>
    match (chartSlot s c).image with
    | none => none
    | some i => (setOf s (valueFor s c) i.taskMask tasks).refusal)

/-- W_img in force: IMAGE_SLOT_MAX while nothing runs (R57). -/
def wImg (s : State) : Nat :=
  if s.pstate = .running then (runningSet s).wImg else psToTb (usPs (par s 0x0206))

/-- Free MRAM bytes per share window (R57). Log entry 95 (DESIGN CHOICE). -/
def freeMram (s : State) : Nat := 400000 - (if s.pstate = .running then (runningSet s).sealBytes else 0)

/-- Free twin-link bytes per share window (R57): a device of a pair reserves 5 % (R381). Log entry 95 (DESIGN CHOICE). -/
def freeTwin (s : State) : Nat :=
  (if paired s then 593750 else 625000) - (if s.pstate = .running ∧ paired s then (runningSet s).sealBytes else 0)

/-! ### The promise of a scan (R58) -/

/-- The promise of a scan of task t that becomes ready at an instant, with Q ps of slot and slice ahead. -/
def scanPromise (s : State) (t ready q : Nat) : Nat :=
  let x := runningSet s
  let d := taskDef s t
  let b := if d.fixed then x.block else 0
  let own := (if d.fixed then 0 else q) + b + costA d + d.p * cAdm s + costS d + costE + x.k
  let hs := if d.fixed then x.fix.filter (fun h => decide (h.1 < t)) else x.fix
  let i := settle (fun i => x.interfere hs (own + i)) (usPs 4000000) settleFuel 0
  ready + psToTb (own + i)

end Sys2Proof.Machine
end

