-- ==== Sys2Proof/Machine/Acquire.lean ====
section
/-!
DEFINITION. ACQUIRE (R161-R164): every input source with its tag (R196, R417, R462, R472, R508), the system input points
(R197, R433, R477, R519), and the force table over them.
-/
namespace Sys2Proof.Machine

open Sys2Proof

def taskRt (s : State) (t : Nat) : TaskRt := vget s.tasks t TaskRt.reset
def modTask (s : State) (t : Nat) (f : TaskRt → TaskRt) : State := { s with tasks := vmod s.tasks t f }
def modTasks (s : State) (f : TaskRt → TaskRt) : State := { s with tasks := s.tasks.map f }

/-! ### Sources -/

def fieldLinkDown (s : State) : Bool := s.field.lockout || collarClosed s 6

def pointTag (q : Quality) (v : Bool) : Tagged := ⟨0, mkTag false false false false false q v⟩

/-- Local digital input n (R417). -/
def diItem (s : State) (n : Nat) : Tagged :=
  let c := vget s.field.di n DiCh.reset
  let own := decide (par s (0x1181 + 4 * (n / 8)) = 0)
  if fieldLinkDown s then pointTag qBad (tagV (getItem s n).tag)
  else if !c.sampled then pointTag qBad false
  else
    pointTag
      (if c.broken then qBad
       else if own && s.field.cut then qBad
       else if own && s.field.warn then qUncertain
       else qGood) c.f

/-- The measured supplies, part of the local digital input area (R192). A closed field die link holds VFLD bad; an absent
line reference reads 0 with Q bad. -/
def lrefWord (s : State) : Tagged :=
  let p := s.clock.lrefPeriodUs
  if p = 0 then ⟨0, mkTag false false false false false qBad false⟩
  else ⟨f40OfRat 1000000 p, mkTag false false false false false (if lrefPresent s then qGood else qBad) false⟩

def vfldWord (s : State) : Tagged :=
  if fieldLinkDown s then ⟨(getItem s (wKey 0x800029)).val, mkTag false false false false false qBad false⟩
  else ⟨f40OfRat s.field.vfld 1000, 0⟩

/-- The items of an input area by its number in the acquire mask (R149, R616) with what their sources give. -/
def areaItems (s : State) (a : Nat) : List (Nat × Tagged) :=
  if a = 0 then
    (List.range 48).map (fun n => (n, diItem s n)) ++ [(wKey 0x800028, lrefWord s), (wKey 0x800029, vfldWord s)]
  else if a < 9 then
    let c := a - 1
    (wKey (0x800000 + c), measWord s c)
      :: (List.range 4).map (fun v => (wKey (0x800008 + 4 * c + v), hartWord s c v))
  else
    let (l, n) := if a < 72 then (Line.a, a - 8) else (Line.b, a - 71)
    (stInKeys l n).filterMap (fun k =>
      ((stationItem s l n k).or (if (forceAt s k).isSome then some (getItem s k) else none)).map (fun t => (k, t)))

/-! ### System input points (R197, R433, R477, R519) -/

def pacedWarn (s : State) : Bool :=
  match s.power.paceWarnAt with
  | none => false
  | some t => decide (s.tb ≤ t + 200000000)

def stationLost (s : State) (l : Line) (n : Nat) : Bool := isExchange s l n && lostOrMapErr (station s l n)
def anyLost (s : State) (l : Line) : Bool := decide (0 < lostCount s l)

/-- Points 0x0_F000 to 0x0_F01A. -/
def sysLow (s : State) (t k : Nat) : Bool :=
  let rt := taskRt s t
  match k with
  | 0x00 => true
  | 0x02 => rt.firstScan
  | 0x03 => rt.resumed
  | 0x04 => rt.chartChanged
  | 0x05 => rt.edited
  | 0x06 => rt.skipped
  | 0x07 => s.forces.any (fun f => !f.sim)
  | 0x08 => s.forces.any (fun f => f.sim)
  | 0x09 => anyLost s .a || anyLost s .b
  | 0x0A => anyLost s .a
  | 0x0B => anyLost s .b
  | 0x0C => s.field.warn
  | 0x0D => s.field.cut
  | 0x0E => s.clock.valid
  | 0x0F => s.sched.gapUnknown
  | 0x10 => pacedWarn s
  | 0x11 => s.wd.state = .warned
  | 0x12 => s.twin.role = .helm
  | 0x13 => s.twin.pair = .inStep
  | 0x15 => s.dsp.fault
  | 0x16 => anaFault s
  | 0x17 => s.host.session.isSome
  | 0x18 => s.charts.active % 2 = 1
  | 0x19 => s.charts.active / 2 % 2 = 1
  | 0x1A => s.charts.active / 4 % 2 = 1
  | _ => false

/-- Digital diagnostics, offset from 0x0_F200 (R433). -/
def sysDigital (s : State) (t k : Nat) : Bool :=
  if k < 0x30 then (vget s.field.di k DiCh.reset).broken
  else if 0x40 ≤ k ∧ k < 0x58 then (doAt s (k - 0x40)).on
  else if 0x60 ≤ k ∧ k < 0x78 then decide (deliveredQ s (k - 0x60) ≠ qGood)
  else if 0x80 ≤ k ∧ k < 0x98 then latched (doAt s (k - 0x80))
  else if 0xA0 ≤ k ∧ k < 0xB8 then (doAt s (k - 0xA0)).openLoad
  else if k = 0xC0 then (taskRt s t).fieldSafe
  else if k = 0xC1 then fieldLinkDown s
  else if k = 0xC2 then s.field.restoring
  else false

/-- Bus diagnostics, offset from 0x0_F400 (R519). -/
def sysBus (s : State) (t k : Nat) : Bool :=
  let seen := (taskRt s t).fifoSeen
  if k < 6 then busPoint s .a k seen.1
  else if 0x10 ≤ k ∧ k < 0x16 then busPoint s .b (k - 0x10) seen.2
  else if 0x41 ≤ k ∧ k < 0x80 then isExchange s .a (k - 0x40) && (station s .a (k - 0x40)).state = .mapErr
  else if 0x81 ≤ k ∧ k < 0xC0 then isExchange s .b (k - 0x80) && (station s .b (k - 0x80)).state = .mapErr
  else false

/-- V of a system input point at an ACQUIRE of task t. -/
def sysPoint (s : State) (t p : Nat) : Bool :=
  let k := p - 0xF000
  if k < 0x1B then sysLow s t k
  else if 0x101 ≤ k ∧ k < 0x140 then stationLost s .a (k - 0x100)
  else if 0x141 ≤ k ∧ k < 0x180 then stationLost s .b (k - 0x140)
  else if 0x200 ≤ k ∧ k < 0x300 then sysDigital s t (k - 0x200)
  else if 0x300 ≤ k ∧ k < 0x340 then anaPoint s ((k - 0x300) / 8) ((k - 0x300) % 8)
  else if 0x400 ≤ k ∧ k < 0x500 then sysBus s t (k - 0x400)
  else false

/-- The points R197 defines. -/
def sysDefined : List Nat :=
  (List.range 0x1B).map (0xF000 + ·) ++ (List.range 63).map (0xF101 + ·) ++ (List.range 63).map (0xF141 + ·)
    ++ (List.range 0x30).map (0xF200 + ·) ++ (List.range 24).map (0xF240 + ·) ++ (List.range 24).map (0xF260 + ·)
    ++ (List.range 24).map (0xF280 + ·) ++ (List.range 24).map (0xF2A0 + ·) ++ (List.range 3).map (0xF2C0 + ·)
    ++ (List.range 64).map (0xF300 + ·) ++ (List.range 6).map (0xF400 + ·) ++ (List.range 6).map (0xF410 + ·)
    ++ (List.range 63).map (0xF441 + ·) ++ (List.range 63).map (0xF481 + ·)

/-- Every system input point. The first ACQUIRE finds them all stale, so it sets E of each (R163, R319). -/
def acquireSystem (s : State) (t : Nat) : State :=
  let pts := sysDefined.map (fun p => (p, sysPoint s t p))
  let s := pts.foldl (fun s x =>
    putItem s x.1 ⟨0, mkTag (decide (tagV (getItem s x.1).tag ≠ x.2)) false false false false qGood x.2⟩) s
  { s with sysPhase := min 2 (s.sysPhase + 1) }

/-! ### ACQUIRE -/

/-- What the previous ACQUIRE froze of an item (R163). -/
def frozenItem (s : State) (k : Nat) : Tagged :=
  ((s.sched.frozen.find? (fun e => decide (e.1 = k))).map (·.2)).getD (getItem s k)

/-- An acquired value with E by R163; the force table wins (R164). -/
def acquireItem (s : State) (k : Nat) (src : Tagged) : State :=
  let old := frozenItem s k
  let s := modSched s (fun x => { x with frozen := smErase x.frozen k })
  let t := match forceAt s k with
    | some f => forcedItem src f (isPointKey k)
    | none => src
  let e := decide (t.val ≠ old.val) || decide (tagV t.tag ≠ tagV old.tag) || decide (tagQ t.tag ≠ tagQ old.tag)
  putItem s k ⟨t.val, setE t.tag e⟩

/-- The input areas of an acquire mask. -/
def maskAreas {n : Nat} (m : BitVec n) : List Nat := (List.range n).filter (fun a => m.getLsbD a)

/-- The marks that a task's next scan shows are taken by its ACQUIRE. -/
def takeMarks (s : State) (t : Nat) : State :=
  modTask s t (fun r => { r with
    firstScan := false, resumed := false, chartChanged := false, edited := false, skipped := false, fieldSafe := false,
    fifoSeen := (s.busA.fifoOvf, s.busB.fifoOvf) })

/-- ACQUIRE of a task, at one instant. -/
def acquire (s : State) (t : Nat) : State :=
  let items := (maskAreas (taskDef s t).acq).flatMap (areaItems s)
  let s1 := items.foldl (fun s x => acquireItem s x.1 x.2) s
  takeMarks (acquireSystem s1 t) t

end Sys2Proof.Machine
end

