-- ==== Sys2Proof/Machine/Emit.lean ====
section
/-!
DEFINITION. EMIT (R170-R172, R320): the outcome for each output item, the substituted tags, the hold shadows, and what
reaches the destinations at the end of EMIT; the emission of areas that no task owns (R153); the safe values (R181).
-/
namespace Sys2Proof.Machine

open Sys2Proof

/-! ### Output areas (R149, R616) -/

/-- The mapped output items of a station; a foreign station's are not sent (R511). Log entry 24 (DEDUCED). -/
def stOutItems (s : State) (l : Line) (n : Nat) : List Nat :=
  if isExchange s l n then
    (List.range (mapOutPts (stMap s l n))).map (stOutPoint l n)
      ++ (List.range (mapOutWords (stMap s l n))).map (stOutWord l n)
  else []

/-- The output items of an area. Log entry 24 (DEDUCED). -/
def outItems (s : State) (a : Nat) : List Nat :=
  if a < 3 then (List.range 8).map (fun i => 0x10000 + 8 * a + i)
  else if a < 11 then (if isOutputMode (anaModeNow s (a - 3)) then [wKey (0x804000 + (a - 3))] else [])
  else if a < 74 then stOutItems s .a (a - 10)
  else if a < 137 then stOutItems s .b (a - 73)
  else if a = 137 then
    (match dspBase s with | none => [] | some d => (List.range 33).map (fun k => wKey (d + k)))
  else [0x1F000, 0x1F001, 0x1F002]

/-- The area of an output item: the display only within its first 40 words (R521). -/
def outArea (s : State) (k : Nat) : Option Nat :=
  if isPointKey k then
    if 0x10000 ≤ k ∧ k ≤ 0x10017 then some ((k - 0x10000) / 8)
    else if inStationPoints 0x11000 k then some (10 + (k - 0x11000) / 0x100)
    else if inStationPoints 0x15000 k then some (73 + (k - 0x15000) / 0x100)
    else if sysOutDefined k then some 138
    else none
  else
    let a := keyAddr k
    if 0x804000 ≤ a ∧ a ≤ 0x804007 then some (3 + (a - 0x804000))
    else if inStationWords 0x804800 a then some (10 + (a - 0x804800) / 32)
    else if inStationWords 0x805800 a then some (73 + (a - 0x805800) / 32)
    else match dspBase s with
      | none => none
      | some d => if d ≤ a ∧ a ≤ d + 32 then some 137 else none

/-- The task that owns an area (R150). -/
def areaOwner (s : State) (a : Nat) : Option Nat :=
  match s.prog with
  | none => none
  | some p => (List.range 16).find? (fun t =>
      let d := vget p.tasks t TaskDef.absent
      d.present && d.emit.getLsbD a)

def unownedAreas (s : State) : List Nat := (List.range 139).filter (fun a => (areaOwner s a).isNone)

/-! ### The outcome for one item (R170) -/

/-- The safe value of an unnamed item (R278): the channel's safe current in its units, else 0. Log entry 23 (DEDUCED). -/
def defaultSafe (s : State) (k : Nat) : Word :=
  if isPointKey k then 0
  else
    let a := keyAddr k
    if 0x804000 ≤ a ∧ a ≤ 0x804007 then toEu s (a - 0x804000) (anaP s (a - 0x804000) 0xF) else 0

def itemTreat (s : State) (k : Nat) : Treat := treatOf s k (defaultSafe s k)

/-- Whether the active chart names the item. -/
def treatNamed (s : State) (k : Nat) : Bool := ((activeImage s).bind (fun i => namedTreat i k)).isSome

/-- A value of an item: V of a point, the word otherwise. -/
def itemWord (k : Nat) (t : Tagged) : Word := if isPointKey k then (if tagV t.tag then 1 else 0) else t.val

/-- A value as an item's content. -/
def asItem (k : Nat) (w : Word) (tag : Byte) : Tagged :=
  if isPointKey k then ⟨0, setV tag (w.getLsbD 0)⟩ else ⟨w, setV tag false⟩

/-- What EMIT sends for an item; `step` is the step of R170 that decided. -/
structure Sent where
  step : Nat
  item : Tagged
  deriving DecidableEq, Repr

/-- Index in the display block of a display word. -/
def dspIndex (s : State) (k : Nat) : Option Nat :=
  if isWordKey k then
    match dspBase s with
    | none => none
    | some d => if d ≤ keyAddr k ∧ keyAddr k ≤ d + 32 then some (keyAddr k - d) else none
  else none

/-- The value held for step 5: from the hold shadow, or from the block's own for display words (R320, R521). -/
def heldValue (s : State) (k : Nat) : Option Word :=
  match dspIndex s k with
  | none => heldOf s.held k
  | some i =>
    match dspBase s with
    | none => none
    | some d =>
      if (getItem s (wKey (d + 73))).val.getLsbD i then some (getItem s (wKey (d + 40 + i))).val else none

/-- The outcome of R170 for an item. -/
def emitItem (s : State) (k : Nat) : Sent :=
  let t := getItem s k
  let tr := itemTreat s k
  if tagM t.tag then ⟨1, t⟩
  else if tagF t.tag then ⟨2, ⟨t.val, setS t.tag false⟩⟩
  else if (tagQ t.tag).toNat ≤ tr.qt.toNat then ⟨3, ⟨t.val, setS t.tag false⟩⟩
  else if !tr.hold then ⟨4, asItem k tr.subst (setS t.tag true)⟩
  else ⟨5, asItem k ((heldValue s k).getD tr.subst) (setS t.tag true)⟩

/-- S of the item in the working image (R171); it sets no E. -/
def emitTag (s : State) (k : Nat) (r : Sent) : State :=
  let t := getItem s k
  if r.step = 1 then s else putItem s k ⟨t.val, setS t.tag (decide (4 ≤ r.step))⟩

/-- The owner's record of a shadow line that EMIT changed (R320). -/
def shadowChanged (s : State) (owner : Option Nat) (line : Nat) : State :=
  match owner with
  | none => s
  | some t => modTask s t (fun r => { r with
      shadowDirty := if r.shadowDirty.contains line then r.shadowDirty else r.shadowDirty ++ [line] })

/-- Update the hold shadow of an item sent under step 2 or 3. -/
def emitShadow (s : State) (owner : Option Nat) (k : Nat) (r : Sent) : State :=
  if r.step ≠ 2 ∧ r.step ≠ 3 then s
  else
    let w := itemWord k r.item
    if heldValue s k = some w then s
    else
      match dspIndex s k with
      | none => shadowChanged { s with held := smInsert s.held k w } owner (shadowKey (shadowOf k))
      | some i =>
        match dspBase s with
        | none => s
        | some d =>
          let a := wKey (d + 40 + i)
          let b := wKey (d + 73)
          let old := (getItem s b).val
          let s := storeItem s a ⟨w, 0⟩
          let s := shadowChanged s owner (lineOf a)
          if old.getLsbD i then s
          else shadowChanged (storeItem s b ⟨old ||| BitVec.ofNat 40 (2 ^ i), 0⟩) owner (lineOf b)

/-- EMIT for one item of an area: the working image and the shadows. -/
def emitOne (owner : Option Nat) (s : State) (k : Nat) : State :=
  let r := emitItem s k
  emitShadow (emitTag s k r) owner k r

/-- EMIT of a set of areas. -/
def emitAreas (s : State) (areas : List Nat) : State :=
  areas.foldl (fun s a => (outItems s a).foldl (emitOne (areaOwner s a)) s) s

/-! ### The destinations -/

/-- The unit a destination lies behind is absent (R671): local outputs, islands, display. -/
def pathClosed (s : State) (a : Nat) : Bool :=
  if a < 3 then fieldLinkDown s
  else if a < 11 then fieldLinkDown s || islandDown s (a - 3)
  else if a = 137 then fieldLinkDown s || collarClosed s 7
  else false

/-- Record the value a destination was sent. -/
def recordSent (s : State) (k : Nat) (t : Tagged) : State := { s with sent := smInsert s.sent k t }

/-- A gang's command from EMIT (R420, R422, R430, R172): off clears its latches; on energises it where that is
permitted, in turn while the group restores after a cut-off. -/
def commandGang (s : State) (lead : Nat) (v : Bool) : State :=
  if !v then
    let d := doAt s lead
    let s := if d.limit then log s 0x68 sevNotice 0x06 lead 1 [] else s
    let s := if d.thermal then log s 0x68 sevNotice 0x06 lead 2 [] else s
    setGang s lead (fun d => { d with cmd := false, on := false, limit := false, thermal := false })
  else
    let s := setGang s lead (fun d => { d with cmd := true })
    if s.field.needEmit.getLsbD (lead / 8) && !s.field.cut then
      if (doAt s lead).on || !mayEnergise s lead then s
      else modField s (fun f => { f with turns := f.turns ++ [lead], restoring := true })
    else if (List.range 24).any (fun n => decide (gangLead s n = lead) && s.field.turns.contains n) then s
    else if mayEnergise s lead then setGang s lead (fun d => { d with on := true }) else s

/-- An EMIT that changes the tested output ends DIO.TEST with result 2 (R435). -/
def endTest (s : State) (lead : Nat) (v : Bool) : State :=
  match s.field.test with
  | some x =>
    if x.kind = 0 ∧ gangLead s x.channel = lead ∧ (doAt s lead).cmd ≠ v then
      doneNow (modField s (fun f => { f with test := none })) x.ref [2, 0, 0, 0]
    else s
  | none => s

/-- The local outputs of a group at the end of EMIT; one that EMIT does not send keeps its last value (R170, R309). -/
def sendGroup (unsent : Nat → Bool) (s : State) (g : Nat) : State :=
  let leads := (gangLeads s).filter (fun n => decide (n / 8 = g) && !unsent (0x10000 + n))
  let vals := leads.filterMap (fun n => (s.sent.find? (fun e => e.1 = 0x10000 + n)).map (fun e => (n, tagV e.2.tag)))
  let s := vals.foldl (fun s x => commandGang (endTest s x.1 x.2) x.1 x.2) s
  modField s (fun f => { f with
    safe := none, safeTurns := f.safeTurns.filter (fun n => n / 8 ≠ g),
    needEmit := if f.cut then f.needEmit else f.needEmit &&& ~~~(BitVec.ofNat 3 (2 ^ g)) })

/-- A set-point for a channel: an unnamed item's safe current goes to the island as it is (R278, R449). -/
def sendChannel (s : State) (c : Nat) : State :=
  let k := wKey (0x804000 + c)
  match s.sent.find? (fun e => e.1 = k) with
  | none => s
  | some e =>
    let sub := tagS e.2.tag
    if sub && !treatNamed s k then
      let a := island s c
      if !isOutputMode a.mode then s
      else
        let (v, cl) := limitSetPoint s c true a.setPoint (some (anaP s c 0xF))
        modAna s c (fun a => aim a v cl)
    else sendSetPoint s c e.2.val sub

/-- The system output points take effect (R198). A rising TWIN_HANDOVER_REQ on a Helm requests a change of watch. -/
def sendSystem (s : State) (before : SMap Tagged) : State :=
  let v := fun (m : SMap Tagged) (k : Nat) => (m.find? (fun e => e.1 = k)).any (fun e => tagV e.2.tag)
  let s := modPower s (fun p => { p with faultReq := v s.sent 0x1F000 })
  let s := modDsp s (fun d => { d with blank := v s.sent 0x1F002 })
  if v s.sent 0x1F001 && !v before 0x1F001 && decide (s.twin.role = .helm) && s.sched.handoverReq.isNone then
    if s.twin.pair = .inStep then modSched s (fun x => { x with handoverReq := some none })
    else log s 0x56 sevNotice 0x05 (pairCode s.twin.pair) 0 []
  else s

/-- The transfer of an area to its destination; a closed collar takes none (R671), and a simulated item is not sent (R170). -/
def sendArea (unsent : Nat → Bool) (before : SMap Tagged) (s : State) (a : Nat) : State :=
  if pathClosed s a then s
  else if a < 3 then sendGroup unsent s a
  else if a < 11 then (if unsent (wKey (0x804000 + (a - 3))) then s else sendChannel s (a - 3))
  else if a = 137 then sendFrame s (composeFrame s (sentDspWord s))
  else if a = 138 then sendSystem s before
  else modSched s (fun x => { x with safeAreas := x.safeAreas.filter (fun b => b ≠ a) })

/-- The end of EMIT for a set of areas: each item's outcome is recorded as sent, then the destinations change. -/
def sendAreas (s : State) (areas : List Nat) : State :=
  let before := s.sent
  let s := areas.foldl (fun s a => (outItems s a).foldl (fun s k =>
    let r := emitItem s k
    if r.step = 1 then s else recordSent s k r.item) s) s
  areas.foldl (sendArea (fun k => tagM (getItem s k).tag) before) s

/-! ### Safe values (R153, R181) -/

/-- Emit areas as the active chart's safe values. Log entry 23 (DEDUCED). -/
def sendSafe (s : State) (areas : List Nat) : State :=
  let before := s.sent
  let s := areas.foldl (fun s a => (outItems s a).foldl (fun s k =>
    recordSent s k (asItem k (itemTreat s k).safe (mkTag false false false true false qGood false))) s) s
  areas.foldl (sendArea (fun _ => false) before) s

/-- Unowned areas as safe values (R153). -/
def emitUnowned (s : State) : State := sendSafe s (unownedAreas s)

/-- The areas a task owns. -/
def taskAreas (s : State) (t : Nat) : List Nat := maskAreas (taskDef s t).emit

/-- Every owned area: what a re-emit sends (R292, R344). -/
def ownedAreas (s : State) : List Nat := (List.range 139).filter (fun a => (areaOwner s a).isSome)

end Sys2Proof.Machine
end

