-- ==== Sys2Proof/Machine/ChartOps.lean ====
section
/-!
DEFINITION. Requests for a chart and how they meet (R249, R287, R692, R693, R724), the swap (R290-R299), and the
application of an edit (R302, R308, R313, R314).
-/
namespace Sys2Proof.Machine

open Sys2Proof

def modCharts (s : State) (f : Charts → Charts) : State := { s with charts := f s.charts }

/-- Set bits of SF.EVENT (R235). -/
def raiseEvent (s : State) (b : Word) : State := modPower s (fun p => { p with event := p.event ||| b })

def evPacew : Word := 2
def evChgdone : Word := 4

/-! ### Requests -/

/-- A request becomes the pending one; its preload starts anew (R288). -/
def setReq (s : State) (r : ChgReq) : State :=
  modCharts s (fun c => { c with req := some { r with preloaded := false }, reqField := r.chart })

/-- CHART values of the active chart that are committed and not yet in effect (R693). -/
def chartValuesPending (s : State) : Bool := s.params.wait.any (fun w => w.1 = .chart)

def refreshReq (s : State) : ChgReq :=
  { chart := s.charts.active, kind := .refresh, ref := none, madeBy := 0, isSealed := true,
    preloaded := false }

/-- Cancel the pending request; an earlier CHART.SELECT receives DONE with payload 0 (R287), and a refresh is recorded
when CHART values are pending (R693). -/
def cancelReq (s : State) : State :=
  match s.charts.req with
  | none => s
  | some r =>
    let s := doneNow? (modCharts s (fun c => { c with req := none })) r.ref (le 8 0)
    if chartValuesPending s then setReq s (refreshReq s) else s

def logDiscard (s : State) (chart code : Nat) : State := log s 0x31 sevWarning 0x1F chart code []

/-- A `chg` or `chgr` for chart c of the scan in progress. The rows for the active chart are read before the rows that
replace a request (log entry 21). Log entry 21 (DEDUCED). -/
def requestChg (s : State) (c : Nat) : State :=
  match s.sched.running with
  | none => s
  | some sc =>
    match s.charts.req with
    | some r =>
      if r.kind = .select then logDiscard s c 2
      else
        let before := sc.chgBefore.orElse (fun _ => some (s.charts.reqField, s.charts.req))
        let s := if c = s.charts.active then cancelReq s
          else setReq s
            { chart := c, kind := .chg, ref := none, madeBy := sc.id, isSealed := false,
              preloaded := false }
        modSched s (fun x => { x with running := some { sc with chgBefore := before, chgMine := s.charts.req } })
    | none =>
      if c = s.charts.active then s
      else
        let before := sc.chgBefore.orElse (fun _ => some (s.charts.reqField, s.charts.req))
        let s := setReq s
          { chart := c, kind := .chg, ref := none, madeBy := sc.id, isSealed := false,
            preloaded := false }
        modSched s (fun x => { x with running := some { sc with chgBefore := before, chgMine := s.charts.req } })

/-- A CHART.SELECT whose state checks have passed (R287). Log entry 21 (DEDUCED). -/
def requestSelect (s : State) (c : Nat) (ref : CmdRef) : State :=
  if s.charts.committed.isSome then
    modCharts s (fun x => { x with deferred := x.deferred ++
      [{ chart := c, kind := .select, ref := some ref, madeBy := 0, isSealed := true,
         preloaded := false }] })
  else if c = s.charts.active then doneNow (cancelReq s) ref (le 8 0)
  else
    let s := match s.charts.req with
      | some r =>
        if r.kind = .chg then log s 0x32 sevNotice 0x1F c 0 []
        else doneNow? s r.ref (le 8 0)
      | none => s
    setReq s
      { chart := c, kind := .select, ref := some ref, madeBy := 0, isSealed := true,
        preloaded := false }

/-- A refresh request (R692, R693, R724). Log entry 96 (DEDUCED). -/
def requestRefresh (s : State) : State :=
  if s.charts.committed.isSome then
    modCharts s (fun x => { x with deferred := x.deferred ++ [refreshReq s] })
  else
    match s.charts.req with
    | some r => if r.kind ≠ .refresh ∧ r.chart ≠ s.charts.active then s else setReq s (refreshReq s)
    | none => setReq s (refreshReq s)

/-- The request of an overrun scan is withdrawn when it is still the pending one; what it replaced or cancelled becomes
pending again and its preload restarts (R249 rule 4). -/
def withdrawChg (s : State) (sc : Scan) : State :=
  match sc.chgBefore with
  | none => s
  | some (f, old) =>
    let bare := fun (q : Option ChgReq) => q.map (fun r => { r with preloaded := false })
    if bare s.charts.req ≠ bare sc.chgMine then s
    else modCharts s (fun c => { c with req := old.map (fun r => { r with preloaded := false }), reqField := f })

/-! ### The swap -/

/-- Counter filters keep their counts, clamped to the new limits; changed tick grids start anew (R297, R414).
Log entry 61 (DEDUCED). -/
def swapInputs (old : Nat → Nat) (s : State) : State :=
  let di := Vector.ofFn (fun (i : Fin 48) =>
    let c := vget s.field.di i.val DiCh.reset
    let lim := par s (0x1001 + 8 * i.val)
    ({ c with c := min c.c lim, b := min c.b lim } : DiCh))
  let grid := Vector.ofFn (fun (g : Fin 6) =>
    if old (0x1180 + 4 * g.val) ≠ par s (0x1180 + 4 * g.val) then s.tb else vget s.field.grid g.val 0)
  modField s (fun f => { f with di, grid })

/-- Outputs whose pairing differs are switched off (R297). -/
def swapGangs (old : Nat → Nat) (s : State) : State :=
  (List.range 24).foldl (fun s n =>
    if old (0x1200 + 8 * n) ≠ par s (0x1200 + 8 * n) then setDo s n (fun d => { d with cmd := false, on := false })
    else s) s

/-- The display swaps: with kind 0 its discharge switches close (R544); a panel kind, duty or bias never differs
between usable charts (R543). -/
def swapDisplay (was s : State) : State :=
  if dspP s 0 = 0 then modDsp s (fun d => { d with switches := true, update := none })
  else if dspP was 0 ≠ 0 ∧ s.dsp.frame = composeFrame was (sentDspWord was) then sendFrame s (composeFrame s (sentDspWord s))
  else if s.dsp.frame = safeFrame was then sendFrame s (safeFrame s)
  else s

/-- SEAL values that still wait at a swap: those of another chart stay with its records, and those of the same chart do not take
effect before their moment (R687, R691). Log entry 89 (DEDUCED). -/
def holdSealValues (before s : State) : State :=
  if before.charts.active ≠ s.charts.active then
    { s with params := { s.params with
        wait := s.params.wait.filter (fun w => !isChartPid w.2.1), sealWait := s.params.sealWait.filter (fun w => !isChartPid w.1) } }
  else
    let pids := (s.params.wait.filter (fun w => decide (w.1 = .seal))).map (·.2.1) ++ s.params.sealWait.map (·.1)
    pids.foldl (fun s pid => setPar s pid (par before pid)) s

/-- Every unit takes the settings of a chart in one step (R290, R691). An entry for a station that the chart maps anew takes
effect (R307). -/
def swapSettings (s : State) (c : Nat) : State :=
  let before := s
  let old := par s
  let was := fun f => forceActs s f.addr
  let s := loadChartParams (modCharts s (fun x => { x with active := c })) c
  let s := holdSealValues before { s with params := { s.params with wait := s.params.wait.filter (fun w => w.1 ≠ .chart) } }
  let s := swapGangs old (swapInputs old (loadSafeVals s))
  let s := (List.range 8).foldl (anaSwap old) s
  let s := busSwap old (busSwap old s .a) .b
  swapDisplay before ((s.forces.filter (fun f => !was f)).foldl applyForce s)

/-- The free-running tasks still to run in the round under the enable mask in force (R291). -/
def restOfRound (s : State) : List Nat :=
  match s.sched.roundLast with
  | none => enabledFree s
  | some t => (enabledFree s).filter (fun u => decide (t < u))

/-- Requests that waited for the swap meet the state after it (R724). Log entry 96 (DEDUCED). -/
def replayDeferred (s : State) : State :=
  let ds := s.charts.deferred
  ds.foldl (fun s r =>
    match r.kind, r.ref with
    | .select, some c => requestSelect s r.chart c
    | .select, none => s
    | _, _ => requestRefresh s) (modCharts s (fun c => { c with deferred := [] }))

/-- The task-enable mask or the task table has changed (R147, R154, R291): the rest of the round follows it, a released task
that it disables does not start, and where no free-running task could run before, a round is ready at once. -/
def followTasks (before : List Nat) (s : State) : State :=
  modSched s (fun x => { x with
    roundLeft := if x.roundOpen then restOfRound s else x.roundLeft,
    roundReady := if before.isEmpty then Nat.max x.roundReady s.tb else x.roundReady,
    waiting := x.waiting.filter (fun w => (taskDef s w.1).fixed && (enabledTasks s).contains w.1) })

/-- The swap of R290 for a committed request whose change seal point lies at `sealTb`. -/
def swapChart (s : State) (r : ChgReq) (sealTb : Nat) : State :=
  let free := enabledFree s
  let s := emitUnowned (swapSettings s r.chart)
  let s := modTasks (modCharts s (fun c => { c with
    committed := none, unusable := c.unusable && decide (r.kind ≠ .select) })) (fun t => { t with chartChanged := true })
  let s := doneNow? (raiseEvent s evChgdone) r.ref (le 8 sealTb)
  let s := log s 0x30 sevNotice 0x1F r.chart (reqKindCode r.kind) (le 8 sealTb)
  replayDeferred (followTasks free s)

/-! ### Edits (R300-R314) -/

/-- Keys that an edit's write set names and that hold an entry, ascending (R313). -/
def forcedWrites (s : State) (e : EditImage) : List Nat :=
  ((e.writeSet.map (fun a => forceKey a.toNat)).filter (fun k => s.forces.any (fun f => f.addr = k))).eraseDups.mergeSort
    (· ≤ ·)

/-- The address field of R306 of a key. -/
def forceAddr (k : Nat) : Nat := if isPointKey k then k else 0x40000000 + keyAddr k

/-- Release an entry: the item keeps its value, F or M is cleared (R310). E follows R166. -/
def releaseForce (s : State) (k : Nat) : State :=
  let s := { s with forces := s.forces.filter (fun f => f.addr ≠ k) }
  let t := getItem s k
  storeItem s k ⟨t.val, setMF t.tag false false⟩

/-- Put hooks into code SRAM. -/
def putHooks (s : State) (hs : List (Nat × Word)) : State :=
  { s with code := hs.foldl (fun m h => smSet codeDefault m (h.1 % 0x100000) h.2) s.code }

/-- The last step of an edit at the end of its scan's EMIT (R302 steps 5 and 6). Log entry 63 (DEDUCED). -/
def applyEdit (s : State) (ref : CmdRef) (e : EditImage) (sealTb : Nat) : State :=
  let typed := (e.types.map (fun x => (forceKey x.1.toNat, x.1, x.2))).filter (fun x =>
    s.forces.any (fun f => f.addr = x.1))
  let free := enabledFree s
  let s := putHooks s e.hooks
  let s := match s.prog with
    | none => s
    | some p =>
      let edits := p.edits ++ [e]
      setProgSlot { s with prog := some { p with tasks := e.tasks, edits, chained := chainHash p.img.hash edits } } p.slot
        (fun x => { x with edits := (x.edits.filter (·.2)) ++ [(e, true)] })
  let s := typed.foldl (fun s x =>
    let s := releaseForce s x.1
    let del : PWrite := { kind := .force, scope := globalScope, key := forceAddr x.1, body := none }
    let s := (groupWrite s [del]).getD s
    log s 0x36 sevNotice 0x1F (x.2.1.toNat % 65536) 0 (le 4 x.2.1.toNat ++ le 1 x.2.2.1 ++ le 1 x.2.2.2)) s
  let fs := forcedWrites s e
  let listed := fs.take 1014
  let n := (s.prog.map (·.edits.length)).getD 0
  let s := log s 0x33 sevNotice 0x1F n 0 ((fs.drop 1014).flatMap (fun k => le 4 (forceAddr k)))
  let s := modTasks (followTasks free s) (fun t => { t with edited := true })
  doneNow (modSched s (fun x => { x with editPending := none })) ref
    (le 8 sealTb ++ le 2 listed.length ++ listed.flatMap (fun k => le 4 (forceAddr k)))

end Sys2Proof.Machine
end

