-- ==== Sys2Proof/Machine/ScanCore.lean ====
section
/-!
DEFINITION. The life of a scan (R154-R182, R204, R231, R232, R248): start, preemption, resumption, seal, emit and its end;
the stop of the program; overruns (R175-R177); the changes of a stopped program (R292).
-/
namespace Sys2Proof.Machine

open Sys2Proof

def modEng (s : State) (f : Engine → Engine) : State := { s with eng := f s.eng }
def modRing (s : State) (f : Ring → Ring) : State := { s with ring := f s.ring }
def modRun (s : State) (f : Scan → Scan) : State :=
  modSched s (fun x => { x with running := x.running.map f })

/-- A seal fault (R336): fault halt, and the scan affected emits nothing. -/
def sealFaultAt (s : State) (line : Nat) : State := raiseFault s 0x85 line

/-- Append a STATE record (R324); an error of the ring is the seal fault of R336. -/
def stateRecord (s : State) (sub : StateKind) (lines : List (Nat × RingLine)) : State :=
  match ringAppend s (recHeader s .state sub lines) with
  | .ok s => s
  | .error l => sealFaultAt s l

/-! ### Starting a scan -/

/-- Whether any scan may start now: the program runs, no stop is recorded, the device is in service, and the hold-up
energy suffices (R655, R656). -/
def scansAllowed (s : State) : Bool :=
  s.pstate = .running && s.sched.stopping.isNone && !s.sched.noMoreScans && accepting s && s.power.mode ≠ .halt
    && !s.power.holdupFault && decide (eSeal ≤ eUse s)
    && !s.power.failing && !s.power.stopping && (s.twin.role = .unpaired || s.twin.role = .helm)

/-- Spill the window that a position holds to the window stack of the task that owns it (R207); true when there was one.
Log entry 31 (DEDUCED). -/
def spillAt (s : State) (pos : Nat) : Bool × State :=
  match vget s.eng.owner pos none with
  | none => (false, s)
  | some (u, _) =>
    (true, modTask (modEng s (fun e => { e with owner := vset e.owner pos none })) u (fun r => { r with
      stack := r.stack ++ [vget s.eng.win pos Window.reset] }))

/-- The windows of a task's scan are discarded: resident and spilled (R248). -/
def dropWindows (s : State) (t : Nat) : State :=
  let e := s.eng
  modTask (modEng s (fun x => { x with
    owner := e.owner.map (fun o => match o with | some (u, d) => if u = t then none else some (u, d) | none => none) })) t
    (fun r => { r with stack := [] })

/-- Positions that hold no live window are cleared: no register value survives a scan (R204). -/
def clearedWindows (e : Engine) : Vector Window 16 :=
  e.win.zipWith (fun w o => match o with | none => Window.reset | some _ => w) e.owner

/-- EXECUTE begins (R204): the engine as the rule clears it, in a window position of its own (R232). A window that the
position holds is spilled, as a call would spill it. Log entry 31 (DEDUCED). -/
def beginExecute (s : State) (t : Nat) (wpos : BitVec 4) : State :=
  let d := taskDef s t
  let s := (spillAt (dropWindows s t) wpos.toNat).2
  modEng s (fun e => { Engine.reset with
    win := vset (clearedWindows e) wpos.toNat Window.reset, owner := vset e.owner wpos.toNat (some (t, 0)),
    pc := d.entry, wpos,
    ctrl := BitVec.ofNat 40 (d.ctrl.toNat % 8 / 2 * 2) })

/-- PROG.RUN is answered with the start of the first scan (R139, R157); with a free value where the run has none.
Log entry 27 (DEDUCED). -/
def answerRun (s : State) (start : Option Nat) : State :=
  match s.host.cmds.find? (fun x => decide (x.opcode = 0x0403 ∧ x.phase = .waiting)) with
  | none => s
  | some x =>
    match start with
    | some t => doneNow s x.ref (le 8 t)
    | none => let (v, s) := s.draw; doneNow s x.ref (le 8 v.toNat)

/-- A scan of task t starts under its promise (R58): it acquires, and begins EXECUTE. Log entry 87 (DEDUCED). -/
def startScan (s : State) (t ready promise : Nat) (wpos : BitVec 4) : State :=
  let d := taskDef s t
  let shadow := (taskRt s t).shadowDirty
  let sc : Scan :=
    { id := s.sched.nextScanId, task := t, stamp := pairTb s (if d.fixed then ready else s.tb), promise, phase := .execute,
      dirty := [], shadowDirty := shadow, firstDiscard := none, pmovr := false,
      rtcAtAcquire := s.clock.sec * 32768 + s.clock.sub, flagsAtAcquire := rtcFlags s,
      chgBefore := none, chgMine := none, isChange := false, isEdit := false,
      isHandover := false, sealBegun := 0, sealSeq := 0 }
  let s := modSched s (fun x => { x with
    running := some sc, nextScanId := x.nextScanId + 1, aheadPs := if d.fixed then x.aheadPs else 0,
    slotDone := false, sliceDone := false,
    firstStart := x.firstStart.orElse (fun _ => some s.tb), trun := x.trun.orElse (fun _ => some s.tb),
    roundLast := if d.fixed then x.roundLast else some t })
  wdSyncMode (beginExecute (acquire (answerRun s (some s.tb)) t) t wpos)

/-! ### Preemption (R158, R231, R232) -/

/-- The context of the scan in EXECUTE: the whole engine with its current and parent windows. -/
def saveContext (s : State) : Context :=
  let w := s.eng.wpos.toNat
  { eng := s.eng, cur := vget s.eng.win w Window.reset,
    parent := if s.eng.depth = 0 then none else some (vget s.eng.win ((w + 15) % 16) Window.reset) }

/-- Restore a context: both windows are put back in their positions, and copies of them that a spill made while the task
was preempted are dropped (R231). Windows that the preempting task displaced stay in the window stack. -/
def restoreContext (s : State) (t : Nat) (c : Context) : State :=
  let w := c.eng.wpos.toNat
  let below := (w + 15) % 16
  let own := fun (o : Option (Nat × Nat)) => (match o with | some (u, _) => decide (u = t) | none => false)
  let kept := fun (depth : Nat) (pos : Nat) => own (vget s.eng.owner pos none) &&
    decide ((vget s.eng.owner pos none).map (·.2) = some depth)
  let win1 := vset s.eng.win w c.cur
  let win2 := match c.parent with
    | none => win1
    | some p => vset win1 below p
  let ow1 := vset s.eng.owner w (some (t, c.eng.depth))
  let ow2 := match c.parent with
    | none => ow1
    | some _ => vset ow1 below (some (t, c.eng.depth - 1))
  let spilledNow := (if kept c.eng.depth w then 0 else 1)
    + (match c.parent with | none => 0 | some _ => if kept (c.eng.depth - 1) below then 0 else 1)
  let s := { s with eng := { c.eng with win := win2, owner := ow2 } }
  modTask s t (fun r => { r with stack := r.stack.take (r.stack.length - spilledNow) })

/-- The priority order: fixed-period tasks before free-running ones, a lower number first (R146, R158). -/
def outranks (s : State) (t u : Nat) : Bool := !(taskDef s u).fixed || decide (t < u)

/-- OUTPUT_OWNER_ERR for the running scan (R152, R197). -/
def showOwnerErr (s : State) (b : Bool) : State :=
  let t := getItem s 0xF014
  putItem s 0xF014 ⟨t.val, setV t.tag b⟩

/-- A suspended scan goes on where it stopped (R158), with OUTPUT_OWNER_ERR as its own stores left it (R152). -/
def resumeScan (s : State) (sc : Scan) (c : Context) (rest : List (Scan × Context)) : State :=
  showOwnerErr (restoreContext (modSched s (fun x => { x with running := some sc, suspended := rest })) sc.task c)
    sc.firstDiscard.isSome

/-- The waiting release of highest priority: task, release instant, promise. -/
def nextWaiting (s : State) : Option (Nat × Nat × Nat) :=
  s.sched.waiting.foldl (fun b x =>
    match b with
    | none => some x
    | some y => if x.1 < y.1 then some x else b) none

def dropWaiting (s : State) (t : Nat) : State :=
  modSched s (fun x => { x with waiting := x.waiting.filter (fun w => w.1 ≠ t) })

/-- A waiting release preempts the scan in EXECUTE unless it is masked (R158, R233). Log entry 39 (DEDUCED). -/
def preemptNow (s : State) : State :=
  match s.sched.running, nextWaiting s with
  | some sc, some (t, rel, pr) =>
    if sc.phase = .execute && !s.eng.ctrl.getLsbD 0 && (taskDef s t).fixed && outranks s t sc.task && scansAllowed s then
      let c := saveContext s
      let s := modSched s (fun x => { x with suspended := (sc, c) :: x.suspended, running := none })
      startScan (dropWaiting s t) t rel pr (s.eng.wpos + 1)
    else s
  | _, _ => s

/-- What runs after a scan has ended: a waiting release that outranks the suspended scan, else the suspended scan, else
a waiting release (R158, R159). -/
def runNext (s : State) : State :=
  match s.sched.suspended with
  | (sc, c) :: rest =>
    match nextWaiting s with
    | some (t, rel, pr) =>
      if outranks s t sc.task && scansAllowed s then startScan (dropWaiting s t) t rel pr (c.eng.wpos + 1)
      else resumeScan s sc c rest
    | none => resumeScan s sc c rest
  | [] =>
    match nextWaiting s with
    | some (t, rel, pr) => if scansAllowed s then startScan (dropWaiting s t) t rel pr 0 else s
    | none => s

/-! ### Rounds (R154, R155) -/

/-- Open a round: every enabled free-running task runs once. It began when its first scan became ready, also while a
fixed-period scan ran. -/
def openRound (s : State) : State :=
  modSched s (fun x => { x with
    roundOpen := true, roundStart := x.roundReady, roundLast := none, roundLeft := enabledFree s })

/-- Close a round whose scans have all ended: the next is ready at the later of now and its start plus ROUND_MIN. -/
def closeRound (s : State) : State :=
  if s.sched.roundOpen && s.sched.roundLeft.isEmpty then
    modSched s (fun x => { x with
      roundOpen := false, roundReady := Nat.max s.tb (x.roundStart + usToTb (par s 0x0302)) })
  else s

/-- Skip a task's next scan after a Tolerant overrun (R176). -/
def skipScan (s : State) (t : Nat) : State :=
  modTask s t (fun r => { r with skipNext := false, skipped := true })

/-! ### The stop of the program (R178-R181) -/

/-- Make the stop: state, record, safe states, receipts (R179-R181, R362). -/
def programStops (s : State) (m : StopMode) (refs : List CmdRef) : State :=
  let s := { s with pstate := .stopped }
  let s := modSched s (fun x => { x with
    stopping := none, stopMode := m, roundOpen := false, roundLeft := [], waiting := [] })
  let s := stateRecord s (if m = .safe then .stopSafe else .stopHold) []
  let s := answerRun (if m = .safe then applySafe s 3 else s) none
  refs.foldl (fun s c => doneNow s c (le 8 s.ring.lastSealTb)) (syncMode s)

/-! ### Stops of the logic die that wait for the scans in progress (R337, R659, R669) -/

/-- No scan is in progress. -/
def noScan (s : State) : Bool := s.sched.running.isNone && s.sched.suspended.isEmpty

/-- The logic die is off: in DORMANT or BACKUP (R658). -/
def dieOff (s : State) (m : PowerMode) : State :=
  let s := stopEngine (dieStop s)
  modPower (modField s (fun f => { f with linkAlive := false })) (fun p => { p with
    mode := m, resumed := false, stopping := false })

/-- The learned trims into the parameter store: eight entries, then a learned bit per band (R570).
Log entry 76 (DEDUCED). -/
def writeLearned (s : State) : State :=
  let c := s.clock
  let body := (List.range 8).flatMap (fun b => leInt 2 (vget c.learned b (0, 0)).1)
    ++ le 1 ((List.range 8).foldl (fun v b => v + 2 ^ b * boolBit (decide (3 ≤ (vget c.learned b (0, 0)).2))) 0)
  match groupWrite s [⟨.mark, globalScope, markTimeLearned, some body⟩] with
  | none => s
  | some s => modClock s (fun c => { c with learnedAt := s.power.opsec })

/-- Steps 6 and 7 of R337: HANDOVER of a Helm (R396), the learned trims (R570), the power-loss record, BACKUP. An LCD's
discharge switches close (R544). With VIN valid again by then, the die starts as from power-on (R648). -/
def enterBackup (s : State) : State :=
  let v := s.power.vinValid
  let s := writeLearned (sendHandover s 2)
  let s := if dspP s 0 = 1 then modDsp s (fun d => { d with switches := true }) else s
  let s := dieOff (log s 0x05 sevNotice 0x1A 0 0 (le 8 (s.ring.nextSeq - 1))) .backup
  if v then dieStart s 1 else s

/-- Steps 3 to 5 of R669: a bistable update that has begun completes first, then the record and the restart.
Log entry 85 (DEDUCED). -/
def gracefulReset (s : State) (kind : Nat) : State :=
  if s.dsp.update.isSome then s
  else
    let s := log s 0xD9 sevNotice 0x1A kind 0 []
    dieStart (dieStop (modPower s (fun p => { p with startAs := kind }))) 4

/-- A line is put to sleep with its wake as DEV.DORMANT asks (R659 step 2). -/
def dormantLine (s : State) (l : Line) : State :=
  if (lineOfBus s l).asleep then s
  else modLine (dropFrames s l 4) l (fun b => { b with asleep := true, cycleRunning := false })

/-- Steps 1 to 4 of R659; a running program has stopped by then. The field die holds the safe state. -/
def goDormant (s : State) (mask : BitVec 16) : State :=
  let s := dormantLine (dormantLine (applySafe s 3) .a) .b
  let s := anaLockout (modDsp (cutUpdate s) (fun d => { d with switches := true }))
  modPower (dieOff s .dormant) (fun p => { p with wakeMask := mask })

/-- What waits for the scans in progress to end: a VIN failure first, then DEV.DORMANT or DEV.RESET.
Log entry 79 (DEDUCED). -/
def finishStop (s : State) : State :=
  if !noScan s then s
  else if s.power.failing then (if s.dsp.update.isSome then s else enterBackup s)
  else if !s.power.stopping then s
  else match s.host.dormantWait with
    | some m => goDormant s m
    | none => gracefulReset s (s.host.resetWait.getD 0)

/-- A stop that waits for a bistable update to end goes on (R337 step 5, R669 step 3). -/
def finishWaits (s : State) : State := if s.power.failing || s.power.stopping then finishStop s else s

/-- HANDOVER of a requested change, after which no further scan or image slot is admitted (R395). -/
def handoverAfter (s : State) : State :=
  let s := modSched s (fun x => { x with noMoreScans := true })
  match s.sched.handoverReq with
  | none => s
  | some _ => sendHandover s 0

/-- While no scan runs and none can start, a requested change of watch needs no handover seal point (R395). -/
def handoverIfIdle (s : State) : State :=
  if s.sched.handoverReq.isSome && s.twin.handoverSent.isNone && noScan s
      && (s.pstate ≠ .running || (enabledTasks s).isEmpty) then handoverAfter s
  else s

/-- PROG.STOP takes effect once no scan is in progress (R179), and so do the stops of the logic die.
Log entry 85 (DEDUCED). -/
def stopIfDue (s : State) : State :=
  if !noScan s then s
  else finishStop (handoverIfIdle (match s.sched.stopping with
    | some (m, refs) => programStops s m refs
    | none => s))

/-! ### Seal (R168, R169, R289, R303, R395) -/

/-- No other scan lies between its ACQUIRE and its EMIT. -/
def aloneScan (s : State) : Bool := s.sched.suspended.isEmpty

/-- SEAL values that wait for a scan to begin its SEAL go with this one (R691). -/
def armSealing (s : State) : State :=
  { s with params := { s.params with sealWait := [], sealing := s.params.sealing ++ s.params.sealWait } }

/-- They take effect together at the end of its EMIT (R691, R694). -/
def takeSealing (s : State) : State :=
  s.params.sealing.foldl (fun s e => setPar s e.1 (waitValue s e.1 e.2)) { s with params := { s.params with sealing := [] } }

/-- The scan begins its SEAL: it may become the change, the edit or the handover seal point (R289, R303, R395). -/
def beginSeal (s : State) (sc : Scan) : State :=
  let change := aloneScan s && (match s.charts.req with
    | some r => r.preloaded && r.isSealed && chartUsable s r.chart
    | none => false)
  let edit := aloneScan s && !change && (match s.sched.editPending with
    | some x => x.2.2
    | none => false)
  let hand := aloneScan s && !change && !edit && s.sched.handoverReq.isSome
  let s := if change then modCharts s (fun c => { c with committed := c.req, req := none }) else s
  modSched (armSealing s) (fun x => { x with
    running := some { sc with
      phase := .seal, isChange := change, isEdit := edit, isHandover := hand, sealBegun := s.tb } })

/-- Lines of the retained image that hold a changed item: words of data SRAM below DEXT, analogue output words, output
points. -/
def changedLines (s : State) : List Nat :=
  ((s.image.filter (fun e => tagE e.2.tag
      && (if isPointKey e.1 then decide (0x10000 ≤ e.1)
          else inDataSram (keyAddr e.1) || inAnaOut (keyAddr e.1)))).map (fun e => lineOf e.1)).eraseDups

/-- Lines that suspended scans have dirtied: their content is not sealed by another scan. -/
def suspendedDirty (s : State) : List Nat := s.sched.suspended.flatMap (fun x => x.1.dirty)

/-- Whether an output line may be sealed by a task: it lies in an area of the task's emit mask, or in none. -/
def sealsLine (s : State) (t l : Nat) : Bool :=
  (lineKeys l).all (fun k =>
    match outArea s k with
    | none => true
    | some a => (match areaOwner s a with | none => true | some u => decide (u = t)))
  || (lineKeys l).any (fun k =>
    match outArea s k with
    | none => false
    | some a => (taskDef s t).emit.getLsbD a)

/-- The lines that the SEAL of a scan appends (R168). -/
def sealLines (s : State) (sc : Scan) : List Nat :=
  let own := sc.dirty ++ sc.shadowDirty
  let other := (changedLines s).filter (fun l =>
    !own.contains l && !(suspendedDirty s).contains l && sealsLine s sc.task l)
  recordOrder (own ++ other)

/-- The record of a scan. -/
def scanRecord (s : State) (sc : Scan) (lines : List Nat) : RingRec :=
  let r := recHeader s .seal .none (lines.map (fun l => (0, ringLineOf s l)))
  let q := sealedReq s (some sc.id)
  { r with
    task := sc.task, stamp := sc.stamp, edit := sc.isEdit, edits := (r.edits + boolBit sc.isEdit) % 256,
    chgReq := q.1, chgKind := q.2 }

/-- The DONE receipt of a watch at a seal point: address and value of each item that the seal changed.
Log entry 26 (DEDUCED). -/
def watchReply (s : State) (sealTb : Nat) (c : CmdRef) (ch : List Nat) : State :=
  doneNow s c (le 8 sealTb ++ le 2 ch.length ++ ch.flatMap (fun k =>
    le 4 (if isPointKey k then k else keyAddr k) ++ leTagged ⟨itemWord k (getItem s k), (getItem s k).tag⟩))

/-- The watches of a task are answered at its seal point with those of their items that changed in it.
Log entry 26 (DEDUCED). -/
def answerWatches (s : State) (t : Nat) (changed : Nat → Bool) : State :=
  let hits := s.sched.watches.filter (fun x => decide (x.2.1 = t))
  let s := hits.foldl (fun s x => watchReply s s.tb x.1 (x.2.2.1.filter changed)) s
  modSched s (fun y => { y with watches := y.watches.filter (fun x => decide (x.2.1 ≠ t)) })

/-- The seal record of the scan in SEAL is complete (R168, R169, R249 rule 4). -/
def completeSeal (s : State) (sc : Scan) : State :=
  let lines := sealLines s sc
  match ringAppend s (scanRecord s sc lines) with
  | .error l => sealFaultAt s l
  | .ok s =>
    let seq := s.ring.nextSeq - 1
    let changed := ((s.sched.watches.filter (fun x => decide (x.2.1 = sc.task))).flatMap (fun x => x.2.2.1)).filter
      (fun k => tagE (getItem s k).tag)
    let s := lines.foldl sealLine s
    let s := answerWatches s sc.task (fun k => changed.contains k)
    let s := modTask s sc.task (fun r => { r with
      sealedOnce := true, sealRtcValid := s.clock.valid, sealRtc := s.clock.sec * 32768 + s.clock.sub,
      shadowDirty := r.shadowDirty.filter (fun l => !sc.shadowDirty.contains l) })
    let s := modCharts s (fun c => { c with
      req := c.req.map (fun r => if r.kind = .chg ∧ r.madeBy = sc.id then { r with isSealed := true } else r) })
    let s := modRing s (fun g => { g with
      lastSealSeq := seq, lastSealTb := s.tb, carryOwed := g.carryOwed + lines.length * retainedLines s })
    let s := match sc.firstDiscard with
      | none => s
      | some a => log s 0x22 sevWarning 0x1F sc.task 0 (le 4 a)
    let wait := decide (tightK s ≠ 0)
    modSched s (fun x => { x with
      running := some { sc with phase := if wait then .waitAck else .emit, sealSeq := seq } })

/-! ### The end of a scan (R172, R290, R302, R395) -/

/-- The scan ends its EMIT: outputs change, slack and completion are recorded, and what waited for its seal point
follows (R172, R290, R302). -/
def endScan (s : State) (sc : Scan) : State :=
  let s := takeSealing (sendAreas s (taskAreas s sc.task))
  let s := modTask s sc.task (fun r => { r with
    slack := sc.promise - s.tb, done := s.tb, lastPromise := sc.promise })
  let s := modSched s (fun x => { x with
    running := none, roundLeft := if (taskDef s sc.task).fixed then x.roundLeft
      else x.roundLeft.filter (fun u => u ≠ sc.task) })
  let s := match sc.isChange, s.charts.committed with
    | true, some r => swapChart s r s.ring.lastSealTb
    | _, _ => s
  let s := match sc.isEdit, s.sched.editPending with
    | true, some (ref, e, _) => applyEdit s ref e s.ring.lastSealTb
    | _, _ => s
  let s := if sc.isHandover then handoverAfter s else s
  stopIfDue (runNext (closeRound s))

/-! ### Overruns (R175-R177, R249 rule 4) -/

def causeCode : OverrunCause → Nat
  | .postage => 1
  | .dirty => 2
  | .stack => 3
  | .illegal => 4
  | .retAtZero => 5

/-- The scan in EXECUTE has overrun at the present instruction. -/
def overrunOp (s : State) (cause : OverrunCause) : State :=
  match s.sched.running with
  | none => s
  | some sc =>
    if sc.phase ≠ .execute then s
    else
      let d := taskDef s sc.task
      let s := modEng s (fun e => { e with ctrl := e.ctrl &&& 0xFFFFFFFFFE, pend := none })
      let s := withdrawChg s sc
      let s := dropWindows s sc.task
      let s := log s (if d.tolerant then 0x20 else 0x21) (if d.tolerant then sevWarning else sevFault) 0x01 sc.task
        (causeCode cause) (le 4 s.eng.pc.toNat)
      if d.tolerant then
        let s := sc.dirty.foldl restoreLine s
        let s := modTask s sc.task (fun r => { r with
          skipCount := min (r.skipCount + 1) 0xFFFFFFFFFF, skipNext := true })
        let s := modSched s (fun x => { x with
          running := none, roundLeft := if d.fixed then x.roundLeft else x.roundLeft.filter (fun u => u ≠ sc.task) })
        stopIfDue (runNext (closeRound s))
      else guardedStop s sc.task

/-! ### Changes without a scan (R292) -/

/-- Re-emit the last sealed output image under the chart in force: E and shadows as a normal EMIT leaves them. -/
def reEmitOwned (s : State) : State :=
  let work := s.image
  let outs := (ownedAreas s).flatMap (outItems s)
  let s1 := outs.foldl (fun s k =>
    let w := getItem s k
    let e := smGet itemDefault s.emitted k
    putItem s k ⟨e.val, mkTag (tagE e.tag) (tagL e.tag) (tagM w.tag) (tagS e.tag) (tagF w.tag) (tagQ e.tag) (tagV e.tag)⟩) s
  let s2 := sendAreas (emitAreas s1 (ownedAreas s)) (ownedAreas s)
  outs.foldl (fun s k =>
    let w := smGet itemDefault work k
    putItem s k ⟨w.val, setS w.tag (tagS (getItem s k).tag)⟩) s2

/-- While stopped, or running with no task enabled, the device makes the change seal point itself (R292). The re-emit leaves
the safe states that a stop applied (R178). -/
def changeIfIdle (s : State) : State :=
  let idle := s.pstate = .stopped || (s.pstate = .running && (enabledTasks s).isEmpty)
  match s.charts.req with
  | some r =>
    if idle && r.preloaded && chartUsable s r.chart && s.sched.running.isNone && s.sched.suspended.isEmpty then
      let s := modCharts s (fun c => { c with committed := c.req, req := none })
      match ringAppend s (recHeader s .seal .none []) with
      | .error l => sealFaultAt s l
      | .ok s =>
        let s := modRing s (fun g => { g with lastSealSeq := g.nextSeq - 1, lastSealTb := s.tb })
        modSched (reEmitOwned (swapChart s r s.tb)) (fun x => { x with stopMode := .hold })
    else s
  | none => s

/-- While stopped, or running with no task enabled, the device also makes the edit seal point itself, as R289 and R292
give for a change: once the data initialisations are written, and after a change that is ready (R302, R303). -/
def editIfIdle (s : State) : State :=
  let idle := s.pstate = .stopped || (s.pstate = .running && (enabledTasks s).isEmpty)
  match s.sched.editPending with
  | some (ref, e, true) =>
    if idle && s.sched.running.isNone && s.sched.suspended.isEmpty then
      let r := recHeader s .seal .none []
      match ringAppend s { r with edit := true, edits := (r.edits + 1) % 256 } with
      | .error l => sealFaultAt s l
      | .ok s =>
        let s := modRing s (fun g => { g with lastSealSeq := g.nextSeq - 1, lastSealTb := s.tb })
        applyEdit s ref e s.tb
    else s
  | _ => s

/-- A change, then an edit, that the device makes by itself. -/
def idleChanges (s : State) : State := editIfIdle (changeIfIdle s)

end Sys2Proof.Machine
end

