-- ==== Sys2Proof/Machine/Operands.lean ====
section
/-!
DEFINITION. Operands of the logic engine: registers and the window (R203-R208, R238), predicates (R239), address registers
and modes (R215-R218, R240, R241), the load delay (R212-R214), and the run of one instruction (R45, R47, R200-R202, R233).
-/
namespace Sys2Proof.Machine

open Sys2Proof

/-! ### General registers -/

/-- The home of a register code: e0 to e7 are the caller's v8 to v15, and nowhere at depth 0 (R205). -/
def regLoc (e : Engine) (r : Reg) : LoadDest :=
  let n := r.toNat
  if n < 8 then .home n
  else if n < 24 then .frame e.wpos.toNat (n - 8)
  else if e.depth = 0 then .nowhere
  else .frame ((e.wpos.toNat + 15) % 16) (n - 16)

/-- The content of a home; nowhere reads 0 with Q bad (R205). -/
def readLoc (e : Engine) (l : LoadDest) : Tagged :=
  match l with
  | .home i => vget e.h i Tagged.zero
  | .frame w i => vget (vget e.win w Window.reset).r i Tagged.zero
  | .pred i => let p := vget e.p i ⟨false, 0⟩; ⟨if p.v then 1 else 0, mkTag false false false false false p.q p.v⟩
  | .nowhere => ⟨0, mkTag false false false false false qBad false⟩

/-- A predicate: p0 reads 1 with Q good (R203). -/
def readPred (e : Engine) (p : BitVec 3) : Pred := if p = 0 then ⟨true, qGood⟩ else vget e.p p.toNat ⟨false, 0⟩

/-- Put content into a home; writes to p0 are ignored. -/
def putLoc (e : Engine) (l : LoadDest) (t : Tagged) : Engine :=
  match l with
  | .home i => { e with h := vset e.h i t }
  | .frame w i => { e with win := vmod e.win w (fun x => { x with r := vset x.r i t }) }
  | .pred i => if i = 0 then e else { e with p := vset e.p i ⟨t.val.getLsbD 0, tagQ t.tag⟩ }
  | .nowhere => e

/-- An instruction's own result displaces a load still pending into the same home (R213). -/
def dropPend (e : Engine) (l : LoadDest) : Engine :=
  match e.pend with
  | none => e
  | some p => if p.dest = l then { e with pend := none } else e

def readReg (e : Engine) (r : Reg) : Tagged := readLoc e (regLoc e r)

/-- Write a general register: e0 to e7 at depth 0 discard the write and set AERR (R205). Log entry 33 (DEDUCED). -/
def writeReg (e : Engine) (r : Reg) (t : Tagged) : Engine :=
  match regLoc e r with
  | .nowhere => setAerr e
  | l => putLoc (dropPend e l) l t

def writePred (e : Engine) (p : BitVec 3) (v : Bool) (q : Quality) : Engine :=
  if p = 0 then e
  else
    let e := dropPend e (.pred p.toNat)
    { e with p := vset e.p p.toNat ⟨v, q⟩ }

/-- A source predicate after its inversion bit, as a value and a tag of that Q (R246, R252). -/
def srcVal (e : Engine) (s : PSrc) : Bool := if s.inv then !(readPred e s.p).v else (readPred e s.p).v
def srcQ (e : Engine) (s : PSrc) : Quality := (readPred e s.p).q
def qTag (q : Quality) : Byte := mkTag false false false false false q false
def srcTag (e : Engine) (s : PSrc) : Byte := qTag (srcQ e s)

def readAcc (e : Engine) (a : BitVec 2) : Accum := vget e.a a.toNat ⟨0, 0⟩
def writeAcc (e : Engine) (a : BitVec 2) (x : Accum) : Engine := { e with a := vset e.a a.toNat x }

def readX (e : Engine) (k : BitVec 3) : XReg := vget e.x k.toNat ⟨0, 0⟩
def writeX (e : Engine) (k : BitVec 3) (x : XReg) : Engine := { e with x := vset e.x k.toNat x }
def readM (e : Engine) (k : BitVec 3) : BitVec 24 := vget e.m k.toNat 0
def readB (e : Engine) (k : BitVec 3) : BitVec 24 := vget e.b k.toNat 0
def readN (e : Engine) (k : BitVec 3) : BitVec 24 := vget e.n k.toNat 0

/-- Worsen the Q of an address register (R202, R265). -/
def worsenX (e : Engine) (k : BitVec 3) (q : Quality) : Engine :=
  let x := readX e k
  writeX e k { x with q := worseQ x.q q }

/-! ### Destinations and the governing predicate (R201, R202) -/

/-- The registers and predicates that an instruction names to the left of the arrow (R246). -/
inductive Dest where
  | reg (r : Reg)
  | pred (p : BitVec 3)
  | acc (a : BitVec 2)
  | xreg (k : BitVec 3)
  deriving DecidableEq, Repr

/-- Worsen a destination to at least q (R202). -/
def worsenDest (q : Quality) (e : Engine) (d : Dest) : Engine :=
  match d with
  | .reg r =>
    let l := regLoc e r
    let t := readLoc e l
    putLoc e l { t with tag := worsenTag t.tag q }
  | .pred p =>
    let x := readPred e p
    if p = 0 then e else { e with p := vset e.p p.toNat { x with q := worseQ x.q q } }
  | .acc a =>
    let x := readAcc e a
    writeAcc e a { x with tag := worsenTag x.tag q }
  | .xreg k => worsenX e k q

def guardMet (e : Engine) (g : Guard) : Bool := decide ((readPred e g.pred).v ≠ g.sense)
def guardQ (e : Engine) (g : Guard) : Quality := (readPred e g.pred).q

/-! ### Address modes (R215-R218, R240, R241) -/

/-- Reverse the low w bits. -/
def revBits : Nat → Nat → Nat
  | 0, _ => 0
  | w + 1, v => (v % 2) * 2 ^ w + revBits w (v / 2)

/-- A length that bit-reversed mode takes (R216). -/
def bitRevLength (n : Nat) : Bool := (List.range 22).any (fun w => decide (1 ≤ w) && decide (n = 2 ^ w))

def amodeOf (e : Engine) (k : BitVec 3) : Nat := (e.amode.extractLsb' (2 * k.toNat) 2).toNat

/-- Post-modify xk (R215); an illegal bit-reversed length is linear and sets AERR at the access (R216). -/
def postModify (e : Engine) (k : BitVec 3) : Engine :=
  let x := readX e k
  let a := x.val
  let m := readM e k
  let b := readB e k
  let n := (readN e k).toNat
  let linear := writeX e k { x with val := a + m }
  match amodeOf e k with
  | 1 =>
    if n = 0 then linear
    else writeX e k { x with val := b + BitVec.ofInt 24 (((a.toNat : Int) - b.toNat + m.toInt) % n) }
  | 2 =>
    if bitRevLength n then
      let w := Nat.log2 n
      let off := (((a.toNat : Int) - b.toNat) % n).toNat
      let step := (m.toInt % n).toNat
      let off := revBits w ((revBits w off + revBits w step) % n)
      writeX e k { x with val := b + BitVec.ofNat 24 off }
    else setAerrAt linear a
  | _ => linear

/-- An effective address with its Q and the register to post-modify. -/
structure Ea where
  addr : BitVec 24
  q : Quality
  post : Option (BitVec 3)
  deriving DecidableEq, Repr

def eaOf (e : Engine) (m : Mode) : Ea :=
  match m with
  | .absPoint p => ⟨p.setWidth 24, qGood, none⟩
  | .ind k => ⟨(readX e k).val, (readX e k).q, none⟩
  | .indPost k => ⟨(readX e k).val, (readX e k).q, some k⟩
  | .indexed k off => ⟨(readX e k).val + off.signExtend 24, (readX e k).q, none⟩
  | .viaReg r => ⟨(readReg e r).val.setWidth 24, tagQ (readReg e r).tag, none⟩

def postOf (e : Engine) (x : Ea) : Engine :=
  match x.post with
  | none => e
  | some k => postModify e k

/-- The address of format DA; region 0b11 is illegal. -/
def absAddr (a : Abs) : BitVec 24 :=
  match a.region.toNat with
  | 0 => a.offset.setWidth 24
  | 1 => 0x800000#24 + a.offset.setWidth 24
  | _ => 0xFFF000#24 + (a.offset.extractLsb' 0 12).setWidth 24

/-! ### One instruction -/

/-- What an instruction leaves: the state, the next pc and a load it leaves pending. -/
structure EngOut where
  st : State
  pc : CodeAddr
  load : Option PendLoad

/-- The next pc in code order (R219). -/
def nextPc (s : State) : CodeAddr := s.eng.pc + 1

/-- A result on the engine's registers only, with the next pc in code order. -/
def engOut (s : State) (e : Engine) : EngOut := ⟨{ s with eng := e }, nextPc s, none⟩

/-- The pending load reaches its destination (R212). Log entry 32 (DEDUCED). -/
def commitLoad (e : Engine) : Engine :=
  match e.pend with
  | none => e
  | some p => putLoc { e with pend := none } p.dest p.val

/-- Count beats, and masked beats when the instruction began masked; at 9,600 the mask ends (R47, R233).
Log entry 35 (DEDUCED). -/
def countBeats (e : Engine) (cost : Nat) (masked : Bool) : Engine :=
  let e := { e with beats := e.beats + cost, pmcount := if masked then e.pmcount + cost else e.pmcount }
  if masked && ctrlPmask e && decide (9600 ≤ e.pmcount) then
    { orStatus e stPmovr with ctrl := e.ctrl &&& 0xFFFFFFFFFE }
  else e

/-- One logbook record for each scan in which PMOVR is set (R233, type 0x23). -/
def notePmovr (s : State) : State :=
  match s.sched.running with
  | none => s
  | some sc =>
    if s.eng.status.getLsbD 3 && !sc.pmovr then
      log (modRun s (fun x => { x with pmovr := true })) 0x23 sevWarning 0x01 sc.task 0 []
    else s

/-- Run one instruction of the scan in EXECUTE. Without such a scan the engine executes nothing. An instruction whose cost
would take the count above P is not performed (R47); a body may name another cause of overrun. A reset of the logic die
within a body ends EXECUTE with it. `after` follows the instruction, told whether it executed.
Log entries 32, 38 (DEDUCED). -/
def engineRunThen (s : State) (g : Guard) (cost : Nat) (dests : List Dest) (isLoad : Bool)
    (body : State → Except OverrunCause EngOut) (after : Bool → State → State) : State :=
  match s.sched.running with
  | none => s
  | some sc =>
    if sc.phase ≠ .execute then s
    else
      let met := guardMet s.eng g
      let q := guardQ s.eng g
      let masked := ctrlPmask s.eng
      let cost := if met then cost else 1
      if (taskDef s sc.task).p < s.eng.beats + cost then overrunOp s .postage
      else
        match (if met then body s else .ok (engOut s s.eng)) with
        | .error c => overrunOp s c
        | .ok o =>
          if o.st.sched.running.isNone then o.st
          else
            let fin := fun (e : Engine) =>
              let e := commitLoad e
              let e := { e with
                pc := o.pc, pend := o.load.map (fun p => { p with val := { p.val with tag := worsenTag p.val.tag q } }) }
              let e := if met && isLoad then e else dests.foldl (worsenDest q) e
              countBeats e cost masked
            after met (notePmovr (modEng o.st fin))

/-- Run one instruction; a waiting preemption is taken after it (R158, R232).
Log entry 6 (DESIGN CHOICE); entry 39 (DEDUCED). -/
def engineRun (s : State) (g : Guard) (cost : Nat) (dests : List Dest) (isLoad : Bool)
    (body : State → Except OverrunCause EngOut) : State :=
  engineRunThen s g cost dests isLoad body (fun _ s => preemptNow s)

/-- An instruction that works on the engine's registers only. -/
def engineRegs (s : State) (g : Guard) (cost : Nat) (dests : List Dest) (f : Engine → Engine) :
    Host.Outcome State Fault Refusal :=
  .next (engineRun s g cost dests false (fun s => .ok (engOut s (f s.eng))))

/-- An illegal word: the scan overruns at it whether or not the predicate condition is met (R242). -/
def engineIllegal (s : State) : State :=
  match s.sched.running with
  | none => s
  | some sc => if sc.phase ≠ .execute then s else overrunOp s .illegal

end Sys2Proof.Machine
end

