-- ==== Sys2Proof/Machine/Resume.lean ====
section
/-!
DEFINITION. The end of a resume (R294, R316, R343, R344, R364, R365, R660 step 8, R669): the RESUME record, the re-emit of
every output area, the swap that the head record names, and the program state.
-/
namespace Sys2Proof.Machine

open Sys2Proof

/-- A re-emit sends TWIN_HANDOVER_REQ as it stood: that is no change from 0 to 1 (R198, R344). -/
def keepHandoverReq (s : State) : State :=
  let k := 0x1F001
  let was := if (areaOwner s 138).isSome then (emitItem (putItem s k (smGet itemDefault s.emitted k)) k).item
    else asItem k (itemTreat s k).safe 0
  recordSent s k was

/-- Re-emit every output area: owned areas from the emitted view, the others as safe values (R344). -/
def reEmitAll (s : State) : State :=
  emitUnowned (reEmitOwned (keepHandoverReq (modField s (fun f => { f with linkAlive := true }))))

/-- The newest SEAL or STATE record of the ring (R365). -/
def newestTimed (s : State) : Option RingRec :=
  (s.ring.recs.reverse).find? (fun r => recComplete r && (decide (r.kind = .seal) || decide (r.kind = .state)))

/-- The outage in sub-second counts; none when it cannot be measured (R365). -/
def outage (s : State) : Option Nat :=
  match newestTimed s with
  | none => none
  | some r =>
    let was := r.rtcSec * 32768 + r.rtcSub
    let is := s.clock.sec * 32768 + s.clock.sub
    if r.rtcValid && s.clock.valid && decide (was ≤ is) then some (is - was) else none

/-- The mode that a running program resumes in: 0 running, 1 stopped with outputs held, 2 stopped with safe states. A
DEV.RESET or a fault-halt restart may name it; an outage above RESUME_OUTAGE_MAX, or one not measurable, gives 2. -/
def resumeMode (s : State) (out : Option Nat) : Nat :=
  let m := if s.power.startAs ≠ 0 then s.power.startAs else par s 0x0501
  let lim := par s 0x0502
  if lim = 0 then m
  else match out with
    | none => 2
    | some n => if lim * 32768 < n then 2 else m

/-- The program takes a stopped state instead of running, with its STATE record. -/
def resumeStopped (s : State) (m : StopMode) : State :=
  let s := modSched { s with pstate := .stopped } (fun x => { x with stopMode := m })
  let s := stateRecord s (if m = .safe then .stopSafe else .stopHold) []
  if m = .safe then applySafe s 3 else s

/-- The program state after the re-emit (R344, R364, R365). -/
def resumeProgram (s : State) (out : Option Nat) : State :=
  if s.pstate ≠ .running then s
  else
    let m := resumeMode s out
    let s := if par s 0x0502 = 0 then s
      else log s 0x24 sevInfo 0x1F 0 m (le 4 ((out.map (fun n => n / 32768)).getD 0xFFFFFFFF))
    if m = 0 then
      modSched (modTasks s (fun t => { t with resumed := true }))
        (fun x => { x with trun := none, phases := [], firstStart := none, roundReady := s.tb })
    else resumeStopped s (if m = 2 then .safe else .hold)

/-- A resume whose chart is unusable: stopped, with the safe states (R316). -/
def resumeUnusable (s : State) (chart : Nat) : State :=
  let s := log (modCharts s (fun c => { c with unusable := true, committed := none })) 0x25 sevAlarm 0x1F chart 0 []
  if s.pstate = .running then resumeStopped s .safe
  else applySafe (modSched s (fun x => { x with stopMode := .safe })) 3

/-- The charts that the last seal names: the one emitted under, then the one that follows (R289, R316). -/
def sealedCharts (s : State) : List Nat := s.charts.active :: (s.charts.committed.map (·.chart)).toList

/-- Recovery: the boot code keeps the logic engine stopped and has the safe states applied (R635). -/
def resumeRecovery (s : State) : State :=
  applySafe (modSched { s with pstate := if s.pstate = .running then .stopped else s.pstate }
    (fun x => { x with stopMode := .safe })) 3

/-- Step 8 of R660 for a device that emits: the RESUME record of every resume (R324, R344), then the outputs. -/
def resumeNow (s : State) : State :=
  if s.store.recovery then resumeRecovery s else
  let out := outage s
  let s := modRing (stateRecord s .resume []) (fun g => { g with resumes := g.resumes + 1 })
  let s := modField s (fun f => { f with linkAlive := true })
  if s.prog.isNone then emitUnowned s
  else if s.ring.broken then applySafe (modSched s (fun x => { x with stopMode := .safe })) 3
  else
    match (sealedCharts s).find? (fun c => !chartUsable s c) with
    | some c => resumeUnusable s c
    | none =>
      let s := reEmitAll s
      let s := match s.charts.committed with
        | none => s
        | some r => swapChart s r s.ring.lastSealTb
      resumeProgram s out

/-- WD_LOCK, then WD_ENABLE, take effect on the watchdog (R605-R607). A lock keeps EN, and refusing to clear it sets
KEYERR. Log entry 54 (DEDUCED). -/
def wdApply (s : State) : State :=
  let s := wdSetLock s (decide (par s 0x1F02 = 1))
  if par s 0x1F01 = 1 then wdEnable s
  else if s.wd.state = .disabled then s
  else if wdLocked s then modWd s (fun w => { w with keyerr := true, keyStep := 0 })
  else modWd s (fun w => { w with state := .disabled, keyStep := 0 })

/-- The health window of a trial runs from the end of its start (R631). -/
def startHealth (s : State) : State :=
  if inTrial s && s.store.healthAt.isNone then
    modStore s (fun x => { x with healthAt := some (s.tb + msToTb (1000 * par s 0x2001)) })
  else s

/-- The re-emit is done: before the first scan the watchdog takes its parameters (R606), and the ports open (R95), and
the lines start (R501); the program state asked for by the start is used up. -/
def finishStart (s : State) : State :=
  openPorts (syncMode (modPower (wdApply (startLine (startLine (startHealth s) .a) .b)) (fun p => { p with
    resumed := true, startAs := 0 })))

/-- Step 8 of R660: a device of a pair holds its outputs back until its role is settled (R388), while its lines start
for bus heartbeats and reception (R390, R510). It waits until E_use reaches E_seal (R661). Log entries 28, 64 (DEDUCED). -/
def reEmitOp (s : State) : State :=
  if s.power.resumed || decide (s.power.mode ≠ .idle) || decide (eUse s < eSeal) then s
  else if s.twin.role = .unpaired ∨ s.twin.role = .helm ∨ s.store.recovery then finishStart (resumeNow s)
  else openPorts (syncMode (modPower (wdApply (startLine (startLine (startHealth s) .a) .b)) (fun p => { p with
    resumed := true })))

end Sys2Proof.Machine
end

