-- ==== Sys2Proof/Machine/SlotOps.lean ====
section
/-!
DEFINITION. Image slots (R69, R135, R173, R174, R302, R308-R311, R330, R526): what each booked access of a slot does, its
IMAGE records, its logbook records and the outcome of its command.
-/
namespace Sys2Proof.Machine

open Sys2Proof

/-! ### IMAGE records -/

/-- Whether the ring holds the line of an item: output points, data words, analogue output words (R319, R326). -/
def recordedItem (k : Nat) : Bool :=
  if isPointKey k then decide (0x10000 ≤ k) else inDataSram (keyAddr k) || inAnaOut (keyAddr k)

/-- The lines that a set of items touches, in record order. -/
def touchedLines (ks : List Nat) : List Nat := recordOrder (((ks.filter recordedItem).map lineOf).eraseDups)

/-- Cut a list into pieces of four; the fuel is its length. -/
def chunks4 {α : Type} : Nat → List α → List (List α)
  | 0, _ => []
  | n + 1, xs => if xs.isEmpty then [] else xs.take 4 :: chunks4 n (xs.drop 4)

/-- Write one IMAGE record of a group. -/
def imageRecord (s : State) (seq i n : Nat) (lines : List Nat) : State :=
  match ringAppend s { recHeader s .image .none (lines.map (fun l => (0, ringLineOf s l))) with group := (seq, i, n) } with
  | .ok s => s
  | .error l => sealFaultAt s l

/-- The IMAGE records of a command's write: one group of records of up to four lines (R330). -/
def imageRecords (s : State) (seq : Nat) (lines : List Nat) : State :=
  let cs := chunks4 lines.length lines
  (cs.zip (List.range cs.length)).foldl (fun s x => imageRecord s seq (x.2 + 1) cs.length x.1) s

/-- Step 3 of R302: the edit joins the program slot as a pending edit record. -/
def pendEdit (s : State) (slot : Nat) (e : EditImage) : State :=
  setProgSlot s slot (fun x => { x with edits := x.edits.filter (·.2) ++ [(e, false)] })

/-! ### Franks and forces in the logbook (R311) -/

/-- The owner key slot of a command's frank, or 0xFF when it is not franked (R125, R722). -/
def frankSlotOf (s : State) (c : CmdRef) : Nat :=
  match findCmd s c with
  | none => 0xFF
  | some x => if x.franked then field x.packet (x.packet.length - 140) 1 else 0xFF

def logForceSet (s : State) (owner : Nat) (f : Force) : State :=
  log s 0x34 sevNotice 0x1F (forceAddr f.addr % 65536) owner
    (le 4 (forceAddr f.addr) ++ le 5 f.value.toNat ++ [BitVec.ofNat 8 (boolBit f.sim)])

def logForceRelease (s : State) (owner k : Nat) : State :=
  log s 0x35 sevNotice 0x1F (forceAddr k % 65536) owner (le 4 (forceAddr k))

/-- Put an entry into the table, at most one per address (R306), and apply it (R308). -/
def putForce (s : State) (f : Force) : State :=
  applyForce { s with forces := s.forces.filter (fun x => x.addr ≠ f.addr) ++ [f] } f

/-! ### The accesses -/

/-- A write of a value with Q good and L 0; S, M and F stay (R173). -/
def writeItem (s : State) (x : Nat × Tagged) : State :=
  let k := x.1
  if heldByForce s k then s
  else
    let old := (getItem s k).tag
    storeItem s k ⟨x.2.val, mkTag (tagE old) false (tagM old) (tagS old) (tagF old) qGood (tagV x.2.tag)⟩

/-- The content that a read of an item returns: a reserved point or word reads 0 with Q bad (R191, R193). -/
def readItem (s : State) (k : Nat) : Tagged :=
  if (if isPointKey k then reservedPoint k else !inDataSram (keyAddr k) && reservedWord (keyAddr k)) then
    ⟨0, setQ 0 qBad⟩
  else getItem s k

/-- The bytes of IMAGE.READ: a tag per point, value and tag per word (R139). -/
def readBytes (s : State) (ks : List Nat) : List Byte :=
  ks.flatMap (fun k => if isPointKey k then [(readItem s k).tag] else leTagged (readItem s k))

/-- The image-access time of an access, in ps (R135, R139). -/
def slotPs : SlotWork → Nat
  | .read _ ks => if ks.all isPointKey then 120000 + 2000 * ks.length else 120000 + 10000 * ks.length
  | .write _ vs => 40000 + 10000 * vs.length
  | .forceSet _ es => 40000 + 10000 * es.length
  | .forceRelease _ all as => 40000 + 10000 * (if all then 1 else as.length)
  | .dspWrite _ _ => 40000
  | .editInit _ vs => 40000 + 10000 * vs.length

/-- One access of a slot. -/
def performSlot (s : State) (w : SlotWork) : State :=
  match w with
  | .read c ks => done s c (readBytes s ks)
  | .write c vs =>
    let n := vs.countP (fun x => heldByForce s x.1)
    let free := (vs.filter (fun x => !heldByForce s x.1)).map (·.1)
    let s := vs.foldl writeItem s
    done (imageRecords s c.seq.toNat (touchedLines free)) c (le 2 n)
  | .dspWrite c vs =>
    let free := (vs.filter (fun x => !heldByForce s x.1)).map (·.1)
    let s := vs.foldl writeItem s
    done (imageRecords s c.seq.toNat (touchedLines free)) c []
  | .forceSet c es =>
    let fs : List Force := es.map (fun e => ⟨forceKey e.addr.toNat, e.value, e.simulate, false⟩)
    let owner := frankSlotOf s c
    let s := fs.foldl putForce s
    let s := imageRecords s c.seq.toNat (touchedLines (fs.map (·.addr)))
    let s := fs.foldl (fun s f => logForceSet s owner f) s
    done s c (le 2 s.forces.length)
  | .forceRelease c all as =>
    let ks := if all then s.forces.map (·.addr) else (as.map forceKey).filter (fun k => (s.forces.any (fun f => f.addr = k)))
    let owner := frankSlotOf s c
    let s := ks.foldl releaseForce s
    let s := ks.foldl (fun s k => logForceRelease s owner k) s
    done s c (le 2 s.forces.length)
  | .editInit c vs =>
    let s := vs.foldl (fun s x => if heldByForce s x.1 then s else
      putItem s x.1 ⟨x.2.val, mkTag false (tagL x.2.tag) false false false (tagQ x.2.tag) (tagV x.2.tag)⟩) s
    let s := imageRecords s c.seq.toNat (touchedLines (vs.map (·.1)))
    let s := match s.sched.editPending, s.prog with
      | some (_, e, _), some p => pendEdit s p.slot e
      | _, _ => s
    modSched s (fun x => { x with editPending := x.editPending.map (fun e => (e.1, e.2.1, true)) })

/-- The accesses that fit into a slot of IMAGE_SLOT_MAX, in booking order; the first always runs.
Log entry 29 (DESIGN CHOICE). -/
def fitSlot (limit : Nat) : Nat → List SlotWork → List SlotWork × List SlotWork
  | _, [] => ([], [])
  | used, w :: ws =>
    if used = 0 ∨ used + slotPs w ≤ limit then
      let r := fitSlot limit (used + slotPs w) ws
      (w :: r.1, r.2)
    else ([], w :: ws)

/-- Scans follow one another: a gap between two of them takes at most one image slot and one class D slice (R51). -/
def scansFollow (s : State) : Bool := decide (s.pstate = .running) && !(enabledTasks s).isEmpty

/-- An image slot between scans, at most one (R51); never while any EXECUTE is suspended (R174), and none begins when VIN
fails (R337) or after the handover scan (R395). Log entry 29 (DESIGN CHOICE). -/
def imageSlotOp (s : State) : State :=
  if s.sched.running.isSome || !s.sched.suspended.isEmpty || s.power.failing || s.sched.noMoreScans
      || s.power.mode = .halt || (s.sched.slotDone && scansFollow s) then s
  else
    let (now, later) := fitSlot (usPs (par s 0x0206)) 0 s.sched.slotWork
    let len := (now.map slotPs).foldl (· + ·) 0
    let s := modSched s (fun x => { x with
      slotWork := later, slotNo := x.slotNo + 1, slotEnd := s.tb, slotDone := true, aheadPs := x.aheadPs + len })
    idleChanges (now.foldl performSlot s)

end Sys2Proof.Machine
end

