-- ==== Sys2Proof/Machine/ScanRows.lean ====
section
/-!
DEFINITION. The events of scans, sealing and charts: readiness and release (R154-R160), overrun (R175), the seal and its
acknowledgement (R168, R382, R383), EMIT and its end (R170-R172), image slots and class D slices (R69, R81), carrying
(R332), the seal fault (R336), the preload (R288) and the re-emit (R344).
-/
namespace Sys2Proof.Machine

open Sys2Proof

/-- The next scan of the round becomes ready, or a new round begins with its first (R154, R155). A task that a Tolerant
overrun makes skip takes no scan (R176). A waiting release goes first (R159). Log entry 25 (DEDUCED). -/
def scanReadyOp (s : State) : State :=
  if !noScan s || !scansAllowed s then s
  else if !s.sched.waiting.isEmpty then runNext s
  else
    let s := if s.sched.roundOpen then s
      else if s.tb < s.sched.roundReady ∨ (enabledFree s).isEmpty then s
      else openRound s
    match s.sched.roundLeft with
    | [] => s
    | t :: rest =>
      if !s.sched.roundOpen then s
      else if (taskRt s t).skipNext then
        closeRound (modSched (skipScan s t) (fun x => { x with roundLeft := rest, roundLast := some t }))
      else startScan s t s.tb (scanPromise s t s.tb s.sched.aheadPs) 0

def execScanReady (now : Tb) (s : State) : Host.Outcome State Fault Refusal := .next (scanReadyOp (s.at now))

/-- ROUND_MIN has passed: the next round is ready, and it begins, also while a fixed-period scan runs (R155). -/
def execRoundMinExpiry (now : Tb) (s : State) : Host.Outcome State Fault Refusal :=
  let s := s.at now
  .next (if s.sched.roundOpen || !scansAllowed s || (enabledFree s).isEmpty || decide (s.tb < s.sched.roundReady)
    then s else openRound s)

/-- Whether now is a release instant of a fixed-period task (R157, R397): T_run, or the instant that HANDOVER gave, plus a
whole number of periods. Until T_run is set, the first release sets it. Log entry 25 (DEDUCED). -/
def isRelease (s : State) (t : Nat) : Bool :=
  match ((s.sched.phases.find? (fun x => decide (x.1 = t))).map (·.2)).or s.sched.trun with
  | none => true
  | some b => decide (b ≤ s.tb ∧ (s.tb - b) % msToTb (taskDef s t).periodMs = 0)

/-- A fixed-period task is released (R157): it skips (R176), starts, preempts (R158), or waits, with the promise of its scan
from the release on (R58). Log entry 25 (DEDUCED). -/
def releaseOp (s : State) (t : Nat) : State :=
  if !(taskDef s t).fixed || !(enabledTasks s).contains t || !scansAllowed s || !isRelease s t then s
  else if (taskRt s t).skipNext then skipScan s t
  else if s.sched.waiting.any (fun w => w.1 = t) || (match s.sched.running with | some sc => decide (sc.task = t) | none => false)
      || s.sched.suspended.any (fun x => x.1.task = t) then s
  else
    let s := modSched s (fun x => { x with waiting := x.waiting ++ [(t, s.tb, scanPromise s t s.tb 0)] })
    if noScan s then runNext s else preemptNow s

def execFixedPeriodRelease (now : Tb) (task : BitVec 4) (s : State) : Host.Outcome State Fault Refusal :=
  .next (releaseOp (s.at now) task.toNat)

def execOverrun (now : Tb) (cause : OverrunCause) (s : State) : Host.Outcome State Fault Refusal :=
  .next (overrunOp (s.at now) cause)

/-- The seal record of the scan in SEAL completes (R168). -/
def execSealPoint (now : Tb) (s : State) : Host.Outcome State Fault Refusal :=
  let s := s.at now
  .next (match s.sched.running with
    | some sc => if sc.phase = .seal then completeSeal s sc else s
    | none => s)

/-- No ACK by the deadline in tight mode, K = 3 µs after the seal point (R382): the Helm emits and drops the Watch (R383). -/
def execManifestAckDeadline (now : Tb) (s : State) : Host.Outcome State Fault Refusal :=
  let s := s.at now
  .next (match s.sched.running with
    | some sc =>
      if sc.phase = .waitAck ∧ s.ring.lastSealTb + usToTb 3 ≤ s.tb then
        dropWatch (modSched s (fun x => { x with running := some { sc with phase := .emit } })) 0
      else s
    | none => s)

/-- EMIT processes the items of the task's emit mask (R170, R171, R320). -/
def execEmit (now : Tb) (s : State) : Host.Outcome State Fault Refusal :=
  let s := s.at now
  .next (match s.sched.running with
    | some sc =>
      if sc.phase = .emit then
        emitAreas (modSched s (fun x => { x with running := some { sc with phase := .emitting } }))
          (taskAreas s sc.task)
      else s
    | none => s)

/-! ### Carrying (R332, R333) -/

/-- A CARRY record may begin: there are lines to carry, no other record is open, VIN has not failed (R337), and the energy
is there (R29). -/
def mayCarry (s : State) : Bool :=
  let sealing := match s.sched.running with | some sc => decide (sc.phase = .seal) | none => false
  carryDue s && !s.power.failing && !sealing && decide (s.power.mode ≠ .halt) && energyFor s 0

/-- Live lines of the tail segment go into a CARRY record at the head (R332); what seals owe is less by them (R333). -/
def carryRecord (s : State) : State :=
  let lines := carryLines s
  match ringAppend s (recHeader s .carry .none lines) with
  | .ok s => modRing s (fun g => { g with carryOwed := g.carryOwed - lines.length * (390786 - retainedLines s) })
  | .error l => sealFaultAt s l

/-- The seal engine carries what the seals owe, in full CARRY records of four lines (R333). Log entry 114 (DEDUCED). -/
def carryOwedLines : Nat → State → State
  | 0, s => s
  | n + 1, s =>
    if s.ring.carryOwed < 4 * (390786 - retainedLines s) ∨ mayCarry s = false then s else carryOwedLines n (carryRecord s)

/-- The carrying that follows a scan (R333). Log entry 114 (DEDUCED). -/
def carryForSeals (s : State) : State := carryOwedLines (s.ring.carryOwed / (390786 - retainedLines s) + 1) s

/-- EMIT ends: local outputs change at one FIELD tick, and what waited for the scan's end follows (R172). A scan that has
passed its promise has been stopped there instead (R84). -/
def execEmitEnd (now : Tb) (s : State) : Host.Outcome State Fault Refusal :=
  let s := s.at now
  .next (match s.sched.running with
    | some sc =>
      if sc.phase ≠ .emitting then s
      else if sc.promise < s.tb then raiseFault s 0x83 (0xFFFF0000 + sc.task)
      else carryForSeals (idleChanges (endScan s sc))
    | none => s)

def execImageSlot (now : Tb) (s : State) : Host.Outcome State Fault Refusal := .next (imageSlotOp (s.at now))

/-- The seal engine carries lines of the tail segment (R332). -/
def execCarryRecordWrite (now : Tb) (s : State) : Host.Outcome State Fault Refusal :=
  let s := s.at now
  .next (if mayCarry s then carryRecord s else s)

def execSealFault (now : Tb) (line : Nat) (s : State) : Host.Outcome State Fault Refusal :=
  .next (sealFaultAt (s.at now) line)

/-- The preload of the pending request completes (R288); a chart found unusable discards the request (R287). -/
def execChartPreloadComplete (now : Tb) (s : State) : Host.Outcome State Fault Refusal :=
  let s := s.at now
  .next (match s.charts.req with
    | none => s
    | some r =>
      if chartUsable s r.chart then idleChanges (modCharts s (fun c => { c with req := some { r with preloaded := true } }))
      else logDiscard (cancelReq s) r.chart 3)

def execReEmit (now : Tb) (s : State) : Host.Outcome State Fault Refusal := .next (reEmitOp (s.at now))

end Sys2Proof.Machine
end

