-- ==== Sys2Proof/Machine/Requests.lean ====
section
/-!
DEFINITION. Command packets (R105) and their payloads (R139): the request that an opcode and its payload spell, with
check 1 of R62: every check that depends only on the packet and the manual's fixed rules (R114). A request is the
command of `Instr` whose work it asks for. A failed check gives reason and detail word of REFUSED_FORMAT.
-/
namespace Sys2Proof.Machine

open Sys2Proof

/-- Reason and detail of a REFUSED_FORMAT. -/
abbrev Bad := Nat × Nat

abbrev Parsed := Except Bad Instr

/-- The payload must have this length (reason 0x06). -/
def lenIs (p : List Byte) (n : Nat) (k : Parsed) : Parsed := if p.length = n then k else .error (6, n)

/-- A variable payload's length (reason 0x06, detail 0). -/
def lenOk (b : Bool) (k : Parsed) : Parsed := if b then k else .error (6, 0)

/-- A field at a payload offset must hold (reason 0x07). -/
def need (b : Bool) (off : Nat) (k : Parsed) : Parsed := if b then k else .error (7, 16 + off)

/-- A reserved field whose non-zero content is refused (reason 0x08). -/
def zero (v off : Nat) (k : Parsed) : Parsed := if v = 0 then k else .error (8, 16 + off)

/-- The entries of n bytes of a list; the fuel is its length. -/
def entries (n : Nat) : Nat → List Byte → List (List Byte)
  | 0, _ => []
  | f + 1, bs => if bs.isEmpty then [] else bs.take n :: entries n f (bs.drop n)

/-- Entry count of a payload of entries of n bytes, when it is whole and within bounds. -/
def countOk (p : List Byte) (n lo hi : Nat) : Bool :=
  decide (p.length % n = 0 ∧ lo ≤ p.length / n ∧ p.length / n ≤ hi)

/-- Offset of the first entry of n bytes that fails. -/
def badEntry (n : Nat) (ok : List Byte → Bool) : Nat → List (List Byte) → Option Nat
  | _, [] => none
  | off, e :: es => if ok e then badEntry n ok (off + n) es else some off

def allEntries (n : Nat) (es : List (List Byte)) (ok : List Byte → Bool) (sub : Nat) (k : Parsed) : Parsed :=
  match badEntry n ok 0 es with
  | none => k
  | some off => .error (7, 16 + off + sub)

/-- The key of an item named by a space and an address (R139): points, or words. -/
def itemKey (space a : Nat) : Nat := if space = 0 then a else wKey a

/-- Whether an address exists in a space (R190, R192, R220). Log entry 49 (DEDUCED). -/
def inSpace (space a : Nat) : Bool :=
  if space = 0 then decide (a < 0x20000) else if space = 1 then inAnaIn a || inAnaOut a else inDataSram a

/-- Items that IMAGE.WRITE may name, apart from DEXT and the display block (R142). -/
def writable (space a : Nat) : Bool :=
  if space = 0 then
    decide (0x10000 ≤ a ∧ a < 0x20000) && !reservedPoint a && (decide (a < 0x1F000) || sysOutDefined a)
  else if space = 1 then inAnaOut a && !reservedWord a
  else inDataSram a

/-- A force address field (R306): SPACE 0 or 1, and a point index with zeros above it. -/
def forceAddrOk (addr : Nat) : Bool :=
  decide (addr / 0x40000000 = 1) || (decide (addr / 0x40000000 = 0) && decide (addr % 0x1000000 < 0x20000))

/-- Force targets (R306, R307), apart from DEXT and the display block. -/
def forceTarget (addr : Nat) (sim : Bool) : Bool :=
  let a := addr % 0x1000000
  if addr / 0x40000000 = 0 then
    decide (a < 0x20000) && !reservedPoint a && !sysInPoint a && decide (a < 0x1F000)
  else if addr / 0x40000000 = 1 then
    if inDataSram a then !sim else (inAnaIn a || inAnaOut a) && !reservedWord a
  else false

/-- The greatest n of IMAGE.READ (R143). -/
def readMax (space : Nat) : Nat := if space = 0 then 4068 else 678

/-- A base-format identifier that BUS.SEND may not use (R490, R491): FUNC in bits [10:9]. -/
def sendable (ext : Bool) (id : Nat) : Bool :=
  if ext then decide (id < 0x20000000) else decide (id / 512 = 3 ∧ id ≠ 0x780 ∧ id ≠ 0x7C0)

/-- A segment's header and image bytes (R131). -/
def parseSegment (p : List Byte) (more : Bool) : Segment :=
  { target := field p 0 1, offset := field p 4 4, total := field p 8 4, bytes := p.drop 12, more }

/-- Slewing divisors of TIME.SHIFT (R557). -/
def divisorOk (d : Nat) : Bool := decide (d ∈ [64, 128, 256, 512, 1024, 2048, 4096])

/-- Units of UNIT.RESET (R670). -/
def resetUnit (u : Nat) : Bool := decide (3 ≤ u ∧ u ≤ 8) || decide (0x10 ≤ u ∧ u ≤ 0x17)

/-- Largest images (R617). -/
def imageLimit (target : Nat) : Nat := if target = 0 then 8126464 else 8388608

def parseSession (now : Tb) (c : CmdRef) (op : Nat) (p : List Byte) : Parsed :=
  match op with
  | 0x01 => lenIs p 4 (.ok (.sessionOpen now c (BitVec.ofNat 32 (unle p))))
  | 0x02 => lenIs p 0 (.ok (.sessionClose now c))
  | 0x03 => lenIs p 0 (.ok (.sessionNonce now c))
  | 0x04 => lenIs p 4 (.ok (.sessionClaim now c (BitVec.ofNat 32 (unle p))))
  | 0x10 => lenIs p 0 (.ok (.statusGet now c))
  | _ => .error (5, 0)

def parseAdmit (now : Tb) (c : CmdRef) (op : Nat) (p : List Byte) : Parsed :=
  let f := fun o n => field p o n
  match op with
  | 0x01 => lenOk (decide (16 ≤ p.length)) (.ok (.admitQuery now c p))
  | 0x02 => lenOk (countOk p 2 1 64)
      (.ok (.admitCancel now c ((entries 2 p.length p).map (fun e => BitVec.ofNat 16 (unle e)))))
  | 0x03 => lenIs p 4 (need (decide (10 ≤ f 0 1 ∧ f 0 1 ≤ 85)) 0 (need (decide (5 ≤ f 1 1 ∧ f 1 1 ≤ 80)) 1
      (need (decide (5 ≤ f 2 1 ∧ f 2 1 ≤ 80)) 2 (need (decide (5 ≤ f 3 1 ∧ f 3 1 ≤ 80)) 3
      (need (decide (f 0 1 + f 1 1 + f 2 1 + f 3 1 = 100)) 0
      (.ok (.admitShares now c (f 0 1) (f 1 1) (f 2 1) (f 3 1))))))))
  | _ => .error (5, 0)

/-- IMAGE opcodes: n is checked before the payload length (R143). Log entry 49 (DEDUCED). -/
def parseImage (now : Tb) (c : CmdRef) (op : Nat) (p : List Byte) : Parsed :=
  let f := fun o n => field p o n
  match op with
  | 0x01 =>
    if p.length < 4 then .error (6, 8)
    else need (decide (f 0 1 ≤ 2)) 0 (need (decide (1 ≤ f 2 2 ∧ f 2 2 ≤ readMax (f 0 1))) 2 (lenIs p 8
      (need (inSpace (f 0 1) (f 4 4) && inSpace (f 0 1) (f 4 4 + f 2 2 - 1)) 4
      (.ok (.imageRead now c (f 0 1) (f 2 2) (f 4 4))))))
  | 0x02 =>
    if p.length < 4 then .error (6, 0)
    else
      let w := if f 0 1 = 0 then 1 else 5
      need (decide (f 0 1 ≤ 2)) 0 (need (decide (1 ≤ f 2 2)) 2 (lenIs p (8 + w * f 2 2)
        (need ((List.range (f 2 2)).all (fun i => writable (f 0 1) (f 4 4 + i))) 4
        (.ok (.imageWrite now c (f 0 1) (f 4 4)
          ((entries w p.length (p.drop 8)).map (fun e => BitVec.ofNat 40 (if w = 1 then unle e % 2 else unle e))))))))
  | 0x03 =>
    if p.length < 4 then .error (6, 0)
    else need (decide (f 0 1 ≤ 15)) 0 (need (decide (f 1 1 ≤ 2)) 1 (need (decide (1 ≤ f 2 2 ∧ f 2 2 ≤ 64)) 2
      (lenIs p (8 + 4 * f 2 2) (need (decide (1 ≤ f 4 4 ∧ f 4 4 ≤ 2000000)) 4
      (allEntries 4 (entries 4 p.length (p.drop 8)) (fun e => inSpace (f 1 1) (unle e)) 8
      (.ok (.imageWatch now c (f 0 1) (f 1 1) ((entries 4 p.length (p.drop 8)).map unle) (f 4 4))))))))
  | _ => .error (5, 0)

/-- PARAM opcodes (R682, R683). -/
def parseParam (now : Tb) (c : CmdRef) (op : Nat) (p : List Byte) : Parsed :=
  match op with
  | 0x01 => lenOk (countOk p 2 1 128) (allEntries 2 (entries 2 p.length p) (fun e => (paramInfo (unle e)).isSome) 0
      (.ok (.paramRead now c ((entries 2 p.length p).map unle))))
  | 0x02 =>
    let es := entries 12 p.length p
    lenOk (countOk p 12 1 64) (allEntries 12 es (fun e => (paramInfo (field e 0 2)).isSome) 0
      (allEntries 12 es (fun e => match paramInfo (field e 0 2) with
        | some i => paramValueOk i (field e 4 8)
        | none => false) 4
      (.ok (.paramWrite now c (es.map (fun e => (field e 0 2, field e 4 8)))))))
  | 0x03 => lenIs p 0 (.ok (.paramCommit now c))
  | _ => .error (5, 0)

def parseProg (now : Tb) (c : CmdRef) (op : Nat) (more : Bool) (p : List Byte) : Parsed :=
  let f := fun o n => field p o n
  match op with
  | 0x01 => lenIs p 1 (need (decide (f 0 1 ≤ 1)) 0 (.ok (.progLoad now c (f 0 1))))
  | 0x02 => lenOk (decide (12 ≤ p.length)) (need (decide (f 0 1 = 0)) 0 (.ok (.progEdit now c (parseSegment p more))))
  | 0x03 => lenIs p 0 (.ok (.progRun now c))
  | 0x04 => lenIs p 1 (need (decide (f 0 1 ≤ 1)) 0 (.ok (.progStop now c (f 0 1))))
  | 0x05 => lenIs p 0 (.ok (.progTasks now c))
  | _ => .error (5, 0)

def parseForce (now : Tb) (c : CmdRef) (op : Nat) (p : List Byte) : Parsed :=
  match op with
  | 0x01 =>
    let es := entries 12 p.length p
    lenOk (countOk p 12 1 64)
      (allEntries 12 es (fun e => forceTarget (field e 0 4) (decide (field e 9 1 % 2 = 1))) 0
      (.ok (.forceSet now c (es.map (fun e =>
        ⟨BitVec.ofNat 32 (field e 0 4), BitVec.ofNat 40 (field e 4 5), decide (field e 9 1 % 2 = 1)⟩)))))
  | 0x02 =>
    let es := entries 4 p.length p
    lenOk (countOk p 4 1 64)
      (allEntries 4 es (fun e => decide (unle p = 0xFFFFFFFF) || forceAddrOk (unle e)) 0
      (.ok (.forceRelease now c (es.map (fun e => BitVec.ofNat 32 (unle e))))))
  | 0x03 => lenIs p 2 (.ok (.forceList now c (field p 0 2)))
  | _ => .error (5, 0)

def parseChartOp (now : Tb) (c : CmdRef) (op : Nat) (more : Bool) (p : List Byte) : Parsed :=
  let f := fun o n => field p o n
  match op with
  | 0x01 => lenOk (decide (12 ≤ p.length)) (need (decide (f 0 1 ≤ 7)) 0 (need (decide (f 8 4 ≤ 523776)) 8
      (.ok (.chartLoad now c (parseSegment p more)))))
  | 0x02 => lenIs p 1 (need (decide (f 0 1 ≤ 7)) 0 (.ok (.chartSelect now c (f 0 1))))
  | 0x03 => lenIs p 1 (need (decide (f 0 1 ≤ 7 ∨ f 0 1 = 255)) 0 (.ok (.chartInfo now c (f 0 1))))
  | _ => .error (5, 0)

def parseField (now : Tb) (c : CmdRef) (op : Nat) (p : List Byte) : Parsed :=
  let f := fun o n => field p o n
  match op with
  | 0x0701 => lenIs p 0 (.ok (.sealStatus now c))
  | 0x0702 => lenIs p 1 (.ok (.retainClear now c (BitVec.ofNat 8 (f 0 1))))
  | 0x0801 => lenIs p 0 (.ok (.twinStatus now c))
  | 0x0802 => lenIs p 0 (.ok (.twinChange now c))
  | 0x0803 => lenIs p 0 (.ok (.twinResync now c))
  | 0x0901 => lenIs p 0 (.ok (.dioStatus now c))
  | 0x0902 => lenIs p 2 (need (decide (f 0 1 ≤ 1)) 0
      (need (decide (f 1 1 < if f 0 1 = 0 then 24 else 48)) 1 (.ok (.dioTest now c (f 0 1) (f 1 1)))))
  | 0x0A01 => lenIs p 2 (need (decide (f 0 1 ≤ 7)) 0 (need (decide (f 1 1 = 0)) 1 (.ok (.anaTrim now c (f 0 1) (f 1 1)))))
  | 0x0A02 => lenIs p 1 (.ok (.anaRelay now c (BitVec.ofNat 8 (f 0 1))))
  | 0x0A03 =>
    if p.length < 4 then .error (6, 0)
    else need (decide (f 0 1 ≤ 7)) 0 (lenIs p (4 + f 2 2)
      (need (hartLengthOk (p.drop 4)) 2 (.ok (.anaHart now c (f 0 1) (p.drop 4)))))
  | 0x0A04 => lenIs p 0 (.ok (.anaStatus now c))
  | _ => .error (5, 0)
where
  /-- At most 32 data bytes: delimiter, 1 or 5 address bytes, command, count, data (R473, R468). -/
  hartLengthOk (fr : List Byte) : Bool :=
    let head := if (fr.getD 0 0).getLsbD 7 then 8 else 4
    decide (fr.length ≤ head + 32)

/-- The line that a payload byte names. -/
def lineArg (n : Nat) : Line := if n = 0 then .a else .b

def parseBus (now : Tb) (c : CmdRef) (op : Nat) (p : List Byte) : Parsed :=
  let f := fun o n => field p o n
  match op with
  | 0x01 =>
    if p.length < 7 then .error (6, 0)
    else
      let fl := f 1 1
      let fr : CanFrame := { fd := decide (fl % 2 = 1), brs := decide (fl / 2 % 2 = 1), ext := decide (fl / 4 % 2 = 1),
                             id := f 2 4, data := p.drop 7 }
      need (decide (f 0 1 ≤ 1)) 0 (need (decide (f 6 1 ≤ 64)) 6 (lenIs p (7 + f 6 1)
        (need (fr.fd || !fr.brs) 1 (need (sendable fr.ext fr.id) 2
        (need (if fr.fd then canLengths.contains (f 6 1) else decide (f 6 1 ≤ 8)) 6
        (.ok (.busSend now c (lineArg (f 0 1)) fr)))))))
  | 0x02 => lenIs p 1 (need (decide (f 0 1 ≤ 1)) 0 (.ok (.busStatus now c (lineArg (f 0 1)))))
  | 0x03 => lenIs p 1 (need (decide (f 0 1 ≤ 1)) 0 (.ok (.stationList now c (lineArg (f 0 1)))))
  | 0x04 => lenIs p 2 (need (decide (f 0 1 ≤ 1)) 0 (need (decide (f 1 1 ≤ 2)) 1
      (.ok (.busSleep now c (lineArg (f 0 1)) (f 1 1)))))
  | _ => .error (5, 0)

def parseDisplay (now : Tb) (c : CmdRef) (op : Nat) (p : List Byte) : Parsed :=
  let f := fun o n => field p o n
  match op with
  | 0x01 =>
    if p.length < 2 then .error (6, 0)
    else need (decide (f 0 1 ≤ 7)) 0 (need (decide (1 ≤ f 1 1 ∧ f 0 1 + f 1 1 ≤ 8)) 1 (lenIs p (2 + 18 * f 1 1)
      (.ok (.dspWrite now c (f 0 1) (f 1 1) (p.drop 2)))))
  | 0x02 => lenIs p 1 (need (decide (f 0 1 ≤ 1)) 0 (.ok (.dspMode now c (f 0 1))))
  | 0x03 => lenIs p 0 (.ok (.dspCheck now c))
  | _ => .error (5, 0)

def parseTime (now : Tb) (c : CmdRef) (op : Nat) (p : List Byte) : Parsed :=
  let f := fun o n => field p o n
  match op with
  | 0x01 => lenIs p 8 (need (decide (2000 ≤ f 0 2 ∧ f 0 2 ≤ 2399)) 0 (need (decide (1 ≤ f 2 1 ∧ f 2 1 ≤ 12)) 2
      (need (decide (1 ≤ f 3 1 ∧ f 3 1 ≤ monthDays (f 0 2) (f 2 1))) 3 (need (decide (f 4 1 ≤ 23)) 4
      (need (decide (f 5 1 ≤ 59)) 5 (need (decide (f 6 1 ≤ 59)) 6 (zero (f 7 1) 7
      (.ok (.timeSet now c (f 0 2) (f 2 1) (f 3 1) (f 4 1) (f 5 1) (f 6 1))))))))))
  | 0x02 => lenIs p 0 (.ok (.timeGet now c))
  | 0x03 => lenIs p 6 (need (decide (-32767 ≤ unleInt (slice p 0 4) ∧ unleInt (slice p 0 4) ≤ 32767)) 0
      (need (divisorOk (f 4 2)) 4 (.ok (.timeShift now c (unleInt (slice p 0 4)) (f 4 2)))))
  | 0x04 => lenIs p 4 (need (decide (f 0 1 ≤ 4)) 0
      (need (decide (-4096 ≤ unleInt (slice p 2 2) ∧ unleInt (slice p 2 2) ≤ 4095)) 2
      (.ok (.timeTrim now c (f 0 1) (unleInt (slice p 2 2))))))
  | _ => .error (5, 0)

def parseLog (now : Tb) (c : CmdRef) (op : Nat) (p : List Byte) : Parsed :=
  let f := fun o n => field p o n
  match op with
  | 0x0E01 => lenIs p 6 (need (decide (64 ≤ f 4 2 ∧ f 4 2 ≤ 4040)) 4 (.ok (.logRead now c (f 0 4) (f 4 2))))
  | 0x0E02 => lenIs p 4 (.ok (.logClear now c (f 0 4)))
  | 0x0E03 => lenOk (decide (4 ≤ p.length ∧ p.length ≤ 244)) (.ok (.logMark now c (f 0 2) (p.drop 4)))
  | 0x0F01 => lenIs p 0 (.ok (.wdStatus now c))
  | _ => .error (5, 0)

def parseUpd (now : Tb) (c : CmdRef) (op : Nat) (p : List Byte) : Parsed :=
  let f := fun o n => field p o n
  match op with
  | 0x01 => lenIs p 72 (need (decide (f 0 1 ≤ 1)) 0 (need (decide (f 1 1 ≤ 1)) 1
      (need (decide (256 ≤ f 4 4 ∧ f 4 4 ≤ imageLimit (f 0 1))) 4
      (.ok (.updBegin now c (f 0 1) (f 1 1) (f 4 4) (slice p 8 64))))))
  | 0x02 => lenOk (decide (4 ≤ p.length)) (.ok (.updChunk now c (f 0 4) (p.drop 4)))
  | 0x03 => lenIs p 0 (.ok (.updApply now c))
  | 0x04 => lenIs p 0 (.ok (.updConfirm now c))
  | 0x05 => lenIs p 0 (.ok (.updAbandon now c))
  | _ => .error (5, 0)

/-- Length of a SEC.KEYS payload by operation (R642). -/
def keysLength (op : Nat) : Nat := if op = 0 then 372 else if op = 1 then 4 else 6

/-- The owner slot, fuse and value of SEC.KEYS (R642, R643). -/
def keysArgs (p : List Byte) : Bool :=
  if field p 0 1 = 2 then
    decide (field p 1 1 = 255 ∧ field p 4 1 ≤ 1 ∧ field p 5 1 ≤ if field p 4 1 = 0 then 3 else 1)
  else decide (field p 1 1 ≤ 3)

def parseSec (now : Tb) (c : CmdRef) (op : Nat) (p : List Byte) : Parsed :=
  let f := fun o n => field p o n
  match op with
  | 0x01 => lenIs p 32 (.ok (.secAttest now c p))
  | 0x02 =>
    if p.length < 4 then .error (6, 0)
    else need (decide (f 0 1 ≤ 2)) 0 (lenIs p (keysLength (f 0 1)) (need (keysArgs p) 1
      (.ok (.secKeys now c (f 0 1) (f 1 1) (p.drop 4)))))
  | 0x03 => lenIs p 1 (need (decide (f 0 1 ≤ 4)) 0 (.ok (.secCert now c (f 0 1))))
  | _ => .error (5, 0)

/-- Units that TEST.SELF names (R11, R139). -/
def testUnit (u : Nat) : Bool := decide (u ≤ 8) || decide (0x10 ≤ u ∧ u ≤ 0x17)

def parseDev (now : Tb) (c : CmdRef) (op : Nat) (p : List Byte) : Parsed :=
  let f := fun o n => field p o n
  match op with
  | 0x1201 => lenIs p 1 (need (testUnit (f 0 1)) 0 (.ok (.testSelf now c (f 0 1))))
  | 0x1202 => lenIs p 0 (.ok (.testPace now c))
  | 0x1301 => lenIs p 1 (need (decide (f 0 1 ≤ 2)) 0 (.ok (.devReset now c (f 0 1))))
  | 0x1302 => lenIs p 1 (need (resetUnit (f 0 1)) 0 (.ok (.unitReset now c (f 0 1))))
  | 0x1303 => lenIs p 2 (zero (f 0 2 / 32) 0 (.ok (.devDormant now c (BitVec.ofNat 16 (f 0 2)))))
  | _ => .error (5, 0)

/-- The request of an opcode and its payload (R139). -/
def parseReq (now : Tb) (c : CmdRef) (op : Nat) (more : Bool) (p : List Byte) : Parsed :=
  let lo := op % 256
  match op / 256 with
  | 0x00 => parseSession now c lo p
  | 0x01 => parseAdmit now c lo p
  | 0x02 => parseImage now c lo p
  | 0x03 => parseParam now c lo p
  | 0x04 => parseProg now c lo more p
  | 0x05 => parseForce now c lo p
  | 0x06 => parseChartOp now c lo more p
  | 0x0B => parseBus now c lo p
  | 0x0C => parseDisplay now c lo p
  | 0x0D => parseTime now c lo p
  | 0x0E => parseLog now c op p
  | 0x0F => parseLog now c op p
  | 0x10 => parseUpd now c lo p
  | 0x11 => parseSec now c lo p
  | 0x12 => parseDev now c op p
  | 0x13 => parseDev now c op p
  | _ => parseField now c op p

/-! ### Packet fields (R105) -/

structure Packet where
  version : Nat
  more : Bool
  franked : Bool
  length : Nat
  opcode : Nat
  cls : Cls
  seq : BitVec 16
  deadline : Nat
  token : BitVec 16
  payload : List Byte
  deriving DecidableEq, Repr

def clsOf (n : Nat) : Cls := match n with | 0 => .v | 1 => .p | 2 => .s | _ => .d
def clsCode : Cls → Nat
  | .v => 0
  | .p => 1
  | .s => 2
  | .d => 3

/-- The fields of a packet's bytes; the payload lies before the frank block and the CRC. -/
def packetOf (bs : List Byte) (tail : Nat) : Packet :=
  let fl := field bs 1 1
  let franked := decide (fl % 2 = 1)
  let t := tail + (if franked ∧ tail ≠ 0 then 136 else 0)
  { version := fl / 16, more := decide (fl / 2 % 2 = 1), franked, length := field bs 2 2, opcode := field bs 4 2,
    cls := clsOf (field bs 6 1 / 64), seq := BitVec.ofNat 16 (field bs 8 2), deadline := field bs 10 4,
    token := BitVec.ofNat 16 (field bs 14 2), payload := (bs.drop 16).take (bs.length - 16 - t) }

/-- MORE is permitted only for CHART.LOAD and PROG.EDIT (R106). -/
def moreOk (op : Nat) : Bool := decide (op = 0x0601) || decide (op = 0x0402)

/-- The opcodes of R139. -/
def opcodes : List Nat :=
  [0x0001, 0x0002, 0x0003, 0x0004, 0x0010, 0x0101, 0x0102, 0x0103, 0x0201, 0x0202, 0x0203, 0x0301, 0x0302, 0x0303,
   0x0401, 0x0402, 0x0403, 0x0404, 0x0405, 0x0501, 0x0502, 0x0503, 0x0601, 0x0602, 0x0603, 0x0701, 0x0702, 0x0801,
   0x0802, 0x0803, 0x0901, 0x0902, 0x0A01, 0x0A02, 0x0A03, 0x0A04, 0x0B01, 0x0B02, 0x0B03, 0x0B04, 0x0C01, 0x0C02,
   0x0C03, 0x0D01, 0x0D02, 0x0D03, 0x0D04, 0x0E01, 0x0E02, 0x0E03, 0x0F01, 0x1001, 0x1002, 0x1003, 0x1004, 0x1005,
   0x1101, 0x1102, 0x1103, 0x1201, 0x1202, 0x1301, 0x1302, 0x1303]

/-- Check 1 of R62 after the CRC: opcode, frank block, MORE and payload. A packet with FRANKED that is too short for a frank
block has a payload of the wrong length. Log entry 102 (DESIGN CHOICE). -/
def parsePacket (now : Tb) (port : Port) (k : Packet) : Parsed :=
  if !opcodes.contains k.opcode then .error (5, 0)
  else if k.franked && decide (k.length < 156) then .error (6, 0)
  else if k.more && !moreOk k.opcode then .error (8, 1)
  else parseReq now ⟨port, k.seq⟩ k.opcode k.more k.payload

end Sys2Proof.Machine
end

