-- ==== Sys2Proof/Machine/Checks.lean ====
section
/-!
DEFINITION. Checks 4 and 5 of R62 for every opcode: whether the device's state permits a request (R115), and the field
values that depend on the device's state (R114). Both are made on arrival and again when the work starts (R63).
-/
namespace Sys2Proof.Machine

open Sys2Proof

/-! ### Rules over parameter values (R284, R697) -/

/-- The rules over one chart's values: digital, pair, lines, analogue, scan (R199, R413, R419, R423, R448, R465, R467,
R498, R393). -/
def chartRules (v : Nat → Nat) (twin : Bool) (safe : Nat → Bool) : Bool :=
  chartFieldOk v twin safe && lineOk v .a && lineOk v .b && (List.range 8).all (anaOk v)
    && decide (v 0x0302 ≤ v 0x0301)

/-- Safe values of the digital outputs under a chart. -/
def chartSafe (i : Option ChartImage) (n : Nat) : Bool := safePointOf i (0x10000 + n)

/-- The value of a PID under a chart image and the device's global values. -/
def imageValue (s : State) (i : ChartImage) (pid : Nat) : Nat :=
  if ((paramInfo pid).map (·.chart)).getD false then smGet paramDefault i.params pid else par s pid

/-- Stage 1 of CHART.LOAD (R284): the image keeps every rule, and shows on the same panel as the other usable charts
(R543). -/
def chartImageOk (s : State) (i : ChartImage) (c : Nat) : Bool :=
  let v := imageValue s i
  chartRules v (decide (par s 0x0601 = 1)) (chartSafe (some i))
    && ((usableCharts s).filter (fun x => x ≠ c)).all (fun x =>
      decide (some i.programId ≠ s.prog.map (·.img.programId)) || dspSame v (valueFor s x))

/-- The value of a PID under pending entries: the last one for it wins. -/
def overlay (s : State) (es : List (Nat × Nat)) (pid : Nat) : Nat :=
  match es.find? (fun e => e.1 = pid) with
  | some e => e.2
  | none => par s pid

/-- Values of a usable chart under pending entries: chart-scope entries act on the active chart only (R697). -/
def overlayFor (s : State) (es : List (Nat × Nat)) (c pid : Nat) : Nat :=
  if c = s.charts.active ∨ ¬ ((paramInfo pid).map (·.chart)).getD false then overlay s es pid else chartValue s c pid

/-- The closed part of a watchdog period, in eighths of it (R587). -/
def wdOpenEighths (win : BitVec 2) : Nat :=
  match win.toNat with
  | 1 => 7
  | 2 => 6
  | 3 => 2
  | _ => 4

/-- Each band boundary lies at least 5.0 °C above the one before (R480, R545). -/
def bandsApart (v : Nat → Nat) (pids : List Nat) : Bool :=
  (pids.zip (pids.drop 1)).all (fun p => decide (paramInt 4 (v p.1) + 50 ≤ paramInt 4 (v p.2)))

/-- Check 1 of R697: every cross-parameter rule holds under the pending entries. -/
def commitRules (s : State) (es : List (Nat × Nat)) : Bool :=
  let twin := decide (overlay s es 0x0601 = 1)
  let charts := usableCharts s
  charts.all (fun c => chartRules (overlayFor s es c) twin (chartSafe (chartSlot s c).image))
    && charts.all (fun c => charts.all (fun d => dspSame (overlayFor s es c) (overlayFor s es d)))
    && bandsApart (overlay s es) [0x1602, 0x1603, 0x1604, 0x1605, 0x1606, 0x1607, 0x1608]
    && bandsApart (overlay s es) [0x1C0A, 0x1C0B, 0x1C0C, 0x1C0D, 0x1C0E, 0x1C0F, 0x1C28]
    && decide (12 * 8 ≤ wdOpenEighths s.store.wdwin * overlay s es 0x1F00 * 10)
    && !(wdLocked s && es.any (fun e => e.1 = 0x1F01 && e.2 = 0))

/-- Check 2 of R697: set admission of every usable chart, when a pending value enters the proof. -/
def commitAdmission (s : State) (es : List (Nat × Nat)) : Option (BitVec 8 × Nat) :=
  if !es.any (fun e => entersProof e.1) then none
  else
    match s.prog with
    | none => none
    | some p =>
      (usableCharts s).findSome? (fun c =>
        match (chartSlot s c).image with
        | none => none
        | some i => (setOf s (overlayFor s es c) i.taskMask p.tasks).refusal)

/-! ### Segmented transfers (R131-R134) -/

/-- The transfer after a segment. -/
def addSegment (t : Option Transfer) (op : BitVec 16) (g : Segment) (at_ : Nat) : Option Transfer :=
  match t with
  | none => some { opcode := op, target := g.target, total := g.total, data := g.bytes, lastAt := at_ }
  | some x => some { x with data := x.data ++ g.bytes, lastAt := at_ }

/-- The segment that a pending command carries. -/
def segmentOf (x : Cmd) : Option Segment :=
  if x.opcode = 0x0402 ∨ x.opcode = 0x0601 then
    let k := packetOf x.packet 4
    some (parseSegment k.payload k.more)
  else none

/-- The open transfer as a new segment finds it: with the segments that are pending and not yet stored (R132).
Log entry 48 (DEDUCED). -/
def openTransfer (s : State) : Option Transfer :=
  s.host.cmds.foldl (fun t x =>
    match segmentOf x with
    | some g => if x.phase ≠ .waiting ∧ !(findResult s x.ref).isSome then addSegment t x.opcode g x.arrival else t
    | none => t) s.host.transfer

/-- Reason 0x04 of REFUSED_STATE: another transfer is open (R134). -/
def otherTransfer (t : Option Transfer) (op : BitVec 16) (g : Segment) : Bool :=
  match t with
  | none => false
  | some x => x.opcode ≠ op || x.target ≠ g.target

/-- The offset a segment must have (R132); none when the segment follows. -/
def segmentBreak (t : Option Transfer) (g : Segment) : Option Nat :=
  match t with
  | none => if g.offset = 0 then none else some 0
  | some x => if g.offset = x.data.length ∧ g.total = x.total then none else some x.data.length

/-- The whole image when a last segment completes it. Log entry 48 (DEDUCED). -/
def wholeImage (t : Option Transfer) (g : Segment) : List Byte := ((t.map (·.data)).getD []) ++ g.bytes

/-! ### Check 4 -/

/-- Commands that write MRAM or flash (R139, R656). -/
def writesStore : Instr → Bool
  | .admitShares .. | .imageWrite .. | .paramCommit .. | .progLoad .. | .progEdit .. | .progRun .. | .forceSet ..
  | .forceRelease .. | .chartLoad .. | .retainClear .. | .dspWrite .. | .timeSet .. | .timeShift .. | .timeTrim ..
  | .logClear .. | .logMark .. | .updChunk .. | .updApply .. | .updConfirm .. | .updAbandon .. | .secKeys .. => true
  | _ => false

/-- Commands marked F (R135, R139): the last segments, not those with MORE. -/
def writesFlash : Instr → Bool
  | .progEdit _ _ g | .chartLoad _ _ g => !g.more
  | .updApply .. | .updConfirm .. | .updAbandon .. | .secKeys .. => true
  | _ => false

/-- Opcodes admitted in HALT (R676). -/
def inHalt : Instr → Bool
  | .sessionOpen .. | .sessionClose .. | .sessionNonce .. | .statusGet .. | .logRead .. | .sealStatus .. | .wdStatus ..
  | .devReset .. => true
  | _ => false

/-- Opcodes admitted in recovery (R635): the UPD opcodes with target 0. -/
def inRecovery (s : State) : Instr → Bool
  | .sessionOpen .. | .sessionClose .. | .sessionNonce .. | .statusGet .. | .secCert .. | .secAttest .. => true
  | .updBegin _ _ target _ _ _ => decide (target = 0)
  | .updChunk .. | .updApply .. | .updConfirm .. | .updAbandon .. =>
    match s.store.update with
    | some u => u.firmware
    | none => true
  | _ => false

/-- The entries of the session's pending set. -/
def pendingSet (s : State) : List (Nat × Nat) := (s.host.session.map (·.pending)).getD []

/-- Opcodes refused on a Watch (R406). -/
def notOnWatch (s : State) : Instr → Bool
  | .admitShares .. | .imageWrite .. | .progLoad .. | .progEdit .. | .progRun .. | .progStop .. | .chartLoad ..
  | .chartSelect .. | .forceSet .. | .forceRelease .. | .retainClear .. | .twinResync .. | .busSend .. | .busSleep ..
  | .dspWrite .. | .dspMode .. => true
  | .paramWrite _ _ es => es.any (fun e => !perDevice e.1)
  | .paramCommit _ _ => (pendingSet s).any (fun e => !perDevice e.1)
  | .dioTest _ _ kind _ => decide (kind = 0)
  | _ => false

/-- Whether an F command other than this one is open (R137). -/
def otherFlash (s : State) (c : CmdRef) : Bool :=
  match s.store.flashOpen with
  | some r => r ≠ c && (findCmd s r).isSome
  | none => false

/-- An update with BUILT set. -/
def updBuilt (s : State) (u : Update) : Bool :=
  if u.firmware then (fwSlot s u.slot).built else (progSlot s u.slot).built

/-- Check 4 of UPD commands (R628, R629). Log entry 45 (DEDUCED). -/
def updState (s : State) : Instr → Option (BitVec 8)
  | .updBegin .. => if s.store.update.isSome then some 0x02 else if (openTransfer s).isSome then some 0x04 else none
  | .updChunk .. | .updApply .. =>
    match s.store.update with
    | none => some 0x01
    | some u => if updBuilt s u then some 0x01 else none
  | .updConfirm .. => if inTrial s then none else some 0x01
  | .updAbandon .. =>
    match s.store.update with
    | none => some 0x01
    | some u => if u.applying then some 0x03 else none
  | _ => none

/-- Check 4 of a segment (R134, R285). `tr` is the open transfer. -/
def segmentState (s : State) (tr : Option Transfer) (op : BitVec 16) (g : Segment) : Option (BitVec 8) :=
  if otherTransfer tr op g then some 0x04
  else if tr.isNone && s.store.update.isSome then some 0x02
  else none

/-- Whether a chart is the active one or that of a pending change (R285). -/
def chartBusy (s : State) (c : Nat) : Bool :=
  s.prog.isSome && (decide (s.charts.active = c) || s.charts.req.any (fun r => r.chart = c)
    || s.charts.committed.any (fun r => r.chart = c) || s.charts.deferred.any (fun r => r.chart = c))

/-- Row 1 of R301: the program is loaded, has the edit's base hash and fewer than 255 edits. -/
def editState (s : State) (tr : Option Transfer) (g : Segment) : Option (BitVec 8) :=
  if g.more then none
  else
    match s.prog with
    | none => some 0x01
    | some p =>
      if 255 ≤ p.edits.length then some 0x01
      else
        match (parseContainer (wholeImage tr g)).bind parseEdit with
        | none => none
        | some e => if e.baseHash ≠ p.chained then some 0x01 else none

/-- Check 4 of program, chart and force commands (R134, R178, R285, R287, R316, R343, R620). -/
def programState (s : State) (tr : Option Transfer) : Instr → Option (BitVec 8)
  | .progLoad _ _ slot =>
    if s.pstate = .running ∨ progSlotState (progSlot s slot) ≠ 4 then some 0x01 else none
  | .progEdit _ _ g => (segmentState s tr 0x0402 g).or (editState s tr g)
  | .progRun .. =>
    if s.pstate ≠ .stopped ∨ s.ring.broken then some 0x01 else if s.charts.unusable then some 0x08 else none
  | .progStop .. => if s.pstate = .notLoaded then some 0x01 else none
  | .chartLoad _ _ g => if chartBusy s g.target then some 0x01 else segmentState s tr 0x0601 g
  | .chartSelect _ _ chart =>
    match s.prog, (chartSlot s chart).image with
    | none, _ => some 0x01
    | some _, none => some 0x08
    | some p, some i =>
      if (chartSlot s chart).state ≠ .valid then some 0x08 else if i.programId ≠ p.img.programId then some 0x01 else none
  | .forceSet _ _ es =>
    let new := ((es.map (fun e => forceKey e.addr.toNat)).eraseDups).filter (fun k => !s.forces.any (fun f => f.addr = k))
    if 1024 < s.forces.length + new.length then some 0x07 else none
  | _ => none

/-- Check 4 of parameter, retention, twin, display and device commands (R361, R395, R404, R526, R643, R659, R689,
R695-R697). -/
def deviceState (s : State) : Instr → Option (BitVec 8)
  | .paramWrite _ _ es =>
    if es.any (fun e => commandOnly e.1) then some 0x09
    else
      let chart := es.any (fun e => ((paramInfo e.1).map (·.chart)).getD false)
      if chart && s.prog.isNone then some 0x01
      else if chart && s.charts.unusable then some 0x08
      else
        let new := ((es.map (·.1)).eraseDups).filter (fun p => !(pendingSet s).any (fun e => e.1 = p))
        if 256 < (pendingSet s).length + new.length then some 0x01 else none
  | .paramCommit .. => if commitRules s (pendingSet s) then none else some 0x01
  | .retainClear _ _ parts =>
    if parts.getLsbD 0 && decide (s.pstate = .running) then some 0x01
    else if parts.getLsbD 1 && s.store.update.isSome then some 0x02 else none
  | .twinChange .. =>
    if s.twin.role = .watch ∨ (s.twin.role = .helm ∧ s.twin.pair = .inStep) then none else some 0x05
  | .twinResync .. =>
    if s.twin.role ≠ .helm ∨ s.twin.pair = .noPartner ∨ s.twin.pair = .incompatible ∨ s.twin.pair = .isolated then
      some 0x05
    else none
  | .dspWrite .. =>
    if !s.host.dspOwner ∨ s.pstate ≠ .running ∨ (areaOwner s 137).isNone then some 0x01 else none
  | .secKeys _ _ op slot _ =>
    if s.store.update.isSome then some 0x02
    else if op = 0 ∧ (ownerSlot s slot).state = 1 then some 0x01 else none
  | .devDormant .. =>
    if s.twin.role = .helm ∧ s.twin.pair = .inStep then some 0x05
    else if s.store.update.isSome then some 0x02
    else if s.store.flashOpen.any (fun r => (findCmd s r).isSome) then some 0x03 else none
  | _ => none

/-- Check 4 of R62: the reason of R115 for which the device's state refuses a request of a command, if any. While TB is not
locked nothing is admitted (R22).
Log entry 45 (DEDUCED). -/
def checkState (s : State) (tr : Option Transfer) (c : CmdRef) (i : Instr) : Option (BitVec 8) :=
  if !s.power.tbLocked then some 0x0A
  else if s.power.mode = .halt ∧ ¬ inHalt i then some 0x0A
  else if s.store.recovery ∧ ¬ inRecovery s i then some 0x01
  else if s.twin.role = .watch ∧ notOnWatch s i then some 0x05
  else if s.power.holdupFault ∧ writesStore i then some 0x06
  else ((updState s i).or (programState s tr i)).or ((deviceState s i).or
    (if writesFlash i && otherFlash s c then some 0x03 else none))

/-! ### Check 5 -/

/-- Data words that a host may not write: at or above DEXT, or in the display block's hold shadow (R142, R318, R521).
Log entry 46 (DEDUCED). -/
def hostDataOk (s : State) (a : Nat) : Bool := decide (a < dext s) && !dspShadowWord (dspBase s) a

/-- Check 5 of an image that a last segment completes (R284 stage 1, R301 row 2). Log entry 48 (DEDUCED). -/
def imageField (s : State) (tr : Option Transfer) (i : Instr) : Option Bad :=
  match i with
  | .chartLoad _ _ g =>
    if g.more then none
    else
      let bs := wholeImage tr g
      match (parseContainer bs).bind parseChart with
      | none => some (7, 28)
      | some x => if bs.length = g.total ∧ chartImageOk s x g.target then none else some (7, 28)
  | .progEdit _ _ g =>
    if g.more then none
    else
      let bs := wholeImage tr g
      match (parseContainer bs).bind parseEdit with
      | none => some (7, 28)
      | some e =>
        if bs.length ≠ g.total then some (7, 28)
        else match checkEdit s e with
          | some (_, _, d) => some (7, d)
          | none => none
  | _ => none

/-- Check 5 of R62: reason and detail of REFUSED_FORMAT, if any. Log entry 70 (DEDUCED). -/
def checkFields (s : State) (tr : Option Transfer) (i : Instr) : Option Bad :=
  match i with
  | .imageWrite _ _ space start vals =>
    if space = 2 ∧ ¬ (List.range vals.length).all (fun k => hostDataOk s (start + k)) then some (7, 20) else none
  | .forceSet _ _ es =>
    (es.zipIdx.find? (fun e =>
      e.1.addr.toNat / 0x40000000 = 1 && inDataSram (e.1.addr.toNat % 0x1000000)
        && !hostDataOk s (e.1.addr.toNat % 0x1000000))).map (fun e => (7, 16 + 12 * e.2))
  | .progEdit _ _ g | .chartLoad _ _ g =>
    match segmentBreak tr g with
    | some o => some (9, o)
    | none => imageField s tr i
  | .dioTest _ _ kind channel => if kind = 0 ∧ gangLead s channel ≠ channel then some (7, 17) else none
  | .logClear _ _ last => if s.log.next ≤ last then some (7, 16) else none
  | .updChunk _ _ offset data =>
    match s.store.update with
    | none => none
    | some u =>
      if offset ≠ u.staged.length then some (9, u.staged.length)
      else if 16777216 < u.staged.length + data.length then some (7, 16) else none
  | _ => none

/-! ### Check 7: set admission (R52, R286) -/

/-- What set admission and other standing limits refuse with REFUSED_CAPACITY: resource code and detail (R56, R580). -/
def checkCapacity (s : State) (tr : Option Transfer) (i : Instr) : Option (BitVec 8 × Nat) :=
  match i with
  | .progRun .. =>
    match s.prog with
    | some p => admitCharts s p.tasks
    | none => none
  | .progEdit _ _ g =>
    if g.more then none
    else match (parseContainer (wholeImage tr g)).bind parseEdit with
      | some e => admitCharts s e.tasks
      | none => none
  | .chartLoad _ _ g =>
    if g.more then none
    else match (parseContainer (wholeImage tr g)).bind parseChart, s.prog with
      | some x, some p =>
        if x.programId = p.img.programId then (setOf s (imageValue s x) x.taskMask p.tasks).refusal else none
      | _, _ => none
  | .paramCommit .. => commitAdmission s (pendingSet s)
  | .logMark .. => if 0x100000000 ≤ s.log.next then some (0x03, 0) else none
  | _ => none

/-- The checks that R63 repeats when a command's work starts: the reason of REFUSED_STATE, if any. CHART.LOAD has a stage of its
own for set admission (R284). Log entry 44 (DEDUCED). -/
def recheck (s : State) (c : CmdRef) (i : Instr) : Option (BitVec 8) :=
  (checkState s s.host.transfer c i).or
    ((if (checkFields s s.host.transfer i).isSome then some 0x01 else none).or
      (match i with
        | .chartLoad .. => none
        | _ => if (checkCapacity s s.host.transfer i).isSome then some 0x01 else none))

end Sys2Proof.Machine
end

