-- ==== Sys2Proof/Machine/Postage.lean ====
section
/-!
DEFINITION. What the catalogue of R139 gives each opcode besides its payload: permitted classes, postage in stages with
the other demands (R48, R135-R138), the size of its DONE payload, and whether it must be franked (R128, R129).
-/
namespace Sys2Proof.Machine

open Sys2Proof

/-! ### Classes -/

/-- Bits V, P, S, D of the permitted classes. -/
def classMask (op : Nat) : Nat :=
  if op ∈ [0x0001, 0x0002, 0x0003, 0x0010, 0x0101, 0x0102, 0x0201, 0x0301, 0x0405, 0x0503, 0x0603, 0x0701, 0x0801, 0x0901,
      0x0A04, 0x0B02, 0x0B03, 0x0D02, 0x0E01, 0x0F01] then 15
  else if op ∈ [0x0203, 0x0A03, 0x0C03, 0x0D04, 0x1101, 0x1103] then 14
  else if op ∈ [0x0004, 0x0202, 0x0302, 0x0303, 0x0404, 0x0501, 0x0502, 0x0602, 0x0B01, 0x0C01, 0x0D01, 0x0D03, 0x0E03, 0x1301,
      0x1302] then 7
  else if op ∈ [0x0103, 0x0802] then 3
  else if op ∈ [0x0902, 0x0A01, 0x0A02, 0x1201, 0x1202] then 8
  else 6

/-- Check 3 of R62. -/
def classOk (op : Nat) (c : Cls) : Bool := (classMask op).testBit (clsCode c)

/-! ### Franks -/

/-- Opcodes that are always franked (R128). -/
def frankAlways (op : Nat) : Bool := decide (op ∈ [0x0004, 0x0702, 0x0E02, 0x1001, 0x1102])

/-- Opcodes that FRANK_POLICY never franks (R129). -/
def frankNever (op : Nat) : Bool :=
  decide (op ∈ [0x0001, 0x0002, 0x0003, 0x0010, 0x0101, 0x0201, 0x0203, 0x0301, 0x0405, 0x0503, 0x0603, 0x0701, 0x0801,
    0x0901, 0x0A04, 0x0B02, 0x0B03, 0x0C03, 0x0D02, 0x0E01, 0x0F01, 0x1101, 0x1103])

/-- Whether a packet must be franked (R128, R129). -/
def mustFrank (s : State) (op : Nat) : Bool :=
  frankAlways op || (!frankNever op && (par s 0x2010).testBit (op / 256))
    || (decide (op = 0x0303) && (pendingSet s).any (fun e => e.1 = 0x2010 ∧ e.2 ≠ par s 0x2010))

/-! ### Stages -/

def stage (beats : Nat) : Stage :=
  { beats, slot := 0, mram := 0, twin := 0, bus := none, extra := 0, slice := 0, waits := .none, energy := 0 }

def stageMram (beats mram : Nat) : Stage := { stage beats with mram }
def stageExtra (beats extra : Nat) : Stage := { stage beats with extra }

/-- 64 × (k + 2 × ceil(k / 4)) bytes of IMAGE records (R330). -/
def imageBytes (k : Nat) : Nat := 64 * (k + 2 * cdiv k 4)

/-- Flash times in tb: an erase of a sector, the programming of 64 KiB (R137). -/
def eraseTb : Nat := msToTb 400
def programTb : Nat := msToTb 160

/-- Hold-up energy demands of a sector erase and of a 64 KiB programming, in nJ (R654). -/
def eErase : Nat := 24000000
def eProgram : Nat := 9600000

/-- A stage with one flash operation of a time and an energy demand (R29, R137). -/
def flashStage (beats time energy : Nat) : Stage := { stageExtra beats time with energy }
def eraseStage (beats : Nat) : Stage := flashStage beats eraseTb eErase
def programStage (beats : Nat) : Stage := flashStage beats programTb eProgram

/-- The keys of an IMAGE.WRITE (R139). -/
def writeKeys (space start n : Nat) : List Nat := (List.range n).map (fun i => itemKey space (start + i))

/-- The words of the display block that DSP.WRITE writes: ON and BLINK of the commons (R521, R526). -/
def dspWords (s : State) (first count : Nat) : List Nat :=
  match dspBase s with
  | none => []
  | some d => (List.range (4 * count)).map (fun i => wKey (d + 4 * first + i))

/-- Number of tasks of the loaded program. -/
def taskCount (s : State) : Nat :=
  (s.prog.map (fun p => p.tasks.toList.countP (·.present))).getD 0

/-- Commands of the session that are pending: the c of SESSION.CLOSE and SESSION.CLAIM. -/
def sessionCmds (s : State) : List Cmd := s.host.cmds.filter (fun x => x.bySession)

/-- The write list of a parameter group in postage: one record each. -/
def commitWrites (s : State) : List PWrite :=
  (pendingSet s).map (fun e =>
    { kind := .param, scope := if ((paramInfo e.1).map (·.chart)).getD false then s.charts.active else globalScope,
      key := e.1, body := some (le 8 e.2) })

/-- W_chg of R293 in tb. -/
def wChg (s : State) : Nat :=
  if s.pstate ≠ .running then 0
  else if !(enabledFree s).isEmpty then usToTb (2 * par s 0x0301)
  else msToTb (2 * ((enabledFixed s).foldl (fun m t => Nat.max m (taskDef s t).periodMs) 0))

/-- T_H of R474 in tb, for a request frame from the delimiter to the last data byte. -/
def hartBound (frame : List Byte) : Nat :=
  let head := if (frame.getD 0 0).getLsbD 7 then 8 else 4
  usToTb (cdiv ((802 + 305) * 1000000 + (14 + (frame.length - head) + 48) * 9167000) 1000)

/-- Restart bounds of the units in tb (R671). -/
def restartBound (u : Nat) : Nat :=
  if u = 3 ∨ u = 4 ∨ u = 8 then msToTb 2
  else if u = 5 ∨ u = 7 then msToTb 5
  else if u = 6 then usToTb 400
  else msToTb 50

/-- Stages of an update's apply (R625): verification, erases, 64 KiB programmings, read-back, verification, BUILT and, for
firmware, the snapshot. Log entry 10 (DESIGN CHOICE). -/
def applyStages (s : State) : List Stage :=
  match s.store.update with
  | none => [stage 60000]
  | some u =>
    [stage 60000, flashStage 60000 eraseTb (eErase + eProgram)]
      ++ List.replicate (cdiv u.length 262144) (eraseStage 60000)
      ++ List.replicate (cdiv u.length 65536) (programStage 60000)
      ++ [stage 60000, stage 60000, programStage 60000]
      ++ (if u.firmware then [stage 60000] else [])

def segmentStage (g : Segment) : Stage := stageMram (3000 + 2 * g.bytes.length) g.bytes.length

/-- The shadow lines in which PROG.RUN clears a HELD bit (R320). -/
def heldLines (s : State) : List Nat := ((s.held.map (fun e => shadowOf e.1)).eraseDups)

/-- The lines that the RUN record carries: those in which a HELD bit is cleared, in record order; word 73 of the display
block is one (R320). -/
def clearedLines (s : State) : List Nat :=
  recordOrder (heldLines s ++ (match dspBase s with
    | none => []
    | some d => if (getItem s (wKey (d + 73))).val = 0 then [] else [lineOf (wKey (d + 73))]))

/-- The MRAM demand of an edit's data initialisations: their IMAGE records (R302, R330). -/
def editBytes (s : State) (g : Segment) : Nat :=
  match (parseContainer (wholeImage (openTransfer s) g)).bind parseEdit with
  | none => 0
  | some e => imageBytes (touchedLines (e.inits.map (·.1))).length

/-- The stages of PROG.EDIT's last segment: the segment, the flash operations of the edit record, and the edit itself with
its wait for the edit seal point (R302). Log entry 10 (DESIGN CHOICE). -/
def editStages (s : State) (g : Segment) : List Stage :=
  let b := 20000 + 2000 * taskCount s
  [segmentStage g, eraseStage b] ++ List.replicate (Nat.max 1 (cdiv g.total 65536)) (programStage b)
    ++ [{ stageExtra b (msToTb 1 + wChg s) with mram := editBytes s g }]

/-- The units that a self-test of all units runs through (R11, R139). -/
def testUnits : List Nat := (List.range 8).map (· + 1) ++ (List.range 8).map (0x10 + ·)

/-- The stage of a unit's self-test; that of the logic engine runs in a class D slice (R81, R88). -/
def testStage (u : Nat) : Stage := { stage 40000 with slice := boolBit (decide (u = 1)) }

/-- The stages of a request, without the frank stage (R72, R135, R139). Log entries 10, 110 (DESIGN CHOICE). -/
def workStages (s : State) (i : Instr) : List Stage :=
  match i with
  | .sessionOpen .. => [stage 3000]
  | .sessionClose .. => [{ stage (2000 + 20 * (sessionCmds s).length) with waits := .pending }]
  | .sessionNonce .. => [stage 6000]
  | .sessionClaim .. => [{ stage (4000 + 20 * (sessionCmds s).length) with waits := .started }]
  | .statusGet .. => [stage 5000]
  | .admitQuery .. => [stage 8000]
  | .admitCancel _ _ seqs => [stage (3000 + 200 * seqs.length)]
  | .admitShares .. => [stageMram 4000 256]
  | .imageRead _ _ space n _ =>
    if space = 0 then [{ stage (2000 + 10 * n) with slot := 120000 + 2000 * n }]
    else [{ stage (2000 + 50 * n) with slot := 120000 + 10000 * n }]
  | .imageWrite _ _ space start vals =>
    let n := vals.length
    [{ stage (45000 + 94 * n) with
        slot := 40000 + 10000 * n, mram := imageBytes (touchedLines (writeKeys space start n)).length }]
  | .imageWatch _ _ _ _ addrs t =>
    let n := addrs.length
    [{ stage (6000 + 60 * n) with slot := 120000 + 10000 * n, waits := .till (s.tb + usToTb t) }]
  | .paramRead _ _ pids => [stage (3000 + 150 * pids.length)]
  | .paramWrite _ _ es => [stage (3000 + 200 * es.length)]
  | .paramCommit .. =>
    let n := (pendingSet s).length
    let k := Nat.max 1 (cdiv n 32)
    (List.range k).map (fun j =>
      stageMram (4000 + 2000 * Nat.min 32 (n - 32 * j)) (256 * cdiv (groupPages (commitWrites s)) k))
  | .progLoad _ _ slot =>
    match (progSlot s slot).image with
    | none => [stage 20000]
    | some p =>
      List.replicate (Nat.max 1 (cdiv ((progSlot s slot).bytes.length) 262144)) (stage 60000)
        ++ [stage (20000 + 2000 * p.tasks.toList.countP (·.present))]
  | .progEdit _ _ g =>
    if g.more then [segmentStage g]
    else editStages s g
  | .progRun .. => [stageMram (20000 + 2000 * taskCount s) (64 * (2 + (clearedLines s).length))]
  | .progStop .. => [stageExtra 4000 (if s.pstate = .running then wImg s else 0)]
  | .progTasks .. => [stage (3000 + 300 * taskCount s)]
  | .forceSet _ _ es =>
    [{ stage (4000 + 400 * es.length) with
        slot := 40000 + 10000 * es.length,
        mram := 256 + imageBytes (touchedLines (es.map (fun e => forceKey e.addr.toNat))).length }]
  | .forceRelease _ _ as =>
    if as = [0xFFFFFFFF#32] then
      { stage 50000 with slot := 50000, mram := 256 } :: List.replicate 3 (stage 50000)
    else [{ stage (4000 + 400 * as.length) with slot := 40000 + 10000 * as.length, mram := 256 }]
  | .forceList _ _ first => [stage (3000 + 40 * Nat.min 338 (s.forces.length - first))]
  | .chartLoad _ _ g =>
    if g.more then [segmentStage g]
    else
      [segmentStage g, stage 60000, stage 60000, eraseStage 60000, eraseStage 60000]
        ++ List.replicate (Nat.max 1 (cdiv g.total 65536)) (programStage 60000)
        ++ [programStage 60000, stage 60000]
  | .chartSelect .. => [stageExtra 5000 (msToTb 1 + wChg s)]
  | .chartInfo _ _ chart => [stage (3000 + 500 * (if chart = 255 then 8 else 1))]
  | .sealStatus .. => [stage 3000]
  | .retainClear _ _ parts =>
    (if parts.getLsbD 0 then [stageMram 60000 256] else [])
      ++ (if parts.getLsbD 1 then List.replicate 8 { stageMram 60000 131072 with energy := eGroup 512 } else [])
      ++ (if parts.getLsbD 2 then [stageMram 60000 4096] else [])
      ++ (if parts.toNat % 8 = 0 then [stage 60000] else [])
  | .twinStatus .. => [stage 3000]
  | .twinChange .. => [{ stage 6000 with twin := 256, extra := usToTb 10 + wChg s }]
  | .twinResync .. =>
    if s.twin.pair = .inStep then [{ stage 40000 with twin := 256 }]
    else List.replicate 6 { stage 40000 with twin := 4096 }
  | .dioStatus .. => [stage 4000]
  | .dioTest .. => [stageExtra 20000 (usToTb 1000)]
  | .anaTrim .. => [stageExtra 30000 (msToTb 1090)]
  | .anaRelay _ _ m =>
    let n := (List.range 8).countP (fun i => m.getLsbD i)
    if n ≤ 4 then [stageExtra (10000 * n) (msToTb 1050)]
    else [stage 40000, stageExtra (10000 * (n - 4)) (msToTb 1050)]
  | .anaHart _ _ _ fr => [stageExtra 12000 (hartBound fr)]
  | .anaStatus .. => [stage 6000]
  | .busSend _ _ l _ => [{ stage 4000 with bus := some l }]
  | .busStatus .. => [stage 3000]
  | .stationList .. => [stage 4000]
  | .busSleep _ _ l mode =>
    [stageExtra 5000 (usToTb (busP s l 7) + msToTb 1 + (if mode = 2 then msToTb 2 else 0))]
  | .dspWrite _ _ first count _ =>
    [{ stage (3000 + 300 * count) with
        slot := 40000, mram := imageBytes (touchedLines (dspWords s first count)).length }]
  | .dspMode .. => [stage 3000]
  | .dspCheck .. => [stage 5000]
  | .timeSet .. => [{ stageMram 4000 256 with extra := 6104 }]
  | .timeGet .. => [stage 3000]
  | .timeShift .. => [stageMram 3000 256]
  | .timeTrim .. => [stageMram 3000 256]
  | .logRead _ _ _ limit => [stage (4000 + 2 * limit)]
  | .logClear .. => [stageMram 8000 256]
  | .logMark _ _ _ data => [stageMram (3000 + 2 * data.length) 256]
  | .wdStatus .. => [stage 3000]
  | .updBegin .. => [stage 10000]
  | .updChunk _ _ _ data => [stageMram (3000 + 2 * data.length) data.length]
  | .updApply .. => applyStages s
  | .updConfirm .. => [programStage 10000]
  | .updAbandon .. => [programStage 10000]
  | .secAttest .. => [stage 40000, stage 40000]
  | .secKeys .. => [flashStage 40000 (eraseTb + programTb) (eErase + eProgram)]
  | .secCert .. => [stage (4000 + 2 * 368)]
  | .testSelf _ _ unit => if unit = 0 then testUnits.map testStage else [testStage unit]
  | .testPace .. => [stage 20000]
  | .devReset .. => [stage 4000]
  | .unitReset _ _ unit => [stageExtra 6000 (restartBound unit)]
  | .devDormant .. => [stage 6000]
  | _ => [stage 1000]

/-- The stages of a packet's work: a franked one begins with frank verification (R130). Log entry 10 (DESIGN CHOICE). -/
def stagesOf (s : State) (frank : Bool) (bytes : Nat) (i : Instr) : List Stage :=
  if frank then stage (36000 + bytes) :: workStages s i else workStages s i

/-- Bytes of the DONE payload, at most (R70, R139). -/
def doneLen (s : State) (i : Instr) : Nat :=
  match i with
  | .sessionOpen .. | .sessionClaim .. => 16
  | .sessionClose .. => 2 + 2 * (sessionCmds s).length
  | .sessionNonce .. | .sealStatus .. | .busStatus .. | .wdStatus .. => 32
  | .statusGet .. | .updApply .. => 64
  | .admitQuery .. | .timeGet .. => 28
  | .admitCancel _ _ seqs => 4 * seqs.length
  | .imageRead _ _ space n _ => if space = 0 then n else 6 * n
  | .imageWrite .. | .paramWrite .. | .forceSet .. | .forceRelease .. | .secKeys .. => 2
  | .imageWatch _ _ _ _ addrs _ => 10 + 10 * addrs.length
  | .paramRead _ _ pids => 12 * pids.length
  | .paramCommit .. => 3
  | .progLoad .. => 65
  | .progEdit _ _ g => if g.more then 4 else 10 + 4 * Nat.min 1014 s.forces.length
  | .chartLoad _ _ g => if g.more then 4 else 64
  | .progTasks .. => 32 * taskCount s
  | .forceList _ _ first => 4 + 12 * Nat.min 338 (s.forces.length - first)
  | .progRun .. | .progStop .. | .chartSelect .. | .twinChange .. | .twinResync .. | .anaTrim .. | .busSleep ..
  | .timeShift .. | .logMark .. | .testPace .. => 8
  | .chartInfo _ _ chart => 80 * (if chart = 255 then 8 else 1)
  | .twinStatus .. => 40
  | .dioStatus .. => 74
  | .dioTest .. | .dspCheck .. | .logClear .. | .updChunk .. | .testSelf .. | .unitReset .. => 4
  | .anaRelay .. | .updBegin .. => 1
  | .anaHart .. => 42
  | .anaStatus .. => 256
  | .busSend .. => 10
  | .stationList .. => 252
  | .logRead _ _ _ limit => 8 + limit
  | .secAttest .. => 944
  | .secCert .. => 368
  | _ => 0

/-- Class D self-test and calibration work never receives REFUSED_CAPACITY (R82): the D-only opcodes of R136.
Log entry 20 (DEDUCED). -/
def neverCapacity (op : Nat) : Bool := decide (op ∈ [0x0902, 0x0A01, 0x0A02, 0x1201, 0x1202])

end Sys2Proof.Machine
end

