-- ==== Sys2Proof/Machine/Admission.lean ====
section
/-!
DEFINITION. The admission controller (R60-R82): share windows and allowances, the booking of every resource, the verdict
on a command, the first receipt, and what follows when a held command or a later stage is booked.
-/
namespace Sys2Proof.Machine

open Sys2Proof

/-! ### Share windows (R64) -/

/-- W: a share window in tb. -/
def shareTb : Nat := 200000

/-- The admission horizon of 2 s (R38). -/
def horizonTb : Nat := 400000000

/-- The window that holds an instant. -/
def winOf (t : Nat) : Nat := t / shareTb

/-- The shares in effect in a window (R79): of the commands whose window has begun by then, the last. -/
def sharesAt (s : State) (w : Nat) : Nat × Nat × Nat × Nat :=
  s.book.sharesNext.foldl (fun x e => if e.1 ≤ w then e.2 else x) s.book.shares

def shareOf (x : Nat × Nat × Nat × Nat) : Cls → Nat
  | .v => x.1
  | .p => x.2.1
  | .s => x.2.2.1
  | .d => x.2.2.2

/-- A class's allowance in a window (R64). -/
def allowance (s : State) (w : Nat) (c : Cls) : Nat := 180000 * shareOf (sharesAt s w) c / 100

/-- ahead(k): housekeeping and the allowances of every class above (R67). -/
def aheadOf (s : State) (w : Nat) : Cls → Nat
  | .v => 20000
  | .p => 20000 + allowance s w .v
  | .s => 20000 + allowance s w .v + allowance s w .p
  | .d => 20000 + allowance s w .v + allowance s w .p + allowance s w .s

/-! ### What is booked -/

def bookedSp (s : State) (w : Nat) (c : Cls) : Nat :=
  (s.book.sp.filter (fun e => e.1 = w && e.2.1 = c)).foldl (fun n e => n + e.2.2) 0

/-- The sum booked under a number in a list. -/
def bookedIn (l : List (Nat × Nat)) (k : Nat) : Nat := (l.filter (fun e => e.1 = k)).foldl (fun n e => n + e.2) 0

/-- Take a booking into the lists (R67-R70). -/
def addBooking (s : State) (r : CmdRef) (b : Booking) : State :=
  let k := s.book
  { s with book := { k with
      sp := k.sp ++ [(b.win, b.cls, b.sp)], slots := k.slots ++ b.slot.toList,
      mram := if b.mram = 0 then k.mram else k.mram ++ [(b.win, b.mram)],
      twin := if b.twin = 0 then k.twin else k.twin ++ [(b.win, b.twin)],
      bus := k.bus ++ (b.bus.toList.map (fun x => (x.1, x.2, r))), slices := k.slices ++ b.slice.toList,
      latest := Nat.max k.latest b.bound } }

/-- Free a booking (R78). -/
def dropBooking (s : State) (b : Booking) : State :=
  let k := s.book
  { s with book := { k with
      sp := k.sp.erase (b.win, b.cls, b.sp),
      slots := (match b.slot with | none => k.slots | some x => k.slots.erase x),
      mram := k.mram.erase (b.win, b.mram), twin := k.twin.erase (b.win, b.twin),
      slices := k.slices.filter (fun x => !b.slice.toList.contains x),
      bus := (match b.bus with | none => k.bus | some x => k.bus.eraseP (fun y => y.1 = x.1 && y.2.1 = x.2)) } }

/-! ### Booking one stage -/

/-- Why a stage cannot be booked within the horizon: resource code and shortfall (R49, R74). -/
structure Lack where
  res : BitVec 8
  short : Nat
  deriving DecidableEq, Repr

/-- The bound in one window, or what is short there (R67, R70). The stage's bytes for MRAM and the twin link must fit in the
window of its service-processor work. Log entry 98 (DESIGN CHOICE). -/
def tryWindow (s : State) (c : Cls) (st : Stage) (mramFree twinFree p a w : Nat) : Except Lack Nat :=
  let b := bookedSp s w c
  let bound := Nat.max a (w * shareTb) + aheadOf s w c + b + p
  let excess := Nat.max (b + p - allowance s w c) (bound - (w + 1) * shareTb)
  let m := bookedIn s.book.mram w + st.mram
  let t := bookedIn s.book.twin w + st.twin
  if excess ≠ 0 then .error ⟨0x02, excess⟩
  else if st.mram ≠ 0 ∧ mramFree < m then .error ⟨0x03, m - mramFree⟩
  else if st.twin ≠ 0 ∧ twinFree < t then .error ⟨0x04, t - twinFree⟩
  else .ok bound

/-- The first window from w on that takes the stage; the fuel is the number of windows to try (R67). Where none does, the
lack is that of the last window. Log entry 100 (DESIGN CHOICE). -/
def findWindow (s : State) (c : Cls) (st : Stage) (mramFree twinFree p a : Nat) : Nat → Nat → Except Lack (Nat × Nat)
  | 0, _ => .error ⟨0x02, p⟩
  | n + 1, w =>
    match tryWindow s c st mramFree twinFree p a w with
    | .ok bound => .ok (w, bound)
    | .error e =>
      if n = 0 then .error e else findWindow s c st mramFree twinFree p a n (w + 1)

/-- The first image slot from s_last + 2 on with room (R69). -/
def freeSlot (s : State) (u limit : Nat) : Nat → Nat → Nat
  | 0, k => k
  | n + 1, k => if limit < bookedIn s.book.slots k + u then freeSlot s u limit n (k + 1) else k

/-- The start in tb of service slot n of a cycle (R513). -/
def busSlotStart (s : State) (l : Line) (cycle n : Nat) : Nat :=
  cycleStart s l cycle + psToTb (serviceStart s l cycle + n * (windows s l).slot)

/-- Whether a twin heartbeat takes slot 0 of a cycle: one falls due in the cycle before it (R392, R513).
Log entry 14 (DEDUCED). -/
def heartbeatSlot (s : State) (l : Line) (cycle n : Nat) : Bool :=
  let hb := usToTb (par s 0x0605)
  let t := cycleStart s l cycle
  paired s && decide (n = 0) && decide (hb ≠ 0) && decide ((t - usToTb (busP s l 7)) / hb ≠ t / hb)

/-- The first free service slot that starts after an instant: its number and its end (R70, R513). Log entry 14 (DEDUCED). -/
def findBusSlot (s : State) (l : Line) (after : Nat) : Nat → Nat → Option (Nat × Nat)
  | 0, _ => none
  | f + 1, cycle =>
    let w := windows s l
    match (List.range w.slots).find? (fun n =>
        decide (after < busSlotStart s l cycle n) && !heartbeatSlot s l cycle n
          && !s.book.bus.any (fun b => b.1 = l && b.2.1 = slotId cycle n)) with
    | some n => some (slotId cycle n, busSlotStart s l cycle n + psToTb w.slot)
    | none => findBusSlot s l after f (cycle + 1)

/-- Whether a line has service slots at all: a role, awake, running, its collar open (R513). -/
def busHasSlots (s : State) (l : Line) : Bool :=
  let b := lineOfBus s l
  decide (busP s l 0 ≠ 0) && !b.asleep && b.sleepReq.isNone && b.cycleRunning && !collarClosed s (busUnit l)

def busRes (l : Line) : BitVec 8 := if l = .a then 0x06 else 0x07

/-- The first gap between scans from s_last + 2 on whose class D slice is free (R81). -/
def freeSlice (s : State) : Nat → Nat → Nat
  | 0, k => k
  | n + 1, k => if s.book.slices.contains k then freeSlice s n (k + 1) else k

/-- The instant by which an image slot or a class D slice has passed (R69). -/
def gapEnd (s : State) (k : Nat) : Nat := s.sched.slotEnd + (k - s.sched.slotNo) * wImg s

/-- The instant that a stage's bound covers besides its own work (R120, R124, R138). Log entry 15 (DEDUCED). -/
def waitsBound (s : State) : StageWait → Nat
  | .none => 0
  | .started => ((sessionCmds s).filter (·.begun)).foldl (fun m x => Nat.max m x.promise) 0
  | .pending => (sessionCmds s).foldl (fun m x => Nat.max m x.promise) 0
  | .till t => t

/-- Book a stage whose work may start at an instant, within the horizon (R67-R71). With DSLICE_LE_MAX 0 no class D slice is
ever bookable (R88). Log entry 15 (DEDUCED). -/
def bookStage (s : State) (c : Cls) (st : Stage) (a : Nat) : Except Lack Booking :=
  let p := cdiv (st.beats * cAdm s) psPerTb
  let limit := usPs (par s 0x0206)
  let slot := if st.slot = 0 then none
    else some (freeSlot s st.slot limit (s.book.slots.length + 1) (s.sched.slotNo + 2), st.slot)
  let slice := if st.slice = 0 then none else some (freeSlice s (s.book.slices.length + 1) (s.sched.slotNo + 2))
  let a := (slot.toList.map (·.1) ++ slice.toList).foldl (fun a k => Nat.max a (gapEnd s k)) a
  let last := s.tb + horizonTb
  if st.slice ≠ 0 ∧ par s 0x0207 = 0 then .error ⟨0x01, 0⟩
  else
  match findWindow s c st (freeMram s) (freeTwin s) p a (winOf last + 1 - winOf a) (winOf a) with
  | .error e => .error e
  | .ok (w, bound) =>
    let bound := Nat.max (bound + st.extra) (waitsBound s st.waits)
    if last < bound then .error ⟨0x02, bound - last⟩
    else
      let b : Booking :=
        { win := w, cls := c, sp := p, slot, slice, mram := st.mram, twin := st.twin, bus := none, bound,
          band := s.power.band }
      match st.bus with
      | none => .ok b
      | some l =>
        if !busHasSlots s l then .error ⟨busRes l, 1⟩
        else match findBusSlot s l bound ((last - s.tb) / usToTb (busP s l 7) + 2) (lineOfBus s l).cycle with
          | none => .error ⟨busRes l, 1⟩
          | some (id, fin) => .ok { b with bus := some (l, id), bound := fin }

/-- Book stages one after the other, each from the bound of the one before (R72). -/
def bookStages (s : State) (r : CmdRef) (c : Cls) : List Stage → Nat → Except Lack (List Booking × State)
  | [], _ => .ok ([], s)
  | st :: sts, a =>
    match bookStage s c st a with
    | .error e => .error e
    | .ok b =>
      match bookStages (addBooking s r b) r c sts b.bound with
      | .error e => .error e
      | .ok (bs, s) => .ok (b :: bs, s)

/-- Whether every booking lies within the acceptance reach (R68). -/
def inReach (s : State) (bs : List Booking) : Bool :=
  let last := winOf s.tb + par s 0x0205 - 1
  bs.all (fun b => decide (b.win ≤ last) && (b.bus.isNone || decide (winOf b.bound ≤ last)))

/-- A stage without its demand on a resource (R49). -/
def Stage.without (st : Stage) (res : BitVec 8) : Stage :=
  if res = 0x01 then { st with slot := 0, slice := 0 }
  else if res = 0x03 then { st with mram := 0 }
  else if res = 0x04 then { st with twin := 0 }
  else if st.bus.any (fun l => decide (busRes l = res)) then { st with bus := none }
  else st

/-- The resource that binds (R74): the first without whose demands the bookings would do, else service-processor time.
Log entry 108 (DEDUCED). -/
def bindingOf (s : State) (r : CmdRef) (c : Cls) (sts : List Stage) (fits : List Booking → Bool) : BitVec 8 :=
  ([0x01, 0x03, 0x04, 0x06, 0x07].find? (fun res =>
    sts.any (fun st => decide (st.without res ≠ st)) &&
      (match bookStages s r c (sts.map (fun st => st.without res)) s.tb with
        | .ok (bs, _) => fits bs
        | .error _ => false))).getD 0x02

/-! ### The verdict on a command (R62 checks 6 and 7, R73, R74) -/

/-- What the admission controller is asked. -/
structure Ask where
  ref : CmdRef
  opcode : Nat
  cls : Cls
  owner : Bool
  arrival : Nat
  deadline : Nat
  stages : List Stage
  bytes : Nat
  deriving DecidableEq, Repr

inductive Verdict where
  | accept (bs : List Booking)
  | hold (res : BitVec 8) (earliest : Nat)
  | refuse (status reason : BitVec 8) (time detail : Nat)
  deriving DecidableEq, Repr

/-- The instant of a deadline; one above 2,000,000 µs acts as the horizon (R73). -/
def dueOf (arrival deadline : Nat) : Option Nat :=
  if deadline = 0 then none else some (arrival + usToTb (Nat.min deadline 2000000))

/-- Commands held in a class, in arrival order (R75). -/
def heldIn (s : State) (c : Cls) : List Cmd := s.host.cmds.filter (fun x => x.phase = .held && x.cls = c)

/-- Whether the accepted queue is full: 256 in the session, 8 for a port without it (R77, R118). A command counts from its
ACCEPTED receipt to its final one, also while a later stage is held. -/
def queueFull (s : State) (p : Port) (owner : Bool) : Bool :=
  let n := s.host.cmds.countP (fun x =>
    (decide (x.phase ≠ .held) || x.begun) && x.bySession == owner && (owner || decide (x.ref.port = p)))
  decide ((if owner then 256 else 8) ≤ n)

/-- The stages that admission books at arrival (R72, R73). -/
def Ask.booked (x : Ask) : List Stage := if x.deadline = 0 then x.stages.take 1 else x.stages

/-- What keeps a bookable command from being accepted (R74, R77, R70). Log entry 108 (DEDUCED). -/
def holdReason (s : State) (x : Ask) (bs : List Booking) : Option (BitVec 8) :=
  if !inReach s bs then some (bindingOf s x.ref x.cls x.booked (inReach s))
  else if queueFull s x.ref.port x.owner then some 0x08
  else if txFree s x.ref.port < x.bytes then some 0x05
  else none

/-- The bookings with the held commands of the class ahead (R74, R75). -/
def behindHeld (s : State) (x : Ask) : Except Lack (List Booking × State) :=
  let s := (heldIn s x.cls).foldl (fun s h =>
    match h.stages with
    | [] => s
    | st :: _ => match bookStage s h.cls st s.tb with
      | .ok b => addBooking s h.ref b
      | .error _ => s) s
  bookStages s x.ref x.cls x.booked s.tb

def lastBound (bs : List Booking) : Nat := bs.foldl (fun _ b => b.bound) 0
def firstBound (bs : List Booking) : Nat := (bs.head?.map (·.bound)).getD 0

/-- REFUSED_DEADLINE when the earliest promise lies after the deadline (R73, R74). Log entry 108 (DEDUCED). -/
def lateVerdict (s : State) (x : Ask) (bs : List Booking) : Option Verdict :=
  match dueOf x.arrival x.deadline with
  | none => none
  | some due =>
    if due < lastBound bs then
      some (.refuse stDeadline (bindingOf s x.ref x.cls x.booked (fun b => decide (lastBound b ≤ due))) (lastBound bs)
        (lastBound bs - due))
    else none

/-- REFUSED_CAPACITY for a lack of the horizon; CHART.SELECT names the image slots (R293). -/
def lackVerdict (s : State) (x : Ask) (e : Lack) : Verdict :=
  .refuse stCapacity (if x.opcode = 0x0602 ∧ e.res = 0x02 then 0x01 else e.res) s.tb e.short

/-- Bookable, and something holds it (R74, R118): the held queue's room is check 6, the deadline check 7 (R62). Where not even
the horizon takes class D work, HELD names the end of the horizon. Log entries 12 (DEDUCED), 101 (DESIGN CHOICE). -/
def holdVerdict (s : State) (x : Ask) (res : BitVec 8) : Verdict :=
  if x.owner ∧ 64 ≤ (heldIn s x.cls).length then .refuse stQueue (BitVec.ofNat 8 (clsCode x.cls)) s.tb 64
  else
    match behindHeld s x with
    | .error e =>
      if !x.owner then .refuse stCapacity res s.tb 0
      else if neverCapacity x.opcode then .hold res (s.tb + horizonTb) else lackVerdict s x e
    | .ok (bs, _) =>
      match lateVerdict s x bs with
      | some v => v
      | none => if x.owner then .hold res (firstBound bs) else .refuse stCapacity res s.tb 0

/-- Demands no window can ever meet: R136, R143, R70. -/
def impossible (s : State) (x : Ask) : Option Verdict :=
  let excess := fun (st : Stage) =>
    let p := cdiv (st.beats * cAdm s) psPerTb
    let a := allowance s (winOf s.tb) x.cls
    let u := usPs (par s 0x0206)
    if a < p then some (Verdict.refuse stCapacity 0x02 s.tb (p - a))
    else if u < st.slot then some (.refuse stCapacity 0x01 s.tb (psToTb (st.slot - u)))
    else if freeMram s < st.mram then some (.refuse stCapacity 0x03 s.tb (st.mram - freeMram s))
    else if freeTwin s < st.twin then some (.refuse stCapacity 0x04 s.tb (st.twin - freeTwin s))
    else none
  if neverCapacity x.opcode then none
  else (x.stages.findSome? excess).or
    (if 131072 - 1056 < x.bytes then some (.refuse stCapacity 0x05 s.tb (x.bytes - (131072 - 1056))) else none)

/-- The verdict on a command at arrival (R62 checks 6 and 7). -/
def judge (s : State) (x : Ask) : Verdict :=
  match impossible s x with
  | some v => v
  | none =>
    match bookStages s x.ref x.cls x.booked s.tb with
    | .error e => if neverCapacity x.opcode then holdVerdict s x e.res else lackVerdict s x e
    | .ok (bs, _) =>
      match holdReason s x bs with
      | some r => holdVerdict s x r
      | none => (lateVerdict s x bs).getD (.accept bs)

/-! ### Receipts of admission -/

/-- The band whose ceiling a booking used (R74). -/
def Booking.bandCode (b : Booking) : BitVec 8 := BitVec.ofNat 8 (b.band + 1)

/-- MORE of a stage's ACCEPTED or HELD receipt (R72). -/
def moreFlag (stages : List Stage) : Nat := if 1 < stages.length then 2 else 0

/-- A receipt that uses 28 bytes reserved for its command. -/
def placeReserved (s : State) (x : Cmd) (r : List Byte) : State :=
  let n := Nat.min x.reservedBytes r.length
  updCmd (unreserve (place s x.ref.port r) x.ref.port n) x.ref (fun y => { y with reservedBytes := y.reservedBytes - n })

/-- Reserve transmit bytes for the receipts of a command (R70). -/
def reserveTx (s : State) (x : Cmd) (n : Nat) : State :=
  let y := portSt s x.ref.port
  updCmd (setPort s x.ref.port { y with reserved := y.reserved + n }) x.ref (fun y => { y with
    reservedBytes := y.reservedBytes + n })

/-- The ACCEPTED receipt of a stage for its booking (R71, R72, R74). -/
def acceptedReceipt (x : Cmd) (b : Booking) : List Byte :=
  mkReceipt (moreFlag x.stages) x.opcode.toNat stAccepted b.bandCode x.ref.seq.toNat x.token.toNat b.bound b.sp []

/-- Give a command the bookings of its next stage and place ACCEPTED with its promise. The bytes of all its receipts are
reserved from its first acceptance on (R70). -/
def takeBookings (s : State) (x : Cmd) (b : Booking) (later : List Booking) : State :=
  let s := if x.begun then s else reserveTx s x (x.bytes - x.reservedBytes)
  let s := updCmd s x.ref (fun y => { y with
    phase := if y.begun then .started else .accepted, book := some b, later, promise := b.bound, worked := false })
  placeReserved s ((findCmd s x.ref).getD x) (acceptedReceipt x b)

/-- Accept the next stage of a command: bookings, ACCEPTED with its promise (R71, R72, R74). -/
def acceptStage (s : State) (x : Cmd) (bs : List Booking) : State :=
  match bs with
  | [] => s
  | b :: later => takeBookings (bs.foldl (fun s b => addBooking s x.ref b) s) x b later

/-- Hold a command or a later stage: HELD with its position (R74, R75). -/
def holdStage (s : State) (x : Cmd) (res : BitVec 8) (earliest : Nat) : State :=
  let pos := (heldIn s x.cls).length + 1
  let s := updCmd s x.ref (fun y => { y with phase := .held, book := none, later := [], worked := false })
  placeReserved s x (mkReceipt (moreFlag x.stages) x.opcode.toNat stHeld res x.ref.seq.toNat x.token.toNat earliest
    (pos * 16777216) [])

/-- Bookings of a pending command's next stage within reach, or what holds it. -/
def stageBookings (s : State) (x : Cmd) (all : Bool) : Except (BitVec 8 × Nat) (List Booking) :=
  match bookStages s x.ref x.cls (if all then x.stages else x.stages.take 1) s.tb with
  | .error e => .error (e.res, s.tb + horizonTb)
  | .ok (bs, _) =>
    if inReach s bs then .ok bs
    else .error (bindingOf s x.ref x.cls (if all then x.stages else x.stages.take 1) (inReach s), firstBound bs)

/-- Whether a later stage may be held: the held queue of its class has room, and its port has the session (R75, R118). -/
def mayHold (s : State) (x : Cmd) : Bool := x.bySession && decide ((heldIn s x.cls).length < 64)

/-- The next stage of a started command: booked no later than the promise of the present one, else HELD (R72, R82). Where it
may not be held it stays unbooked, and later share windows book it. Log entry 111 (DESIGN CHOICE). -/
def nextStage (s : State) (x : Cmd) : State :=
  let s := freeEnergy s (stageEnergy x)
  let x' := { x with
    stages := x.stages.drop 1, later := [], phase := .started, begun := true, worked := false, sliced := false, book := none }
  let s := updCmd s x.ref (fun y => { x' with reservedBytes := y.reservedBytes })
  match x.later with
  | b :: later => takeBookings s x' b later
  | [] =>
    match stageBookings s x' false with
    | .ok bs => acceptStage s x' bs
    | .error (r, e) => if mayHold s x' then holdStage s x' r e else s

/-- Free every booking of a command, and forget it without a receipt (R78, R120). -/
def cancelCmd (s : State) (x : Cmd) : State :=
  removeCmd ((x.book.toList ++ x.later).foldl dropBooking s) x.ref

/-! ### Held commands (R75, R76) -/

/-- REFUSED_HORIZON of a held command: reason and position (R74, R76). Log entry 13 (DEDUCED). -/
def ageOut (s : State) (x : Cmd) (reason : BitVec 8) : State :=
  let pos := ((heldIn s x.cls).takeWhile (fun y => y.ref ≠ x.ref)).length + 1
  finishNow s x.ref stHorizon reason pos []

/-- Whether no promise within a held command's deadline remains possible. -/
def deadlineLost (s : State) (x : Cmd) : Bool :=
  match dueOf x.arrival x.deadlineUs with
  | none => false
  | some due =>
    match bookStages s x.ref x.cls x.stages s.tb with
    | .error _ => true
    | .ok (bs, _) => decide (due < lastBound bs)

/-- Serve a class's held commands in arrival order until one cannot be booked within reach (R75). -/
def serveHeld : List Cmd → State → State
  | [], s => s
  | x :: xs, s =>
    if deadlineLost s x then serveHeld xs (ageOut s x 0x0A)
    else match stageBookings s x (decide (x.deadlineUs ≠ 0)) with
      | .ok bs =>
        if !x.begun && (queueFull s x.ref.port x.bySession || decide (txFree s x.ref.port + x.reservedBytes < x.bytes)) then s
        else serveHeld xs (acceptStage s x bs)
      | .error _ => s

/-- Book the later stages that could neither be booked nor held when they came up. Log entry 111 (DESIGN CHOICE). -/
def serveUnbooked (c : Cls) (s : State) : State :=
  (s.host.cmds.filter (fun x => decide (x.phase = .started ∧ x.cls = c) && x.book.isNone)).foldl (fun s x =>
    match stageBookings s x false with
    | .ok bs => acceptStage s x bs
    | .error _ => s) s

/-- Forget the bookings of windows and slots that have passed. -/
def pruneBookings (s : State) : State :=
  let w := winOf s.tb
  { s with book := { s.book with
      sp := s.book.sp.filter (fun e => w ≤ e.1), mram := s.book.mram.filter (fun e => w ≤ e.1),
      twin := s.book.twin.filter (fun e => w ≤ e.1), slots := s.book.slots.filter (fun e => s.sched.slotNo < e.1),
      slices := s.book.slices.filter (fun k => s.sched.slotNo < k) } }

/-- New shares take effect at their window (R79). -/
def takeShares (s : State) : State :=
  let w := winOf s.tb
  let x := sharesAt s w
  if s.book.sharesNext.any (fun e => decide (e.1 ≤ w)) then
    setPar (setPar (setPar (setPar
      { s with book := { s.book with shares := x, sharesNext := s.book.sharesNext.filter (fun e => !decide (e.1 ≤ w)) } }
      0x0201 x.1) 0x0202 x.2.1) 0x0203 x.2.2.1) 0x0204 x.2.2.2
  else s

/-- A share window begins (R64, R75, R79); it books nothing once a stop has closed admission (R337, R669), or without TB lock
(R22). -/
def windowStart (s : State) : State :=
  let s := takeShares (pruneBookings s)
  if s.power.failing || s.power.stopping || !s.power.tbLocked then s
  else [Cls.v, .p, .s, .d].foldl (fun s c => serveHeld (heldIn s c) (serveUnbooked c s)) s

def execShareWindowStart (now : Tb) (s : State) : Host.Outcome State Fault Refusal := .next (windowStart (s.at now))

/-- A held command reaches 2 s from its arrival, or no promise within its deadline remains (R76, R82).
Log entry 13 (DEDUCED). -/
def execHeldCommandAgesOut (now : Tb) (c : CmdRef) (s : State) : Host.Outcome State Fault Refusal :=
  let s := s.at now
  .next (match findCmd s c with
    | none => s
    | some x =>
      if x.phase ≠ .held then s
      else if x.arrival + horizonTb ≤ s.tb then ageOut s x 0x09
      else if deadlineLost s x then ageOut s x 0x0A
      else s)

end Sys2Proof.Machine
end

