-- ==== Sys2Proof/Machine/ParamCore.lean ====
section
/-!
DEFINITION. The moments at which committed parameter values take effect (R145, R606, R607, R691-R694).
-/
namespace Sys2Proof.Machine

open Sys2Proof

/-- One value takes effect. MAINT_BAUD waits for the DONE receipt to be sent (R145); WD_LOCK and WD_ENABLE act on the
watchdog (R606, R607). -/
def takeValue (s : State) (pid : Nat) (v : Option Nat) : State :=
  let n := waitValue s pid v
  let s := setPar s pid n
  if pid = 0x0110 then modHost s (fun h => { h with baudNext := some n })
  else if pid = 0x1F01 ∨ pid = 0x1F02 then wdApply s
  else s

/-- Every waiting value of an applies kind takes effect at once. -/
def takeValues (s : State) (k : Applies) : State :=
  let now := s.params.wait.filter (fun w => decide (w.1 = k))
  let s := { s with params := { s.params with wait := s.params.wait.filter (fun w => decide (w.1 ≠ k)) } }
  now.foldl (fun s w => takeValue s w.2.1 w.2.2) s

/-- A group of parameter records is committed: its values wait for their moments (R691). -/
def addWaits (s : State) (es : List (Nat × Option Nat)) : State :=
  let new := es.map (fun e => (((paramInfo e.1).map (·.applies)).getD .now, e.1, e.2))
  { s with params := { s.params with
      wait := s.params.wait.filter (fun w => !new.any (fun n => n.2.1 = w.2.1)) ++ new } }

/-- SEAL values while a program runs: from the DONE receipt on they wait for a scan to begin its SEAL (R691). -/
def awaitSeal (s : State) : State :=
  { s with params := { s.params with
      wait := s.params.wait.filter (fun w => decide (w.1 ≠ .seal)),
      sealWait := s.params.sealWait ++ (s.params.wait.filter (fun w => decide (w.1 = .seal))).map (·.2) } }

/-- The SEAL values of a commit: at once while no program runs. -/
def commitSeal (s : State) : State := if s.pstate = .running then awaitSeal s else takeValues s .seal

/-- Every waiting SEAL value takes effect, in the order of the commits. -/
def takeSealValues (s : State) : State :=
  let es := s.params.sealing ++ s.params.sealWait
  takeValues (es.foldl (fun s e => takeValue s e.1 e.2) { s with params := { s.params with sealWait := [], sealing := [] } }) .seal

/-- NOW values take effect; SEAL values too while no program runs; CHART values of the active chart ask for its refresh
(R691, R692). Log entry 89 (DEDUCED). -/
def committedNow (s : State) : State :=
  let s := commitSeal (takeValues s .now)
  if chartValuesPending s then requestRefresh s else s

end Sys2Proof.Machine
end

