-- ==== Sys2Proof/Machine/HostLink.lean ====
section
/-!
DEFINITION. The host link (R89-R134): reception and the SPI transactions, the maintenance port, a packet's way through the
checks of R62 to its first receipt, the stages of a command up to its final receipt, sessions, franks, segmented
transfers, ADMIT.QUERY, ADMIT.CANCEL and ADMIT.SHARES.
-/
namespace Sys2Proof.Machine

open Sys2Proof

/-! ### Reception (R96-R98) -/

/-- Bytes that the packet at the front of a buffer spans: its length field, or its header alone when that length cannot
frame a packet (log entry 40). Log entry 40 (DEDUCED). -/
def frameLen (rx : List Byte) : Nat :=
  let n := field rx 2 2
  if 20 ≤ n ∧ n ≤ 4096 then n else 16

/-- Whether the packet at the front of a buffer has arrived whole. -/
def frontWhole (rx : List Byte) : Bool := decide (16 ≤ rx.length ∧ frameLen rx ≤ rx.length)

/-- The partly received packet at the end of a buffer; the fuel is the number of bytes. -/
def rxTail : Nat → List Byte → List Byte
  | 0, rx => rx
  | n + 1, rx => if frontWhole rx then rxTail n (rx.drop (frameLen rx)) else rx

def partialOf (x : PortSt) : List Byte := rxTail x.rx.length x.rx

/-- Drop the partly received packet. -/
def dropPartial (x : PortSt) : PortSt := { x with rx := x.rx.take (x.rx.length - (partialOf x).length) }

/-- Take bytes that follow n bytes of a packet whose length field so far is `len`: the bytes kept, and whether the rest was
discarded because a packet did not begin with 0x5E (R97). -/
def takeBytes : Nat → Nat → List Byte → List Byte × Bool
  | _, _, [] => ([], false)
  | n, len, b :: bs =>
    if n = 0 ∧ b ≠ 0x5E#8 then ([], true)
    else
      let len := if n = 2 then b.toNat else if n = 3 then len + 256 * b.toNat else len
      let whole := if 20 ≤ len ∧ len ≤ 4096 then len else 16
      let r := if 16 ≤ n + 1 ∧ whole ≤ n + 1 then takeBytes 0 0 bs else takeBytes (n + 1) len bs
      (b :: r.1, r.2)

/-- A refusal that echoes header fields (R113); it takes no byte that receipts have reserved (R90).
Log entry 107 (DESIGN CHOICE). -/
def echo (s : State) (p : Port) (bs : List Byte) (status reason : BitVec 8) (detail : Nat) : State :=
  if txFree s p < 28 then s
  else place s p (mkReceipt 0 (field bs 4 2) status reason (field bs 8 2) (field bs 14 2) s.tb (detail % 0x100000000) [])

/-- Bytes arrive at a port within one transaction (R96, R97). Nothing is taken before the port accepts packets (R95).
Log entry 106 (DESIGN CHOICE). -/
def receive (s : State) (p : Port) (bytes : List Byte) : State :=
  let x := portSt s p
  let room := if portOpen s then rxFree x else 0
  let tail := partialOf x
  let (kept, cut) := takeBytes tail.length (field tail 2 2) (bytes.take room)
  let over_ := decide (room < bytes.length) && !cut
  let x := { x with rx := x.rx ++ kept, lastByteAt := s.tb, rxErr := x.rxErr || cut || over_ }
  if over_ then
    let part := partialOf x
    let s := setPort s p (dropPartial x)
    if 16 ≤ part.length then echo s p part stFormat 0x0C part.length else s
  else setPort s p x

/-- SPI transactions leave the bytes they drove. -/
def spiOut (s : State) (bs : List Byte) : State := modHost s (fun h => { h with out := bs })

/-- The port status word (R94, R95). -/
def portStatus (s : State) : Nat :=
  if !portOpen s then 0
  else
    let x := s.host.spi
    Nat.min (txNext x) 0xFFFF * 65536 + rxFree x * 4 + 2 * boolBit x.rxErr
      + boolBit (s.host.session.any (fun z => z.port = .spi))

/-- Take n bytes of the receipts, in placement order; 0x00 once the buffer is empty (R99). The fuel is n. -/
def takeTx : Nat → Nat → PortSt → List Byte × PortSt
  | 0, n, x => (List.replicate n 0, x)
  | f + 1, n, x =>
    if n = 0 then ([], x)
    else match x.tx with
      | [] => (List.replicate n 0, x)
      | r :: rest =>
        let got := (r.drop x.taken).take n
        if x.taken + got.length < r.length then (got, { x with taken := x.taken + got.length })
        else
          let (more, x) := takeTx f (n - got.length) { x with tx := rest, taken := 0, lastTaken := r }
          (got ++ more, x)

def execStatus (now : Tb) (s : State) : Host.Outcome State Fault Refusal :=
  let s := s.at now
  .next (spiOut s (le 4 (portStatus s)))

def execStatusClr (now : Tb) (mask : BitVec 32) (s : State) : Host.Outcome State Fault Refusal :=
  let s := spiOut (s.at now) []
  .next (if mask.getLsbD 1 then modHost s (fun h => { h with spi := { h.spi with rxErr := false } }) else s)

/-- PUT and PUT.Q differ in their width only (R92, R93). -/
def putOp (now : Tb) (bytes : List Byte) (s : State) : State := receive (spiOut (s.at now) []) .spi bytes

def execPut (now : Tb) (bytes : List Byte) (s : State) : Host.Outcome State Fault Refusal := .next (putOp now bytes s)
def execPutQ (now : Tb) (bytes : List Byte) (s : State) : Host.Outcome State Fault Refusal := .next (putOp now bytes s)

/-- TAKE and TAKE.Q (R99): nothing leaves before the port accepts packets. -/
def takeOp (now : Tb) (n : Nat) (s : State) : State :=
  let s := s.at now
  let (bs, x) := takeTx n n s.host.spi
  spiOut (modHost s (fun h => { h with spi := x })) bs

def execTake (now : Tb) (n : Nat) (s : State) : Host.Outcome State Fault Refusal := .next (takeOp now n s)
def execTakeQ (now : Tb) (n : Nat) (s : State) : Host.Outcome State Fault Refusal := .next (takeOp now n s)

/-- REPEAT and REPEAT.Q return the last whole receipt again and remove nothing (R100). -/
def repeatOp (now : Tb) (n : Nat) (s : State) : State :=
  let s := s.at now
  spiOut s (slice s.host.spi.lastTaken 0 n)

def execRepeatLast (now : Tb) (n : Nat) (s : State) : Host.Outcome State Fault Refusal := .next (repeatOp now n s)
def execRepeatLastQ (now : Tb) (n : Nat) (s : State) : Host.Outcome State Fault Refusal := .next (repeatOp now n s)

def execPortReset (now : Tb) (s : State) : Host.Outcome State Fault Refusal :=
  let s := spiOut (s.at now) []
  .next (modHost s (fun h => { h with spi := dropPartial h.spi }))

/-- The command bytes of the SPI port (R93). -/
def commandBytes : List Byte := [0x0F, 0x1F, 0x20, 0x2F, 0x40, 0x4F, 0x44, 0x45, 0xF0]

/-- A command byte outside the table sets RX_ERR; those inside it have rows of their own (R93). -/
def execUnknownCommandByte (now : Tb) (b : Byte) (s : State) : Host.Outcome State Fault Refusal :=
  .next (if commandBytes.contains b then s
    else modHost (spiOut (s.at now) []) (fun h => { h with spi := { h.spi with rxErr := true } }))

/-- The bit rates of MAINT_BAUD (R145). -/
def baudRate (n : Nat) : Nat := [115200, 230400, 460800, 921600, 1000000, 2000000, 3000000].getD n 115200

/-- A break on MRX (R104): of two character times, and of 100 ms; the port then stays at 115,200 bit/s when it opens. -/
def breakOp (s : State) (durUs : Nat) : State :=
  let s :=
    if 20000000 ≤ durUs * baudRate s.host.baud then
      modHost s (fun h => { h with maint := { dropPartial h.maint with rxErr := true, discarding := false } })
    else s
  if 100000 ≤ durUs then modHost s (fun h => { h with baud := 0, baudKept := h.baudKept || !portOpen s }) else s

def execMaintBreak (now : Tb) (durUs : Nat) (s : State) : Host.Outcome State Fault Refusal :=
  .next (breakOp (s.at now) durUs)

/-- A character on the maintenance port: what R97 discards is discarded up to the next break (R103). Each character is a
transaction of its own for R96. Log entry 106 (DESIGN CHOICE). -/
def maintByteOp (s : State) (b : Byte) : State :=
  if s.host.maint.discarding then s
  else
    let start := (partialOf s.host.maint).isEmpty && decide (b ≠ 0x5E#8)
    let s := receive s .maint [b]
    if start then modHost s (fun h => { h with maint := { h.maint with discarding := true } }) else s

def execMaintByteReceived (now : Tb) (b : Byte) (s : State) : Host.Outcome State Fault Refusal :=
  .next (maintByteOp (s.at now) b)

/-- The next byte of a partly received packet has not arrived for 10 ms (R98). Log entry 107 (DESIGN CHOICE). -/
def partialTimeout (s : State) (p : Port) : State :=
  let x := portSt s p
  let part := partialOf x
  if part.isEmpty ∨ s.tb < x.lastByteAt + msToTb 10 then s
  else
    let s := setPort s p { dropPartial x with rxErr := true }
    if 16 ≤ part.length then echo s p part stFormat 0x0A part.length else s

def execPartialPacketTimeout (now : Tb) (port : Port) (s : State) : Host.Outcome State Fault Refusal :=
  .next (partialTimeout (s.at now) port)

/-! ### Sessions -/

/-- The end of the session: its pending set, segmented transfer and display ownership end with it (R116, R122, R134,
R525). -/
def endSession (s : State) : State :=
  modHost s (fun h => { h with session := none, transfer := none, dspOwner := false, closing := none })

/-- The port's number in receipts. -/
def portCode : Port → Nat
  | .spi => 0
  | .maint => 1

/-- Check 2 of R62: reason and detail of REFUSED_SESSION, if any (R115-R119, R123). Log entry 19 (DEDUCED). -/
def checkSession (s : State) (p : Port) (op : Nat) (token : BitVec 16) : Option (BitVec 8 × Nat) :=
  let free := decide (op ∈ [0x0001, 0x0003, 0x0004, 0x0010]) && decide (token = 0)
  match s.host.session with
  | none => if free then none else some (0x01, 0)
  | some z =>
    if op = 0x0001 then some (0x04, portCode z.port)
    else if z.port ≠ p then (if free then none else some (0x03, 0))
    else if op = 0x0004 then some (0x04, portCode z.port)
    else if token = z.token then none else some (0x02, 0)

/-- Whether a packet belongs to the session: its port and its token. -/
def ownsSession (s : State) (p : Port) (token : BitVec 16) : Bool :=
  s.host.session.any (fun z => z.port = p && z.token = token)

/-- A pending command of the session has the same sequence number (R114). -/
def seqTaken (s : State) (p : Port) (seq : BitVec 16) : Bool :=
  s.host.cmds.any (fun x => x.bySession && x.ref = ⟨p, seq⟩)

/-! ### The first receipt (R62) -/

/-- Statuses of the checks before admission: none when all pass, else status, reason, detail. -/
def checksOf (s : State) (p : Port) (k : Packet) (i : Instr) : Option (BitVec 8 × BitVec 8 × Nat) :=
  match checkSession s p k.opcode k.token with
  | some (r, d) => some (stSession, r, d)
  | none =>
    if !classOk k.opcode k.cls then some (stClass, BitVec.ofNat 8 (clsCode k.cls), 0)
    else
      let tr := openTransfer s
      match checkState s tr ⟨p, k.seq⟩ i with
      | some r => some (stState, r, 0)
      | none =>
        if ownsSession s p k.token && seqTaken s p k.seq then some (stFormat, 0x0B, k.seq.toNat)
        else match checkFields s tr i with
          | some (r, d) => some (stFormat, BitVec.ofNat 8 r, d)
          | none =>
            match checkCapacity s tr i with
            | some (r, d) => some (stCapacity, r, d)
            | none => none

/-- What the controller is asked about a packet; `len` is its length on the port. Its receipts from its acceptance on: ACCEPTED,
for each later stage HELD and ACCEPTED, and the final one (R70, R72). -/
def packetAsk (s : State) (p : Port) (k : Packet) (len : Nat) (i : Instr) : Ask :=
  let stages := stagesOf s (k.franked || mustFrank s k.opcode) len i
  { ref := ⟨p, k.seq⟩, opcode := k.opcode, cls := k.cls, owner := ownsSession s p k.token, arrival := s.tb,
    deadline := k.deadline, stages, bytes := 56 * stages.length + doneLen s i }

/-- A refused packet of a segment ends its transfer (R132, R134); a refused PARAM.COMMIT empties the pending set (R695).
Log entry 47 (DEDUCED). -/
def afterRefusal (s : State) (i : Instr) : State :=
  match i with
  | .progEdit .. | .chartLoad .. => modHost s (fun h => { h with transfer := none })
  | .paramCommit .. => modHost s (fun h => { h with session := h.session.map (fun z => { z with pending := [] }) })
  | _ => s

/-- The record of an admitted packet. -/
def takeCmd (s : State) (x : Ask) (k : Packet) (bs : List Byte) (i : Instr) : State × Cmd :=
  let c : Cmd :=
    { ref := x.ref, opcode := BitVec.ofNat 16 k.opcode, cls := k.cls, token := k.token, deadlineUs := k.deadline,
      franked := k.franked || mustFrank s k.opcode, packet := bs, arrival := s.tb, promise := 0, phase := .accepted,
      stages := x.stages, frankDone := false, bytes := x.bytes, reservedBytes := 0, worked := false, sliced := false,
      bySession := x.owner, begun := false, book := none, later := [] }
  let s := if writesFlash i then { s with store := { s.store with flashOpen := some x.ref } } else s
  (modHost s (fun h => { h with cmds := h.cmds ++ [c] }), c)

/-- Admission of a packet that passed checks 1 to 5. A held command keeps room for its final receipt (R70, R76). -/
def admitPacket (s : State) (p : Port) (k : Packet) (bs : List Byte) (i : Instr) : State :=
  let x := packetAsk s p k bs.length i
  match judge s x with
  | .accept b =>
    let (s, c) := takeCmd s x k bs i
    acceptStage s c b
  | .hold r e =>
    let (s, c) := takeCmd s x k bs i
    reserveTx (holdStage s c r e) c 28
  | .refuse st r t d =>
    afterRefusal (place s p (mkReceipt 0 k.opcode st r k.seq.toNat k.token.toNat t (d % 0x100000000) [])) i

/-- A packet of a port's session counts as received (R121). -/
def noteSession (s : State) (p : Port) : State :=
  modHost s (fun h => { h with session := h.session.map (fun z => if z.port = p then { z with lastPacket := s.tb } else z) })

/-- The first packet of the receive buffer has arrived whole: its checks and its first receipt (R60-R62). It waits in the
receive buffer for transmit bytes of a first receipt and a final one. Log entries 40, 47 (DEDUCED), 107 (DESIGN CHOICE). -/
def arrive (s : State) (p : Port) : State :=
  let x := portSt s p
  if !portOpen s || s.power.failing || s.power.stopping || !frontWhole x.rx || decide (txFree s p < 56) then s
  else
    let bs := x.rx.take (frameLen x.rx)
    let s := noteSession (setPort s p { x with rx := x.rx.drop (frameLen x.rx) }) p
    let k := packetOf bs 4
    let crc := (crc32c (bs.take (bs.length - 4))).toNat
    if field bs 0 1 ≠ 0x5E then echo s p bs stFormat 0x01 0
    else if k.version ≠ 1 then echo s p bs stFormat 0x02 k.version
    else if k.length < 20 ∨ k.length ≠ bs.length then echo s p bs stFormat 0x03 k.length
    else if field bs (bs.length - 4) 4 ≠ crc then echo s p bs stFormat 0x04 crc
    else match parsePacket s.tb p k with
      | .error (r, d) => echo s p bs stFormat (BitVec.ofNat 8 r) d
      | .ok i =>
        match checksOf s p k i with
        | some (st, r, d) =>
          let s := echo s p bs st r d
          if st = stSession ∨ st = stClass ∨ (st = stState ∧ r = 0x04) then s else afterRefusal s i
        | none => admitPacket s p k bs i

def execPacketArrival (now : Tb) (port : Port) (s : State) : Host.Outcome State Fault Refusal :=
  .next (arrive (s.at now) port)

/-! ### The work of a command -/

/-- Whether the stage in progress is the last (R72). -/
def lastStage (x : Cmd) : Bool := decide (x.stages.length ≤ 1)

/-- Whether a command has service-processor work that is ready: its stage is booked and neither done nor answered; its class D
slice has been given (R81); bytes for MRAM and the twin link wait for the seal engine (R51). Log entry 112 (DESIGN CHOICE). -/
def hasWork (s : State) (x : Cmd) : Bool :=
  let st := x.stages.head?.getD (stage 0)
  (decide (x.phase = .accepted) || decide (x.phase = .started)) && x.book.isSome && !x.worked && (findResult s x.ref).isNone
    && (decide (st.slice = 0) || x.sliced)
    && (decide (st.mram = 0 ∧ st.twin = 0) || !s.sched.running.any (fun r => decide (r.phase = .seal)))

/-- The order of ready work: the current window's before later windows', then by class (R65). -/
def workRank (s : State) (x : Cmd) : Nat :=
  4 * boolBit (x.book.any (fun b => decide (winOf s.tb < b.win))) + clsCode x.cls

/-- Whether a command's work runs next: no other ready work goes before it (R65), and the supply has not failed, after which no
stage begins (R337). -/
def mayWork (s : State) (x : Cmd) : Bool :=
  hasWork s x && !s.power.failing && s.host.cmds.all (fun y => !hasWork s y || decide (workRank s x ≤ workRank s y))

/-- The work of a command begins (R63, R78). -/
def beginWork (s : State) (c : CmdRef) : State := updCmd s c (fun y => { y with phase := .started, begun := true })

/-- The hold-up energy of a stage's flash operation, checked before it starts and reserved until it ends (R29, R655).
Log entry 109 (DEDUCED). -/
def stageDemand (x : Cmd) : Nat := (x.stages.head?.map (·.energy)).getD 0

/-- Whether a command's present stage asks the crypto engine for an attestation or the verification of an image (R671): the
stages before the last of PROG.LOAD, UPD.APPLY's without a flash operation, the check of CHART.LOAD, the first stage of the
last segment of PROG.EDIT. Log entry 116 (DEDUCED). -/
def cryptoStage (x : Cmd) : Bool :=
  let left := x.stages.length
  let n := Nat.max 1 (cdiv (field x.packet 24 4) 65536)
  if x.opcode = 0x1101 then true
  else if x.opcode = 0x0401 then decide (1 < left)
  else if x.opcode = 0x1003 then decide (1 < left) && x.stages.head?.any (fun st => decide (st.energy = 0))
  else if x.opcode = 0x0601 then decide (left = n + 6)
  else if x.opcode = 0x0402 then decide (left = n + 3)
  else false

/-- An apply that fails leaves its slot EMPTY, and the update stays open for chunks from offset 0 (R626). -/
def emptyTarget (s : State) (u : Update) : State :=
  let s := if u.firmware then setFwSlot s u.slot (fun _ => FwSlot.blank) else setProgSlot s u.slot (fun _ => ProgSlot.blank)
  modStore s (fun x => { x with update := x.update.map (fun u => { u with staged := [], applying := false }) })

/-- The hold-up energy does not cover a stage's flash operation (R29): REFUSED_STATE with reason 0x06. UPD.APPLY fails as one
whose check fails (R626). Log entry 109 (DEDUCED). -/
def energyRefused (s : State) (c : CmdRef) (i : Instr) : State :=
  let s := afterRefusal (refuseState s c 0x06) i
  match i, s.store.update with
  | .updApply .., some u => emptyTarget s u
  | _, _ => s

/-- Run the work of a stage of a command: nothing without the command, before its frank is verified, out of turn, or once its
outcome stands. An unfranked command's first stage repeats the checks of R63; a closed crypto engine and a flash operation that
the hold-up energy does not cover end the command. Log entry 7 (DESIGN CHOICE); entry 53 (DEDUCED). -/
def runWork (now : Tb) (c : CmdRef) (i : Instr) (s : State) (f : State → Cmd → State) : Host.Outcome State Fault Refusal :=
  let s := s.at now
  .next (match findCmd s c with
    | none => s
    | some x =>
      if !mayWork s x || (x.franked && !x.frankDone) then s
      else
        let s := beginWork s c
        match (if x.begun then none else recheck s c i) with
        | some r => afterRefusal (refuseState s c r) i
        | none =>
          if cryptoStage x && collarClosed s 8 then requestAborted s 8 (.command c)
          else if stageDemand x ≠ 0 ∧ ¬ energyFor s (stageDemand x) then energyRefused s c i
          else f (reserveEnergy (updCmd s c (fun y => { y with worked := true })) (stageDemand x)) x)

/-- Work that has its effect in the last stage. Log entry 10 (DESIGN CHOICE). -/
def runLast (now : Tb) (c : CmdRef) (i : Instr) (s : State) (f : State → State) : Host.Outcome State Fault Refusal :=
  runWork now c i s (fun s x => if lastStage x then f s else s)

/-! ### Franks (R125-R130, R643) -/

/-- The key that a frank is verified against, or the reason of REFUSED_AUTH. While no slot is valid, an install is verified
against the key of its own certificate (R643). Log entry 103 (DESIGN CHOICE). -/
def frankKey (s : State) (x : Cmd) (slot : Nat) : Except (BitVec 8) (List Byte) :=
  let k := packetOf x.packet 4
  if x.opcode = 0x1102 ∧ field k.payload 0 1 = 0 ∧ ¬ anyOwnerValid s then
    if slot = field k.payload 1 1 then .ok (certKey (slice k.payload 4 368)) else .error 0x04
  else
    let o := ownerSlot s slot
    if 3 < slot ∨ o.state ≠ 1 then .error 0x04
    else if certUse o.cert % 2 = 1 then .ok (certKey o.cert) else .error 0x02

/-- Verify a command's frank: none when it verifies, else the reason of REFUSED_AUTH (R115, R126): a missing nonce goes before
the key slot. Log entries 43 (DEDUCED), 103 (DESIGN CHOICE). -/
def frankReason (s : State) (x : Cmd) : Option (BitVec 8) :=
  let k := packetOf x.packet 4
  if !k.franked then some 0x01
  else match (portSt s x.ref.port).nonce with
    | none => some 0x03
    | some nonce =>
      let block := slice x.packet (x.packet.length - 140) 136
      match frankKey s x (field block 0 1) with
      | .error r => some r
      | .ok key =>
        if verifyBlock key (sha512 (s.store.serial ++ nonce ++ x.packet.take 16 ++ k.payload)) block then none
        else some 0x02

/-- The frank stage of a command completes (R63, R127, R130): the nonce is consumed, the checks of R63 are repeated. A closed
crypto engine answers REQ_ABORTED (R14, R17). Log entries 8, 43 (DEDUCED). -/
def frankStage (s : State) (x : Cmd) : State :=
  let k := packetOf x.packet 4
  let bad := frankReason s x
  if !mayWork s x then s
  else if collarClosed s 8 then requestAborted s 8 (.command x.ref)
  else
  let s := if k.franked then setPort s x.ref.port { portSt s x.ref.port with nonce := none } else s
  match bad with
  | some r => finishNow s x.ref stAuth r 0 []
  | none =>
    match parsePacket s.tb x.ref.port k with
    | .error _ => finishNow s x.ref stState 0x01 0 []
    | .ok i =>
      match recheck s x.ref i with
      | some r => afterRefusal (finishNow s x.ref stState r 0 []) i
      | none =>
        let s := updCmd s x.ref (fun y => { y with frankDone := true })
        nextStage s { x with frankDone := true }

/-! ### Final receipts (R71, R112) -/

/-- A random non-zero token (R116). -/
def drawToken (s : State) : BitVec 16 × State := let (v, s) := s.draw; (nonZero16 v, s)

/-- The session of SESSION.OPEN or SESSION.CLAIM begins with its DONE receipt (R116, R122). -/
def beginSession (s : State) (x : Cmd) : State :=
  let (t, s) := drawToken s
  let pay := le 2 t.toNat ++ [BitVec.ofNat 8 (portCode x.ref.port),
      BitVec.ofNat 8 (boolBit s.host.prevEnded + 2 * boolBit s.host.workDiscarded), BitVec.ofNat 8 s.power.resetKind]
    ++ le 3 s.power.powerCycles ++ le 8 s.tb
  let s := updCmd s x.ref (fun y => { y with token := t, bySession := false })
  let s := finishNow s x.ref stDone 0 0 pay
  modHost s (fun h => { h with
    session := some { port := x.ref.port, token := t, lastPacket := s.tb, pending := [] },
    prevEnded := false, workDiscarded := false })

/-- Steps 2 to 4 of R123: the started commands of the old session are complete, LOST goes to its port. The outcome's payload
is the LOST payload. Log entry 19 (DEDUCED). -/
def finishClaim (s : State) (x : Cmd) (lost : List Byte) : State :=
  if !(sessionCmds s).isEmpty then s
  else
    let s := match s.host.session with
      | none => s
      | some z => place s z.port (mkReceipt 4 0 stLost 0 0 z.token.toNat s.tb 0 lost)
    beginSession (endSession s) x

/-- Place the final receipt of a command whose outcome stands. SESSION.OPEN that finds a session is refused (log entry 104), and
commands that arrive while SESSION.CLOSE or SESSION.CLAIM waits delay it (log entry 105). Log entries 104, 105
(DESIGN CHOICE). -/
def placeResult (s : State) (x : Cmd) (r : CmdResult) : State :=
  if r.status ≠ stDone then finishNow s x.ref r.status r.reason r.detail.toNat r.payload
  else if x.opcode = 0x0001 then
    (if s.host.session.isSome then finishNow s x.ref stState 0x01 0 [] else beginSession s x)
  else if x.opcode = 0x0002 then
    (if (sessionCmds s).any (fun y => y.ref ≠ x.ref) then s else endSession (finishNow s x.ref stDone 0 0 r.payload))
  else if x.opcode = 0x0004 then finishClaim s x r.payload
  else
    match r.time with
    | none => finishNow s x.ref stDone r.reason 0 r.payload
    | some t =>
      if x.promise < s.tb then s
      else
      let d := Nat.min (x.promise - s.tb) 0xFFFFFFFF
      removeCmd (placeReserved s x (mkReceipt 0 x.opcode.toNat stDone 0 x.ref.seq.toNat x.token.toNat t d r.payload)) x.ref

/-- A committed MAINT_BAUD takes effect once the DONE receipt is sent: on the SPI port, at its placement (R145). -/
def takeBaud (s : State) : State :=
  match s.host.baudNext with
  | none => s
  | some b => modHost s (fun h => { h with baud := b, baudNext := none })

/-- The work of a command or one of its stages is complete (R71, R72, R111). Past its promise it is a promise breach (R83, R84);
no stage begins once the supply has failed (R337). -/
def stageComplete (s : State) (c : CmdRef) : State :=
  match findCmd s c with
  | none => s
  | some x =>
    if x.phase = .held ∨ x.book.isNone then s
    else if x.promise < s.tb then raiseFault s 0x83 c.seq.toNat
    else if x.franked && !x.frankDone then frankStage s x
    else match findResult s c with
      | some r =>
        if lastStage x || decide (r.status ≠ stDone) then
          let s := placeResult s x r
          if x.opcode = 0x0303 ∧ r.status = stDone then
            let s := committedNow s
            if c.port = .spi then takeBaud s else s
          else if r.status = stDone then finishUpdate s x.opcode
          else s
        else if s.power.failing then s else nextStage s x
      | none => if lastStage x ∨ x.phase = .waiting ∨ ¬ x.worked ∨ s.power.failing then s else nextStage s x

/-- Log entry 7 (DESIGN CHOICE). -/
def execCommandStageComplete (now : Tb) (c : CmdRef) (s : State) : Host.Outcome State Fault Refusal :=
  .next (stageComplete (s.at now) c)

/-- The last byte of the front receipt leaves the maintenance port (R103, R145). -/
def maintSent (s : State) : State :=
  match s.host.maint.tx with
  | [] => s
  | r :: rest =>
    let s := modHost s (fun h => { h with maint := { h.maint with tx := rest, taken := 0, lastTaken := r } })
    if field r 4 2 = 0x0303 ∧ field r 6 1 = 0 then takeBaud s else s

def execMaintReceiptSent (now : Tb) (s : State) : Host.Outcome State Fault Refusal := .next (maintSent (s.at now))

/-! ### Session events and opcodes -/

/-- SESSION_IDLE_MAX without a packet or a pending command ends the session without a receipt (R121). -/
def idleTimeout (s : State) : State :=
  match s.host.session with
  | none => s
  | some z =>
    if par s 0x0111 = 0 ∨ !(sessionCmds s).isEmpty ∨ s.tb < z.lastPacket + msToTb (1000 * par s 0x0111) then s
    else endSession s

def execSessionIdleTimeout (now : Tb) (s : State) : Host.Outcome State Fault Refusal := .next (idleTimeout (s.at now))

/-- A segmented transfer with no segment for 60 s is abandoned (R134). -/
def execSegmentTransferTimeout (now : Tb) (s : State) : Host.Outcome State Fault Refusal :=
  let s := s.at now
  .next (match s.host.transfer with
    | none => s
    | some t => if s.tb < t.lastAt + msToTb 60000 then s else modHost s (fun h => { h with transfer := none }))

/-- Log entry 104 (DESIGN CHOICE). -/
def execSessionOpen (now : Tb) (c : CmdRef) (host : BitVec 32) (s : State) : Host.Outcome State Fault Refusal :=
  runWork now c (.sessionOpen now c host) s (fun s _ =>
    if s.host.session.isSome then refuseState s c 0x01 else done s c [])

/-- Remove the session's held commands and those whose work has not started: their numbers in arrival order (R120,
R123). -/
def removeUnstarted (s : State) (keep : CmdRef) : State × List (BitVec 16) :=
  let xs := (sessionCmds s).filter (fun y => y.ref ≠ keep && !y.begun)
  (xs.foldl cancelCmd s, xs.map (fun y => y.ref.seq))

def seqBytes (qs : List (BitVec 16)) : List Byte := le 2 qs.length ++ qs.flatMap (fun q => le 2 q.toNat)

/-- SESSION.CLOSE: a second one finds the first in progress and is refused (log entry 41). Log entry 41 (DEDUCED). -/
def execSessionClose (now : Tb) (c : CmdRef) (s : State) : Host.Outcome State Fault Refusal :=
  runWork now c (.sessionClose now c) s (fun s _ =>
    if s.host.session.isNone ∨ s.host.closing.isSome then refuseState s c 0x01
    else
      let (s, qs) := removeUnstarted s c
      done (modHost s (fun h => { h with closing := some c })) c (seqBytes qs))

/-- A fresh nonce invalidates the earlier one of its port (R127). -/
def execSessionNonce (now : Tb) (c : CmdRef) (s : State) : Host.Outcome State Fault Refusal :=
  runWork now c (.sessionNonce now c) s (fun s _ =>
    let (v, s) := s.draw
    let n := le 32 v.toNat
    done (setPort s c.port { portSt s c.port with nonce := some n }) c n)

/-- SESSION.CLAIM after its frank: step 1 of R123, and the LOST payload for step 3. -/
def execSessionClaim (now : Tb) (c : CmdRef) (host : BitVec 32) (s : State) : Host.Outcome State Fault Refusal :=
  runWork now c (.sessionClaim now c host) s (fun s _ =>
    let slot := frankSlotOf s c
    let (s, qs) := removeUnstarted s c
    done s c
      ([BitVec.ofNat 8 (portCode c.port), BitVec.ofNat 8 slot] ++ seqBytes qs))

/-! ### Admission opcodes (R78, R79) -/

/-- The answer that admission would give a described command: status, reason, time, detail (R78). Log entry 11 (DEDUCED). -/
def queryVerdict (s : State) (p : Port) (bs : List Byte) : BitVec 8 × BitVec 8 × Nat × Nat :=
  let k := packetOf bs 0
  if field bs 0 1 ≠ 0x5E then (stFormat, 0x01, s.tb, 0)
  else if k.version ≠ 1 then (stFormat, 0x02, s.tb, k.version)
  else match parsePacket s.tb p { k with length := Nat.max k.length (if k.franked then 156 else 20) } with
  | .error (r, d) => (stFormat, BitVec.ofNat 8 r, s.tb, d)
  | .ok i =>
    match checksOf s p k i with
    | some (st, r, d) => (st, r, s.tb, d)
    | none =>
      let len := bs.length + 4 + (if k.franked then 136 else 0)
      match judge s (packetAsk s p k len i) with
      | .accept b =>
        (stAccepted, (b.head?.map Booking.bandCode).getD 0, firstBound b, (b.head?.map (·.sp)).getD 0)
      | .hold r e => (stHeld, r, e, ((heldIn s k.cls).length + 1) * 16777216)
      | .refuse st r t d => (st, r, t, d)

/-- ADMIT.QUERY's payload (R57, R139). Log entry 11 (DEDUCED). -/
def queryBytes (s : State) (p : Port) (bs : List Byte) : List Byte :=
  let (st, r, t, d) := queryVerdict s p bs
  [st, r, 0, 0] ++ le 8 t ++ le 4 (d % 0x100000000) ++ le 4 (wImg s) ++ le 4 (freeMram s) ++ le 4 (freeTwin s)

def execAdmitQuery (now : Tb) (c : CmdRef) (packet : List Byte) (s : State) : Host.Outcome State Fault Refusal :=
  runWork now c (.admitQuery now c packet) s (fun s _ => done s c (queryBytes s c.port packet))

/-- Cancel one command: its result byte, 0 cancelled, 1 started, 2 unknown (R78, R139). -/
def cancelSeq (s : State) (c : CmdRef) (q : BitVec 16) : Nat × State :=
  match findCmd s ⟨c.port, q⟩ with
  | none => (2, s)
  | some x => if x.begun then (1, s) else (0, cancelCmd s x)

def execAdmitCancel (now : Tb) (c : CmdRef) (seqs : List (BitVec 16)) (s : State) : Host.Outcome State Fault Refusal :=
  runWork now c (.admitCancel now c seqs) s (fun s _ =>
    let r := seqs.foldl (fun (r : List Byte × State) q =>
      let (n, s) := cancelSeq r.2 c q
      (r.1 ++ le 2 q.toNat ++ [BitVec.ofNat 8 n, 0], s)) ([], s)
    done r.2 c r.1)

/-- Shares wait for their window in the order of the windows; of one window's, the last command's count (R79). -/
def putShares (e : Nat × (Nat × Nat × Nat × Nat)) : List (Nat × (Nat × Nat × Nat × Nat)) →
    List (Nat × (Nat × Nat × Nat × Nat))
  | [] => [e]
  | x :: xs => if e.1 < x.1 then e :: x :: xs else x :: putShares e xs

/-- ADMIT.SHARES writes the four shares in one group; they take effect at the first window after the latest promise
(R79). -/
def sharesOp (s : State) (c : CmdRef) (v p x d : Nat) : State :=
  let w := fun (pid n : Nat) => ({ kind := .param, scope := globalScope, key := pid, body := some (le 8 n) } : PWrite)
  match groupWrite s [w 0x0201 v, w 0x0202 p, w 0x0203 x, w 0x0204 d] with
  | none => refuseState s c 0x06
  | some s =>
    let at_ := winOf (Nat.max s.book.latest s.tb) + 1
    let s := { s with book := { s.book with sharesNext := putShares (at_, (v, p, x, d)) s.book.sharesNext } }
    let s := done s c []
    modHost s (fun h => { h with
      results := h.results.map (fun r => if r.ref = c then { r with time := some (at_ * shareTb) } else r) })

def execAdmitShares (now : Tb) (c : CmdRef) (v p ps d : Nat) (s : State) : Host.Outcome State Fault Refusal :=
  runWork now c (.admitShares now c v p ps d) s (fun s _ => sharesOp s c v p ps d)

end Sys2Proof.Machine
end

