-- ==== Sys2Proof/Machine/ImageCmds.lean ====
section
/-!
DEFINITION. Host commands on image and force table: IMAGE.READ, IMAGE.WRITE, IMAGE.WATCH, FORCE.SET, FORCE.RELEASE, FORCE.LIST
(R139, R142, R143, R173, R306-R311). An access to the image runs in an image slot (R69).
-/
namespace Sys2Proof.Machine

open Sys2Proof

/-- The command of an access. -/
def slotRef : SlotWork → CmdRef
  | .read c _ | .write c _ | .forceSet c _ | .forceRelease c _ _ | .dspWrite c _ | .editInit c _ => c

/-- Place an access in the queue of the next image slots, once per command. -/
def queueSlot (s : State) (w : SlotWork) : State :=
  if s.sched.slotWork.any (fun x => slotRef x = slotRef w) then s
  else modSched s (fun x => { x with slotWork := x.slotWork ++ [w] })

def execImageRead (now : Tb) (c : CmdRef) (space n start : Nat) (s : State) : Host.Outcome State Fault Refusal :=
  runWork now c (.imageRead now c space n start) s (fun s _ =>
    queueSlot s (.read c ((List.range n).map (fun i => itemKey space (start + i)))))

/-- The content that a written value gives an item: V of a point, else the word (R139, R173). -/
def writtenItem (k : Nat) (w : Word) : Tagged :=
  if isPointKey k then ⟨0, mkTag false false false false false qGood (w.getLsbD 0)⟩ else ⟨w, 0⟩

def execImageWrite (now : Tb) (c : CmdRef) (space start : Nat) (vals : List Word) (s : State) :
    Host.Outcome State Fault Refusal :=
  runWork now c (.imageWrite now c space start vals) s (fun s _ =>
    queueSlot s (.write c (((writeKeys space start vals.length).zip vals).map (fun x => (x.1, writtenItem x.1 x.2)))))

/-- IMAGE.WATCH waits for the next seal point of its task; the timeout runs from its arrival. Log entry 26 (DEDUCED). -/
def execImageWatch (now : Tb) (c : CmdRef) (task space : Nat) (addrs : List Nat) (timeoutUs : Nat) (s : State) :
    Host.Outcome State Fault Refusal :=
  runWork now c (.imageWatch now c task space addrs timeoutUs) s (fun s x =>
    waitFor (modSched s (fun y => { y with
      watches := y.watches ++ [(c, task, addrs.map (itemKey space), x.arrival + usToTb timeoutUs)] })) c)

/-- A watch reaches its timeout: seal tb 0 and no item (R139). -/
def watchExpired (s : State) (c : CmdRef) : State :=
  match s.sched.watches.find? (fun x => x.1 = c) with
  | none => s
  | some w =>
    if s.tb < w.2.2.2 then s
    else doneNow (modSched s (fun x => { x with watches := x.watches.filter (fun y => y.1 ≠ c) })) c (le 8 0 ++ le 2 0)

def execImageWatchTimeout (now : Tb) (c : CmdRef) (s : State) : Host.Outcome State Fault Refusal :=
  .next (watchExpired (s.at now) c)

/-! ### Forces -/

/-- The store record of a force entry (R347): bytes 4 to 11 of its FORCE.SET entry, under its address without reserved
bits (R8). -/
def forceWrite (e : ForceArg) : PWrite :=
  { kind := .force, scope := globalScope, key := forceAddr (forceKey e.addr.toNat),
    body := some (le 5 e.value.toNat ++ [BitVec.ofNat 8 (boolBit e.simulate), 0, 0]) }

def forceDelete (addr : Nat) : PWrite := { kind := .force, scope := globalScope, key := addr, body := none }

/-- The entries go into the store as one group, then into the table in their slot (R308, R348). -/
def forceSetOp (s : State) (c : CmdRef) (es : List ForceArg) : State :=
  if s.sched.slotWork.any (fun x => slotRef x = c) then s
  else match groupWrite s (es.map forceWrite) with
    | none => refuseState s c 0x06
    | some s => queueSlot s (.forceSet c es)

/-- Log entry 53 (DEDUCED). -/
def execForceSet (now : Tb) (c : CmdRef) (entries : List ForceArg) (s : State) : Host.Outcome State Fault Refusal :=
  runWork now c (.forceSet now c entries) s (fun s _ => forceSetOp s c entries)

/-- A release deletes the records of the entries that stand (R310, R351). -/
def forceReleaseOp (s : State) (c : CmdRef) (as : List (BitVec 32)) : State :=
  if s.sched.slotWork.any (fun x => slotRef x = c) then s
  else
    let all := decide (as = [0xFFFFFFFF#32])
    let standing := s.forces.map (fun f => forceAddr f.addr)
    let gone := if all then standing else standing.filter (fun a => as.any (fun b => forceAddr (forceKey b.toNat) = a))
    match (if gone.isEmpty then some s else groupWrite s (gone.map forceDelete)) with
    | none => refuseState s c 0x06
    | some s => queueSlot s (.forceRelease c all (as.map (·.toNat)))

def execForceRelease (now : Tb) (c : CmdRef) (addrs : List (BitVec 32)) (s : State) : Host.Outcome State Fault Refusal :=
  runWork now c (.forceRelease now c addrs) s (fun s _ => forceReleaseOp s c addrs)

/-- FORCE.LIST, in ascending order of address; an entry in CONFLICT is not listed (R354). -/
def forceListBytes (s : State) (first : Nat) : List Byte :=
  let fs := (s.forces.filter (fun f => !f.conflict)).mergeSort (fun a b => forceAddr a.addr ≤ forceAddr b.addr)
  let part := (fs.drop first).take 338
  le 2 fs.length ++ le 2 part.length ++ part.flatMap (fun f =>
    le 4 (forceAddr f.addr) ++ le 5 f.value.toNat ++ [BitVec.ofNat 8 (boolBit f.sim), 0, 0])

def execForceList (now : Tb) (c : CmdRef) (first : Nat) (s : State) : Host.Outcome State Fault Refusal :=
  runLast now c (.forceList now c first) s (fun s => done s c (forceListBytes s first))

end Sys2Proof.Machine
end

