-- ==== Sys2Proof/Machine/ParamCmds.lean ====
section
/-!
DEFINITION. PARAM.READ, PARAM.WRITE, PARAM.COMMIT and the moments at which committed values take effect (R141, R686-R698,
R145, R606, R607).
-/
namespace Sys2Proof.Machine

open Sys2Proof

/-! ### PARAM.READ -/

/-- The committed value of a PID and its state, 1 for CONFLICT (R354, R686, R687, R689, R690). -/
def committedValue (s : State) (pid : Nat) : Nat × Nat :=
  let scope := if isChartPid pid then s.charts.active else globalScope
  if isChartPid pid && s.prog.isNone then
    (match (chartSlot s (par s 0x0401)).image with
      | some i => smGet paramDefault i.params pid
      | none => paramDefault pid, 0)
  else if s.pstore.conflicts.contains (PKind.param, scope, pid) then (paramDefault pid, 1)
  else if isChartPid pid then (chartValue s scope pid, 0)
  else
    (match pstoreGet s.pstore .param globalScope pid with
      | some b => unle b
      | none => paramDefault pid, 0)

def paramReadBytes (s : State) (pids : List Nat) : List Byte :=
  pids.flatMap (fun pid =>
    let v := committedValue s pid
    le 2 pid ++ [BitVec.ofNat 8 (((paramInfo pid).map (·.type)).getD 0), BitVec.ofNat 8 v.2] ++ le 8 v.1)

def execParamRead (now : Tb) (c : CmdRef) (pids : List Nat) (s : State) : Host.Outcome State Fault Refusal :=
  runWork now c (.paramRead now c pids) s (fun s _ => done s c (paramReadBytes s pids))

/-! ### PARAM.WRITE -/

/-- An entry for a PID already in the set replaces it (R695). -/
def putPending (es : List (Nat × Nat)) (e : Nat × Nat) : List (Nat × Nat) := es.filter (fun x => x.1 ≠ e.1) ++ [e]

/-- Log entry 53 (DEDUCED). -/
def execParamWrite (now : Tb) (c : CmdRef) (entries : List (Nat × Nat)) (s : State) : Host.Outcome State Fault Refusal :=
  runWork now c (.paramWrite now c entries) s (fun s _ =>
    let es := entries.foldl putPending (pendingSet s)
    done (modHost s (fun h => { h with session := h.session.map (fun z => { z with pending := es }) })) c (le 2 es.length))

/-! ### PARAM_VALUE_TAKES_EFFECT -/

/-- The row PARAM_VALUE_TAKES_EFFECT. While a program runs, SEAL values take effect at the end of the EMIT of the first scan that
begins its SEAL after the DONE receipt, without this row (R691); on a Watch, which runs no scan, and while no program runs, by it.
A CHART value takes effect at a swap of the active chart while no scan is in progress, a RESTART value only by a start of the
logic die. Log entry 89 (DEDUCED). -/
def takesEffect (s : State) (k : Applies) : State :=
  match k with
  | .now => if s.host.cmds.any (fun x => x.opcode = 0x0303) then s else takeValues s .now
  | .seal =>
    if s.pstate = .running ∧ (s.twin.role ≠ .watch ∨ s.sched.running.isSome) then s else takeSealValues s
  | .chart => changeIfIdle s
  | .restart => s

def execParamValueTakesEffect (now : Tb) (kind : Applies) (s : State) : Host.Outcome State Fault Refusal :=
  .next (takesEffect (s.at now) kind)

/-! ### PARAM.COMMIT -/

/-- Byte 2 of the DONE payload (R698): SEAL values wait while the program runs, CHART values for the refresh, RESTART
values for a start. -/
def commitFlags (s : State) (es : List (Nat × Nat)) : Nat :=
  let has := fun (k : Applies) => es.any (fun e => (paramInfo e.1).any (fun i => i.applies = k))
  boolBit (has .seal && decide (s.pstate = .running)) + 2 * boolBit (has .chart) + 4 * boolBit (has .restart)

/-- The whole set is written as one group, or nothing (R697, R698); the pending set is emptied either way (R695). A change of
FRANK_POLICY needs a frank, also where the set came to hold it after the packet's arrival (R128). -/
def commitOp (s : State) (c : CmdRef) : State :=
  let es := pendingSet s
  let ws := commitWrites s
  let clear := fun (s : State) => afterRefusal s (.paramCommit 0 c)
  if es.any (fun e => e.1 = 0x2010 ∧ e.2 ≠ par s 0x2010) && !(findCmd s c).any (·.franked) then
    clear (setResult s c stAuth 0x01 0 [])
  else if !commitRules s es || (commitAdmission s es).isSome then clear (refuseState s c 0x01)
  else match (if ws.isEmpty then some s else groupWrite s ws) with
    | none => clear (refuseState s c 0x06)
    | some s =>
      let s := addWaits s (es.map (fun e => (e.1, some e.2)))
      clear (done s c (le 2 es.length ++ [BitVec.ofNat 8 (commitFlags s es)]))

def execParamCommit (now : Tb) (c : CmdRef) (s : State) : Host.Outcome State Fault Refusal :=
  runLast now c (.paramCommit now c) s (fun s => commitOp s c)

end Sys2Proof.Machine
end

