-- ==== Sys2Proof/Machine/ProgCmds.lean ====
section
/-!
DEFINITION. Program commands: PROG.LOAD, PROG.EDIT, PROG.RUN, PROG.STOP, PROG.TASKS (R59, R178-R182, R300-R305, R311, R316,
R320, R362), and the segments of a transfer (R131-R134).
-/
namespace Sys2Proof.Machine

open Sys2Proof

/-! ### Segments -/

/-- A segment with MORE is stored; its DONE payload gives the image bytes stored so far (R133). -/
def storeSegment (s : State) (c : CmdRef) (op : BitVec 16) (g : Segment) : State :=
  let t := addSegment s.host.transfer op g s.tb
  done (modHost s (fun h => { h with transfer := t })) c (le 4 ((t.map (fun x => x.data.length)).getD 0))

/-! ### PROG.LOAD -/

/-- The force table is emptied under R351 (R311, R362). -/
def emptyForces (s : State) (owner : Nat) : Option State :=
  let as := s.forces.map (fun f => f.addr)
  match (if as.isEmpty then some s else groupWrite s (as.map (fun k => forceDelete (forceAddr k)))) with
  | none => none
  | some s => some (as.foldl (fun s k => logForceRelease s owner k) { s with forces := [] })

/-- Requests for a chart end with the program they were for; a CHART.SELECT receives DONE with payload 0.
Log entry 88 (DEDUCED). -/
def dropRequests (s : State) : State :=
  let refs := (s.charts.req.bind (·.ref)).toList ++ s.charts.deferred.filterMap (·.ref)
  let s := modCharts s (fun c => { c with req := none, reqField := 0, committed := none, deferred := [] })
  refs.foldl (fun s r => doneNow s r (le 8 0)) s

/-- The loaded state of a program (R178, R194, R305, R316, R341): initial data, no edit, no hold value, chart CHART_START.
Log entry 88 (DEDUCED). -/
def loadProgram (s : State) (slot : Nat) (img : ProgImage) : State :=
  let p := mkProgram slot img []
  let base := baseImage p
  let s := setProgSlot s slot (fun x => { x with edits := [] })
  let s := { s with
    prog := some p, pstate := .stopped, code := buildCode img [], image := base, sealedImg := base, emitted := base,
    held := [], sysPhase := 0, tasks := Vector.replicate 16 TaskRt.reset }
  let s := modSched s (fun x => { x with
    firstStart := none, trun := none, phases := [], gapUnknown := false, editPending := none,
    frozen := [], slotWork := x.slotWork.filter (fun w => match w with | .editInit _ _ => false | _ => true) })
  let s := modRing s (fun g => { g with broken := false, resumes := 0 })
  swapSettings s (par s 0x0401)

/-- PROG.LOAD (R178, R362) of an image that matches its hash (R28); a Helm drops its Watch (R386). Log entries 50
(DESIGN CHOICE), 94 (DEDUCED). -/
def progLoadOp (s : State) (c : CmdRef) (slot : Nat) : State :=
  match (progSlot s slot).image with
  | none => refuseState s c 0x01
  | some img =>
    if imageHash (progSlot s slot).bytes ≠ img.hash then refuseState s c 0x01
    else match emptyForces s (frankSlotOf s c) with
    | none => refuseState s c 0x06
    | some s =>
      let s := match s.sched.editPending with
        | some (ref, _, _) => finishNow s ref stState 0x01 0 []
        | none => s
      let s := stateRecord (loadProgram (dropRequests (dropWatch s 2)) slot img) .load []
      done (syncMode s) c (img.hash ++ [BitVec.ofNat 8 (taskCount s)])

def execProgLoad (now : Tb) (c : CmdRef) (slot : Nat) (s : State) : Host.Outcome State Fault Refusal :=
  runLast now c (.progLoad now c slot) s (fun s => progLoadOp s c slot)

/-! ### PROG.EDIT -/

/-- Steps 1 to 3 of R302, and the wait for the edit seal point. Log entry 63 (DEDUCED). -/
def beginEdit (s : State) (c : CmdRef) (g : Segment) : State :=
  let bs := wholeImage s.host.transfer g
  let s := modHost s (fun h => { h with transfer := none })
  match (parseContainer bs).bind parseEdit, s.prog with
  | some e, some p =>
    let s := { s with code := putWords s.code e.patchBase e.patch }
    let s := mirrorImage s 2 e.bytes
    let s := modSched s (fun x => { x with editPending := some (c, e, e.inits.isEmpty) })
    let s := if e.inits.isEmpty then pendEdit s p.slot e else queueSlot s (.editInit c e.inits)
    idleChanges (waitFor s c)
  | _, _ => refuseState s c 0x01

def execProgEdit (now : Tb) (c : CmdRef) (seg : Segment) (s : State) : Host.Outcome State Fault Refusal :=
  runWork now c (.progEdit now c seg) s (fun s x =>
    if seg.more then storeSegment s c 0x0402 seg
    else if lastStage x then beginEdit s c seg
    else s)

/-! ### PROG.RUN -/

/-- Clear every HELD bit (R320): the shadows empty, and bits [32:0] of word 73 of the display block. -/
def clearHeld (s : State) : State :=
  let s := { s with held := [] }
  match dspBase s with
  | none => s
  | some d => putItem s (wKey (d + 73)) ⟨0, (getItem s (wKey (d + 73))).tag⟩

/-- PROG.RUN continues from the sealed state; the first scan of each task shows FIRST_SCAN and its skip count
is 0 (R148, R182, R197). Its DONE receipt
names the start of the first scan; with no task enabled no scan starts. Log entries 22, 27 (DEDUCED). -/
def progRunOp (s : State) (c : CmdRef) : State :=
  let lines := clearedLines s
  let s := { clearHeld s with pstate := .running }
  let s := modTasks s (fun t => { t with firstScan := true, resumed := false, skipNext := false, skipCount := 0 })
  let s := modSched s (fun x => { x with
    firstStart := none, trun := none, phases := [], gapUnknown := false, roundOpen := false, roundLeft := [],
    roundLast := none, roundReady := s.tb, waiting := [], stopping := none, noMoreScans := false })
  let s := stateRecord s .run (lines.map (fun l => (0, ringLineOf s l)))
  let s := syncMode (waitFor s c)
  if (enabledTasks s).isEmpty then answerRun s none else s

def execProgRun (now : Tb) (c : CmdRef) (s : State) : Host.Outcome State Fault Refusal :=
  runWork now c (.progRun now c) s (fun s _ => progRunOp s c)

/-! ### PROG.STOP -/

/-- PROG.STOP by the program's state (R178-R181). Log entry 28 (DEDUCED). -/
def progStopOp (s : State) (c : CmdRef) (mode : Nat) : State :=
  match s.pstate with
  | .notLoaded => refuseState s c 0x01
  | .stopped =>
    if mode = 0 ∨ s.sched.stopMode = .safe then done s c (le 8 s.ring.lastSealTb)
    else
      let s := modSched s (fun x => { x with stopMode := .safe })
      done (applySafe (stateRecord s .stopSafe []) 3) c (le 8 s.ring.lastSealTb)
  | .running =>
    let m : StopMode := if mode = 1 then .safe else .hold
    let stop := match s.sched.stopping with
      | none => (m, [c])
      | some (m', refs) => (if m' = .safe then .safe else m, refs ++ [c])
    idleChanges (stopIfDue (modSched (waitFor s c) (fun x => { x with stopping := some stop })))

def execProgStop (now : Tb) (c : CmdRef) (mode : Nat) (s : State) : Host.Outcome State Fault Refusal :=
  runWork now c (.progStop now c mode) s (fun s _ => progStopOp s c mode)

/-! ### PROG.TASKS -/

/-- Log entry 88 (DEDUCED). -/
def taskBytes (s : State) (t : Nat) : List Byte :=
  let d := taskDef s t
  let r := taskRt s t
  [BitVec.ofNat 8 t, BitVec.ofNat 8 (boolBit d.tolerant), BitVec.ofNat 8 (boolBit d.proven), 0] ++ le 2 d.periodMs
    ++ le 2 (Nat.min r.skipCount 0xFFFF) ++ le 4 d.p ++ le 4 d.d ++ le 8 r.lastPromise ++ le 8 r.done

/-- PROG.TASKS: the program's tasks in ascending number (R59, R139). -/
def execProgTasks (now : Tb) (c : CmdRef) (s : State) : Host.Outcome State Fault Refusal :=
  runWork now c (.progTasks now c) s (fun s _ =>
    done s c (((List.range 16).filter (fun t => (taskDef s t).present)).flatMap (taskBytes s)))

end Sys2Proof.Machine
end

