-- ==== Sys2Proof/Machine/ChartCmds.lean ====
section
/-!
DEFINITION. CHART.LOAD, CHART.SELECT, CHART.INFO, SEAL.STATUS and RETAIN.CLEAR (R280-R287, R351, R361, R363).
-/
namespace Sys2Proof.Machine

open Sys2Proof

/-! ### CHART.LOAD (R280, R281, R284) -/

def setChart (s : State) (c : Nat) (f : ChartSlot → ChartSlot) : State :=
  modCharts s (fun x => { x with slots := vmod x.slots c f })

/-- n of R281: the sequence of the valid copy with the higher number, or 0. -/
def chartSeq (x : ChartSlot) : Nat :=
  Nat.max (if copyValid x.copy0 then x.copy0.seq else 0) (if copyValid x.copy1 then x.copy1.seq else 0)

/-- Put a copy in place of copy (n + 1) mod 2. -/
def putCopy (n : Nat) (k : ChartCopy) (x : ChartSlot) : ChartSlot :=
  if (n + 1) % 2 = 0 then { x with copy0 := k } else { x with copy1 := k }

/-- The copy that a load writes. -/
def targetCopy (x : ChartSlot) : ChartCopy := if (chartSeq x + 1) % 2 = 0 then x.copy0 else x.copy1

/-- Change the copy that a load writes (R281, R284). -/
def writeCopy (s : State) (chart : Nat) (f : ChartCopy → ChartCopy) : State :=
  setChart s chart (fun x => putCopy (chartSeq x) (f (targetCopy x)) x)

/-- The store header of a load's copy: the image is complete (R280, R281). -/
def writeHeader (s : State) (chart : Nat) (bs : List Byte) : State :=
  let n := chartSeq (chartSlot s chart)
  writeCopy s chart (fun k => { k with header := chartHeader chart ((n + 1) % 2) (n + 1) bs })

/-- The store records of chart-scope parameters of a chart (R284 step 6). -/
def chartDeletes (s : State) (c : Nat) : List PWrite :=
  ((pstoreKeys s.pstore).filter (fun k => k.1 = .param && decide (k.2.1 = c))).map (fun k =>
    { kind := .param, scope := c, key := k.2.2, body := none })

/-- The last stage: the chart's store records go and the copy replaces the working copy (R283, R284). -/
def finishLoad (s : State) (c : CmdRef) (chart : Nat) (img : ChartImage) : State :=
  let ws := chartDeletes s chart
  match (if ws.isEmpty then some s else groupWrite s ws) with
  | none => refuseState s c 0x06
  | some s =>
    let s := setChart s chart (fun x => { x with state := .valid, image := some img })
    done (mirrorImage s 3 img.bytes) c img.hash

/-- Stages 1 and 2 of R284 for a chart image: REFUSED_STATE for another program's chart while one is loaded (R279), else what
set admission refuses (R56). Log entry 115 (DEDUCED). -/
def chartProgramOk (s : State) (img : ChartImage) : Bool := s.prog.all (fun p => decide (img.programId = p.img.programId))

/-- Log entry 115 (DEDUCED). -/
def chartAdmission (s : State) (img : ChartImage) : Option (BitVec 8 × Nat) :=
  s.prog.bind (fun p => (setOf s (imageValue s img) img.taskMask p.tasks).refusal)

/-- The stages of the last segment by what is left of them (R284): segment, check, set admission, two erases, one programming
per 64 KiB, the store header, the deletes. Log entry 115 (DEDUCED). -/
def chartLoadStage (s : State) (c : CmdRef) (g : Segment) (x : Cmd) : State :=
  let bs := wholeImage s.host.transfer g
  match (parseContainer bs).bind parseChart with
  | none => refuseState s c 0x01
  | some img =>
    if lastStage x then finishLoad (modHost s (fun h => { h with transfer := none })) c g.target img
    else
      let n := Nat.max 1 (cdiv g.total 65536)
      let left := x.stages.length
      if left = n + 6 then (if chartProgramOk s img then s else refuseState s c 0x01)
      else if left = n + 5 then
        match chartAdmission s img with
        | some (r, d) => setResult s c stCapacity r (BitVec.ofNat 32 d) []
        | none => s
      else if left = n + 4 then writeCopy s g.target (fun k => { k with data := [] })
      else if left = n + 3 then writeCopy s g.target (fun k => { k with header := [] })
      else if left = 2 then writeHeader s g.target bs
      else if left ≤ n + 2 then writeCopy s g.target (fun k => { k with data := bs.take (65536 * (n + 3 - left)) })
      else s

def execChartLoad (now : Tb) (c : CmdRef) (seg : Segment) (s : State) : Host.Outcome State Fault Refusal :=
  runWork now c (.chartLoad now c seg) s (fun s x =>
    if seg.more then storeSegment s c 0x0601 seg else chartLoadStage s c seg x)

/-! ### CHART.SELECT and CHART.INFO -/

/-- CHART.SELECT waits for the swap (R287, R290). -/
def execChartSelect (now : Tb) (c : CmdRef) (chart : Nat) (s : State) : Host.Outcome State Fault Refusal :=
  runWork now c (.chartSelect now c chart) s (fun s _ => requestSelect (waitFor s c) chart c)

def chartStateCode : ChartState → Nat
  | .empty => 0
  | .valid => 1
  | .conflict => 2

/-- A chart's 80 bytes (R139): an empty chart has no version and no hash. -/
def chartBytes (s : State) (c : Nat) : List Byte :=
  let x := chartSlot s c
  [BitVec.ofNat 8 c, BitVec.ofNat 8 (chartStateCode x.state),
    BitVec.ofNat 8 (boolBit (s.prog.isSome && decide (s.charts.active = c))), 0]
    ++ le 4 ((x.image.map (·.version)).getD 0) ++ List.replicate 8 0 ++ padTo 64 ((x.image.map (·.hash)).getD [])

def execChartInfo (now : Tb) (c : CmdRef) (chart : Nat) (s : State) : Host.Outcome State Fault Refusal :=
  runWork now c (.chartInfo now c chart) s (fun s _ =>
    done s c (if chart = 255 then (List.range 8).flatMap (chartBytes s) else chartBytes s chart))

/-! ### SEAL.STATUS (R363) -/

def execSealStatus (now : Tb) (c : CmdRef) (s : State) : Host.Outcome State Fault Refusal :=
  runWork now c (.sealStatus now c) s (fun s _ =>
    done s c (le 8 s.ring.lastSealSeq ++ le 8 s.ring.lastSealTb ++ le 4 (ringFill s.ring) ++ le 4 s.ring.passes
      ++ le 4 s.ring.resumes ++ le 4 0))

/-! ### RETAIN.CLEAR (R361) -/

/-- Bit 0: a CLEAR record; data and image return to the initial values and BROKEN ends (R343). The Watch is dropped
(R386). Log entry 50 (DESIGN CHOICE). -/
def clearRing (s : State) : State :=
  let s := dropWatch s 2
  let base := (s.prog.map baseImage).getD []
  let s := { s with image := base, sealedImg := base, emitted := base, held := [], sysPhase := 0 }
  let s := stateRecord (modRing s (fun g => { g with broken := false })) .clear []
  applyForces s

/-- Every force entry is removed from the table (R310, R311). Log entry 88 (DEDUCED). -/
def dropForces (s : State) (owner : Nat) : State :=
  (s.forces.map (·.addr)).foldl (fun s k => logForceRelease (releaseForce s k) owner k) s

/-- Bit 1: both halves are erased, with every parameter, force entry and mark. Removed values of parameters take effect at
their own moments (R691). -/
def clearStore (s : State) (owner : Nat) : State :=
  let keys := (pstoreKeys s.pstore).filter (fun k => k.1 = .param
    && (decide (k.2.1 = globalScope) || decide (k.2.1 = s.charts.active)))
  let es : List (Nat × Option Nat) := keys.map (fun k => (k.2.2, none))
  let s := { s with pstore := { PStore.reset with nextGroup := s.pstore.nextGroup } }
  let s := modTwin (modRing s (fun g => { g with base := none })) (fun t => { t with mark := none })
  let s := modClock s (fun k => { k with learned := Vector.replicate 8 (0, 0), servoValid := false })
  committedNow (addWaits (dropForces (loadTrims s) owner) es)

/-- The parts of RETAIN.CLEAR in the order of their bits, each done in its own last stage; the last stage writes the
logbook record. -/
def retainStage (s : State) (c : CmdRef) (parts : BitVec 8) (x : Cmd) : State :=
  let left := x.stages.length
  let n2 := boolBit (parts.getLsbD 2)
  let n1 := if parts.getLsbD 1 then 8 else 0
  let owner := frankSlotOf s c
  let s := if parts.getLsbD 0 && decide (left = n1 + n2 + 1) then clearRing s else s
  let s := if parts.getLsbD 1 && decide (left = n2 + 1) then clearStore s owner else s
  if parts.getLsbD 2 && decide (left = 1) then
    match (if s.forces.isEmpty then some s else groupWrite s (s.forces.map (fun f => forceDelete (forceAddr f.addr)))) with
    | none => refuseState s c 0x06
    | some s =>
      done (log (dropForces s owner) 0x44 sevNotice 0x19 0 (parts.toNat % 8) (le 1 owner)) c []
  else if left ≤ 1 then done (log s 0x44 sevNotice 0x19 0 (parts.toNat % 8) (le 1 owner)) c []
  else s

def execRetainClear (now : Tb) (c : CmdRef) (parts : BitVec 8) (s : State) : Host.Outcome State Fault Refusal :=
  runWork now c (.retainClear now c parts) s (fun s x => retainStage s c parts x)

end Sys2Proof.Machine
end

