-- ==== Sys2Proof/Machine/Units.lean ====
section
/-!
DEFINITION. Unit collars and unit resets (R12-R18, R386, R432, R539, R670-R673): what a closing collar answers and what its
unit finds when it reopens; UNIT_FAULT, COLLAR_REOPEN, REQUEST_TO_CLOSED_COLLAR, UNIT.RESET.
-/
namespace Sys2Proof.Machine

open Sys2Proof

/-! ### Requests that a closing collar answers (R13, R17) -/

/-- Commands that wait on an island. -/
def islandRefs (s : State) (c : Nat) : List CmdRef :=
  let a := island s c
  a.trimRef.toList ++ (a.relayRef.map (·.1)).toList ++ a.hartQueue.map (·.1)

/-- Commands that wait on a line: frames in its buffers, a sleep or a wake. -/
def lineRefs (s : State) (l : Line) : List CmdRef :=
  let b := lineOfBus s l
  (b.txb.toList.filterMap (fun f => f.bind (·.ref))) ++ b.outQueue.filterMap (·.ref)
    ++ (b.sleepReq.bind (·.2)).toList ++ b.wakeRef.toList

/-- Commands in a frank, attestation or image verification stage (R671). -/
def cryptoRefs (s : State) : List CmdRef :=
  (s.host.cmds.filter (fun x => decide (x.phase ≠ .held) && ((x.franked && !x.frankDone)
    || (x.phase = .started && cryptoStage x)))).map (·.ref)

def lineOfUnit (u : Nat) : Line := if u = 3 then .a else .b

/-- The host requests that a unit has accepted and not answered. Log entry 97 (DESIGN CHOICE). -/
def unitRefs (s : State) (u : Nat) : List CmdRef :=
  if u = 3 ∨ u = 4 then lineRefs s (lineOfUnit u)
  else if u = 5 then s.twin.changeRefs ++ s.twin.resyncRef.toList
  else if u = 6 then (s.field.test.map (·.ref)).toList ++ (List.range 8).flatMap (islandRefs s)
  else if u = 8 then cryptoRefs s
  else if 0x10 ≤ u ∧ u < 0x18 then islandRefs s (u - 0x10)
  else []

/-! ### What closing does to the unit (R671) -/

/-- An island without supply or in reset (R464): its set-point stays for the next generator start. -/
def islandDownOp (s : State) (c : Nat) : State :=
  modAna s c (fun a => { a with
    current := if a.mode = .sink then 3100000 else 0, sampled := false, hartBusy := false, hartHost := false, hartTries := 0,
    step := none, trimRef := none, relayRef := none, hartQueue := [] })

/-- An update in progress ends with its pulse; the panel is driven through the discharge switches (R539, R671). -/
def displayDownOp (s : State) : State := modDsp (cutUpdate s) (fun d => { d with switches := true })

def lineDownOp (s : State) (l : Line) : State :=
  let s := modLine s l (fun b => { b with
    txb := Vector.replicate 3 none, outQueue := [], fifo := [], sleepReq := none, wakeRef := none, cycleRunning := false })
  { s with book := { s.book with bus := s.book.bus.filter (fun x => x.1 ≠ l) } }

/-- The twin link goes down: a Watch enters OUT_OF_STEP before it, a Helm's Watch becomes OUT_OF_STEP (R386, R671).
Log entry 93 (DEDUCED). -/
def twinDownOp (s : State) : State :=
  let s := if s.twin.role = .helm then dropWatch s 3
    else if s.twin.pair = .inStep ∨ s.twin.pair = .resync then setPair s .outOfStep else s
  modTwin s (fun t => { t with
    lane0 := false, lane1 := false, helloDone := false, changeRefs := [], resyncRef := none, resyncStage := 0,
    cfgKind := 0, cfgData := [] })

def unitDownOp (s : State) (u : Nat) : State :=
  if u = 3 ∨ u = 4 then lineDownOp s (lineOfUnit u)
  else if u = 5 then twinDownOp s
  else if u = 6 then
    cutUpdate ((List.range 8).foldl (fun s c => modAna s c (fun a => { a with
      trimRef := none, relayRef := none, hartQueue := [], hartBusy := false, hartHost := false }))
      (modField s (fun f => { f with
        test := none, di := f.di.map (fun d => { d with underTest := false }),
        pauseAt := if f.linkAlive then some s.tb else f.pauseAt })))
  else if u = 7 then displayDownOp s
  else if 0x10 ≤ u ∧ u < 0x18 then islandDownOp s (u - 0x10)
  else s

/-- A unit's collar closes with a cause of R671, before the unit is disturbed (R12): what it had accepted is answered
REQ_ABORTED. A collar that is closed already stays as it is. What waits on an island or the display when the field die link's
collar closes over it gets the link's unit number, 0x06. Log entries 93 (DEDUCED), 97 (DESIGN CHOICE). -/
def closeUnit (s : State) (u cause : Nat) (ref : Option CmdRef) : State :=
  if s.power.closed.any (fun e => decide (e.1 = u)) then s
  else
    let refs := (unitRefs s u).filter (fun r => some r ≠ ref)
    let s := refs.foldl (fun s r => abortedBy s r u cause) s
    let s := unitDownOp s u
    finishWaits (modPower s (fun p => { p with closed := p.closed ++ [(u, cause, ref, refs.length)] }))

/-! ### Reopening (R16, R671) -/

/-- The last emitted transfers are sent again: local outputs, display frame, set-points. -/
def resendField (s : State) : State :=
  ((List.range 11) ++ [137]).foldl (fun s a =>
    if (outItems s a).any (fun k => s.sent.any (fun e => e.1 = k)) then sendArea (fun _ => false) s.sent s a else s) s

def lineUpOp (s : State) (l : Line) : State :=
  let off := (lineOfBus s l).busOff
  let s := modLine s l (fun b => { b with tec := 0, recErr := 0, busOff := false })
  let s := if off then log s 0x83 sevNotice (busUnit l) (64 * lineNo l) 0 [0, 0] else s
  if (lineOfBus s l).started && !(lineOfBus s l).asleep then startLine s l else s

/-- An island starts again: chart and trim marks reloaded, its calibration interval anew. Log entry 58 (DEDUCED). -/
def islandUpOp (s : State) (c : Nat) : State :=
  let s := modAna (anaRestart s c) c (fun a => { a with relayNext := s.power.opsec + anaP s c 0x12 })
  if s.sent.any (fun e => e.1 = wKey (0x804000 + c)) then sendArea (fun _ => false) s.sent s (3 + c) else s

def clearNonces (s : State) : State :=
  modHost s (fun h => { h with spi := { h.spi with nonce := none }, maint := { h.maint with nonce := none } })

def unitUpOp (s : State) (u : Nat) : State :=
  if u = 3 ∨ u = 4 then lineUpOp s (lineOfUnit u)
  else if u = 6 then resendField (modField s (fun f => { f with pauseAt := none }))
  else if u = 7 then modDsp s (fun d => { d with rewrite := if dspP s 0 = 2 then some 3 else d.rewrite })
  else if u = 8 then clearNonces s
  else if 0x10 ≤ u ∧ u < 0x18 then islandUpOp s (u - 0x10)
  else s

/-- The unit signals ready: its collar reopens, and UNIT.RESET receives DONE with the requests aborted (R670). A lockout
ends with the restart of the field die only (R432). -/
def reopenUnit (s : State) (u : Nat) : State :=
  match s.power.closed.find? (fun e => decide (e.1 = u)) with
  | none => s
  | some e =>
    if e.2.1 = 2 ∧ s.field.lockout then s
    else
      let s := modPower s (fun p => { p with closed := p.closed.filter (fun x => x.1 ≠ u) })
      doneNow? (unitUpOp s u) e.2.2.1 (le 4 e.2.2.2)

def execCollarReopen (now : Tb) (unit : Nat) (s : State) : Host.Outcome State Fault Refusal :=
  .next (reopenUnit (s.at now) unit)

/-! ### Requests to a closed collar (R14, R18) -/

def execRequestToClosedCollar (now : Tb) (unit : Nat) (who : Requester) (s : State) : Host.Outcome State Fault Refusal :=
  .next (requestAborted (s.at now) unit who)

/-! ### UNIT.RESET and unit faults -/

/-- UNIT.RESET waits for its collar to reopen (R670). A unit whose collar is closed already is in reset: the command is
answered under R14. Log entry 86 (DEDUCED). -/
def execUnitReset (now : Tb) (c : CmdRef) (unit : Nat) (s : State) : Host.Outcome State Fault Refusal :=
  runWork now c (.unitReset now c unit) s (fun s _ =>
    match closingEntry s unit with
    | some e => abortedBy s c unit e.2.1
    | none => closeUnit (waitFor s c) unit 0 (some c))

/-- A unit fails its internal checks (R673): the device resets it, or raises the unit fault. -/
def unitFaultOp (s : State) (u : Nat) : State :=
  if u = 1 ∨ u = 2 then raiseFault s 0x88 u
  else if !resetUnit u then s
  else
    let recent := s.power.unitResets.filter (fun x => decide (x.1 = u ∧ s.tb < x.2 + msToTb 60000))
    if 2 ≤ recent.length then raiseFault s 0x88 u
    else
      let aborted := (unitRefs s u).length
      let s := closeUnit s u 1 none
      let s := modPower s (fun p => { p with
        unitFault := true, unitResets := p.unitResets.filter (fun x => decide (s.tb < x.2 + msToTb 60000)) ++ [(u, s.tb)] })
      log s 0xD3 sevAlarm u u 0 (le 4 aborted)

def execUnitFault (now : Tb) (unit : Nat) (s : State) : Host.Outcome State Fault Refusal :=
  let s := s.at now
  .next (if dieRuns s then unitFaultOp s unit else s)

end Sys2Proof.Machine
end

