-- ==== Sys2Proof/Machine/DevCmds.lean ====
section
/-!
DEFINITION. Device commands: STATUS.GET, TEST.SELF, TEST.PACE, DEV.RESET, DEV.DORMANT, and the wait after the receipts of the
last two (R44, R80, R139, R144, R659, R669, R680).
-/
namespace Sys2Proof.Machine

open Sys2Proof

/-! ### STATUS.GET -/

def asciiBytes (t : String) : List Byte := t.toList.map (fun c => BitVec.ofNat 8 c.toNat)

/-- Device state (R139): 0 starting (and in recovery, R635), 1 stopped, 2 running, 3 fault halt. -/
def deviceStateCode (s : State) : Nat :=
  if s.power.mode = .halt then 3
  else if s.store.recovery ∨ ¬ s.power.resumed then 0
  else if s.pstate = .running then 2 else 1

/-- Active fault flags (R680). -/
def faultFlags (s : State) : Nat :=
  131072 * boolBit s.field.lockout + 65536 * boolBit s.field.cut + 32768 * boolBit (inTrial s)
    + 16384 * boolBit (decide (s.wd.state = .warned)) + 8192 * boolBit s.power.restartLimit
    + 4096 * boolBit s.store.recovery + 2048 * boolBit s.power.vbatLow + 1024 * boolBit s.clock.bkpLost
    + 512 * boolBit s.power.holdupWeak + 256 * boolBit s.power.holdupFault + 128 * boolBit s.power.unitFault
    + 64 * boolBit (decide (s.power.mode = .halt)) + s.power.lastFault % 64

/-- Twin role of the status block: a device that has not settled its role counts as Watch. Log entry 91 (DEDUCED). -/
def roleCode : Role → Nat
  | .unpaired => 0
  | .helm => 1
  | .watch | .starting => 2

/-- The status block of R139: firmware version 0.0 and build 0 in recovery. Log entry 91 (DEDUCED). -/
def statusBytes (s : State) : List Byte :=
  let fw := fwSlot s s.store.runFw
  let v := if s.store.recovery then 0 else fw.version
  let open_ := s.host.session
  asciiBytes (if Config.tapeAndReel then "VU640-AR" else "VU640-AT") ++ asciiBytes "B1"
    ++ [BitVec.ofNat 8 (v / 16777216), BitVec.ofNat 8 (v / 65536)] ++ le 2 v ++ [BitVec.ofNat 8 fw.epoch]
    ++ [BitVec.ofNat 8 (deviceStateCode s)] ++ padTo 16 (s.store.serial.take 16)
    ++ [BitVec.ofNat 8 s.power.band, BitVec.ofNat 8 s.charts.active, BitVec.ofNat 8 (roleCode s.twin.role),
        BitVec.ofNat 8 (boolBit open_.isSome + 2 * ((open_.map (fun z => portCode z.port)).getD 0)
          + 4 * boolBit s.host.spi.rxErr + 8 * boolBit s.host.maint.rxErr)]
    ++ le 8 s.tb ++ le 2 s.power.pace ++ leInt 2 s.power.junction ++ le 2 s.power.paceModel ++ le 2 s.power.paceSlope
    ++ le 3 s.power.powerCycles ++ [0] ++ le 4 (faultFlags s) ++ le 4 0

def execStatusGet (now : Tb) (c : CmdRef) (s : State) : Host.Outcome State Fault Refusal :=
  runWork now c (.statusGet now c) s (fun s _ => done s c (statusBytes s))

/-! ### TEST.SELF, TEST.PACE -/

/-- The units that TEST.SELF tests: the one named, or every unit (R11). -/
def testedUnits (unit : Nat) : List Nat := if unit = 0 then testUnits else [unit]

/-- TEST.SELF: result, the first failing unit, its failure code; a unit that passes shows result 0. What a test finds is
the part's. A unit behind a closed collar ends the command (R17). Log entry 86 (DEDUCED). -/
def selfTestOp (s : State) (c : CmdRef) (unit : Nat) : State :=
  match (testedUnits unit).find? (fun u => (closingEntry s u).isSome) with
  | some u => abortedBy s c u (((closingEntry s u).map (fun e => e.2.1)).getD 0)
  | none =>
    match (testedUnits unit).find? (fun u => (Config.selfTest s.freeIdx u).toNat % 256 ≠ 0) with
    | none => done { s with freeIdx := s.freeIdx + 1 } c (le 4 0)
    | some u =>
      let r := (Config.selfTest s.freeIdx u).toNat
      done { s with freeIdx := s.freeIdx + 1 } c ([BitVec.ofNat 8 r, BitVec.ofNat 8 u] ++ le 2 (r / 256))

def execTestSelf (now : Tb) (c : CmdRef) (unit : Nat) (s : State) : Host.Outcome State Fault Refusal :=
  runLast now c (.testSelf now c unit) s (fun s => selfTestOp s c unit)

def execTestPace (now : Tb) (c : CmdRef) (s : State) : Host.Outcome State Fault Refusal :=
  runLast now c (.testPace now c) s (fun s =>
    done s c (le 2 s.power.pace ++ le 2 s.power.paceModel ++ le 2 s.power.paceSlope ++ leInt 2 s.power.junction))

/-! ### DEV.RESET, DEV.DORMANT (R144, R659, R669, R678) -/

def execDevReset (now : Tb) (c : CmdRef) (kind : Nat) (s : State) : Host.Outcome State Fault Refusal :=
  runWork now c (.devReset now c kind) s (fun s _ =>
    done (modHost s (fun h => { h with resetWait := some kind, dormantWait := none })) c [])

def execDevDormant (now : Tb) (c : CmdRef) (mask : BitVec 16) (s : State) : Host.Outcome State Fault Refusal :=
  runWork now c (.devDormant now c mask) s (fun s _ =>
    done (modHost s (fun h => { h with dormantWait := some mask, resetWait := none })) c [])

/-- 2 ms after the DONE receipt the device acts. In HALT, DEV.RESET waits for the fault's restart condition (R678).
Log entry 85 (DEDUCED). -/
def actAfterReceipt (s : State) : State :=
  if s.host.cmds.any (fun x => (x.opcode = 0x1301 || x.opcode = 0x1303) && (findResult s x.ref).isSome) then s
  else match s.host.dormantWait, s.host.resetWait with
    | some _, _ =>
      let refs := (s.sched.stopping.map (·.2)).getD []
      let s := modPower s (fun p => { p with stopping := true })
      stopIfDue (if s.pstate = .running then modSched s (fun x => { x with stopping := some (.safe, refs) }) else s)
    | none, some k =>
      if s.power.mode = .halt then
        (if restartCondition s && s.dsp.update.isNone then gracefulReset s k
          else modPower s (fun p => { p with haltReset := some k }))
      else stopIfDue (modPower s (fun p => { p with stopping := true }))
    | none, none => s

def execReceiptWaitExpiry (now : Tb) (s : State) : Host.Outcome State Fault Refusal :=
  .next (actAfterReceipt (s.at now))

end Sys2Proof.Machine
end

