-- ==== Sys2Proof/Machine/TwinOps.lean ====
section
/-!
DEFINITION. The pair (R366-R408): what HELLO carries, the settling of roles, the change of watch on either side, votes, what
a Watch applies, and the stages of a resynchronisation. How CONFIG data are laid out is this model's (log entry 50).
-/
namespace Sys2Proof.Machine

open Sys2Proof

/-! ### What the frames carry -/

/-- Role codes of HEARTBEAT, HELLO and bus heartbeats (R374, R392). Log entry 65 (DEDUCED). -/
def linkRole (s : State) : Nat :=
  match s.twin.role with
  | .helm => 1
  | .watch => if s.twin.pair = .isolated then 3 else 2
  | _ => 0

/-- The pair epoch of the running firmware (R405). -/
def ownEpoch (s : State) : Nat := (fwSlot s s.store.runFw).epoch

/-- The head record sequence; 0 while the ring is empty. Log entry 65 (DEDUCED). -/
def headSeq (s : State) : Nat := s.ring.nextSeq - 1

def twinSide (s : State) : Nat := par s 0x0602

/-- The configuration CRC of HELLO: over the values in effect that a pair mirrors. Log entry 65 (DEDUCED). -/
def configCrc (s : State) : BitVec 32 :=
  crc32c ((s.params.eff.filter (fun e => !perDevice e.1)).flatMap (fun e => le 2 e.1 ++ le 8 e.2))

def progHashOf (s : State) : List Byte := (s.prog.map (·.chained)).getD (List.replicate 64 0)

/-- A device of a pair whose twin unit is in service. -/
def twinOn (s : State) : Bool := paired s && dieRuns s && !collarClosed s 5

/-- A live frame from the partner (R375). -/
def noteLive (s : State) : State := modTwin s (fun t => { t with lastLive := s.tb })

/-! ### The bytes of a frame (R373, R374) -/

/-- The format epoch in use: the lower of both (R405). -/
def formatEpoch (s : State) : Nat := Nat.min (ownEpoch s) ((s.twin.partner.map (·.epoch)).getD (ownEpoch s))

/-- A body followed by its CRC-32C, which the body length does not count (R374). -/
def frameOf (s : State) (type : Nat) (body : List Byte) : List Byte :=
  withCrc (le 2 0x5E7C ++ le 1 type ++ le 1 (formatEpoch s) ++ le 4 0 ++ le 4 body.length) ++ withCrc body

/-- The lines that a MANIFEST streams: the record's, with the header line of each segment that it enters before that
segment's first line (R374, R377). -/
def manifestLines (s : State) (r : RingRec) : List (List Byte) :=
  (recBytes r).zipIdx.flatMap (fun x =>
    let l := lineAt r.pos x.2
    let head := if l % 1024 = 1 then s.ring.segs.filterMap (fun e => if e.1 = l / 1024 then some (segLine e.2) else none) else []
    head ++ [x.1])

/-- A MANIFEST frame: its position is the ring line of its first line (R373, R377). -/
def manifestFrame (s : State) (r : RingRec) : List Byte :=
  let lines := manifestLines s r
  let at_ := if r.pos % 1024 = 1 then r.pos - 1 else r.pos
  withCrc (le 2 0x5E7C ++ le 1 1 ++ le 1 (formatEpoch s) ++ le 4 at_ ++ le 4 (64 * lines.length)) ++ lines.flatten

/-- A frame's bytes as the device sends it now (R373, R374). -/
def frameBytes (s : State) : TwinFrame → List Byte
  | .manifest seq => ((s.ring.recs.find? (fun r => decide (r.seq = seq))).map (manifestFrame s)).getD []
  | .ack seq written => frameOf s 2 (le 8 seq ++ le 1 (boolBit (!written)) ++ le 3 0)
  | .heartbeat role pairState term headSeq tb =>
    frameOf s 3 (le 1 role ++ le 1 pairState ++ le 2 0 ++ le 4 term ++ le 8 headSeq ++ le 8 tb)
  | .hello role term headSeq =>
    frameOf s 4 (padTo 16 s.store.serial ++ le 1 (ownEpoch s) ++ le 1 (twinSide s) ++ le 1 role ++ le 1 0 ++ le 4 term
      ++ le 8 headSeq ++ padTo 64 (progHashOf s) ++ le 4 (configCrc s).toNat)
  | .handover lastSeq cause term releases =>
    frameOf s 5 (le 8 lastSeq ++ le 1 cause ++ le 1 0 ++ le 2 releases.length ++ le 4 term
      ++ releases.flatMap (fun r => le 4 r.1 ++ le 4 r.2))
  | .taken term => frameOf s 6 (le 4 term)
  | .drop reason => frameOf s 7 (le 1 reason)
  | .config kind data => frameOf s 8 (le 1 kind ++ le 3 0 ++ data)
  | .changeReq => frameOf s 9 []

/-! ### HELM_TERM (R391) -/

/-- A Watch writes every HELM_TERM that it learns from the Helm: the tenure began at the record after the head that the
Helm named. Log entry 65 (DEDUCED). -/
def learnTerm (s : State) (term head : Nat) : State :=
  if term ≤ s.twin.term then s
  else
    let holder := (s.twin.partner.map (·.serial)).getD (List.replicate 16 0)
    let first := head + 1
    let s := modTwin s (fun t => { t with term, mark := some (term, first, holder) })
    (groupWrite s [{ kind := .mark, scope := globalScope, key := markHelmTerm,
                     body := some (le 4 term ++ le 8 first ++ padTo 16 holder) }]).getD s

/-! ### Settling the role (R388-R390) -/

/-- Every local output takes its safe value while the field die link lives, and the display shows its safe page (R278,
R368, R542). -/
def watchOutputs (s : State) : State :=
  dspSafe (sendSafe (modField s (fun f => { f with linkAlive := true })) (List.range 11)) true

/-- A device that becomes Watch takes the display block back from the host (R525). -/
def takeDisplay (s : State) : State := { s with host := { s.host with dspOwner := false } }

/-- The lines of a device that leaves the Helm role transmit twin heartbeats only (R368). -/
def quietLine (s : State) (l : Line) : State := modLine (dropFrames s l 5) l (fun b => { b with cycleRunning := false })

def settleWatch (s : State) (p : PairState) : State :=
  let s := setPair (modTwin (takeDisplay s) (fun t => { t with role := .watch, startTest := decide (p = .isolated) })) p
  syncMode (if s.power.resumed then watchOutputs s else s)

/-- A starting device becomes Helm: the term first, then the re-emit held back so far (R388, R391). -/
def settleHelm (s : State) (p : PairState) : State :=
  let s := writeTerm (modTwin s (fun t => { t with role := .helm, startTest := false }))
  let s := setPair s p
  syncMode (if s.power.resumed then finishStart (resumeNow s) else s)

/-- Whether this device becomes Helm by the table of R389; the partner is not Helm. -/
def winsRole (s : State) (f : HelloFrame) : Bool :=
  if s.twin.term ≠ f.term then decide (f.term < s.twin.term)
  else if headSeq s ≠ f.headSeq then decide (f.headSeq < headSeq s)
  else match s.twin.mark with
    | some m => if m.2.2 = s.store.serial then true
        else if m.2.2 = f.serial then false else decide (twinSide s = 0)
    | none => decide (twinSide s = 0)

def distance (a b : Nat) : Nat := (a - b) + (b - a)

/-- A HELLO that has checked (R376, R389). A Watch whose term and head record equal the Helm's is IN_STEP at once.
Log entry 65 (DEDUCED). -/
def helloOp (s : State) (f : HelloFrame) : State :=
  let s := noteLive (modTwin s (fun t => { t with partner := some f, helloDone := true }))
  if 1 < distance f.epoch (ownEpoch s) ∨ f.side = twinSide s then setPair s .incompatible
  else
    let same := decide (f.term = s.twin.term) && decide (f.headSeq = headSeq s)
    let state : PairState := if same then .inStep else .outOfStep
    let high := Nat.max s.twin.term f.term
    match s.twin.role with
    | .unpaired => s
    | .helm => setPair s state
    | .starting =>
      if f.role = 1 ∨ ¬ winsRole s f then settleWatch s state
      else settleHelm (modTwin s (fun t => { t with term := high })) state
    | .watch =>
      if f.role = 1 then setPair (modTwin (learnTerm s f.term f.headSeq) (fun t => { t with startTest := false })) state
      else if s.twin.startTest ∧ winsRole s f then settleHelm (modTwin s (fun t => { t with term := high })) state
      else setPair s state

/-! ### Bus heartbeats heard (R390, R392, R399, R400, R408) -/

/-- n × TWIN_BUS_HB in tb. -/
def hbSpan (s : State) (n : Nat) : Nat := n * usToTb (par s 0x0605)

def within (s : State) (n : Nat) (t : Option Nat) : Bool := t.any (fun t => decide (s.tb ≤ t + hbSpan s n))

def partnerOnBus (s : State) : Bool := within s 3 s.twin.heardAny.1 || within s 3 s.twin.heardAny.2

def helmOnBus (s : State) : Bool := within s 3 s.twin.heardHelm.1 || within s 3 s.twin.heardHelm.2

def ownAcked (s : State) (n : Nat) : Bool := within s n s.twin.hbAcked.1 || within s n s.twin.hbAcked.2

/-- A starting device of the other side that outranks this one: term, then head record sequence, then side, as far as a
bus heartbeat carries them. Log entry 65 (DEDUCED). -/
def outranked (s : State) (x : Option (Nat × Nat × Nat)) : Bool :=
  match x with
  | none => false
  | some (at_, term, seq) =>
    let own := s.twin.term % 2 ^ 24
    let head := headSeq s % 2 ^ 32
    within s 3 (some at_)
      && (if term ≠ own then decide (own < term)
          else if seq ≠ head then decide (head < seq) else decide (twinSide s = 1))

/-- The byte of a vote's record for a line (R722, type 0x53). -/
def heardByte (s : State) (ack heard : Option Nat) (start : Option (Nat × Nat × Nat)) : Nat :=
  boolBit (within s 3 ack) + 2 * boolBit (within s 3 heard) + 4 * boolBit (within s 3 (start.map (·.1)))

/-- Every vote is logged with its outcome (R408). -/
def logVote (s : State) (outcome : Nat) : State :=
  let t := s.twin
  log s 0x53 (if outcome = 4 then sevAlarm else sevInfo) 0x05 (pairCode t.pair) outcome
    [BitVec.ofNat 8 (heardByte s t.hbAcked.1 t.heardHelm.1 t.heardStart.1),
     BitVec.ofNat 8 (heardByte s t.hbAcked.2 t.heardHelm.2 t.heardStart.2)]

/-- TWIN_START_WAIT without the link (R390): Helm, or Watch in state ISOLATED that tests again. -/
def startVote (s : State) : State :=
  if !helmOnBus s && !outranked s s.twin.heardStart.1 && !outranked s s.twin.heardStart.2 && ownAcked s 3 then
    settleHelm (logVote s 1) .noPartner
  else
    let s := logVote s 0
    if s.twin.role = .watch ∧ s.twin.pair = .isolated then s else settleWatch s .isolated

/-! ### A Watch becomes Helm (R397, R399) -/

/-- The number of the last sealed scan's task, when it is free-running. -/
def lastSealedTask (s : State) : Option Nat :=
  match (s.ring.recs.reverse).find? (fun r => r.kind = .seal && decide (r.task < 16)) with
  | none => none
  | some r => if (taskDef s r.task).fixed then none else some r.task

/-- The round in which the new Helm's first scan runs: the one after the handover seal point, or the next (R397, R399). -/
def takeRound (s : State) (releases : Option (List (Nat × Nat))) : State :=
  let rest := match releases, lastSealedTask s with
    | some _, some t => (enabledFree s).filter (fun u => decide (t < u))
    | _, _ => []
  modSched s (fun x => { x with
    roundOpen := !rest.isEmpty, roundLeft := rest, roundStart := s.tb, roundReady := s.tb,
    roundLast := if rest.isEmpty then none else lastSealedTask s, firstStart := none, trun := none, noMoreScans := false,
    phases := (releases.getD []).map (fun e => (e.1, s.tb + e.2)) })

/-- The first SYNC of the new Helm on a line: one cycle time after the last SYNC that it received, or at once. -/
def takeLine (s : State) (l : Line) : State :=
  modLine s l (fun b => { b with
    tk := b.lastSync, cycleRunning := decide (s.tb ≤ b.lastSync + usToTb (busP s l 7)) })

/-- The re-emit of every output area from the emitted view (R344, R397 step 2). -/
def takeOutputs (s : State) : State :=
  let s := modField s (fun f => { f with linkAlive := true })
  if s.prog.isNone then emitUnowned s
  else if s.ring.broken then applySafe (modSched s (fun x => { x with stopMode := .safe })) 3
  else match (sealedCharts s).find? (fun c => !chartUsable s c) with
  | some c => resumeUnusable s c
  | none =>
    let s := reEmitAll s
    match s.charts.committed with
    | none => s
    | some r => swapChart s r s.ring.lastSealTb

/-- For 30 ms after a change of watch a shared output does not evaluate open load (R424). -/
def blankShared (s : State) : State := modField s (fun f => { f with shareBlank := s.tb + msToTb 30 })

/-- Steps 1 to 5 of R397. Log entry 67 (DEDUCED). -/
def takeOver (s : State) (cause term : Nat) (releases : Option (List (Nat × Nat))) : State :=
  let high := Nat.max s.twin.term term
  let refs := s.twin.changeRefs
  let epoch := (s.ring.recs.getLast?.map (·.powerCycles)).orElse (fun _ => s.twin.epochAs)
  let s := modTwin s (fun t => { t with
    role := .helm, term := high, changes := t.changes + 1, safeAt := none, startTest := false, handoverSent := none,
    changeRefs := [], epochAs := epoch })
  let s := refs.foldl (fun s c => doneNow s c (le 8 s.tb)) s
  let s := twinSend (blankShared s) (.taken (high + 1))
  let s := writeTerm (takeOutputs (applyForces s))
  let s := setPair s (if cause = 0 ∧ linkUp s then .inStep
    else if s.twin.lane0 || s.twin.lane1 || partnerOnBus s then .outOfStep else .noPartner)
  let s := log s 0x51 sevAlarm 0x05 (pairCode s.twin.pair) cause (le 4 s.twin.term)
  syncMode (takeLine (takeLine (takeRound s releases) .a) .b)

/-- HANDOVER on a Watch (R397): it takes over when it has applied every record up to the named one.
Log entry 66 (DEDUCED). -/
def handoverOp (s : State) (f : HandoverFrame) : State :=
  if s.twin.pair ≠ .inStep then s
  else if s.ring.nextSeq ≤ f.lastSeq then setPair s .outOfStep
  else takeOver s f.cause f.term (some f.releases)

/-- The vote of R399 with both lanes down. -/
def silenceVote (s : State) : State :=
  let late := fun (t : Option Nat) => t.any (fun t => decide (s.twin.lastLive + hbSpan s 1 < t))
  if late s.twin.heardHelm.1 || late s.twin.heardHelm.2 then setPair (logVote s 3) .outOfStep
  else if !helmOnBus s && ownAcked s 3 then takeOver (logVote s 2) 4 s.twin.term none
  else logVote s 0

/-- No live frame for WATCH_TIMEOUT on a Watch (R399). Log entry 67 (DEDUCED). -/
def watchSilent (s : State) : State :=
  if s.twin.pair = .inStep then
    (if s.twin.lane0 || s.twin.lane1 then takeOver s 4 s.twin.term none else silenceVote s)
  else if linkUp s then s
  else setPair s .isolated

/-! ### A Helm becomes Watch (R398, R400) -/

/-- The Helm leaves its role: no scan runs, its lines carry twin heartbeats only. -/
def leaveHelm (s : State) : State :=
  quietLine (quietLine (stopEngine s) .a) .b

/-- TAKEN (R398). The pair is in HELLO until the new Helm's next record shows whether it follows the last one here.
Log entry 65 (DEDUCED). -/
def takenOp (s : State) (term : Nat) : State :=
  let cause := (s.twin.handoverSent.map (·.2)).getD 4
  let head := headSeq s
  let s := endResync (leaveHelm (blankShared (takeDisplay s)))
  let refs := s.twin.changeRefs
  let s := modTwin s (fun t => { t with
    role := .watch, changes := t.changes + 1, changeRefs := [], handoverSent := none, safeAt := some (s.tb + usToTb 100) })
  let s := modSched s (fun x => { x with handoverReq := none, noMoreScans := false })
  let s := setPair (learnTerm s term head) .hello
  let s := log s 0x51 sevAlarm 0x05 (pairCode s.twin.pair) cause (le 4 s.twin.term)
  refs.foldl (fun s c => doneNow s c (le 8 s.tb)) (syncMode s)

/-- A Helm that can hear neither its Watch nor the bus (R400): PROG.STOP with mode 1, and ISOLATED.
Log entry 65 (DEDUCED). -/
def giveUp (s : State) : State :=
  let refs := (s.sched.stopping.map (·.2)).getD []
  let s := leaveHelm (logVote (takeDisplay s) 4)
  let s := if s.pstate = .notLoaded then applySafe s 3 else programStops s .safe refs
  let s := modTwin (endResync s) (fun t => { t with role := .watch, handoverSent := none })
  syncMode (setPair (modSched s (fun x => { x with handoverReq := none, noMoreScans := false })) .isolated)

/-- The Watch answers a HANDOVER of a request with OUT_OF_STEP: the Helm keeps its role (R397). Log entry 64 (DEDUCED). -/
def keepRole (s : State) : State :=
  let refs := s.twin.changeRefs
  let s := modTwin s (fun t => { t with handoverSent := none, changeRefs := [] })
  let s := modSched s (fun x => { x with handoverReq := none, noMoreScans := false })
  refs.foldl (fun s c => finishNow s c stState 0x05 0 []) (setPair s .outOfStep)

/-- A requested change on the Helm (R395). Log entry 66 (DEDUCED). -/
def requestChange (s : State) : State :=
  if s.twin.pair ≠ .inStep then log s 0x56 sevNotice 0x05 (pairCode s.twin.pair) 0 []
  else if s.sched.handoverReq.isSome then s
  else handoverIfIdle (modSched s (fun x => { x with handoverReq := some none }))

/-! ### What a Watch applies (R369, R378, R379) -/

/-- The records of an IMAGE group that is not whole yet (R330). -/
def openAside (recs : List RingRec) : List RingRec :=
  recs.foldl (fun a r =>
    match r.kind with
    | .image =>
      let a := if r.group.2.1 = 1 then [r] else a ++ [r]
      if a.length = r.group.2.2 then [] else a
    | .state => if r.sub = .load ∨ r.sub = .clear then [] else a
    | _ => a) []

/-- The program's edits follow the count that a record names (R304). -/
def followEdits (s : State) (n : Nat) : State :=
  match s.prog with
  | none => s
  | some p =>
    if p.edits.length % 256 = n then s
    else
      let edits := ((progSlot s p.slot).edits.map (·.1)).take n
      let s := setProgSlot s p.slot (fun x => { x with edits := x.edits.mapIdx (fun i e => (e.1, e.2 || decide (i < n))) })
      { s with prog := some (mkProgram p.slot p.img edits), code := buildCode p.img edits }

/-- Write a record into the ring at the line that the Helm named, with the headers of the segments that it enters (R378). -/
def mirrorRecord (s : State) (r : RingRec) : State :=
  let fresh := decide (r.sub = .load ∨ r.sub = .clear)
  let from_ := if r.pos % 1024 = 1 then r.pos - 1 else r.pos
  let (head, segs) := advanceHead from_ (recSize r)
  let g := s.ring
  let recs := trimRecs (dspBase s) (if fresh then [r] else g.recs ++ [r])
  { s with ring := { ringPut g recs from_ r.pos (recSize r) head r.seq segs with
      tailLine := r.tailLine, tailSeq := r.tailSeq, lastSealSeq := if r.kind = .seal then r.seq else g.lastSealSeq,
      lastSealTb := if r.kind = .seal then s.tb else g.lastSealTb } }

/-- Apply a record to working data, image and emitted view, as a resume applies it (R341, R369), with what its header says
of the program, the charts and the task. -/
def applyMirrored (s : State) (r : RingRec) : State :=
  let d := dspBase s
  let base := (s.prog.map baseImage).getD []
  let b0 : Rebuild :=
    { work := s.image, emit := s.emitted, held := s.held, aside := openAside s.ring.recs, resumes := s.ring.resumes }
  let b := rebuildRec d base b0 r
  let s := mirrorRecord s r
  let s := { s with
    image := markDiffs d b.work b.emit, emitted := b.emit, held := b.held, sealedImg := sealedView d b.work b.emit,
    ring := { s.ring with resumes := b.resumes } }
  let s := followEdits s r.edits
  let s := if r.chart = s.charts.active ∨ s.prog.isNone then s else swapSettings s r.chart
  let s := { s with pstate := if s.prog.isNone then .notLoaded else codeOf r.progState, charts := headCharts s.charts r }
  if r.kind = .seal ∧ r.task < 16 then
    modTask s r.task (fun t => { t with
      sealedOnce := true, sealRtcValid := r.rtcValid, sealRtc := r.rtcSec * 32768 + r.rtcSub })
  else s

/-- The mark TWIN_BASE goes once the named tail passes the base (R403). -/
def dropBase (s : State) : State :=
  match s.ring.base with
  | none => s
  | some (seq, _) =>
    if s.ring.tailSeq < seq then s
    else
      let s := { s with ring := { s.ring with base := none } }
      (groupWrite s [{ kind := .mark, scope := globalScope, key := markTwinBase, body := none }]).getD s

/-- A record that the Watch cannot apply (R379). -/
def rejectRecord (s : State) (seq : Nat) : State := setPair (twinSend s (.ack seq false)) .outOfStep

/-- A MANIFEST on a Watch (R378, R379, R398). -/
def manifestOp (s : State) (ok : Bool) (r : RingRec) : State :=
  if s.twin.pair ≠ .inStep ∧ s.twin.pair ≠ .resync ∧ s.twin.pair ≠ .hello then s
  else if !ok || decide (r.seq ≠ s.ring.nextSeq) then rejectRecord s r.seq
  else
    let s := dropBase (applyMirrored s r)
    let s := modTwin s (fun t => { t with appliedSeq := r.seq })
    twinSend (if s.twin.pair = .hello then setPair s .inStep else s) (.ack r.seq true)

/-! ### CONFIG (R374, R401, R402) -/

/-- The entries of a parameter group's frame. Log entry 50 (DESIGN CHOICE). -/
def parseGroup : Nat → List Byte → List PWrite
  | n + 1, k :: sc :: len :: _ :: rest =>
    let body := (rest.drop 4).take len.toNat
    { kind := if k = 1 then .param else .force, scope := sc.toNat, key := field rest 0 4,
      body := if len = 0 then none else some body } :: parseGroup n (rest.drop (4 + len.toNat))
  | _, _ => []

/-- A mirrored group on the Watch: written to its store, its values taking effect at their own moments (R402). -/
def applyGroup (s : State) (ws : List PWrite) : State :=
  match groupWrite s ws with
  | none => s
  | some s =>
    let mine := ws.filter (fun w => w.kind = .param
      && (decide (w.scope = globalScope) || decide (w.scope = s.charts.active)))
    let s := commitSeal (takeValues (addWaits s (mine.map (fun w => (w.key, w.body.map unle)))) .now)
    if ws.any (fun w => w.kind = .force) then applyForces (loadForces s) else s

/-- The mirrored parameter records and the force records go before those of the Helm come (R401 stage 3). -/
def mirroredDeletes (s : State) : List PWrite :=
  ((pstoreKeys s.pstore).filter (fun k => (k.1 = .param && !perDevice k.2.2) || k.1 = .force)).map (fun k =>
    { kind := k.1, scope := k.2.1, key := k.2.2, body := none })

/-- The base of stage 4: the ring is erased and begins again at the named record and line, with the Helm's segment sequence and
passes (R378, R401). Log entry 50 (DESIGN CHOICE). -/
def takeBase (s : State) (seq line segSeq passes : Nat) : State :=
  let g := s.ring
  let s := { s with ring := { g with
    recs := [], segs := [], head := line, nextSeq := seq, segSeq, passes, base := some (seq, line), broken := false } }
  (groupWrite s [{ kind := .mark, scope := globalScope, key := markTwinBase, body := some (le 8 seq ++ le 4 line) }]).getD s

/-- Stage 6 on the Watch: the working copy is rebuilt from the base, the Watch is IN_STEP and acknowledges (R401). -/
def endOnWatch (s : State) : State :=
  let s := applyForces (rebuild s)
  let s := modTwin (setPair s .inStep) (fun t => { t with resyncStage := 0, appliedSeq := headSeq s })
  twinSend (log s 0x55 sevInfo 0x05 (pairCode s.twin.pair) 0 []) (.ack (headSeq s) true)

/-- A resync-control frame: its first byte is the stage of R401. Log entry 50 (DESIGN CHOICE). -/
def resyncControl (s : State) (data : List Byte) : State :=
  match field data 0 1 with
  | 1 =>
    let s := setPair (modTwin s (fun t => { t with resyncStage := 1 })) .resync
    log s 0x54 sevInfo 0x05 (pairCode s.twin.pair) 0 []
  | 3 => if s.twin.pair = .resync then (groupWrite s (mirroredDeletes s)).getD s else s
  | 4 => if s.twin.pair = .resync then takeBase (modTwin s (fun t => { t with resyncStage := 4 })) (field data 1 8) (field data 9 4)
        (field data 13 8) (field data 21 4)
      else s
  | 6 => if s.twin.pair = .resync then endOnWatch s else s
  | _ => s

/-- An edit image is stored beside the program; it is committed with the record that names it (R304). -/
def storeEdit (s : State) (e : EditImage) : State :=
  match s.prog with
  | none => s
  | some p => setProgSlot s p.slot (fun x => { x with edits := x.edits.filter (·.2) ++ [(e, false)] })

/-- A chart image completes a copy of its slot (R281). -/
def storeChart (s : State) (img : ChartImage) : State :=
  let n := chartSeq (chartSlot s img.chart)
  let k : ChartCopy := { header := chartHeader img.chart ((n + 1) % 2) (n + 1) img.bytes, data := img.bytes }
  setChart s img.chart (fun x => { putCopy n k x with state := .valid, image := some img })

/-- A program image replaces the Watch's program (R401 stage 2). -/
def storeProgram (s : State) (bytes : List Byte) (img : ProgImage) : State :=
  let slot := (s.prog.map (·.slot)).getD 0
  let s := setProgSlot s slot (fun x => { x with
    desc := some (applySeq x.desc + 1, bytes.length, img.hash), building := false, builtWord := markerSet,
    rejectedWord := markerClear, image := some img, bytes, edits := [] })
  { s with prog := some (mkProgram slot img []), code := buildCode img [] }

/-- Join an image's frames: the bytes come out once the length that the container states is here (R374, R612).
Log entry 50 (DESIGN CHOICE). -/
def joinImage (s : State) (kind : Nat) (data : List Byte) : State × Option (List Byte) :=
  let bs := (if s.twin.cfgKind = kind then s.twin.cfgData else []) ++ data
  if 8 ≤ bs.length ∧ field bs 4 4 ≤ bs.length then (modTwin s (fun t => { t with cfgKind := 0, cfgData := [] }), some bs)
  else (modTwin s (fun t => { t with cfgKind := kind, cfgData := bs }), none)

/-- A whole image is stored by its kind: an edit, a chart, the program. -/
def storeImage (s : State) (kind : Nat) (bs : List Byte) : State :=
  match parseContainer bs with
  | none => s
  | some c =>
    match kind with
    | 2 => (match parseEdit c with | some e => storeEdit s e | none => s)
    | 3 => (match parseChart c with | some i => storeChart s i | none => s)
    | _ => (match parseProgram c with | some i => storeProgram s bs i | none => s)

/-- A frame of an image on a Watch. -/
def imageFrame (s : State) (kind : Nat) (data : List Byte) : State :=
  match joinImage s kind data with
  | (s, some bs) => storeImage s kind bs
  | (s, none) => s

/-- The content of a CONFIG frame on a Watch (R374). Log entry 50 (DESIGN CHOICE). -/
def configOp (s : State) (kind : Nat) (data : List Byte) : State :=
  match kind with
  | 1 =>
    if s.twin.pair = .inStep ∨ s.twin.pair = .resync then applyGroup s (parseGroup data.length data) else s
  | 2 | 3 => imageFrame s kind data
  | 4 => if s.twin.pair = .resync then imageFrame s kind data else s
  | 5 => resyncControl s data
  | _ => s

/-! ### The stages of a resynchronisation on the Helm (R401) -/

/-- Live copies older than the base, with their views. -/
def oldLive (s : State) : List (Nat × RingLine) :=
  let d := dspBase s
  let all := liveLines d s.ring.recs
  let new := liveLines d (s.ring.recs.filter (fun r => decide (s.twin.resyncBase.1 ≤ r.seq)))
  (all.take (all.length - new.length)).map (·.2)

/-- Carry lines four at a time; the fuel is their number. -/
def carryAll : Nat → State → List (Nat × RingLine) → State
  | n + 1, s, l :: ls =>
    match ringAppend s (recHeader s .carry .none ((l :: ls).take 4)) with
    | .ok s => carryAll n s ((l :: ls).drop 4)
    | .error x => sealFaultAt s x
  | _, s, _ => s

/-- The program image with its edits, then the charts, as CONFIG frames (R401 stage 2). Log entry 50 (DESIGN CHOICE). -/
def sendImages (s : State) : State :=
  let diff := s.twin.partner.any (fun f => f.progHash ≠ progHashOf s ∨ f.configCrc ≠ configCrc s)
  match diff, s.prog with
  | true, some p =>
    let s := sendImage s 4 (progSlot s p.slot).bytes
    let s := p.edits.foldl (fun s e => sendImage s 2 e.bytes) s
    (List.range 8).foldl (fun s c =>
      match (chartSlot s c).image with
      | some i => sendImage s 3 i.bytes
      | none => s) s
  | _, _ => s

/-- Every live record of the parameter store but those of R402 (R401 stage 3). Log entry 50 (DESIGN CHOICE). -/
def sendStore (s : State) : State :=
  let ws : List PWrite := ((pstoreKeys s.pstore).map (fun k =>
    { kind := k.1, scope := k.2.1, key := k.2.2, body := pstoreGet s.pstore k.1 k.2.1 k.2.2 }))
  (groupFrames (ws.filter (fun w => w.body.isSome))).foldl twinSend (twinSend s (.config 5 [3]))

/-- One stage of a resynchronisation. Log entry 67 (DEDUCED). -/
def resyncStep (s : State) (stage : Nat) : State :=
  let s := modTwin s (fun t => { t with resyncStage := stage })
  match stage with
  | 1 =>
    let s := setPair s .resync
    twinSend (log s 0x54 sevInfo 0x05 (pairCode s.twin.pair) 0 []) (.config 5 [1])
  | 2 => sendImages s
  | 3 => sendStore s
  | 4 =>
    let line := if s.ring.head % 1024 = 0 then s.ring.head + 1 else s.ring.head
    twinSend (modTwin s (fun t => { t with resyncBase := (s.ring.nextSeq, line) }))
      (.config 5 ([4] ++ le 8 s.ring.nextSeq ++ le 4 line ++ le 8 s.ring.segSeq ++ le 4 s.ring.passes))
  | 5 => carryAll (oldLive s).length s (oldLive s)
  | _ => twinSend (modTwin s (fun t => { t with resyncAck := headSeq s })) (.config 5 [6])

/-- A resynchronisation that the Helm starts itself, a stage in each slice of idle capacity (R387).
Log entry 67 (DEDUCED). -/
def autoResync (s : State) : State :=
  if s.twin.role ≠ .helm ∨ ¬ linkUp s ∨ s.twin.resyncRef.isSome then s
  else if s.twin.pair = .outOfStep ∧ par s 0x0607 = 1 then resyncStep s 1
  else if s.twin.pair = .resync ∧ s.twin.resyncStage < 6
      ∧ ¬ s.host.cmds.any (fun x => x.opcode = 0x0803 ∧ x.phase = .started) then
    resyncStep s (s.twin.resyncStage + 1)
  else s

/-- The ACK of stage 6 (R401, R404). Log entry 67 (DEDUCED). -/
def resyncDone (s : State) : State :=
  let ref := s.twin.resyncRef
  let s := setPair (modTwin s (fun t => { t with resyncStage := 0, resyncRef := none })) .inStep
  doneNow? (log s 0x55 sevInfo 0x05 (pairCode s.twin.pair) 0 []) ref (le 8 s.tb)

end Sys2Proof.Machine
end

