-- ==== Sys2Proof/Machine/TwinCmds.lean ====
section
/-!
DEFINITION. TWIN.STATUS, TWIN.CHANGE, TWIN.RESYNC, and the events of the twin link (R366-R408).
-/
namespace Sys2Proof.Machine

open Sys2Proof

/-! ### Commands -/

/-- The TWIN.STATUS payload (R407). Log entries 56, 68 (DESIGN CHOICE). -/
def twinStatusBytes (s : State) : List Byte :=
  let t := s.twin
  let own := ownEpoch s
  let other := t.partner.map (·.epoch)
  [BitVec.ofNat 8 (roleCode t.role), BitVec.ofNat 8 (pairCode t.pair), BitVec.ofNat 8 (par s 0x0603),
    BitVec.ofNat 8 (boolBit t.lane0 + 2 * boolBit t.lane1), BitVec.ofNat 8 own, BitVec.ofNat 8 (other.getD 0),
    BitVec.ofNat 8 (Nat.min own (other.getD own)), BitVec.ofNat 8 (twinSide s)]
    ++ padTo 16 (((t.partner.map (·.serial)).getD []).take 16)
    ++ le 8 (if t.role = .helm then t.ackedSeq else t.appliedSeq) ++ le 4 t.term ++ le 2 (Nat.min t.ackLatency 0xFFFF)
    ++ le 2 (Nat.min t.changes 0xFFFF)

def execTwinStatus (now : Tb) (c : CmdRef) (s : State) : Host.Outcome State Fault Refusal :=
  runWork now c (.twinStatus now c) s (fun s _ => done s c (twinStatusBytes s))

/-- TWIN.CHANGE: on a Helm a request under R395, on a Watch a CHANGE_REQ (R406). Its DONE waits for the change; unless the
Watch is IN_STEP it has no effect. -/
def twinChangeOp (s : State) (c : CmdRef) : State :=
  let wait := fun (s : State) => modTwin (waitFor s c) (fun t => { t with changeRefs := t.changeRefs ++ [c] })
  if s.twin.pair ≠ .inStep then refuseState s c 0x05
  else if s.twin.role = .watch then twinSend (wait s) .changeReq
  else if s.twin.role = .helm then requestChange (wait s)
  else refuseState s c 0x05

def execTwinChange (now : Tb) (c : CmdRef) (s : State) : Host.Outcome State Fault Refusal :=
  runWork now c (.twinChange now c) s (fun s _ => twinChangeOp s c)

/-- A stage of TWIN.RESYNC (R401, R404); the last one waits for the Watch's ACK. Log entry 67 (DEDUCED). -/
def twinResyncOp (s : State) (c : CmdRef) (x : Cmd) : State :=
  let stage := 7 - x.stages.length
  if s.twin.pair = .inStep then done s c (le 8 s.tb)
  else if s.twin.role ≠ .helm ∨ ¬ linkUp s ∨ (stage ≠ 1 ∧ s.twin.pair ≠ .resync) then refuseState s c 0x05
  else
    let s := resyncStep s stage
    if lastStage x then modTwin (waitFor s c) (fun t => { t with resyncRef := some c }) else s

def execTwinResync (now : Tb) (c : CmdRef) (s : State) : Host.Outcome State Fault Refusal :=
  runWork now c (.twinResync now c) s (fun s x => twinResyncOp s c x)

/-! ### The link -/

/-- HELLO of this device (R374, R376). -/
def ownHello (s : State) : TwinFrame := .hello (linkRole s) s.twin.term (headSeq s)

/-- A lane gains or loses alignment (R372, R376, R385). Log entry 93 (DEDUCED). -/
def laneOp (s : State) (lane : Fin 2) (aligned : Bool) : State :=
  let was := s.twin.lane0 && s.twin.lane1
  let s := modTwin s (fun t => if lane = 0 then { t with lane0 := aligned } else { t with lane1 := aligned })
  let both := s.twin.lane0 && s.twin.lane1
  if both && !was then
    let fresh := s.twin.role = .starting || s.twin.pair = .noPartner || s.twin.pair = .isolated
    twinSend (if fresh then setPair s .hello else s) (ownHello s)
  else if was && !both then
    let s := modTwin s (fun t => { t with helloDone := false })
    if s.twin.role = .helm then
      if !partnerOnBus s then setPair (endResync s) .noPartner
      else if s.twin.pair = .resync then dropWatch s 0 else s
    else if s.twin.role = .watch ∧ s.twin.pair ≠ .inStep then setPair s .isolated
    else s
  else s

def execLaneAlignmentChange (now : Tb) (lane : Fin 2) (aligned : Bool) (s : State) : Host.Outcome State Fault Refusal :=
  let s := s.at now
  .next (if twinOn s then laneOp s lane aligned else s)

/-- HELLO (R376, R389): the exchange needs both lanes. -/
def execHello (now : Tb) (f : HelloFrame) (s : State) : Host.Outcome State Fault Refusal :=
  let s := s.at now
  .next (if twinOn s && f.ok && s.twin.lane0 && s.twin.lane1 then helloOp s f else s)

def execManifest (now : Tb) (ok : Bool) (r : RingRec) (s : State) : Host.Outcome State Fault Refusal :=
  let s := s.at now
  .next (if twinOn s && decide (s.twin.role = .watch) then manifestOp (if ok then noteLive s else s) ok r else s)

/-- An ACK on the Helm (R379, R382, R383, R401). Log entry 67 (DEDUCED); entry 68 (DESIGN CHOICE). -/
def ackOp (s : State) (seq : Nat) (written : Bool) : State :=
  let s := noteLive s
  if !written then dropWatch s 1
  else
    let s := modTwin s (fun t => { t with
      ackedSeq := Nat.max t.ackedSeq seq,
      ackLatency := if seq = s.ring.lastSealSeq then Nat.max t.ackLatency ((s.tb - s.ring.lastSealTb + 1) / 2)
        else t.ackLatency })
    let s := modRun s (fun sc => if sc.phase = .waitAck ∧ sc.sealSeq = seq then { sc with phase := .emit } else sc)
    if s.twin.resyncStage = 6 ∧ s.twin.pair = .resync ∧ s.twin.resyncAck ≤ seq then resyncDone s else s

def execAck (now : Tb) (seq : Nat) (written : Bool) (s : State) : Host.Outcome State Fault Refusal :=
  let s := s.at now
  .next (if twinOn s && decide (s.twin.role = .helm) then ackOp s seq written else s)

/-- The ACK of a record is more than WATCH_TIMEOUT late; the state holds the seal point of the last sealed scan. -/
def ackLate (s : State) (seq : Nat) : Bool :=
  decide (s.twin.ackedSeq < seq ∧ seq < s.ring.nextSeq)
    && (decide (seq ≠ s.ring.lastSealSeq) || decide (s.ring.lastSealTb + watchTimeout s < s.tb))

/-- In loose mode an ACK more than WATCH_TIMEOUT late drops the Watch (R383). -/
def execLooseAckTimeout (now : Tb) (seq : Nat) (s : State) : Host.Outcome State Fault Refusal :=
  let s := s.at now
  .next (if twinOn s && decide (s.twin.role = .helm ∧ s.twin.pair = .inStep ∧ par s 0x0603 = 0) && ackLate s seq
    then dropWatch s 0 else s)

/-- A Helm has no partner any more: the link is down and neither bus line carries its heartbeats (R385). -/
def partnerGone (s : State) : Bool :=
  decide (s.twin.role = .helm ∧ s.twin.pair ≠ .noPartner) && !linkUp s && !partnerOnBus s

/-- No other frame has been sent for 100 µs (R375); by then a Helm also knows whether its partner is gone (R385).
Log entry 65 (DEDUCED). -/
def execHeartbeatDue (now : Tb) (s : State) : Host.Outcome State Fault Refusal :=
  let s := s.at now
  .next (if twinOn s && decide (s.twin.lastSent + usToTb 100 ≤ s.tb) then
      let s := if partnerGone s then setPair (endResync s) .noPartner else s
      twinSend s (.heartbeat (linkRole s) (pairCode s.twin.pair) s.twin.term (headSeq s)
        (if s.twin.role = .helm then pairTb s s.tb else s.tb))
    else s)

/-- A HEARTBEAT (R370, R375, R391): a Watch tracks the Helm's time base and learns its term. Log entry 66 (DEDUCED). -/
def heartbeatOp (s : State) (f : HeartbeatFrame) : State :=
  let s := noteLive s
  if s.twin.role = .watch ∧ f.role = 1 then
    modTwin (learnTerm s f.term f.headSeq) (fun t => { t with
      offset := (f.senderTb : Int) + Config.twinLatency - s.tb })
  else if s.twin.role = .helm ∧ f.pairState = 4 ∧ s.twin.handoverSent.any (fun x => x.2 = 0) then keepRole s
  else s

def execHeartbeat (now : Tb) (f : HeartbeatFrame) (s : State) : Host.Outcome State Fault Refusal :=
  let s := s.at now
  .next (if twinOn s && f.ok then heartbeatOp s f else s)

def execDrop (now : Tb) (reason : Nat) (s : State) : Host.Outcome State Fault Refusal :=
  let s := s.at now
  .next (if twinOn s && decide (s.twin.role = .watch) then
      let s := setPair (modTwin (noteLive s) (fun t => { t with resyncStage := 0 })) .outOfStep
      log s 0x52 sevAlarm 0x05 (pairCode s.twin.pair) reason []
    else s)

def execConfig (now : Tb) (kind : Nat) (data : List Byte) (s : State) : Host.Outcome State Fault Refusal :=
  let s := s.at now
  .next (if twinOn s && decide (s.twin.role = .watch) then configOp (noteLive s) kind data else s)

/-! ### Change of watch -/

def execHandover (now : Tb) (f : HandoverFrame) (s : State) : Host.Outcome State Fault Refusal :=
  let s := s.at now
  .next (if twinOn s && f.ok && decide (s.twin.role = .watch) then handoverOp (noteLive s) f else s)

def execTaken (now : Tb) (term : Nat) (s : State) : Host.Outcome State Fault Refusal :=
  let s := s.at now
  .next (if twinOn s && decide (s.twin.role = .helm) then takenOp (noteLive s) term else s)

/-- 100 µs after TAKEN the old Helm's outputs are safe (R398); a field die that is not driven any more is left to R427. -/
def execWatchOutputsSafe (now : Tb) (s : State) : Host.Outcome State Fault Refusal :=
  let s := s.at now
  .next (match s.twin.safeAt with
    | none => s
    | some t =>
      if s.tb < t then s
      else
        let s := modTwin s (fun x => { x with safeAt := none })
        if s.field.linkAlive ∧ s.twin.role = .watch then watchOutputs s else s)

def execChangeReq (now : Tb) (s : State) : Host.Outcome State Fault Refusal :=
  let s := s.at now
  .next (if twinOn s && decide (s.twin.role = .helm) then requestChange (noteLive s) else s)

/-! ### Silence, votes, start -/

/-- The Helm has been silent for WATCH_TIMEOUT. -/
def partnerSilent (s : State) : Bool := decide (s.twin.lastLive + watchTimeout s ≤ s.tb)

def execWatchTimeout (now : Tb) (s : State) : Host.Outcome State Fault Refusal :=
  let s := s.at now
  .next (if twinOn s && decide (s.twin.role = .watch) && partnerSilent s then watchSilent s else s)

def execSilenceVoteElapsed (now : Tb) (s : State) : Host.Outcome State Fault Refusal :=
  let s := s.at now
  .next (if twinOn s && decide (s.twin.role = .watch ∧ s.twin.pair = .inStep) && partnerSilent s && !s.twin.lane0
      && !s.twin.lane1 then silenceVote s else s)

def execHelmGivesUp (now : Tb) (s : State) : Host.Outcome State Fault Refusal :=
  let s := s.at now
  .next (if twinOn s && decide (s.twin.role = .helm ∧ s.power.mode ≠ .halt) && partnerSilent s && !ownAcked s 2 then giveUp s
    else s)

/-- The link is not up at TWIN_START_WAIT, or a device still ISOLATED from its start tests again (R390). -/
def execTwinStartWaitExpiry (now : Tb) (s : State) : Host.Outcome State Fault Refusal :=
  let s := s.at now
  .next (if twinOn s && decide (s.twin.role = .starting ∨ (s.twin.role = .watch ∧ s.twin.startTest = true)) && !linkUp s
      && decide (msToTb (par s 0x0606) ≤ s.tb) && decide (s.power.mode ≠ .halt) then startVote s
    else s)

/-! ### Bus heartbeats (R390, R392, R399) -/

def setPairOf {α : Type} (l : Line) (p : α × α) (v : α) : α × α :=
  match l with
  | .a => (v, p.2)
  | .b => (p.1, v)

/-- A partner's heartbeat is heard on a line; a Helm without a partner has one again (R385). -/
def heardOp (s : State) (l : Line) (role term seq : Nat) : State :=
  let s := modTwin s (fun t => { t with
    heardAny := setPairOf l t.heardAny (some s.tb),
    heardHelm := if role = 1 then setPairOf l t.heardHelm (some s.tb) else t.heardHelm,
    heardStart := if role = 0 then setPairOf l t.heardStart (some (s.tb, term, seq)) else t.heardStart })
  if s.twin.role = .helm ∧ s.twin.pair = .noPartner then setPair s .outOfStep else s

/-- A heartbeat counts on a line that takes part in the votes (R393). -/
def heartbeatLine (s : State) (l : Line) : Bool :=
  let b := lineOfBus s l
  b.started && !b.asleep && decide (busP s l 0 ≠ 0) && !collarClosed s (busUnit l)

def execBusHeartbeatReceived (now : Tb) (line : Line) (side role term seq : Nat) (s : State) :
    Host.Outcome State Fault Refusal :=
  let s := s.at now
  .next (if paired s && dieRuns s && heartbeatLine s line && decide (side ≠ twinSide s) then heardOp s line role term seq
    else s)

/-! ### Idle capacity -/

/-- The round that contains a class D slice stays within ROUND_CEILING (R81): what has passed of it, the slice, and the proven
costs and interference of the scans still to run, with a slot and a slice ahead of each but the next. -/
def sliceFits (s : State) : Bool :=
  let x := runningSet s
  let left := if s.sched.roundOpen then s.sched.roundLeft else enabledFree s
  let past := if s.sched.roundOpen then psPerTb * (s.tb - s.sched.roundStart) else 0
  let base := past + usPs x.slice + (left.foldl (fun n t => n + x.cost (taskDef s t)) 0 - x.g)
  left.isEmpty || decide (settle (fun r => base + x.interfere x.fix r) (usPs x.ceiling) settleFuel base ≤ usPs x.ceiling)

/-- Whether a command waits for a class D slice. -/
def wantsSlice (x : Cmd) : Bool :=
  decide (x.phase = .accepted ∨ x.phase = .started) && x.book.isSome && !x.worked && !x.sliced
    && x.stages.head?.any (fun st => decide (st.slice ≠ 0))

/-- The slice goes to the first command that waits for one. -/
def serveSlice (s : State) : State :=
  match s.host.cmds.find? wantsSlice with
  | none => s
  | some x => updCmd s x.ref (fun y => { y with sliced := true })

/-- A class D slice between scans, at most one (R51): the next scan's promise counts it (R58, R81); with DSLICE_LE_MAX 0 none runs
on the engine (R88). A Helm resynchronises its Watch in idle capacity (R387). -/
def execClassDSlice (now : Tb) (s : State) : Host.Outcome State Fault Refusal :=
  let s := s.at now
  .next (if !noScan s || s.power.failing || s.sched.noMoreScans || s.power.mode = .halt
      || (s.sched.sliceDone && scansFollow s) then s
    else
      let s := if par s 0x0207 = 0 ∨ (scansFollow s && !sliceFits s) = true then s
        else serveSlice (modSched s (fun x => { x with
          sliceDone := true, aheadPs := x.aheadPs + usPs (par s 0x0207) }))
      if twinOn s then autoResync s else s)

end Sys2Proof.Machine
end

