-- ==== Sys2Proof/Machine/FieldRows.lean ====
section
/-!
DEFINITION. Digital field I/O: DIO.STATUS, DIO.TEST, and the events of the field die (R410-R435, R723).
-/
namespace Sys2Proof.Machine

open Sys2Proof

/-! ### Inputs (R412-R415) -/

def diP (s : State) (c k : Nat) : Nat := par s (0x1000 + 8 * c + k)

def setDi (s : State) (n : Nat) (f : DiCh → DiCh) : State := modField s (fun x => { x with di := vmod x.di n f })

/-- A threshold voltage of sets 2 and 3 in 0.1 V; 0 takes the set's default (R413). -/
def thresholdV (set v dflt2 dflt3 : Nat) : Nat := if v ≠ 0 then v else if set = 2 then dflt2 else dflt3

/-- Series resistance with the input's own 1.6 kΩ, in Ω. -/
def seriesOhm (set : Nat) : Nat := if set = 2 then 34600 else 57600

/-- The raw class of a current in µA (R412, R413). -/
def rawClass (s : State) (c i : Nat) : Raw :=
  let set := diP s c 0
  let low : Raw := if decide (set ≠ 0) && decide (diP s c 2 = 1) then .broken else .off
  match set with
  | 0 => if 2000 < i then .on else if i < 500 then .off else .between
  | 1 => if 2000 < i then .on else if i < 250 then low else if i < 1500 then .off else .between
  | _ =>
    let on := thresholdV set (diP s c 3) 504 770
    let off := thresholdV set (diP s c 4) 288 440
    let uv := i * seriesOhm set
    if (on * 100 - 7000) * 1000 < uv then .on
    else if i < 250 then low
    else if uv < (off * 100 - 7000) * 1000 then .off else .between

/-- One sample of an input: the counter filter and the break counter (R414, R415). -/
def filterStep (limit : Nat) (raw : Raw) (d : DiCh) : DiCh :=
  let c := match raw with
    | .on => Nat.min (d.c + 1) limit
    | .off | .broken => d.c - 1
    | .between => d.c
  let b := if raw = .broken then Nat.min (d.b + 1) limit else d.b - 1
  { d with
    c, f := if c = limit then true else if c = 0 then false else d.f,
    b, broken := if b = limit then true else if b = 0 then false else d.broken, sampled := true, raw }

/-- The tick of a group (R412). The input under test counts as between thresholds, and the test changes no count (R435). -/
def sampleGroup (s : State) (g : Fin 6) (currents : List Nat) : State :=
  (List.range 8).foldl (fun s k =>
    let n := 8 * g.val + k
    if (vget s.field.di n DiCh.reset).underTest then setDi s n (fun d => { d with raw := .between, sampled := true })
    else setDi s n (filterStep (diP s n 1) (rawClass s n (currents.getD k 0)))) s

/-- Whether an instant lies on a group's tick grid, after its start (R297, R412). Log entry 118 (DEDUCED). -/
def onGrid (s : State) (g : Fin 6) : Bool :=
  let tick := usToTb (par s (0x1180 + 4 * g.val))
  let t0 := vget s.field.grid g.val 0
  decide (t0 < s.tb ∧ (s.tb - t0) % tick = 0)

/-- Currents are in µA, the inputs of the group in ascending order. The field die samples on the group's grid while it is not in
lockout. -/
def execDiSampleTick (now : Tb) (group : Fin 6) (currents : List Nat) (s : State) : Host.Outcome State Fault Refusal :=
  let s := s.at now
  .next (if s.field.lockout || !onGrid s group then s else sampleGroup s group currents)

/-! ### Output diagnosis (R420-R424) -/

def condCode : OutCond → Nat
  | .limit => 1
  | .thermal => 2
  | .openLoad => 3
  | .supplyShort => 4

def condNow (d : DoCh) : OutCond → Bool
  | .limit => d.limit
  | .thermal => d.thermal
  | .openLoad => d.openLoad
  | .supplyShort => d.supplyShort

/-- Whether a condition is looked for on an output as it is commanded (R421, R424). -/
def condLooked (s : State) (lead : Nat) (cond : OutCond) : Bool :=
  let d := doAt s lead
  let en := par s (0x1201 + 8 * lead)
  match cond with
  | .limit => d.on
  | .thermal => true
  | .openLoad =>
    (if d.cmd then decide (1 ≤ en) else decide (en = 2))
      && !(decide (par s (0x1202 + 8 * lead) = 1) && decide (s.tb < s.field.shareBlank))
  | .supplyShort => !d.cmd

/-- A condition enters: LIMIT and THERMAL latch the output off. -/
def condEnter (cond : OutCond) (d : DoCh) : DoCh :=
  match cond with
  | .limit => { d with limit := true, on := false }
  | .thermal => { d with thermal := true, on := false }
  | .openLoad => { d with openLoad := true }
  | .supplyShort => { d with supplyShort := true }

def condLeave (cond : OutCond) (d : DoCh) : DoCh :=
  match cond with
  | .openLoad => { d with openLoad := false }
  | .supplyShort => { d with supplyShort := false }
  | _ => d

/-- The monitored level of an output has held, or has been absent, for its time (R723). Latches clear only by an EMIT
(R422). -/
def diagnoseOp (s : State) (n : Nat) (cond : OutCond) (present : Bool) : State :=
  let lead := gangLead s n
  if s.field.lockout || condNow (doAt s lead) cond = present then s
  else if present then
    if condLooked s lead cond then
      log (setGang s lead (condEnter cond)) 0x67 sevWarning 0x06 lead (condCode cond) []
    else s
  else match cond with
    | .limit | .thermal => s
    | _ => log (setGang s lead (condLeave cond)) 0x68 sevNotice 0x06 lead (condCode cond) []

def execOutputDiagnosis (now : Tb) (output : Fin 24) (cond : OutCond) (present : Bool) (s : State) :
    Host.Outcome State Fault Refusal :=
  .next (diagnoseOp (s.at now) output.val cond present)

/-! ### DIO.TEST (R435) -/

/-- The result bytes of a test that did not complete. -/
def testNone : List Byte := [2, 0, 0, 0]

/-- The test in progress ends without completion. -/
def abandonTest (s : State) : State :=
  match s.field.test with
  | none => s
  | some x =>
    doneNow (setDi (modField s (fun f => { f with test := none })) x.channel (fun d => { d with underTest := false }))
      x.ref testNone

/-- Log entry 70 (DEDUCED). -/
def dioTestOp (s : State) (c : CmdRef) (kind channel : Nat) : State :=
  if s.field.test.isSome then done s c testNone
  else if kind = 0 ∧ (latched (doAt s channel) ∨ s.field.cut = true) then done s c testNone
  else
    let s := modField (waitFor s c) (fun f => { f with test := some { ref := c, kind, channel } })
    if kind = 1 then setDi s channel (fun d => { d with underTest := true }) else s

def execDioTest (now : Tb) (c : CmdRef) (kind channel : Nat) (s : State) : Host.Outcome State Fault Refusal :=
  runLast now c (.dioTest now c kind channel) s (fun s =>
    match closingEntry s 6 with
    | some e => abortedBy s c 6 e.2.1
    | none => dioTestOp s c kind channel)

/-- The end of a test: kind 0 judges the pin voltage in mV unless the output has been latched off meanwhile, kind 1 the
classification of the two currents. Log entry 70 (DEDUCED). -/
def testEndOp (s : State) (measured : Int) (offSeen onSeen : Bool) : State :=
  match s.field.test with
  | none => s
  | some x =>
    let s := modField s (fun f => { f with test := none })
    if x.kind = 0 then
      let d := doAt s x.channel
      if latched d then doneNow s x.ref testNone
      else
      let pass := if d.on then decide (measured < 3000) else decide ((s.field.vfld : Int) - 1500 < measured)
      doneNow s x.ref ((if pass then 0 else 1) :: leInt 3 measured)
    else
      let s := setDi s x.channel (fun d => { d with underTest := false })
      doneNow s x.ref ([if offSeen && onSeen then 0 else 1] ++ leInt 2 measured
        ++ [BitVec.ofNat 8 (boolBit offSeen + 2 * boolBit onSeen)])

def execDioTestEnd (now : Tb) (measured : Int) (offSeen onSeen : Bool) (s : State) : Host.Outcome State Fault Refusal :=
  .next (testEndOp (s.at now) measured offSeen onSeen)

/-! ### DIO.STATUS (R434) -/

def dioInputByte (s : State) (n : Nat) : Byte :=
  let d := vget s.field.di n DiCh.reset
  BitVec.ofNat 8 (boolBit d.f + 2 * (tagQ (diItem s n).tag).toNat + 8 * boolBit (decide (d.raw = .on) && d.sampled)
    + 16 * boolBit ((decide (d.raw = .off) || decide (d.raw = .broken)) && d.sampled))

def dioOutputByte (s : State) (n : Nat) : Byte :=
  let d := doAt s n
  BitVec.ofNat 8 (boolBit d.on + 2 * (deliveredQ s n).toNat + 8 * boolBit d.limit + 16 * boolBit d.thermal
    + 32 * boolBit d.openLoad + 64 * boolBit d.supplyShort + 128 * boolBit (decide (doGang s n ≠ 0)))

def dioStatusBytes (s : State) : List Byte :=
  (List.range 48).map (dioInputByte s) ++ (List.range 24).map (dioOutputByte s) ++ le 2 s.field.vfld

def execDioStatus (now : Tb) (c : CmdRef) (s : State) : Host.Outcome State Fault Refusal :=
  runWork now c (.dioStatus now c) s (fun s _ => done s c (dioStatusBytes s))

/-! ### VFLD (R428-R432, R723) -/

/-- A level that must hold: the instant of the first sample that found it, and whether the time has passed. -/
def holds (now : Nat) (level : Bool) (since : Option Nat) (span : Nat) : Option Nat × Bool :=
  if !level then (none, false)
  else
    let t := since.getD now
    (some t, decide (t + span ≤ now))

/-- Cut-off begins: every output off, any stagger ended, a test not completed (R428, R430, R431, R435). -/
def enterCut (s : State) : State :=
  let s := modField s (fun f => { f with
    cut := true, do_ := f.do_.map (fun d => { d with on := false }), turns := [], safeTurns := [], restoring := false,
    needEmit := 7 })
  let s := match s.field.test with
    | some x => if x.kind = 0 then abandonTest s else s
    | none => s
  log s 0x62 sevAlarm 0x06 0 0 (le 2 s.field.vfld)

/-- Cut-off ends: the outputs wait for their owners' EMIT, or take the safe values in turn (R430). -/
def leaveCut (s : State) : State :=
  let s := log (modField s (fun f => { f with cut := false })) 0x63 sevNotice 0x06 0 0 (le 2 s.field.vfld)
  if s.field.safe.isNone then s
  else
    let turns := (gangLeads s).filter (fun n => (doAt s n).cmd && mayEnergise s n)
    modField s (fun f => { f with turns, restoring := !turns.isEmpty, needEmit := 0 })

/-- Lockout: the collar of the field die closes with those of the display and the islands, and the field die stops (R12, R432).
Log entry 69 (DEDUCED). -/
def enterLockout (s : State) : State :=
  let s := closeUnit s 6 2 none
  let s := if s.field.cut then s else enterCut s
  let s := log s 0x64 sevAlarm 0x06 0 0 (le 2 s.field.vfld)
  let s := modField s (fun f => { f with
    lockout := true, do_ := f.do_.map (fun d => { d with on := false }), turns := [], safeTurns := [], restoring := false,
    warnSince := none, cutSince := none })
  anaLockout (displayDownOp s)

/-- Warning, entered below 18.0 V and left at or above it, for 1 ms each. -/
def vfldWarn (s : State) (mv : Nat) : State :=
  let (since, yes) := holds s.tb (if s.field.warn then decide (18000 ≤ mv) else decide (mv < 18000)) s.field.warnSince
    (msToTb 1)
  let s := modField s (fun f => { f with warnSince := if yes then none else since })
  if !yes then s
  else if s.field.warn then log (modField s (fun f => { f with warn := false })) 0x61 sevNotice 0x06 0 0 (le 2 mv)
  else log (modField s (fun f => { f with warn := true })) 0x60 sevWarning 0x06 0 0 (le 2 mv)

/-- Cut-off, entered below 14.0 V for 200 µs and left above 17.0 V for 10 ms. -/
def vfldCut (s : State) (mv : Nat) : State :=
  let (since, yes) := holds s.tb (if s.field.cut then decide (17000 < mv) else decide (mv < 14000)) s.field.cutSince
    (if s.field.cut then msToTb 10 else usToTb 200)
  let s := modField s (fun f => { f with cutSince := if yes then none else since })
  if !yes then s else if s.field.cut then leaveCut s else enterCut s

/-- A sample of VFLD in mV. In lockout the field die does nothing until its restart. -/
def vfldOp (s : State) (mv : Nat) : State :=
  let s := modField s (fun f => { f with vfld := mv })
  if s.field.lockout then s
  else if mv < 8000 then enterLockout s
  else vfldCut (vfldWarn s mv) mv

def execVfldSample (now : Tb) (mv : Nat) (s : State) : Host.Outcome State Fault Refusal := .next (vfldOp (s.at now) mv)

/-- The field die restarts above 8.5 V (R432): nothing kept, its islands and display restarted, its collar open again. Its
outputs wait in cut-off until VFLD has been above 17.0 V for 10 ms. Log entry 69 (DEDUCED). -/
def fieldRestart (s : State) : State :=
  let s := log (modField s (fun f => { f with lockout := false })) 0x65 sevNotice 0x06 0 0 (le 2 s.field.vfld)
  let s := modField s (fun f => { f with
    di := Vector.replicate 48 DiCh.reset, do_ := Vector.replicate 24 DoCh.reset, grid := Vector.replicate 6 s.tb,
    cut := true, safe := none, safeTurns := [], turns := [], restoring := false, needEmit := 7, safeVals := 0 })
  let s := modDsp s (fun d => { d with
    frame := blankFrame, crc := crc16 blankFrame, update := none, switches := true,
    rewrite := if dspP s 0 = 2 then some 2 else d.rewrite })
  let s := (List.range 8).foldl (fun s c =>
    modAna (anaRestart s c) c (fun a => { a with relayNext := s.power.opsec + anaP s c 0x12 })) s
  reopenUnit (if dieRuns s then loadSafeVals s else s) 6

def execFieldDieRestart (now : Tb) (s : State) : Host.Outcome State Fault Refusal :=
  let s := s.at now
  .next (if s.field.lockout && decide (8500 < s.field.vfld) then fieldRestart s else s)

/-! ### The safe state and the staggers (R425-R431) -/

/-- The silence timeout stands since the pause frame, which has extended it once by 1 ms (R672). -/
def silencePaused (s : State) : Bool :=
  s.field.pauseAt.any (fun t => decide (s.tb < t + msToTb (par s 0x1301) + msToTb 1))

/-- T_SILENCE without a link frame: the logic side sends frames as long as it drives the field link (R425).
Log entry 69 (DEDUCED). -/
def execFieldLinkSilence (now : Tb) (s : State) : Host.Outcome State Fault Refusal :=
  let s := s.at now
  .next (if s.field.linkAlive && !fieldLinkDown s || silencePaused s then s else applySafe s 1)

/-- The next output or gang with safe value 1 is switched on (R426). Log entry 69 (DEDUCED). -/
def execSafeStateStaggerStep (now : Tb) (s : State) : Host.Outcome State Fault Refusal :=
  let s := s.at now
  .next (match s.field.safeTurns with
    | [] => s
    | n :: rest =>
      if s.field.cut || s.field.lockout then s
      else energiseTurn (modField s (fun f => { f with safeTurns := rest })) n)

/-- The next output or gang of a restore is switched on (R430). -/
def execRestoreStaggerStep (now : Tb) (s : State) : Host.Outcome State Fault Refusal :=
  let s := s.at now
  .next (match s.field.turns with
    | [] => s
    | n :: rest =>
      if s.field.cut || s.field.lockout then s
      else energiseTurn (modField s (fun f => { f with turns := rest, restoring := !rest.isEmpty })) n)

end Sys2Proof.Machine
end

