-- ==== Sys2Proof/Machine/AnaRows.lean ====
section
/-!
DEFINITION. The analogue islands: output updates, samples, temperature, relay calibration and trim, loop conditions, mode
changes, and their commands (R443-R464, R475, R476, R479). Measured values given by events are in nA, after the factory
coefficients of R444.
-/
namespace Sys2Proof.Machine

open Sys2Proof

/-- The island has supply and runs its own work: no lockout, its collar open. -/
def anaOn (s : State) (c : Nat) : Bool := !s.field.lockout && !islandDown s c

/-! ### Output updates (R295, R296, R450, R452, R460, R461, R466, R468) -/

/-- The period of an output update in µs (ANA_UPD_RATE). -/
def updPeriod (s : State) (c : Nat) : Nat :=
  match anaP s c 0x10 with
  | 0 => 1000
  | 1 => 500
  | 2 => 200
  | _ => 100

/-- Move toward a target by at most a step; a step of 0 reaches it at once. -/
def moveBy (step : Nat) (target v : Int) : Int :=
  if step = 0 then target
  else if v ≤ target then (if target - v ≤ step then target else v + step)
  else if v - target ≤ step then target else v - step

/-- Where the current goes: a HART field device parks its loop at 4 mA (R468), otherwise the set-point.
Log entry 59 (DEDUCED). -/
def moveTarget (s : State) (c : Nat) (a : Island) : Int :=
  if anaP s c 0x14 = 1 ∧ a.mode = .sink then 4000000 else a.setPoint

/-- One step of a blend of coefficients, with the steps left (R452). -/
def blendStep (u t : Trim) (left : Nat) : Trim :=
  if left ≤ 1 then t else ⟨u.z + (t.z - u.z) / left, u.g + (t.g - u.g) / left⟩

/-- The trim of a stage in the present band. Log entry 57 (DEDUCED). -/
def stageTrim (a : Island) (b : Bool) : Trim := vget (if b then a.trimB else a.trimA) a.band Trim.zero

/-- The current after one update. A current of 1 µA/ms is 1 nA/µs. -/
def nextCurrent (s : State) (c : Nat) (a : Island) : Island :=
  let t := updPeriod s c
  let target := moveTarget s c a
  if a.pass then { a with current := 22500000 }
  else if a.hold ∨ (a.comply ∧ a.headroomMv < 500) then a
  else if a.crossing then
    let v := moveBy (a.xrate * t) target a.current
    { a with current := v, crossing := decide (v ≠ target), segFrom := v, segAt := 0 }
  else if a.safeMove ∨ anaP s c 0xB = 0 ∨ target ≠ a.setPoint then
    let v := moveBy (anaP s c 0xC * t) target a.current
    { a with current := v, safeMove := a.safeMove && decide (v ≠ target) }
  else
    let at_ := a.segAt + t
    let d := anaP s c 0xD
    if d ≤ at_ then { a with current := target, segAt := d, segFrom := target }
    else { a with segAt := at_, current := a.segFrom + (target - a.segFrom) * at_ / d }

/-- Log entry 57 (DEDUCED). -/
def outputUpdate (s : State) (c : Nat) : State :=
  let a := island s c
  let a := { a with
    useTrim := if a.blendLeft = 0 ∨ a.mode = .input then a.useTrim else blendStep a.useTrim (stageTrim a a.stageB) a.blendLeft,
    blendLeft := a.blendLeft - 1 }
  modAna s c (fun _ =>
    if a.mode = .input ∨ (a.mode = .changing ∧ ¬ a.crossing) then a else nextCurrent s c a)

def execAnaOutputUpdate (now : Tb) (ch : Fin 8) (s : State) : Host.Outcome State Fault Refusal :=
  let s := s.at now
  .next (if anaOn s ch.val then outputUpdate s ch.val else s)

/-! ### Samples (R443, R444, R457, R296) -/

/-- A code under the trim of a sense path: I = (code − Z) × G. Log entry 57 (DEDUCED). -/
def trimmed (t : Trim) (code : Int) : Int := roundDiv ((code - t.z) * (1000000 + t.g)) 1000000

/-- The coefficients of a sample: in input mode the active stage is the sense path, which blends over the samples (R452,
R453). Log entry 57 (DEDUCED). -/
def senseTrim (a : Island) : Trim :=
  if a.mode = .input ∧ a.measLeft ≠ 0 then blendStep a.useTrim (stageTrim a a.stageB) a.measLeft else a.useTrim

/-- A completed sample. -/
def sampleOp (s : State) (c : Nat) (code : Int) : State :=
  modAna s c (fun a => { a with
    useTrim := senseTrim a, meas := if a.mode = .input then trimmed (senseTrim a) code else code,
    sampled := decide (a.mode ≠ .changing), uncertainNow := a.uncertainNext, uncertainNext := false,
    measLeft := a.measLeft - 1 })

def execAnaSample (now : Tb) (ch : Fin 8) (code : Int) (s : State) : Host.Outcome State Fault Refusal :=
  let s := s.at now
  .next (if anaOn s ch.val then sampleOp s ch.val code else s)

/-! ### Outcomes of ANA.RELAY and ANA.TRIM (R475, R476) -/

/-- The trim that waits on an island ends with a result byte. -/
def trimResult (s : State) (c result : Nat) : State :=
  match (island s c).trimRef with
  | none => s
  | some r =>
    doneNow (modAna s c (fun a => { a with trimRef := none, trimSecond := false })) r
      (BitVec.ofNat 8 result :: List.replicate 7 0)

/-- The mask of ANA.RELAY: channels whose handover completed, once none of its channels is open. Log entry 58 (DEDUCED). -/
def finishRelay (s : State) (r : CmdRef) : State :=
  let mine := (List.range 8).filterMap (fun c =>
    match (island s c).relayRef with
    | some (x, o) => if x = r then some (c, o) else none
    | none => none)
  if mine.any (fun x => decide (x.2 = 0)) then s
  else
    let mask := mine.foldl (fun m x => m + 2 ^ x.1 * boolBit (decide (x.2 = 1))) 0
    let s := mine.foldl (fun s x => modAna s x.1 (fun a => { a with relayRef := none })) s
    doneNow s r [BitVec.ofNat 8 mask]

/-- The relay calibration of a channel ends for ANA.RELAY: 1 handed over, 2 not. -/
def relayOutcome (s : State) (c o : Nat) : State :=
  match (island s c).relayRef with
  | none => s
  | some (r, _) => finishRelay (modAna s c (fun a => { a with relayRef := some (r, o) })) r

/-- A calibration is discarded and starts again after some seconds (R456). -/
def discardCal (s : State) (c wait : Nat) : State :=
  let s := modAna s c (fun a => { a with
    step := none, calReady := false, failOver := false, relayNext := s.power.opsec + wait })
  relayOutcome (trimResult s c 2) c 2

/-! ### Stages out of service (R455, R457, R458) -/

def stageFault (a : Island) (b : Bool) : Bool := if b then a.faultB else a.faultA

def setStageFault (s : State) (c : Nat) (b v : Bool) : State :=
  if stageFault (island s c) b = v then s
  else
    let s := modAna s c (fun a => if b then { a with faultB := v } else { a with faultA := v })
    log s (if v then 0x70 else 0x71) (if v then sevAlarm else sevNotice) 0x06 c (if b then 4 else 3) []

def setChFault (s : State) (c : Nat) (v : Bool) : State :=
  if (island s c).chFault = v then s
  else log (modAna s c (fun a => { a with chFault := v })) (if v then 0x70 else 0x71) (if v then sevAlarm else sevNotice)
    0x06 c 5 []

/-! ### Temperature (R451, R452, R456) -/

def anaBounds (s : State) : List Int := (List.range 7).map (fun j => parInt s (0x1602 + j))

def temperatureOp (s : State) (c : Nat) (t : Int) : State :=
  let a := island s c
  let b := bandStep (anaBounds s) a.band t
  let s := modAna s c (fun a => { a with temp := t })
  if b = a.band then s
  else
    let s := modAna s c (fun a => { a with band := b, blendLeft := 256, measLeft := 256 })
    if a.step.isSome ∧ ¬ a.failOver then discardCal s c 10 else s

def execIslandTemperatureSample (now : Tb) (ch : Fin 8) (tenths : Int) (s : State) : Host.Outcome State Fault Refusal :=
  let s := s.at now
  .next (if anaOn s ch.val then temperatureOp s ch.val tenths else s)

/-! ### HART frames on the wire -/

/-- The longitudinal check byte: the exclusive or of the frame's bytes. Log entry 51 (PRESUMED). -/
def hartCheck (bs : List Byte) : Byte := bs.foldl (· ^^^ ·) 0

/-- Send a frame with its check byte; the island adds the preambles. -/
def hartSend (s : State) (c : Nat) (frame : List Byte) : State :=
  modAna s c (fun a => { a with hartBusy := true, hartSent := frame ++ [hartCheck frame] })

/-- The first waiting host frame is sent when nothing is on the wire and no handover step 5 runs (R473). -/
def hartHostNext (s : State) (c : Nat) : State :=
  let a := island s c
  match a.hartQueue with
  | [] => s
  | (_, frame) :: _ =>
    if a.hartBusy ∨ a.step = some 5 then s
    else hartSend (modAna s c (fun a => { a with hartHost := true })) c frame

/-! ### Relay calibration (R453-R458) -/

/-- The conditions that block step 4 (R456). -/
def relayBlocked (a : Island) : Bool := a.open_ || a.comply || decide (a.mode = .changing) || a.hartBusy

def startCal (s : State) (c : Nat) : State :=
  modAna s c (fun a => { a with step := some 1, calReady := false, newTrim := Trim.zero, failOver := false })

/-- A calibration that is due (R453, R455): not beside another, nor with a stage out of service, nor in a mode change. -/
def calDue (s : State) (c : Nat) : Bool :=
  let a := island s c
  decide (anaP s c 0x12 ≠ 0) && a.step.isNone && !a.faultA && !a.faultB && decide (a.mode ≠ .changing)
    && decide (a.relayNext ≤ s.power.opsec)

def execRelayCalibrationDue (now : Tb) (ch : Fin 8) (s : State) : Host.Outcome State Fault Refusal :=
  let s := s.at now
  .next (if anaOn s ch.val && calDue s ch.val then startCal s ch.val else s)

/-- Limits of R455 on a correction from the factory coefficients. Log entry 58 (DEDUCED). -/
def trimOk (t : Trim) : Bool := decide (t.z.natAbs ≤ 120000) && decide (t.g.natAbs ≤ 5000)

/-- The gain correction in ppm that brings a current measured at 20.000 mA there, after its offset. -/
def gainOf (z measured : Int) : Int := roundDiv ((20000000 - (measured - z)) * 1000000) (measured - z)

/-- A stage takes its corrections for the present band. -/
def setTrim (s : State) (c : Nat) (b : Bool) (t : Trim) : State :=
  modAna s c (fun a => if b then { a with trimB := vset a.trimB a.band t } else { a with trimA := vset a.trimA a.band t })

/-- The group of the trim mark of a channel in its present band (R446). -/
def trimMark (s : State) (c : Nat) : List PWrite :=
  let a := island s c
  let ta := stageTrim a false
  let tb := stageTrim a true
  [{ kind := .mark, scope := globalScope, key := markTrim c a.band,
     body := some (leInt 4 ta.z ++ leInt 4 ta.g ++ leInt 4 tb.z ++ leInt 4 tb.g ++ le 8 s.clock.sec) }]

/-- Relay calibration writes the mark as housekeeping, at most once per hour for a channel and band (R446). -/
def housekeepMark (s : State) (c : Nat) : State :=
  let a := island s c
  let due := match vget a.markAt a.band none with
    | none => true
    | some t => decide (t + 3600 ≤ s.power.opsec)
  if !due || !dieRuns s then s
  else match groupWrite s (trimMark s c) with
    | none => s
    | some s => modAna s c (fun a => { a with markAt := vset a.markAt a.band (some s.power.opsec) })

/-- Step 4 begins when nothing blocks it. -/
def tryStep4 (s : State) (c : Nat) : State :=
  if relayBlocked (island s c) then s else modAna s c (fun a => { a with step := some 4, calReady := false })

/-- Steps 1 to 3 are done with acceptable corrections of the idle stage. Log entry 58 (DEDUCED). -/
def calPassed (s : State) (c : Nat) : State :=
  let a := island s c
  let idle := !a.stageB
  let s := setTrim s c idle a.newTrim
  let s := modAna s c (fun x => { x with lastOff := a.newTrim.z, lastGain := a.newTrim.g })
  if a.trimRef.isSome then
    let s := setChFault (setStageFault s c idle false) c false
    if a.trimSecond then
      let s := modAna s c (fun x => { x with step := none, calReady := false })
      match groupWrite s (trimMark s c) with
      | none => trimResult s c 3
      | some s => trimResult s c 0
    else tryStep4 (modAna s c (fun x => { x with calReady := true })) c
  else tryStep4 (modAna s c (fun x => { x with calReady := true })) c

/-- A correction beyond R455 takes the idle stage out of service. -/
def calFailed (s : State) (c : Nat) : State :=
  let idle := !(island s c).stageB
  let s := setStageFault (modAna s c (fun a => { a with step := none, calReady := false })) c idle true
  relayOutcome (trimResult s c 1) c 2

/-- The loop has moved to the other stage: the former one is idle (step 6). -/
def handedOver (s : State) (c : Nat) : State :=
  let a := island s c
  let s := modAna s c (fun a => { a with step := none, calReady := false, failOver := false, aborts := 0 })
  if a.failOver then setStageFault s c (!a.stageB) true
  else
    let s := modAna s c (fun x => { x with
      relayDone := s.power.opsec, relayNext := s.power.opsec + anaP s c 0x12, calCount := x.calCount + 1 })
    if a.trimRef.isSome then startCal (modAna s c (fun x => { x with trimSecond := true })) c
    else relayOutcome (housekeepMark s c) c 1

/-- A timed step ends with the current measured in it. -/
def stepEnd (s : State) (c : Nat) (measured : Int) : State :=
  let a := island s c
  match a.step with
  | none => s
  | some 1 => modAna s c (fun a => { a with step := some 2 })
  | some 2 => modAna s c (fun a => { a with step := some 3, newTrim := { a.newTrim with z := measured - 4000000 } })
  | some 3 =>
    if a.calReady then tryStep4 s c
    else
      let t : Trim := { a.newTrim with g := gainOf a.newTrim.z measured }
      let s := modAna s c (fun a => { a with newTrim := t })
      if trimOk t then calPassed s c else calFailed s c
  | some 4 => modAna s c (fun a => { a with step := some 5 })
  | some 5 =>
    let s := modAna s c (fun a => { a with
      step := some 6, stageB := !a.stageB, useTrim := stageTrim a (!a.stageB), blendLeft := 0 })
    hartHostNext s c
  | some _ => handedOver s c

def execRelayCalibrationStepEnd (now : Tb) (ch : Fin 8) (measured : Int) (s : State) : Host.Outcome State Fault Refusal :=
  let s := s.at now
  .next (if anaOn s ch.val then stepEnd s ch.val measured else s)

/-- The loop deviates in step 5 (R457): the share returns to the former stage. Log entry 58 (DEDUCED). -/
def abortOp (s : State) (c : Nat) : State :=
  let a := island s c
  if a.step ≠ some 5 then s
  else
    let twice := decide (1 ≤ a.aborts)
    let s := modAna s c (fun a => { a with
      step := none, failOver := false, uncertainNext := true, aborts := if twice then 0 else a.aborts + 1,
      relayNext := s.power.opsec + anaP s c 0x12 })
    let s := if twice then setStageFault s c (!a.stageB) true else s
    hartHostNext (relayOutcome (trimResult s c (if twice then 1 else 2)) c 2) c

def execHandoverAbort (now : Tb) (ch : Fin 8) (s : State) : Host.Outcome State Fault Refusal :=
  let s := s.at now
  .next (if anaOn s ch.val then abortOp s ch.val else s)

/-- Step 4 stays blocked for 1 s (R456). -/
def execRelayHandoverBlocked (now : Tb) (ch : Fin 8) (s : State) : Host.Outcome State Fault Refusal :=
  let s := s.at now
  let a := island s ch.val
  .next (if anaOn s ch.val && decide (a.step = some 3) && a.calReady then discardCal s ch.val 10 else s)

/-- The active stage deviates for 10 ms (R458): steps 4 to 6 hand the loop over, once nothing blocks step 4 (R456). -/
def stageFailOp (s : State) (c : Nat) : State :=
  let a := island s c
  if ¬ isOutputMode a.mode ∨ a.open_ ∨ a.failOver ∨ a.step = some 5 ∨ a.step = some 6 then s
  else if stageFault a (!a.stageB) then setChFault s c true
  else
    let s := relayOutcome (trimResult s c 2) c 2
    tryStep4 (modAna s c (fun a => { a with step := some 3, calReady := true, failOver := true })) c

def execActiveStageFailure (now : Tb) (ch : Fin 8) (s : State) : Host.Outcome State Fault Refusal :=
  let s := s.at now
  .next (if anaOn s ch.val then stageFailOp s ch.val else s)

/-! ### Loop conditions (R459-R461) -/

def execLoopOpen (now : Tb) (ch : Fin 8) (present : Bool) (s : State) : Host.Outcome State Fault Refusal :=
  let s := s.at now
  let c := ch.val
  .next (if !anaOn s c || (island s c).open_ = present then s
    else log (modAna s c (fun a => { a with open_ := present })) (if present then 0x70 else 0x71)
      (if present then sevWarning else sevNotice) 0x06 c 1 [])

/-- A headroom that is too low holds the stage at dropout, at the current that the loop allows; when it returns the current
moves to the set-point at ANA_RAMP, and the condition clears once it has arrived. Log entry 58 (DEDUCED). -/
def headroomOp (s : State) (c : Nat) (mv : Int) (present : Bool) : State :=
  let a := island s c
  let s := modAna s c (fun a => { a with headroomMv := mv, safeMove := a.safeMove || (a.comply && decide (500 ≤ mv)) })
  if ¬ isOutputMode a.mode then s
  else if present then
    if a.comply ∨ 500 ≤ mv then s
    else log (modAna s c (fun a => { a with comply := true, current := if a.meas < a.current then a.meas else a.current }))
      0x70 sevWarning 0x06 c 2 []
  else if a.comply ∧ 1000 ≤ mv ∧ a.current = moveTarget s c a then
    log (modAna s c (fun a => { a with comply := false })) 0x71 sevNotice 0x06 c 2 []
  else s

def execComplianceLack (now : Tb) (ch : Fin 8) (headroomMv : Int) (present : Bool) (s : State) :
    Host.Outcome State Fault Refusal :=
  let s := s.at now
  .next (if anaOn s ch.val then headroomOp s ch.val headroomMv present else s)

/-! ### Mode change (R296) -/

/-- The stages are switched: the new mode starts from its least current. Log entry 55 (DEDUCED). -/
def modeChanged (s : State) (c : Nat) : State :=
  let a := island s c
  if a.mode ≠ .changing ∨ a.crossing = true then s
  else
    let m := a.nextMode
    let s := modAna s c (fun a => { a with
      mode := m, current := floorCurrent m, setPoint := floorCurrent m, segFrom := floorCurrent m, segAt := 0,
      hold := false, safeMove := false, pass := false, sampled := false, open_ := false, comply := false,
      clamped := false })
    if s.field.safe.isSome ∨ s.twin.role = .watch then anaSafe s c else s

def execModeChangeComplete (now : Tb) (ch : Fin 8) (s : State) : Host.Outcome State Fault Refusal :=
  let s := s.at now
  .next (if anaOn s ch.val then modeChanged s ch.val else s)

/-! ### Commands -/

/-- The collar that keeps an island, or the field die, absent. -/
def anaClosed (s : State) (cs : List Nat) : Option (Nat × Nat) :=
  cs.findSome? (fun c => (closingEntry s (0x10 + c)).map (fun e => (0x10 + c, e.2.1)))

/-- Log entry 56 (DESIGN CHOICE). -/
def execAnaStatus (now : Tb) (c : CmdRef) (s : State) : Host.Outcome State Fault Refusal :=
  runWork now c (.anaStatus now c) s (fun s _ =>
    done { s with freeIdx := s.freeIdx + 8 } c ((List.range 8).flatMap (anaBlock s)))

/-- ANA.TRIM (R476): a channel in a mode change, or one whose trim is in progress, does not complete. -/
def anaTrimOp (s : State) (c : CmdRef) (ch : Nat) : State :=
  match anaClosed s [ch] with
  | some (u, cause) => abortedBy s c u cause
  | none =>
    let a := island s ch
    if a.mode = .changing ∨ a.trimRef.isSome ∨ a.failOver then done s c (2 :: List.replicate 7 0)
    else
      let s := relayOutcome s ch 2
      startCal (modAna (waitFor s c) ch (fun a => { a with trimRef := some c, trimSecond := false })) ch

def execAnaTrim (now : Tb) (c : CmdRef) (channel kind : Nat) (s : State) : Host.Outcome State Fault Refusal :=
  runLast now c (.anaTrim now c channel kind) s (fun s => anaTrimOp s c channel)

/-- Start, or join, the calibration of one channel of ANA.RELAY. Log entry 58 (DEDUCED). -/
def relayStart (c : CmdRef) (s : State) (ch : Nat) : State :=
  let a := island s ch
  if a.mode = .changing ∨ a.relayRef.isSome ∨ a.trimRef.isSome ∨ a.failOver ∨ a.faultA ∨ a.faultB then s
  else
    let s := modAna s ch (fun a => { a with relayRef := some (c, 0) })
    if a.step.isSome then s else startCal s ch

/-- ANA.RELAY (R475). -/
def anaRelayOp (s : State) (c : CmdRef) (mask : BitVec 8) : State :=
  let chs := (List.range 8).filter (fun ch => mask.getLsbD ch)
  match anaClosed s chs with
  | some (u, cause) => abortedBy s c u cause
  | none => finishRelay (chs.foldl (relayStart c) (waitFor s c)) c

def execAnaRelay (now : Tb) (c : CmdRef) (mask : BitVec 8) (s : State) : Host.Outcome State Fault Refusal :=
  runLast now c (.anaRelay now c mask) s (fun s => anaRelayOp s c mask)

end Sys2Proof.Machine
end

