-- ==== Sys2Proof/Machine/HartRows.lean ====
section
/-!
DEFINITION. HART on the islands (R467-R474): the primary master's polls and replies, the field device's answers, ANA.HART.
Frames run from the delimiter to the check byte; the layouts of addresses and of command data are those of the HART
protocol (log entry 51).
-/
namespace Sys2Proof.Machine

open Sys2Proof

/-! ### Frames -/

/-- Address bytes of a frame: five in a long one, one in a short one. Log entry 51 (PRESUMED). -/
def hartAddrLen (fr : List Byte) : Nat := if (fr.getD 0 0).getLsbD 7 then 5 else 1

def hartAddr (fr : List Byte) : List Byte := slice fr 1 (hartAddrLen fr)
def hartCmd (fr : List Byte) : Nat := field fr (1 + hartAddrLen fr) 1
def hartCount (fr : List Byte) : Nat := field fr (2 + hartAddrLen fr) 1
def hartData (fr : List Byte) : List Byte := slice fr (3 + hartAddrLen fr) (hartCount fr)

/-- A frame is whole and its check byte verifies. Log entry 51 (PRESUMED). -/
def hartOkFrame (fr : List Byte) : Bool :=
  decide (fr.length = 4 + hartAddrLen fr + hartCount fr) && decide (hartCheck fr = 0)

/-- A 32-bit number, high byte first. -/
def be4 (v : BitVec 32) : List Byte := (le 4 v.toNat).reverse
def unbe4 (bs : List Byte) : BitVec 32 := BitVec.ofNat 32 (unle bs.reverse)

/-! ### Primary master (R471-R473) -/

/-- The cyclic frame: command 0 at polling address 0 until the device is identified, then command 3 in long frames.
Log entry 51 (PRESUMED). -/
def pollFrame (a : Island) : List Byte :=
  match a.hartLong with
  | none => [0x02, 0x80, 0, 0]
  | some addr => [0x82] ++ addr ++ [3, 0]

/-- A poll begins unless a frame is on the wire or a handover step 5 runs. -/
def hartPollOp (s : State) (c : Nat) : State :=
  let a := island s c
  if !hartMaster s c || a.hartBusy || decide (a.step = some 5) then s
  else hartSend (modAna s c (fun a => { a with hartTries := 0, hartHost := false })) c (pollFrame a)

def execHartPoll (now : Tb) (ch : Fin 8) (s : State) : Host.Outcome State Fault Refusal :=
  let s := s.at now
  .next (if anaOn s ch.val then hartPollOp s ch.val else s)

/-- The long address that command 0 identifies: the device type with the primary master's bit, and the device ID.
Log entry 51 (PRESUMED). -/
def longAddress (data : List Byte) : List Byte :=
  [BitVec.ofNat 8 (field data 3 1 % 64 + 128), data.getD 4 0] ++ slice data 11 3

/-- The dynamic variables of a command 3 reply: after the loop current, a unit and a value each. Log entry 51 (PRESUMED). -/
def dynamicVars (data : List Byte) : List (Option (BitVec 32)) :=
  (List.range 4).map (fun v =>
    let off := 6 + 5 * v
    if off + 5 ≤ data.length then some (unbe4 (slice data (off + 1) 4)) else none)

/-- A reply to the frame on the wire: whole, checked, an acknowledge of the same command and address, and not a report of a
communication error. -/
def replyValid (a : Island) (fr : List Byte) : Bool :=
  let req := a.hartSent
  hartOkFrame fr && decide (fr.getD 0 0 &&& 0x07 = 0x06) && decide (hartAddrLen fr = hartAddrLen req)
    && decide ((hartAddr fr).map (· &&& 0x7F) = (hartAddr req).map (· &&& 0x7F)) && decide (hartCmd fr = hartCmd req)
    && decide (2 ≤ hartCount fr) && !((hartData fr).getD 0 0).getLsbD 7

/-- A valid reply of a cyclic transaction. -/
def cyclicReply (s : State) (c : Nat) (fr : List Byte) : State :=
  let data := hartData fr
  let s := modAna s c (fun a => { a with hartBusy := false, hartMiss := 0, hartOk := true, hartTries := 0 })
  if hartCmd fr = 0 then modAna s c (fun a => { a with hartLong := some (longAddress data) })
  else modAna s c (fun a => { a with
    hartLastReply := some s.tb, hartResp := data.getD 0 0, hartStatus := data.getD 1 0,
    hartVars := if data.getD 0 0 = 0 then dynamicVars data else a.hartVars })

/-- A cyclic attempt without a valid reply: two retries, then a missed poll; after three of them command 0 again. -/
def cyclicMiss (s : State) (c : Nat) : State :=
  let a := island s c
  if a.hartTries < 2 then modAna s c (fun a => { a with hartTries := a.hartTries + 1 })
  else modAna s c (fun a => { a with
    hartBusy := false, hartTries := 0, hartOk := false, hartMiss := a.hartMiss + 1,
    hartLong := if 3 ≤ a.hartMiss + 1 then none else a.hartLong })

/-- The one attempt of a host frame ends (R473). -/
def hostReply (s : State) (c : Nat) (reply : Option (List Byte)) : State :=
  match (island s c).hartQueue with
  | [] => modAna s c (fun a => { a with hartBusy := false, hartHost := false })
  | (r, _) :: rest =>
    let s := modAna s c (fun a => { a with hartBusy := false, hartHost := false, hartQueue := rest })
    match reply with
    | none => doneNow s r (le 2 0)
    | some fr =>
      if hartOkFrame fr && decide (hartCount fr ≤ 32) then doneNow s r (le 2 (fr.length - 1) ++ fr.dropLast)
      else doneNow s r (le 2 0)

/-- A reply, or the end of the 305 ms wait. A reply whose check fails counts as an error (R479). -/
def hartReplyOp (s : State) (c : Nat) (reply : Option (List Byte)) : State :=
  let a := island s c
  if !a.hartBusy then s
  else
    let bad := reply.any (fun fr => !hartOkFrame fr)
    let s := if bad then modAna s c (fun a => { a with hartErr := a.hartErr + 1 }) else s
    let s :=
      if a.hartHost then hostReply s c reply
      else match reply with
        | some fr => if replyValid a fr then cyclicReply s c fr else cyclicMiss s c
        | none => cyclicMiss s c
    hartHostNext s c

def execHartReply (now : Tb) (ch : Fin 8) (reply : Option (List Byte)) (s : State) : Host.Outcome State Fault Refusal :=
  let s := s.at now
  .next (if anaOn s ch.val then hartReplyOp s ch.val reply else s)

/-- ANA.HART (R473): length 0xFFFF on a channel that is no primary master. -/
def anaHartOp (s : State) (c : CmdRef) (ch : Nat) (frame : List Byte) : State :=
  match anaClosed s [ch] with
  | some (u, cause) => abortedBy s c u cause
  | none =>
    if !hartMaster s ch then done s c (le 2 0xFFFF)
    else hartHostNext (modAna (waitFor s c) ch (fun a => { a with hartQueue := a.hartQueue ++ [(c, frame)] })) ch

def execAnaHart (now : Tb) (c : CmdRef) (channel : Nat) (frame : List Byte) (s : State) :
    Host.Outcome State Fault Refusal :=
  runLast now c (.anaHart now c channel frame) s (fun s => anaHartOp s c channel frame)

/-! ### Field device (R468-R470) -/

def hartDeviceRole (s : State) (c : Nat) : Bool :=
  decide (anaP s c 0x14 = 1) && decide (anaModeNow s c = .sink)

/-- The 24-bit device ID (R468). -/
def deviceId (s : State) (c : Nat) : Nat :=
  let id := anaP s c 0x18
  if id ≠ 0 then id % 2 ^ 24 else (unle s.store.serial % 2 ^ 21 * 8 + c) % 2 ^ 24

/-- The unique identifier: ANA_HART_DEVTYPE, then the device ID, high bytes first. -/
def uniqueId (s : State) (c : Nat) : List Byte := (le 2 (par s 0x1601)).reverse ++ (le 3 (deviceId s c)).reverse

/-- Whether a request addresses this device: its polling address, its unique identifier, or for command 11 any. -/
def addressed (s : State) (c : Nat) (fr : List Byte) : Bool :=
  let a := hartAddr fr
  if hartAddrLen fr = 1 then decide ((a.getD 0 0).toNat % 64 = anaP s c 0x15)
  else
    let mask := fun (bs : List Byte) => (bs.getD 0 0 &&& 0x3F) :: bs.drop 1
    decide (mask a = mask (uniqueId s c)) || (decide (hartCmd fr = 11) && decide (mask a = [0, 0, 0, 0, 0]))

/-- The commanded output word as last emitted. -/
def emittedOut (s : State) (c : Nat) : Tagged := smGet itemDefault s.sent (wKey (0x804000 + c))

/-- The device status byte (R470). Log entry 51 (PRESUMED). -/
def deviceStatus (s : State) (c : Nat) : Byte :=
  let more := anaPoint s c 0 || anaPoint s c 1 || anaPoint s c 2 || anaPoint s c 3 || anaPoint s c 7
  let out := emittedOut s c
  BitVec.ofNat 8 (128 * boolBit (island s c).chFault + 64 * boolBit (island s c).hartCfgChanged + 16 * boolBit more + 8
    + boolBit (decide (tagQ out.tag ≠ qGood) || tagS out.tag))

/-- 4.000 mA as binary32. -/
def fourMa : List Byte := [0x40, 0x80, 0, 0]

/-- (PV − ANA_EU_LO) / span × 100 as binary32. -/
def percentOfRange (s : State) (c : Nat) (pv : Word) : List Byte :=
  let lo := fVal (BitVec.ofNat 40 (anaP s c 3))
  let span := fVal (BitVec.ofNat 40 (anaP s c 4)) - lo
  let n := (fVal pv - lo) * 100
  be4 (toBinary32 (if span < 0 then f40OfRat (-n) span.natAbs else f40OfRat n span.natAbs))

/-- Identity data of commands 0 and 11: revision 7. Log entry 51 (PRESUMED). -/
def identityData (s : State) (c : Nat) : List Byte :=
  [0xFE] ++ (le 2 (par s 0x1601)).reverse ++ [5, 7, 0, 0, 0, 0] ++ (le 3 (deviceId s c)).reverse ++ [5, 1, 0, 0, 0]
    ++ (le 2 (par s 0x1600)).reverse ++ (le 2 (par s 0x1600)).reverse ++ [0]

def tagBytes (s : State) (c : Nat) : List Byte := (le 6 (anaP s c 0x19)).reverse

/-- The reply of a command: response code and data; none for no reply (R469). Log entry 51 (PRESUMED). -/
def deviceReply (s : State) (c : Nat) (fr : List Byte) : Option (Byte × List Byte) :=
  let pv := (emittedOut s c).val
  let unit : Byte := BitVec.ofNat 8 (anaP s c 0x17)
  let data := hartData fr
  match hartCmd fr with
  | 0 => some (0, identityData s c)
  | 1 => some (0, unit :: be4 (toBinary32 pv))
  | 2 => some (0, fourMa ++ percentOfRange s c pv)
  | 3 => some (0, fourMa ++ unit :: be4 (toBinary32 pv))
  | 6 =>
    if (data.getD 0 0).toNat = anaP s c 0x15 ∧ data.getD 1 0 = 0 then some (0, slice data 0 2) else some (2, [])
  | 7 => some (0, [BitVec.ofNat 8 (anaP s c 0x15), 0])
  | 11 => if slice data 0 6 = tagBytes s c then some (0, identityData s c) else none
  | 13 => some (0, tagBytes s c ++ List.replicate 15 0)
  | 38 => some (0, [])
  | 48 => some (0, BitVec.ofNat 8 (anaFlags s c) :: List.replicate 5 0)
  | _ => some (64, [])

/-- A request on the loop of a field-device channel. The reply carries the status byte as it stands before command 38 resets
the configuration-changed flag. -/
def hartRequestOp (s : State) (c : Nat) (fr : List Byte) : State :=
  if !hartDeviceRole s c then s
  else if !hartOkFrame fr then modAna s c (fun a => { a with hartErr := a.hartErr + 1 })
  else if decide (fr.getD 0 0 &&& 0x07 ≠ 0x02) || !addressed s c fr then s
  else match deviceReply s c fr with
    | none => s
    | some (rc, data) =>
      let body := [fr.getD 0 0 ||| 0x04] ++ hartAddr fr ++ [BitVec.ofNat 8 (hartCmd fr), BitVec.ofNat 8 (data.length + 2)]
        ++ [rc, deviceStatus s c] ++ data
      modAna s c (fun a => { a with
        hartSent := body ++ [hartCheck body], hartAnswered := some s.tb,
        hartCfgChanged := a.hartCfgChanged && decide (hartCmd fr ≠ 38) })

def execHartRequest (now : Tb) (ch : Fin 8) (frame : List Byte) (s : State) : Host.Outcome State Fault Refusal :=
  let s := s.at now
  .next (if anaOn s ch.val then hartRequestOp s ch.val frame else s)

end Sys2Proof.Machine
end

