-- ==== Sys2Proof/Machine/BusRows.lean ====
section
/-!
DEFINITION. The bus lines at work (R392, R483-R516): cycles, windows and slots, transmission, reception, publication and
confirmation, errors, filters, sleep and wake, and their commands.
-/
namespace Sys2Proof.Machine

open Sys2Proof

/-- A line in service: started, awake, with a role; what the collar or bus-off stops is said where it matters. -/
def lineUp (s : State) (l : Line) : Bool :=
  let b := lineOfBus s l
  dieRuns s && b.started && !b.asleep && decide (busP s l 0 ≠ 0)

/-- Its controller takes part in the traffic. -/
def lineReceives (s : State) (l : Line) : Bool := lineUp s l && !collarClosed s (busUnit l) && !(lineOfBus s l).busOff

/-- The device transmits its own traffic: unpaired, or the Helm (R368). -/
def drives (s : State) : Bool := s.twin.role = .unpaired || s.twin.role = .helm

/-- A record of a line carries its error counts (R722). Log entry 72 (PRESUMED). -/
def errCounts (b : BusLine) : List Byte := le 1 (Nat.min b.tec 255) ++ le 1 (Nat.min b.recErr 255)

/-! ### Buffers (R486, R487) -/

def isService (f : TxFrame) : Bool := f.ref.isSome || f.heartbeat

/-- Load waiting sequencer frames into TXB0 and TXB1 as they become free. -/
def fillOne (b : BusLine) (k : Nat) : BusLine :=
  if (vget b.txb k none).isSome then b
  else match b.outQueue.find? (fun f => !isService f) with
    | none => b
    | some f => { b with txb := vset b.txb k (some f), outQueue := b.outQueue.eraseP (fun g => !isService g) }

def fillTx (b : BusLine) : BusLine := fillOne (fillOne b 0) 1

def seqFrame (s : State) (l : Line) (id : Nat) (data : List Byte) (sync time : Bool) : TxFrame :=
  { frame := { fd := true, brs := decide (busP s l 2 ≠ 0), ext := false, id, data }, ref := none, heartbeat := false,
    sync, time, postmark := 0, lost := false, err := false }

/-- A host's frame did not go out: its DONE gives the reason (R513). -/
def notSent (s : State) (c : CmdRef) (reason : Nat) : State :=
  doneNow s c ([0, BitVec.ofNat 8 reason] ++ le 8 0)

/-- The booking of a host's frame ends. -/
def unbook (s : State) (l : Line) (c : CmdRef) : State :=
  { s with book := { s.book with bus := s.book.bus.filter (fun x => ¬ (x.1 = l ∧ x.2.2 = c)) } }

/-! ### The cycle (R496, R499-R501, R505) -/

/-- The stations whose outputs stand at the chart's safe values (R181, R505): none of an area that an EMIT has sent since. -/
def safeStations (s : State) (l : Line) : List Nat :=
  stationNumbers.filter (fun n => s.sched.safeAreas.contains (10 + 63 * lineNo l + n))

/-- The snapshot of every exchange station's outputs as emitted before t_k. -/
def takeSnap (s : State) (l : Line) : SMap Tagged :=
  let safe := safeStations s l
  let keys := (exchangeStations s l).flatMap (fun n =>
    let m := stMap s l n
    ((List.range (mapOutPts m)).map (stOutPoint l n) ++ (List.range (mapOutWords m)).map (stOutWord l n)).map (fun k =>
      (k, safe.contains n)))
  keys.foldl (fun m k =>
    smInsert m k.1 (if k.2 then asItem k.1 (itemTreat s k.1).safe (mkTag false false false true false qGood false)
      else smGet itemDefault s.sent k.1)) []

/-- Stations at the start of a cycle. -/
def freshCycle (b : BusLine) : BusLine :=
  { b with stations := b.stations.map (fun st => { st with
      frames := [], confirmed := false, publishedNow := false, mapBad := false }) }

/-- t_k of a cycle of the line: SYNC, then TIME where the cycle carries it, are loaded. How long the last cycle kept the
line busy is measured, not modelled: a free value. Log entry 71 (DESIGN CHOICE). -/
def cycleStartOp (s : State) (l : Line) : State :=
  let (v, s) := s.draw
  let s := modLine s l (fun b => freshCycle { b with
    cycle := (b.cycle + 1) % 0x100000000, tk := s.tb, cycleRunning := true, busy := v.toNat % 1001 })
  if busP s l 0 ≠ 2 then s
  else
    let safe := safeStations s l
    let snap := takeSnap s l
    let hold := decide (s.pstate = .stopped ∧ s.sched.stopMode = .hold)
    let cycle := (lineOfBus s l).cycle
    let sync := seqFrame s l 0 (le 8 0 ++ le 4 cycle) true false
    let time := seqFrame s l 0x40 (List.replicate 8 0) false true
    let fs := if !lineReceives s l then [] else if carriesTime s l cycle then [sync, time] else [sync]
    modLine s l (fun b => fillTx { b with
      snap, snapSafe := safe, snapHold := hold, outQueue := b.outQueue.filter isService ++ fs })

/-- A cycle begins a whole number of BUS_CYCLE after the one before it (R496); the first begins where the line starts. -/
def cycleDue (s : State) (l : Line) : Bool :=
  let b := lineOfBus s l
  !b.cycleRunning || decide (b.tk < s.tb ∧ (s.tb - b.tk) % usToTb (busP s l 7) = 0)

/-- A cycle starts at t_k unless the line is to sleep (R514). A Watch follows the Helm's SYNC instead (R510). A closed
collar or bus-off stops the frames, not the count of cycles. -/
def execBusCycleStart (now : Tb) (line : Line) (s : State) : Host.Outcome State Fault Refusal :=
  let s := s.at now
  .next (if lineUp s line && drives s && (lineOfBus s line).sleepReq.isNone && cycleDue s line then cycleStartOp s line
    else s)

/-- The output frames of a cycle in ascending identifier order, from the snapshot (R490, R493, R494, R505). -/
def outputFrames (s : State) (l : Line) : List TxFrame :=
  let b := lineOfBus s l
  let flags := fun n => boolBit (b.snapSafe.contains n) + 2 * boolBit b.snapHold
  (List.range 7).flatMap (fun idx => (exchangeStations s l).filterMap (fun n =>
    let m := stMap s l n
    if (outFrames m).any (fun f => f.1 = idx) then
      some (seqFrame s l (0x400 + 64 * idx + n)
        (outFrameData (smGet itemDefault b.snap) l n m idx (flags n) (b.cycle % 16) (stP s l n 2)) false false)
    else none))

/-- The frame that takes a service slot: a due heartbeat the first, else the frame booked for it (R392, R513). -/
def slotFrame (s : State) (l : Line) (n : Nat) : Option TxFrame :=
  let b := lineOfBus s l
  let beat := if n = 0 then b.outQueue.find? (fun f => f.heartbeat && decide (f.postmark ≤ b.tk)) else none
  beat.or ((s.book.bus.find? (fun x => x.1 = l && decide (x.2.1 = slotId b.cycle n))).bind (fun x =>
    b.outQueue.find? (fun f => f.ref = some x.2.2)))

def slotStart (s : State) (l : Line) (n : Nat) : State :=
  match slotFrame s l n with
  | none => s
  | some f => modLine s l (fun b => { b with txb := vset b.txb 2 (some f), outQueue := b.outQueue.erase f })

def execBusWindowStart (now : Tb) (line : Line) (w : BusWindow) (s : State) : Host.Outcome State Fault Refusal :=
  let s := s.at now
  .next (if !lineReceives s line || !(lineOfBus s line).cycleRunning || !drives s then s
    else match w with
      | .output =>
        if busP s line 0 = 2 then modLine s line (fun b => fillTx { b with outQueue := b.outQueue ++ outputFrames s line })
        else s
      | .slot n => if n < (windows s line).slots then slotStart s line n else s)

/-! ### Transmission (R483-R487, R499) -/

/-- A SYNC that starts later than t_k + T_slot (R499). -/
def lateSync (s : State) (l : Line) : State :=
  let b := lineOfBus s l
  if s.tb ≤ b.tk + psToTb (windows s l).slot then s
  else
    let due := match b.lateLogAt with
      | none => true
      | some t => decide (t + 200000000 ≤ s.tb)
    let s := modLine s l (fun b => { b with lateAt := some s.tb, lateLogAt := if due then some s.tb else b.lateLogAt })
    if due then log s 0x84 sevWarning (busUnit l) (64 * lineNo l) 0 (le 4 (s.tb - b.tk)) else s

/-- The data of SYNC and TIME take the postmark of the attempt as it is serialised (R485, R492). Log entry 73 (DEDUCED). -/
def stamped (s : State) (f : TxFrame) : TxFrame :=
  let f := { f with postmark := postmark s, lost := false, err := false }
  if f.sync then { f with frame := { f.frame with data := le 8 (postmark s) ++ f.frame.data.drop 8 } }
  else if f.time then
    { f with frame := { f.frame with
        data := le 5 s.clock.sec ++ le 2 s.clock.sub
          ++ [BitVec.ofNat 8 (2 * boolBit s.clock.valid + 4 * boolBit (!s.clock.locked))] } }
  else f

/-- The commands that wait for a line to sleep or to wake (R514). -/
def sleepers (s : State) (l : Line) : List CmdRef :=
  (s.host.cmds.filter (fun x => decide (x.opcode = 0x0B04) && decide (x.phase = .waiting)
    && decide (lineArg (field (packetOf x.packet 4).payload 0 1) = l))).map (·.ref)

/-- Leave error passive once both counts are at most 127 (R483). -/
def noteActive (was : Bool) (s : State) (l : Line) : State :=
  let b := lineOfBus s l
  if was && !errorPassive b && !b.busOff then log s 0x81 sevNotice (busUnit l) (64 * lineNo l) 0 (errCounts b) else s

/-- A frame has been acknowledged. -/
def ackFrame (s : State) (l : Line) (k : Nat) (f : TxFrame) : State :=
  let was := errorPassive (lineOfBus s l)
  let s := modLine s l (fun b => fillTx { b with
    txb := vset b.txb k none, tec := b.tec - 1, lastSync := if f.sync then f.postmark else b.lastSync })
  let s := noteActive was s l
  let s := if f.heartbeat then modTwin s (fun t => { t with hbAcked := setPairOf l t.hbAcked (some s.tb) }) else s
  let s := match f.ref with
    | none => s
    | some c => doneNow (unbook s l c) c ([1, 0] ++ le 8 f.postmark)
  if f.sync then (sleepers s l).foldl (fun s c => doneNow s c (le 8 f.postmark))
    (modLine s l (fun b => { b with wakeRef := none })) else s

/-- Rank of an identifier in arbitration: a base-format one goes before an extended one that shares its 11 high bits (R486). -/
def arbitrationRank (f : CanFrame) : Nat := if f.ext then 2 * (f.id % 2 ^ 29) + 1 else 2 * (f.id % 2 ^ 11 * 2 ^ 18)

/-- The buffer that the controller offers first (R486): by identifier, equal ones by number, or by number alone. -/
def offered (s : State) (l : Line) : Option Nat :=
  let full := (List.range 3).filterMap (fun k => (vget (lineOfBus s l).txb k none).map (fun f => (k, arbitrationRank f.frame)))
  (full.foldl (fun (best : Option (Nat × Nat)) x =>
    match best with
    | none => some x
    | some b => if busP s l 0xC = 0 ∧ x.2 < b.2 then some x else some b) none).map (·.1)

def transmitOp (s : State) (l : Line) (k : Nat) (o : TxOutcome) : State :=
  match vget (lineOfBus s l).txb k none with
  | none => s
  | some f =>
    match o with
    | .started =>
      if offered s l ≠ some k then s else
      let s := modLine s l (fun b => { b with txb := vset b.txb k (some (stamped s f)) })
      if f.sync then lateSync s l else s
    | .lostArbitration => modLine s l (fun b => { b with txb := vset b.txb k (some { f with lost := true, err := false }) })
    | .error => modLine s l (fun b => { b with txb := vset b.txb k (some { f with err := true, lost := false }) })
    | .acknowledged => ackFrame s l k f

def execBusFrameTransmitted (now : Tb) (line : Line) (buf : Fin 3) (outcome : TxOutcome) (s : State) :
    Host.Outcome State Fault Refusal :=
  let s := s.at now
  .next (if lineReceives s line then transmitOp s line buf.val outcome else s)

/-- The frames that a window or slot end aborts (R487). -/
def windowEnd (s : State) (l : Line) : State :=
  let b := lineOfBus s l
  let fs := b.txb.toList.filterMap id
  let rest := b.outQueue.filter (fun f => !isService f)
  let s := modLine s l (fun b => { b with
    txb := Vector.replicate 3 none, outQueue := b.outQueue.filter isService,
    aborted := b.aborted + fs.length + rest.length })
  fs.foldl (fun s f => match f.ref with
    | none => s
    | some c => notSent (unbook s l c) c (if b.busOff then 3 else if f.err then 2 else 1)) s

def execWindowOrSlotEnd (now : Tb) (line : Line) (s : State) : Host.Outcome State Fault Refusal :=
  let s := s.at now
  .next (if lineUp s line then windowEnd s line else s)

/-! ### Errors (R483) -/

/-- A controller goes bus-off: every host frame on the line ends with reason 3 (R513). -/
def goBusOff (s : State) (l : Line) : State :=
  let s := modLine s l (fun b => { b with busOff := true, busOffs := b.busOffs + 1 })
  dropFrames (log s 0x82 sevAlarm (busUnit l) (64 * lineNo l) 0 (errCounts (lineOfBus s l))) l 3

/-- Error counts by ISO 11898-1: a transmit error adds 8, a receive error 1; bus-off above 255. Log entry 72 (PRESUMED). -/
def busErrorOp (s : State) (l : Line) (e : BusErr) : State :=
  let was := errorPassive (lineOfBus s l)
  let s := modLine s l (fun b => match e with
    | .transmit => { b with tec := b.tec + 8 }
    | .receive => { b with recErr := Nat.min (b.recErr + 1) 255 })
  let b := lineOfBus s l
  let s := if !was && errorPassive b then log s 0x80 sevWarning (busUnit l) (64 * lineNo l) 0 (errCounts b) else s
  if 255 < b.tec then goBusOff s l else s

def execBusError (now : Tb) (line : Line) (err : BusErr) (s : State) : Host.Outcome State Fault Refusal :=
  let s := s.at now
  .next (if lineReceives s line then busErrorOp s line err else s)

/-- 128 occurrences of 11 recessive bits after bus-off (R483). -/
def execBusOffRecovery (now : Tb) (line : Line) (s : State) : Host.Outcome State Fault Refusal :=
  let s := s.at now
  .next (if lineUp s line && (lineOfBus s line).busOff && decide (busP s line 0xF = 1) then
      log (modLine s line (fun b => { b with busOff := false, tec := 0, recErr := 0 })) 0x83 sevNotice (busUnit line)
        (64 * lineNo line) 0 [0, 0]
    else s)

/-! ### Reception (R488-R490, R504, R507, R510) -/

/-- An input frame of a station: with the cycle's tag and within the input window it is kept, else discarded and counted. -/
def inputFrame (s : State) (l : Line) (n idx : Nat) (f : CanFrame) : State :=
  let b := lineOfBus s l
  let late := decide (b.tk + psToTb (inputEnd s l b.cycle) < s.tb) || (station s l n).publishedNow
  if decide (field f.data 0 1 % 16 ≠ b.cycle % 16) || late then modLine s l (fun b => { b with discarded := b.discarded + 1 })
  else if field f.data 2 2 ≠ stP s l n 2 then modStation s l n (fun st => { st with mapBad := true })
  else modStation s l n (fun st => { st with frames := st.frames.filter (fun x => x.1 ≠ idx) ++ [(idx, f.data)] })

/-- A confirmation within the confirmation window (R495, R506). -/
def confirmFrame (s : State) (l : Line) (n : Nat) (f : CanFrame) : State :=
  let b := lineOfBus s l
  let late := decide (b.tk + psToTb (outputEnd s l b.cycle + (windows s l).conf) < s.tb)
  if decide (field f.data 0 1 % 16 ≠ b.cycle % 16) || late then modLine s l (fun b => { b with discarded := b.discarded + 1 })
  else
    let bad := decide (field f.data 2 2 ≠ stP s l n 2)
    modStation s l n (fun st => { st with
      confResult := field f.data 1 1, confirmed := decide (field f.data 1 1 = 0) && !bad, mapBad := st.mapBad || bad })

/-- A Watch follows the Helm's cycle by its SYNC (R510, R397 step 5). -/
def followSync (s : State) (l : Line) (f : CanFrame) : State :=
  modLine s l (fun b => freshCycle { b with
    cycle := field f.data 8 4, tk := s.tb, lastSync := postmark s, cycleRunning := true })

/-- A filter matches an identifier; a base-format one is compared in bits [28:18] (R488). -/
def filterMatches (s : State) (l : Line) (k : Nat) (f : CanFrame) : Bool :=
  let id := busP s l (0x20 + 4 * k)
  let mask := busP s l (0x21 + 4 * k)
  let bits := if f.ext then mask % 2 ^ 29 else mask % 2 ^ 29 / 2 ^ 18 * 2 ^ 18
  let x := if f.ext then f.id % 2 ^ 29 else f.id % 2 ^ 11 * 2 ^ 18
  decide (busP s l (0x22 + 4 * k) % 4 ≠ 0)
    && decide ((x ^^^ id) &&& bits = 0)
    && (!mask.testBit 29 || decide (f.ext = id.testBit 29))

/-- The first filter that matches decides a frame (R488, R489). -/
def filterFrame (s : State) (l : Line) (f : CanFrame) : State :=
  match (List.range 32).find? (fun k => filterMatches s l k f) with
  | none => s
  | some k =>
    modLine s l (fun b =>
      let b := { b with filterAt := vset b.filterAt k (some s.tb) }
      if b.fifo.length < 64 then { b with fifo := b.fifo ++ [(f, k, postmark s)] } else { b with fifoOvf := b.fifoOvf + 1 })

/-- Where a received frame goes. Time references and heartbeats have events of their own. An input identifier of a station
that is not an exchange station is no frame of the exchange: the filters decide it (R488, R511). -/
def receiveFrame (s : State) (l : Line) (f : CanFrame) : State :=
  let exchange := decide (busP s l 0 = 2)
  let func := f.id / 512
  let idx := f.id / 64 % 8
  let n := f.id % 64
  if f.ext then filterFrame s l f
  else if f.id = 0x780 ∨ f.id = 0x7C0 then (if paired s then s else filterFrame s l f)
  else if !exchange || decide (func = 3) || (decide (func = 1) && !isExchange s l n) then filterFrame s l f
  else if f.id = 0 then (if s.twin.role = .watch then followSync s l f else s)
  else if func = 1 then (if idx = 7 then confirmFrame s l n f else inputFrame s l n idx f)
  else s

/-- A reception that succeeds lowers REC as ISO 11898-1 says. -/
def execBusFrameReceived (now : Tb) (line : Line) (f : CanFrame) (s : State) : Host.Outcome State Fault Refusal :=
  let s := s.at now
  .next (if lineReceives s line then
      let was := errorPassive (lineOfBus s line)
      let s := modLine s line (fun b => { b with recErr := if 127 < b.recErr then 127 else b.recErr - 1 })
      receiveFrame (noteActive was s line) line f
    else s)

/-! ### Publication, confirmation and station states (R504, R506, R507) -/

/-- The complete input set of a station is published. -/
def publish (l : Line) (s : State) (n : Nat) : State :=
  let m := stMap s l n
  let st := station s l n
  if (inFrames m).isEmpty || !(inFrames m).all (fun f => st.frames.any (fun x => x.1 = f.1)) then s
  else
    let pub := st.frames.foldl (fun p x => (frameItems l n m x.1 x.2).foldl (fun p e => smInsert p e.1 e.2) p) []
    modStation s l n (fun st => { st with
      pub, hasPub := true, publishedNow := true, fault := st.frames.any (fun x => decide (field x.2 1 1 / 2 % 2 = 1)) })

def execInputWindowEnd (now : Tb) (line : Line) (s : State) : Host.Outcome State Fault Refusal :=
  let s := s.at now
  .next (if lineUp s line && decide (busP s line 0 = 2) && (lineOfBus s line).cycleRunning then
      (exchangeStations s line).foldl (publish line) s
    else s)

def stCode : StState → Nat
  | .lost => 1
  | .mapErr => 2
  | _ => 0

/-- A station changes state, with the records of LOST and MAP_ERR (R507). -/
def setStation (s : State) (l : Line) (n : Nat) (x : StState) : State :=
  let old := (station s l n).state
  if old = x then s
  else
    let sub := 64 * lineNo l + n
    let s := modStation s l n (fun st => { st with state := x })
    let s := if stCode old ≠ 0 then log s 0x86 sevNotice (busUnit l) sub (stCode old) [] else s
    if stCode x ≠ 0 then log s 0x85 sevAlarm (busUnit l) sub (stCode x) [] else s

/-- The judgement of a cycle for a station. Log entry 73 (DEDUCED). -/
def judgeStation (l : Line) (s : State) (n : Nat) : State :=
  let m := stMap s l n
  let st := station s l n
  let good := !st.mapBad && ((inFrames m).isEmpty || st.publishedNow) && ((outFrames m).isEmpty || st.confirmed)
  let s := modStation s l n (fun st =>
    if good then { st with missed := 0, good := st.good + 1, sinceComplete := 0 }
    else { st with missed := st.missed + 1, good := 0, sinceComplete := st.sinceComplete + 1 })
  let x := station s l n
  if st.state = .asleep then s
  else if st.mapBad then setStation s l n .mapErr
  else if good then
    (if st.state = .missing ∨ busP s l 0xA ≤ x.good then setStation s l n .ok else s)
  else if st.state = .mapErr then s
  else if busP s l 9 ≤ x.missed then setStation s l n .lost
  else if st.state = .ok then setStation s l n .missing else s

def execConfirmationWindowEnd (now : Tb) (line : Line) (s : State) : Host.Outcome State Fault Refusal :=
  let s := s.at now
  .next (if lineUp s line && decide (busP s line 0 = 2) && (lineOfBus s line).cycleRunning then
      (exchangeStations s line).foldl (judgeStation line) s
    else s)

/-! ### The FIFO and foreign stations (R489, R511, R512) -/

/-- The words that a filter with target 1 names: station, first word, count. -/
def filterWords (s : State) (l : Line) (k : Nat) : Nat × Nat × Nat :=
  let t := busP s l (0x22 + 4 * k)
  (t / 256 % 64, t / 65536 % 32, t / 2097152 % 32)

/-- Matched data into the words of a foreign station. -/
def foreignWords (s : State) (l : Line) (k : Nat) (f : CanFrame) : State :=
  let (n, j, m) := filterWords s l k
  (List.range m).foldl (fun s i =>
    let t : Tagged := if 4 * i + 4 ≤ f.data.length then ⟨BitVec.ofNat 40 (field f.data (4 * i) 4), 0⟩
      else ⟨0, mkTag false false false false false qBad false⟩
    modStation s l n (fun st => { st with pub := smInsert st.pub (stInWord l n (j + i)) t, hasPub := true })) s

/-- The DLC of a data length. -/
def dlcOf (n : Nat) : Nat := (canLengths.findIdx? (fun k => decide (n ≤ k))).getD 15

/-- The oldest frame of the FIFO goes to its filter's target. -/
def drainOne (s : State) (l : Line) : State :=
  match (lineOfBus s l).fifo with
  | [] => s
  | (f, k, mark) :: rest =>
    let s := modLine s l (fun b => { b with fifo := rest })
    match busP s l (0x22 + 4 * k) % 4 with
    | 1 => foreignWords s l k f
    | 2 =>
      log s 0x87 sevInfo (busUnit l) (64 * lineNo l) k
        (le 4 (f.id + 2 ^ 29 * boolBit f.ext) ++ le 1 (dlcOf f.data.length) ++ le 8 mark ++ f.data)
    | _ => s

def execFifoDrain (now : Tb) (line : Line) (s : State) : Host.Outcome State Fault Refusal :=
  let s := s.at now
  .next (if lineReceives s line then drainOne s line else s)

/-- No frame has matched a filter for BUS_FLT_AGE (R512). -/
def filterAged (s : State) (l : Line) (k : Nat) : State :=
  let age := busP s l (0x23 + 4 * k)
  let old := ((lineOfBus s l).filterAt.toList.getD k none).any (fun t => decide (t + msToTb age ≤ s.tb))
  if age = 0 ∨ busP s l (0x22 + 4 * k) % 4 ≠ 1 ∨ ¬ old then s
  else
    let (n, j, m) := filterWords s l k
    let keys := (List.range m).map (fun i => stInWord l n (j + i))
    modStation s l n (fun st => { st with
      pub := st.pub.map (fun e => if keys.contains e.1 then (e.1, ⟨e.2.val, setQ e.2.tag qStale⟩) else e) })

def execFilterAgeExpiry (now : Tb) (line : Line) (filter : Fin 32) (s : State) : Host.Outcome State Fault Refusal :=
  let s := s.at now
  .next (if lineUp s line then filterAged s line filter.val else s)

/-! ### Sleep and wake (R514-R516) -/

/-- The transceiver sleeps: the cycle is over, waiting frames end, the stations are ASLEEP. -/
def sleepEntry (s : State) (l : Line) : State :=
  match (lineOfBus s l).sleepReq with
  | none => s
  | some (mode, _) =>
    let s := dropFrames s l 4
    let s := modLine s l (fun b => { b with asleep := true, sleepReq := none, wakeMode := mode, cycleRunning := false })
    let s := stationNumbers.foldl (fun s n => setStation s l n .asleep) s
    (sleepers s l).foldl (fun s c => doneNow s c (le 8 s.tb)) s

def execTransceiverSleepEntry (now : Tb) (line : Line) (s : State) : Host.Outcome State Fault Refusal :=
  .next (sleepEntry (s.at now) line)

/-- A sleeping line wakes: its stations start as after a swap. With BUS_ROLE 2 the first SYNC ends the commands that wait
for it; with another role the wake does. -/
def wakeOp (s : State) (l : Line) : State :=
  if !(lineOfBus s l).asleep then s
  else
    let s := startLine (log s 0x88 sevInfo (busUnit l) (64 * lineNo l) 0 []) l
    if busP s l 0 = 2 ∧ drives s = true then s
    else (sleepers s l).foldl (fun s c => doneNow s c (le 8 s.tb)) (modLine s l (fun b => { b with wakeRef := none }))

def execBusWake (now : Tb) (line : Line) (s : State) : Host.Outcome State Fault Refusal :=
  let s := s.at now
  .next (if dieRuns s then wakeOp s line else s)

/-- BUS.SLEEP (R514): a line that is already as asked answers with the present tb. Log entry 73 (DEDUCED). -/
def busSleepOp (s : State) (c : CmdRef) (l : Line) (mode : Nat) : State :=
  let b := lineOfBus s l
  if mode = 2 then
    (if b.asleep then wakeOp (modLine (waitFor s c) l (fun b => { b with wakeRef := some c })) l
     else if b.sleepReq.isSome then
       done (modLine s l (fun b => { b with sleepReq := none })) c (le 8 s.tb)
     else done s c (le 8 s.tb))
  else if b.asleep then done (modLine s l (fun b => { b with wakeMode := mode })) c (le 8 s.tb)
  else modLine (waitFor s c) l (fun b => { b with sleepReq := some (mode, some c) })

/-- The collar of a line's controller, closed (R17). -/
def lineClosed (s : State) (l : Line) : Option (Nat × Nat) := (closingEntry s (busUnit l)).map (fun e => (busUnit l, e.2.1))

def execBusSleep (now : Tb) (c : CmdRef) (line : Line) (mode : Nat) (s : State) : Host.Outcome State Fault Refusal :=
  runWork now c (.busSleep now c line mode) s (fun s _ =>
    match lineClosed s line with
    | some (u, cause) => abortedBy s c u cause
    | none => busSleepOp s c line mode)

/-! ### BUS.SEND, BUS.STATUS, STATION.LIST -/

/-- The frame of BUS.SEND waits for its booked slot (R513). -/
def busSendOp (s : State) (c : CmdRef) (l : Line) (f : CanFrame) : State :=
  let b := lineOfBus s l
  let miss := fun (reason : Nat) => done (unbook s l c) c ([0, BitVec.ofNat 8 reason] ++ le 8 0)
  if b.busOff then miss 3
  else if b.asleep then miss 4
  else if !s.book.bus.any (fun x => x.1 = l && x.2.2 = c && decide (slotId b.cycle 0 ≤ x.2.1)) then miss 5
  else
    modLine (waitFor s c) l (fun b => { b with outQueue := b.outQueue ++
      [{ frame := f, ref := some c, heartbeat := false, sync := false, time := false, postmark := 0, lost := false,
         err := false }] })

def execBusSend (now : Tb) (c : CmdRef) (line : Line) (frame : CanFrame) (s : State) : Host.Outcome State Fault Refusal :=
  runWork now c (.busSend now c line frame) s (fun s _ =>
    match lineClosed s line with
    | some (u, cause) => abortedBy s c u cause
    | none => busSendOp s c line frame)

def execBusStatus (now : Tb) (c : CmdRef) (line : Line) (s : State) : Host.Outcome State Fault Refusal :=
  runWork now c (.busStatus now c line) s (fun s _ => done s c (busStatusBytes s line))

def execStationList (now : Tb) (c : CmdRef) (line : Line) (s : State) : Host.Outcome State Fault Refusal :=
  runWork now c (.stationList now c line) s (fun s _ => done s c (stationBytes s line))

/-! ### Bus heartbeats (R392) -/

/-- The heartbeat frame of this device. -/
def heartbeatFrame (s : State) : TxFrame :=
  { frame := { fd := false, brs := false, ext := false, id := if twinSide s = 0 then 0x780 else 0x7C0,
               data := le 1 (linkRole s) ++ le 3 s.twin.term ++ le 4 (headSeq s) },
    ref := none, heartbeat := true, sync := false, time := false, postmark := s.tb, lost := false, err := false }

/-- TWIN_BUS_HB passes: the heartbeat waits for its slot. A device without a cycle of its own on the line offers it at
once. Log entry 73 (DEDUCED). -/
def heartbeatDueOp (s : State) (l : Line) : State :=
  let f := heartbeatFrame s
  let s := modLine s l (fun b => { b with outQueue := f :: b.outQueue.filter (fun g => !g.heartbeat) })
  if drives s then s
  else modLine s l (fun b =>
    if (vget b.txb 2 none).isSome then b
    else { b with txb := vset b.txb 2 (some f), outQueue := b.outQueue.filter (fun g => !g.heartbeat) })

def execBusHeartbeatDue (now : Tb) (line : Line) (s : State) : Host.Outcome State Fault Refusal :=
  let s := s.at now
  .next (if paired s && lineReceives s line then heartbeatDueOp s line else s)

end Sys2Proof.Machine
end

