-- ==== Sys2Proof/Machine/DspRows.lean ====
section
/-!
DEFINITION. The display: its commands DSP.WRITE, DSP.MODE and DSP.CHECK, LCD frames, bistable updates and full rewrites, the
display band and the checks (R525-R541, R544).
-/
namespace Sys2Proof.Machine

open Sys2Proof

/-! ### Host commands -/

/-- Bits of 36 segments from a common's 18 bytes: plane 0 ON, 1 BLINK (R523). -/
def segmentWord (bs : List Byte) (first plane : Nat) : Word :=
  BitVec.ofNat 40 ((List.range 36).foldl (fun v i =>
    let g := first + i
    v + 2 ^ i * (((bs[g / 4]?.getD 0).toNat / 2 ^ (2 * (g % 4) + plane)) % 2)) 0)

/-- The ON and BLINK words of the commons, each with tag 0x00 (R526). -/
def dspValues (count : Nat) (bytes : List Byte) : List Word :=
  (List.range count).flatMap (fun c =>
    let bs := slice bytes (18 * c) 18
    [segmentWord bs 0 0, segmentWord bs 36 0, segmentWord bs 0 1, segmentWord bs 36 1])

def execDspWrite (now : Tb) (c : CmdRef) (first count : Nat) (bytes : List Byte) (s : State) :
    Host.Outcome State Fault Refusal :=
  runWork now c (.dspWrite now c first count bytes) s (fun s _ =>
    queueSlot s (.dspWrite c (((dspWords s first count).zip (dspValues count bytes)).map (fun x => (x.1, ⟨x.2, 0⟩)))))

/-- Ownership of the display block (R525). -/
def execDspMode (now : Tb) (c : CmdRef) (owner : Nat) (s : State) : Host.Outcome State Fault Refusal :=
  runWork now c (.dspMode now c owner) s (fun s _ => done (modHost s (fun h => { h with dspOwner := decide (owner = 1) })) c [])

/-- The result byte of DSP.CHECK (R541). -/
def dspResult (s : State) : Nat :=
  if s.dsp.ntcFault then 4
  else if dspP s 3 = 0 then 3
  else if s.dsp.fault then 1
  else if s.dsp.degraded then 2 else 0

def dspCheckBytes (s : State) : List Byte :=
  [BitVec.ofNat 8 (dspResult s), BitVec.ofNat 8 (dspP s 3)]
    ++ le 2 (if dspP s 3 = 2 then Nat.min s.dsp.crackOhm 0xFFFF else (crc16 s.dsp.frame).toNat)

def execDspCheck (now : Tb) (c : CmdRef) (s : State) : Host.Outcome State Fault Refusal :=
  runWork now c (.dspCheck now c) s (fun s _ =>
    match closingEntry s 7 with
    | some e => abortedBy s c 7 e.2.1
    | none => done s c (dspCheckBytes s))

/-! ### LCD frames (R528-R531) -/

/-- The display block works: the field die is powered and the block is not in reset (R432, R671). -/
def dspAlive (s : State) : Bool := !s.field.lockout && !s.power.closed.any (fun e => decide (e.1 = 7))

/-- A blink period in 1/32,768 s (R531, R545). -/
def blinkCounts (s : State) : Nat := 65536 / 2 ^ dspP s 4

/-- The second half of a blink period (R531). -/
def blinkHalf (s : State) : Bool := decide (blinkCounts s ≤ 2 * (rtcCount s.clock % blinkCounts s))

/-- The frame rate in Hz of a value of DSP_LCD_RATE (R545). -/
def lcdRateHz (v : Nat) : Nat := if v = 7 then 80 else 2 ^ v

/-- A blink period shorter than two frames is not resolved (R531). -/
def blinkResolved (s : State) (rate : Nat) : Bool := decide (2 * 32768 ≤ blinkCounts s * lcdRateHz rate)

/-- What an LCD is driven with: blank under DSP_BLANK, or while DSP_FAULT stands and DSP_FAULT_ACT asks for it (R524,
R541). -/
def lcdShown (s : State) : List Byte :=
  if s.dsp.blank || (s.dsp.fault && decide (dspP s 7 = 1)) then blankFrame else shownFrame s.dsp.blinkOff s.dsp.frame

/-- An LCD frame starts: VDSP0, rate of the band, frame CRC, blink phase; the discharge switches open once VDSP0 is in
range (R528-R531, R541, R544). The logic die's power modes do not stop the field die's refresh, DORMANT's discharge does. -/
def lcdFrameOp (s : State) (mv : Nat) : State :=
  if dspP s 0 ≠ 1 || !dspAlive s || s.power.mode = .dormant then s
  else
    let rate := dspP s (0x10 + s.dsp.band)
    let s := modDsp s (fun d => { d with
      vdsp0 := mv, rate := rate, switches := d.switches && decide (7000 < mv),
      blinkOff := blinkResolved s rate && blinkHalf s })
    let s := if checksCrc s then dspCheckResult s true (decide (crc16 s.dsp.frame = s.dsp.crc)) else s
    modDsp s (fun d => { d with panel := lcdShown s })

def execLcdFrameStart (now : Tb) (vdsp0Mv : Nat) (s : State) : Host.Outcome State Fault Refusal :=
  .next (lcdFrameOp (s.at now) vdsp0Mv)

/-! ### Bistable updates (R532-R539) -/

/-- The demand of phases on the hold-up energy: 40 mW for their duration, in nJ (R535, R654). -/
def updateNj (ms : Nat) : Nat := 40000 * ms

/-- Whether an update can start at all now: the panel is driven by a running logic die on valid power (R535, R337). -/
def updatesPossible (s : State) : Bool :=
  decide (dspP s 0 = 2) && s.dsp.update.isNone && dieRuns s && !s.power.failing && dspAlive s
    && !s.power.closed.any (fun e => decide (e.1 = 6))

/-- The update would not fit even at full charge (R545). -/
def neverFits (s : State) (ms : Nat) : Bool :=
  match s.power.capMeasured with
  | none => false
  | some d => decide (eUsable d 33000 < eSeal + updateNj ms)

/-- An update is deferred; one that never fits is reported every 60 s (R535, R545). -/
def deferUpdate (s : State) (ms : Nat) : State :=
  let due := match s.dsp.deferLogAt with
    | none => true
    | some t => decide (t + msToTb 60000 ≤ s.tb)
  if neverFits s ms && due then
    log (modDsp s (fun d => { d with deferLogAt := some s.tb })) 0x96 sevWarning 0x07 0 0 (le 4 ms)
  else s

/-- Start phases when VDSP0 and the hold-up energy allow (R535); the energy stays reserved until the end (R655).
Log entry 77 (DEDUCED). -/
def startUpdate (s : State) (target : List Byte) (ps : List (Nat × Bool)) (full : Option Nat) : State :=
  let ms := phasesMs s s.dsp.band ps
  if 100 * dspP s 8 ≤ s.dsp.vdsp0 && energyFor s (updateNj ms) then
    reserveEnergy (modDsp s (fun d => { d with
      update := some ⟨target, ps, d.band, full, updateNj ms⟩, deferLogAt := none,
      switches := d.switches && decide (40000 < d.vdsp0) })) (updateNj ms)
  else deferUpdate s ms

/-- VDSP0 is measured, and an ordinary update starts when frame memory differs; a full rewrite goes first (R532, R537). -/
def updateStartOp (s : State) (mv : Nat) : State :=
  if !updatesPossible s then s
  else
    let s := modDsp s (fun d => { d with vdsp0 := mv, blinkOff := blinkHalf s })
    if s.dsp.rewrite.isSome then s
    else
      let t := bistableTarget s
      let ps := updatePhases s.dsp.panel t (dspP s 1)
      if ps.isEmpty then s else startUpdate s t ps none

def execBistableUpdateStart (now : Tb) (vdsp0Mv : Nat) (s : State) : Host.Outcome State Fault Refusal :=
  .next (updateStartOp (s.at now) vdsp0Mv)

/-- What a full rewrite writes: after DSP_INCOMPLETE the emitted view's frame (R537), else the frame memory.
Log entry 77 (DEDUCED). -/
def rewriteTarget (s : State) (cause : Nat) : List Byte :=
  if cause = 1 && (dspBase s).isSome then shownFrame false (composeFrame s (emittedDspWord s)) else bistableTarget s

/-- A full rewrite that is due starts, at the VDSP0 last measured. Log entry 77 (DEDUCED). -/
def rewriteStartOp (s : State) : State :=
  match s.dsp.rewrite with
  | none => s
  | some k =>
    if !updatesPossible s then s
    else startUpdate s (rewriteTarget s k) (rewritePhases (dspP s 1)) (some k)

def execFullRewrite (now : Tb) (s : State) : Host.Outcome State Fault Refusal := .next (rewriteStartOp (s.at now))

/-- Delete DSP_INCOMPLETE (R536, R537). -/
def clearIncomplete (s : State) : State :=
  if (pstoreGet s.pstore .mark globalScope markDspIncomplete).isSome then
    (groupWrite s [⟨.mark, globalScope, markDspIncomplete, none⟩]).getD s
  else s

/-- The panel image equals the frame memory in the commons driven (R541). Log entry 78 (DEDUCED). -/
def panelMatches (s : State) : Bool :=
  let n := 18 * dspP s 1
  decide (s.dsp.panel.take n = (bistableTarget s).take n)

/-- A bistable panel's check: the frame's CRC and the panel image (R541). Log entry 78 (DEDUCED). -/
def panelCheck (s : State) : State :=
  if checksCrc s then dspCheckResult s true (decide (crc16 s.dsp.frame = s.dsp.crc) && panelMatches s) else s

/-- An update ends: its energy is free, the switches close, a rewrite is recorded and its mark deleted. After VIN has
failed, or in a DEV.RESET, the logic die now stops (R536, R537, R541, R544, R669). -/
def endUpdate (s : State) (u : DspUpdate) : State :=
  let s := freeEnergy (modDsp s (fun d => { d with update := none, switches := true })) u.energy
  let s := match u.full with
    | none => s
    | some k => log (modDsp s (fun d => { d with rewrite := none })) 0x95 sevInfo 0x07 0 k []
  let s := if s.dsp.rewrite.isNone then clearIncomplete s else s
  let s := panelCheck s
  finishWaits s

/-- A phase ends (R532). A VDSP0 that fell below DSP_BI_VMIN in it loses the panel image (R538). -/
def phaseEndOp (s : State) (mv : Nat) : State :=
  match s.dsp.update with
  | none => s
  | some _ =>
    let low := decide (mv < 100 * dspP s 8)
    let s := modDsp (pulseDone s) (fun d => { d with
      vdsp0 := mv, rewrite := if low then some 4 else d.rewrite,
      update := if low then d.update.map (fun u => { u with full := none }) else d.update })
    match s.dsp.update with
    | some u => if u.left.isEmpty then endUpdate s u else s
    | none => s

def execBistablePhaseEnd (now : Tb) (vdsp0Mv : Nat) (s : State) : Host.Outcome State Fault Refusal :=
  .next (phaseEndOp (s.at now) vdsp0Mv)

/-- The check of every second on a bistable panel (R541); an update in progress is checked at its end. -/
def execPanelImageCheck (now : Tb) (s : State) : Host.Outcome State Fault Refusal :=
  let s := s.at now
  .next (if dspP s 0 = 2 && s.dsp.update.isNone && dspAlive s then panelCheck s else s)

/-! ### Band and crack loop (R540, R541) -/

/-- The boundaries DSP_BAND_T1 to DSP_BAND_T7 (R545). -/
def dspBounds (s : State) : List Int := ([0x1C0A, 0x1C0B, 0x1C0C, 0x1C0D, 0x1C0E, 0x1C0F, 0x1C28]).map (parInt s)

/-- A reading of DSP_NTC in 0.1 °C (R540). -/
def ntcOp (s : State) (t : Int) : State :=
  if s.field.lockout then s
  else if t < -550 ∨ 1500 < t then
    let s := if s.dsp.ntcFault then s else log s 0x93 sevWarning 0x07 0 0 []
    modDsp s (fun d => { d with ntcFault := true, band := dspP s 9 })
  else
    let s := if s.dsp.ntcFault then log s 0x94 sevNotice 0x07 0 0 [] else s
    modDsp s (fun d => { d with ntcFault := false, band := bandStep (dspBounds s) d.band t })

def execDisplayNtcRead (now : Tb) (tenths : Int) (s : State) : Host.Outcome State Fault Refusal :=
  .next (ntcOp (s.at now) tenths)

/-- A measurement of the crack loop, up to 10 kΩ (R541). A degraded loop is neither good nor bad. Log entry 78 (DEDUCED). -/
def crackOp (s : State) (ohm : Nat) : State :=
  if s.field.lockout || !checksCrack s then s
  else
    let r := Nat.min ohm 10000
    let mid := decide (200 < r ∧ r ≤ 2000)
    let was := s.dsp.degraded
    let s := modDsp s (fun d => { d with crackOhm := r, degraded := mid })
    if mid then
      let s := modDsp s (fun d => { d with crackBad := 0, goodCnt := 0 })
      if was then s else log s 0x92 sevWarning 0x07 0 0 (le 2 r)
    else dspCheckResult s false (decide (r ≤ 200))

def execCrackLoopMeasure (now : Tb) (ohm : Nat) (s : State) : Host.Outcome State Fault Refusal :=
  .next (crackOp (s.at now) ohm)

end Sys2Proof.Machine
end

