-- ==== Sys2Proof/Machine/ClockRows.lean ====
section
/-!
DEFINITION. The clock: TIME.SET, TIME.GET, TIME.SHIFT and TIME.TRIM, the crystal tick, the trim servo and its references
(R517, R546-R572), and periodic anchors (R576).
-/
namespace Sys2Proof.Machine

open Sys2Proof

/-! ### Host commands -/

/-- The mark TIME_LAST_SET: new time, time before the set, owner key slot of the frank (R554). Log entry 75 (DEDUCED). -/
def lastSetMark (s : State) (c : CmdRef) (sec : Nat) : PWrite :=
  { kind := .mark, scope := globalScope, key := markTimeLastSet,
    body := some (le 5 sec ++ le 5 s.clock.sec ++ le 2 s.clock.sub ++ le 1 (frankSlotOf s c)) }

/-- TIME.SET: the group first, then the load at the next crystal tick, which the DONE receipt waits for (R554, R555).
Log entry 75 (DEDUCED). -/
def timeSetOp (s : State) (c : CmdRef) (sec : Nat) : State :=
  match groupWrite s [lastSetMark s c sec] with
  | none => refuseState s c 0x06
  | some s => waitFor (modClock s (fun k => { k with setPend := some (sec, some c) })) c

def execTimeSet (now : Tb) (c : CmdRef) (year month day hour minute second : Nat) (s : State) :
    Host.Outcome State Fault Refusal :=
  runWork now c (.timeSet now c year month day hour minute second) s (fun s _ =>
    timeSetOp s c (secondsOf year month day hour minute second))

def timeGetBytes (s : State) : List Byte :=
  le 8 s.clock.sec ++ le 2 s.clock.sub ++ calendarBytes s.clock.sec ++ [rtcFlags s, 0] ++ le 8 s.tb

def execTimeGet (now : Tb) (c : CmdRef) (s : State) : Host.Outcome State Fault Refusal :=
  runWork now c (.timeGet now c) s (fun s _ => done s c (timeGetBytes s))

/-- The tb at which the shift asked for completes, from the present trim (R558): a tick lasts 1/32,768 s, longer by the
trim. Log entry 75 (DEDUCED). -/
def shiftEnd (s : State) : Nat :=
  match s.clock.shiftPend with
  | none => s.tb
  | some (k, d) => s.tb + (k.natAbs * d * 200000000 * (16000000 + trimInForce s)).toNat / (32768 * 16000000)

/-- TIME.SHIFT (R557-R560): its group holds no record, then the shift combines with one in progress.
Log entry 75 (DEDUCED). -/
def timeShiftOp (s : State) (c : CmdRef) (n : Int) (d : Nat) : State :=
  match groupWrite s [] with
  | none => refuseState s c 0x06
  | some s =>
    let s := shiftBy s n d
    done s c (le 8 (shiftEnd s))

def execTimeShift (now : Tb) (c : CmdRef) (shift : Int) (divisor : Nat) (s : State) : Host.Outcome State Fault Refusal :=
  runWork now c (.timeShift now c shift divisor) s (fun s _ => timeShiftOp s c shift divisor)

/-- A change of source ends LOCKED and starts a new window; the servo starts from the trim in force (R567). -/
def setSource (s : State) (source : Nat) : State :=
  if par s 0x1D00 = source then s
  else
    let t := trimInForce s
    let s := clockEvent (setPar (setLocked s false) 0x1D00 source) 1
    newWindow (refSync (modClock s (fun c => { c with servo := t, refPresent := false, refAbsentAt := none })))

/-- TIME.TRIM writes both parameters in its own group (R562). -/
def timeTrimOp (s : State) (c : CmdRef) (source : Nat) (fixed : Int) : State :=
  let v := unle (leInt 4 fixed)
  match groupWrite s [⟨.param, globalScope, 0x1D00, some (le 8 source)⟩, ⟨.param, globalScope, 0x1D01, some (le 8 v)⟩] with
  | none => refuseState s c 0x06
  | some s => done (setPar (setSource s source) 0x1D01 v) c []

def execTimeTrim (now : Tb) (c : CmdRef) (source : Nat) (fixed : Int) (s : State) : Host.Outcome State Fault Refusal :=
  runWork now c (.timeTrim now c source fixed) s (fun s _ => timeTrimOp s c source fixed)

/-! ### The crystal -/

/-- The instant of an event of the backup domain: tb stands while the logic die is off (R21). -/
def dieAt (s : State) (now : Tb) : State := if dieRuns s then s.at now else s

def execCrystalTick (now : Tb) (s : State) : Host.Outcome State Fault Refusal := .next (crystalTickOp (dieAt s now))

def execTrimSecond (now : Tb) (s : State) : Host.Outcome State Fault Refusal :=
  let s := dieAt s now
  .next (trimSecondOp (if dieRuns s then refSync s else s))

/-- A shift that has completed is anchored once the logic die runs (R558, R576). -/
def execShiftComplete (now : Tb) (s : State) : Host.Outcome State Fault Refusal :=
  let s := dieAt s now
  .next (if s.clock.shiftDone && dieRuns s then anchor (modClock s (fun c => { c with shiftDone := false })) 4 else s)

/-! ### References (R517, R566) -/

/-- A point of the servo's window: reference and RTC. -/
def windowPoint (s : State) (ref rtc : Nat) : State :=
  modClock s (fun c =>
    if c.winFirst.isNone then { c with winFirst := some (ref, rtc) } else { c with winLast := some (ref, rtc) })

/-- A rising zero crossing of LREF, with the RTC latched at it. Log entry 60 (DEDUCED). -/
def lrefOp (s : State) (periodUs : Nat) : State :=
  let s := refSync s
  let s := modClock s (fun c => { c with lrefPeriodUs := periodUs, lrefAt := s.tb, lrefCount := c.lrefCount + 1 })
  let s := refSync s
  if par s 0x1D00 = 1 then windowPoint s s.clock.lrefCount (rtcCount s.clock) else s

def execLrefZeroCrossing (now : Tb) (periodUs : Nat) (s : State) : Host.Outcome State Fault Refusal :=
  .next (if dieRuns s then lrefOp (s.at now) periodUs else s)

/-- The line that TIME.TRIM has selected (R564). -/
def sourceLine (s : State) : Option Line :=
  match par s 0x1D00 with
  | 2 => some .a
  | 3 => some .b
  | _ => none

/-- The RTC count that a frame's carried time refers to: its own SOF, or with FOLLOW the previous frame's. -/
def refRtc (b : BusLine) (follow : Bool) (rtc : Nat) : Option Nat :=
  if follow then b.timeRefPrev.map (fun p => 32768 * p.2.1 + p.2.2) else some rtc

/-- A valid reference frame sets a clock that is not valid (R556) and gives the servo a point. -/
def useReference (s : State) (carried rtc : Nat) : State :=
  if par s 0x1D04 = 1 && !s.clock.valid then
    let t := carried + (rtcCount s.clock - rtc)
    setFromBus s (t / 32768) (t % 32768)
  else windowPoint s carried rtc

/-- A time-reference frame of the master is recorded: postmark, RTC at its SOF, carried time (R517). -/
def timeRefOp (s : State) (l : Line) (f : CanFrame) : State :=
  let n := busP s l 0xE
  if n = 0 || f.ext || decide (f.id ≠ 128 + n) || !lineReceives s l then s
  else
    let b := lineOfBus s l
    let flags := field f.data 7 1
    let valid := decide (flags / 2 % 2 = 1)
    let c := s.clock
    let carried := 32768 * (field f.data 0 5 % 2 ^ 34) + field f.data 5 2 % 32768
    let at_ := refRtc b (decide (flags % 2 = 1)) (rtcCount c)
    let s := modLine s l (fun b => { b with
      timeRefPrev := some (postmark s, c.sec, c.sub),
      timeRef := some (postmark s, c.sec, c.sub, field f.data 0 5 % 2 ^ 34, field f.data 5 2 % 32768, valid),
      timeRefOk := b.timeRefOk || valid, timeRefAt := if valid then s.tb else b.timeRefAt })
    let s := refSync s
    match at_ with
    | some r => if valid && decide (sourceLine s = some l) then useReference s carried r else s
    | none => s

def execTimeReferenceFrame (now : Tb) (line : Line) (f : CanFrame) (s : State) : Host.Outcome State Fault Refusal :=
  .next (if dieRuns s then timeRefOp (s.at now) line f else s)

/-- No valid reference frame for 2 s (R517). -/
def timeRefAgeOp (s : State) (l : Line) : State :=
  let b := lineOfBus s l
  if b.timeRefOk && decide (b.timeRefAt + msToTb 2000 ≤ s.tb) then refSync (modLine s l (fun b => { b with timeRefOk := false }))
  else s

def execTimeReferenceAgeExpiry (now : Tb) (line : Line) (s : State) : Host.Outcome State Fault Refusal :=
  .next (if dieRuns s then timeRefAgeOp (s.at now) line else s)

/-- The reference has been absent for 10 s: LOCKED ends (R567). -/
def execReferenceAbsentTimeout (now : Tb) (s : State) : Host.Outcome State Fault Refusal :=
  let s := if dieRuns s then refSync (s.at now) else s
  .next (match s.clock.refAbsentAt with
    | some t => if dieRuns s && decide (t + msToTb 10000 ≤ s.tb) then setLocked s false else s
    | none => s)

/-! ### The servo (R565-R570) -/

/-- 16 × e of R565, rounded: the RTC's elapsed time against the reference's, both in 1/32,768 s times the same scale. None
without two points. Log entry 76 (DEDUCED). -/
def windowError (s : State) : Option Int :=
  match s.clock.winFirst, s.clock.winLast with
  | some a, some b =>
    let rtc : Int := (b.2 : Int) - a.2
    if par s 0x1D00 = 1 then
      let ref := (b.1 - a.1) * 32768 * 1000
      if ref = 0 then none else some (roundDiv (16000000 * (rtc * lrefNom s - ref)) ref)
    else
      let ref := b.1 - a.1
      if ref = 0 then none else some (roundDiv (16000000 * (rtc - ref)) ref)
  | _, _ => none

/-- The band reported for most of the window (R569). Log entry 76 (DEDUCED). -/
def windowBand (c : Clock) : Nat :=
  (List.range 8).foldl (fun b k => if vget c.winBands b 0 < vget c.winBands k 0 then k else b) 0

/-- The learned trim of the window's band moves an eighth of the way (R569). Log entry 76 (DEDUCED). -/
def learn (s : State) (t : Int) : State :=
  let b := windowBand s.clock
  modClock s (fun c => { c with learned := vmod c.learned b (fun e => (e.1 + (t - e.1).tdiv 8, e.2 + 1)) })

/-- Steering to the bus master at the end of a window (R568). Log entry 76 (DEDUCED). -/
def steer (s : State) : State :=
  if par s 0x1D05 = 1 && (sourceLine s).isSome && s.clock.locked then
    match s.clock.winLast with
    | none => s
    | some p =>
      let o : Int := (p.1 : Int) - p.2
      if 32768 < o.natAbs then clockEvent s 6
      else if 33 ≤ o.natAbs ∧ s.clock.shiftLeft = 0 ∧ s.clock.shiftPend = none then clockEvent (shiftBy s o 4096) 5
      else s
  else s

/-- A window that counts: the new trim, the learned table while LOCKED, LOCKED itself, steering (R565, R567-R569).
Log entry 76 (DEDUCED). -/
def windowCounts (s : State) (err : Int) : State :=
  let t := trimInForce s
  let new := clampInt (-4096) 4095 (t + clampInt (-256) 256 (-err))
  let s := if s.clock.locked then learn s new else s
  let s := setLocked (modClock s (fun c => { c with servo := new, servoValid := true })) true
  let s := if s.clock.learnedAt + 3600 ≤ s.power.opsec then writeLearned s else s
  steer s

/-- The end of a window of TIME_TRIM_WIN seconds with source 1, 2 or 3; another begins. Log entry 76 (DEDUCED). -/
def servoOp (s : State) : State :=
  if par s 0x1D00 = 0 ∨ 4 ≤ par s 0x1D00 ∨ s.tb < s.clock.winAt + s.clock.winLen then s
  else
    let s := refSync s
    newWindow (if s.clock.winBad then s
      else match windowError s with
        | none => s
        | some e => windowCounts s e)

def execServoWindowEnd (now : Tb) (s : State) : Host.Outcome State Fault Refusal :=
  .next (if dieRuns s then servoOp (s.at now) else s)

/-- LOG_ANCHOR_T has passed since the last anchor, in operating seconds (R576). -/
def execPeriodicAnchor (now : Tb) (s : State) : Host.Outcome State Fault Refusal :=
  let s := dieAt s now
  .next (if dieRuns s && decide (s.clock.anchorAt + par s 0x1E00 ≤ s.power.opsec) then anchor s 0 else s)

end Sys2Proof.Machine
end

