-- ==== Sys2Proof/Machine/MemCore.lean ====
section
/-!
DEFINITION. What loads and stores reach: special function registers (R9, R236, R237, R269), data SRAM, the analogue image
and the points, with the ownership, force and dirty-line rules of stores (R152, R166, R167, R191, R193, R195, R221, R254,
R318, R521, R525).
-/
namespace Sys2Proof.Machine

open Sys2Proof

/-! ### Special function registers -/

/-- Bits [39:0] and bits [63:40] of a 64-bit count. -/
def low40 (v : Nat) : Word := BitVec.ofNat 40 v
def high40 (v : Nat) : Word := BitVec.ofNat 40 (v / 2 ^ 40 % 2 ^ 24)

/-- SF.PRED: values in [7:0], Q of pk in bits [2k+9:2k+8]. -/
def sfPred (e : Engine) : Word :=
  BitVec.ofNat 40 ((List.range 8).foldl (fun n k =>
    let p := readPred e (BitVec.ofNat 3 k)
    n + boolBit p.v * 2 ^ k + p.q.toNat * 2 ^ (2 * k + 8)) 0)

/-- SF.TSTATt: 0 disabled, 1 waiting, 2 running, 3 preempted, with the task's kind. -/
def sfTstat (s : State) (t : Nat) : Word :=
  let d := taskDef s t
  if !d.present then 0
  else
    let run := match s.sched.running with | some sc => decide (sc.task = t) | none => false
    let st : Nat := if run then 2 else if s.sched.suspended.any (fun x => x.1.task = t) then 3
      else if (enabledTasks s).contains t && decide (s.pstate = .running) then 1 else 0
    BitVec.ofNat 40 (st + 4 * boolBit d.tolerant + 8 * boolBit d.fixed + 16 * boolBit d.proven)

/-- SF.CHGREQ: [3:0] chart requested; 4 change pending (R249). -/
def sfChgreq (s : State) : Word := BitVec.ofNat 40 (s.charts.reqField % 16 + 16 * boolBit s.charts.req.isSome)

/-- The registers with an address of their own up to 0x1B, of the running scan. -/
def sfTask (s : State) (sc : Scan) (n : Nat) : Option Word :=
  let e := s.eng
  let d := taskDef s sc.task
  match n with
  | 0x00 => some (low40 sc.task)
  | 0x01 => some (low40 sc.stamp)
  | 0x02 => some (high40 sc.stamp)
  | 0x03 => some (low40 (taskRt s sc.task).skipCount)
  | 0x04 => some (low40 (runEpoch s))
  | 0x05 => some (low40 (sc.dirty ++ sc.shadowDirty).eraseDups.length)
  | 0x06 => some (low40 d.d)
  | 0x07 => some (low40 e.beats)
  | 0x08 => some (low40 d.p)
  | 0x09 => some (low40 s.tb)
  | 0x0A => some (high40 s.tb)
  | 0x0B => some (low40 sc.promise)
  | 0x0C => some (high40 sc.promise)
  | 0x0D => some (low40 s.charts.active)
  | 0x0E => some (low40 s.power.band)
  | 0x0F => some (BitVec.ofInt 40 s.power.junction)
  | 0x10 => some e.ctrl
  | 0x11 => some e.status
  | 0x12 => some s.power.event
  | 0x13 => some e.amode
  | 0x14 => some (e.wpos.setWidth 40)
  | 0x15 => some (low40 e.depth)
  | 0x16 => some (low40 d.wstk)
  | 0x17 => some (low40 e.pmcount)
  | 0x18 => some (sfPred e)
  | 0x19 => some e.fpstat
  | 0x1A => some (e.errpc.setWidth 40)
  | 0x1B => some (e.erraddr.setWidth 40)
  | _ => none

/-- The registers of the watchdog, the clock and the device. -/
def sfDevice (s : State) (n : Nat) : Option Word :=
  match n with
  | 0x20 => some (s.wd.lfsr.setWidth 40)
  | 0x21 => some 0
  | 0x22 => some (s.wd.mask.setWidth 40)
  | 0x23 => some (s.store.wdsalt.setWidth 40)
  | 0x24 => some (wdStat s)
  | 0x70 => some (sfBus s .a)
  | 0x71 => some (sfBus s .b)
  | 0x72 => some (low40 s.busA.lastSync)
  | 0x73 => some (low40 s.busB.lastSync)
  | 0x74 => some (sfChgreq s)
  | 0x78 => some (low40 s.power.ecc)
  | 0x79 => some (low40 (eUse s / 1000))
  | 0x7A => some (low40 s.power.pace)
  | 0x7B => some (low40 s.power.powerCycles)
  | 0x7C => some (low40 s.power.opsec)
  | 0x7D => some (high40 s.power.opsec)
  | 0x7E => some (low40 ((fwSlot s s.store.runFw).version / 65536))
  | _ => none

/-- The RTC as it stood at the scan-start stamp (R549). Log entry 87 (DEDUCED). -/
def sfClock (sc : Scan) (n : Nat) : Option Word :=
  match n with
  | 0x28 => some (low40 (sc.rtcAtAcquire / 32768))
  | 0x29 => some (low40 (sc.rtcAtAcquire % 32768))
  | _ => some (sc.flagsAtAcquire.setWidth 40)

/-- The 120 registers of R236; none at an address left unassigned. -/
def sfRead (s : State) (sc : Scan) (n : Nat) : Option Word :=
  if n < 0x20 then sfTask s sc n
  else if 0x28 ≤ n ∧ n < 0x2B then sfClock sc n
  else if 0x40 ≤ n ∧ n < 0x50 then some (sfTstat s (n - 0x40))
  else if 0x50 ≤ n ∧ n < 0x60 then some (low40 (taskRt s (n - 0x50)).slack)
  else if 0x60 ≤ n ∧ n < 0x70 then some (low40 (taskRt s (n - 0x60)).done)
  else if 0x80 ≤ n ∧ n < 0x88 then some (sfIsland s (n - 0x80))
  else if 0x90 ≤ n ∧ n < 0xA0 then some (low40 (taskRt s (n - 0x90)).beats)
  else sfDevice s n

/-- The field of xk in a write of SF.AMODE: 0b11 leaves it unchanged and sets AERR. Log entry 33 (DEDUCED). -/
def writeAmodeField (v : Word) (e : Engine) (k : Nat) : Engine :=
  let f := v.extractLsb' (2 * k) 2
  if f = 3 then setAerrAt e 0xFFF013
  else { e with amode := (e.amode &&& ~~~(3#40 <<< (2 * k))) ||| (f.setWidth 40 <<< (2 * k)) }

def writeAmode (e : Engine) (v : Word) : Engine := (List.range 8).foldl (writeAmodeField v) e

/-- A store to SF.PRED writes p1 to p7 and their Q together; writes to p0 are ignored (R237). -/
def writeSfPred (e : Engine) (v : Word) : Engine :=
  (List.range 8).foldl (fun e k => writePred e (BitVec.ofNat 3 k) (v.getLsbD k) (v.extractLsb' (2 * k + 8) 2)) e

/-- A store to SF.CTRL takes effect for the next instruction (R237); a mask that begins starts a stretch (R233).
Log entry 35 (DEDUCED). -/
def writeSfCtrl (e : Engine) (v : Word) : Engine :=
  { e with
    ctrl := v &&& 7, pmcount := if v.getLsbD 0 && !e.ctrl.getLsbD 0 then 0 else e.pmcount }

/-- A write under the access code of the register (R9, R269); none when it is RO or unassigned. -/
def sfWrite (s : State) (n : Nat) (v : Word) : Option State :=
  match n with
  | 0x10 => some (modEng s (fun e => writeSfCtrl e v))
  | 0x11 => some (modEng s (fun e => { e with status := e.status &&& ~~~v }))
  | 0x12 => some { s with power := { s.power with event := s.power.event &&& ~~~v } }
  | 0x13 => some (modEng s (fun e => writeAmode e v))
  | 0x18 => some (modEng s (fun e => writeSfPred e v))
  | 0x19 => some (modEng s (fun e => { e with fpstat := e.fpstat &&& ~~~v }))
  | 0x21 =>
    match s.sched.running with
    | none => some s
    | some sc => some (wdAfter (wdReplyAt s sc.task (v.setWidth 32) s.wd.tick))
  | _ => none

/-! ### Loads -/

def zeroBad : Tagged := ⟨0, mkTag false false false false false qBad false⟩

/-- Whether a load from a data address is an access error (R221). -/
def loadErr (s : State) (sc : Scan) (a : Nat) : Bool :=
  unmapped a || (inSf a && (sfRead s sc (a - 0xFFF000)).isNone)

/-- The word at a data address with its tag. -/
def loadWord (s : State) (sc : Scan) (a : Nat) : Tagged :=
  if inDataSram a then getItem s (wKey a)
  else if inAnaIn a || inAnaOut a then (if reservedWord a then zeroBad else getItem s (wKey a))
  else if inSf a then
    match sfRead s sc (a - 0xFFF000) with
    | some w => ⟨w, 0⟩
    | none => zeroBad
  else zeroBad

/-- A point with its tag; a reserved one reads V = 0 with Q bad (R191). -/
def loadPoint (s : State) (p : Point) : Tagged :=
  if reservedPoint p.toNat then zeroBad else getItem s p.toNat

/-! ### Stores -/

/-- A store that R152 discards. -/
def discardStore (s : State) (k : Nat) : State :=
  let s := modRun s (fun sc => { sc with firstDiscard := sc.firstDiscard.orElse (fun _ => some k) })
  if s.sysPhase = 0 then s else showOwnerErr s true

/-- Where a store to an item goes. -/
inductive StoreTo where
  | item
  /-- discarded with AERR (R221, R254, R269, R318, R521) -/
  | aerr
  /-- discarded under R152 -/
  | notOwned
  /-- a reserved input point: discarded under R152 with AERR (R191, R254) -/
  | reservedInput
  /-- discarded with no effect (R195, R309, R525) -/
  | ignored
  deriving DecidableEq, Repr

/-- Whether an output item lies in a task's emit mask. -/
def ownedBy (s : State) (t k : Nat) : Bool :=
  match outArea s k with
  | some a => (taskDef s t).emit.getLsbD a
  | none => false

/-- The rule for a store by task t to a data word below the special function registers. -/
def storeWordTo (s : State) (t a : Nat) : StoreTo :=
  let k := wKey a
  let owned : StoreTo :=
    if !ownedBy s t k then .notOwned else if heldByForce s k then .ignored else .item
  if inDataSram a then
    if dext s ≤ a then .aerr
    else
      let free : StoreTo := if heldByForce s k then .ignored else .item
      match dspBase s with
      | none => free
      | some d =>
        if a < d ∨ d + 80 ≤ a then free
        else if d + 40 ≤ a then .aerr
        else if d + 33 ≤ a then .notOwned
        else if !ownedBy s t k then .notOwned
        else if s.host.dspOwner then .ignored
        else owned
  else if inAnaIn a then (if reservedWord a then .notOwned else .aerr)
  else if inAnaOut a then
    if reservedWord a then .notOwned
    else if decide (a ≤ 0x804007) && !isOutputMode (anaModeNow s (a - 0x804000)) then .notOwned
    else owned
  else .aerr

/-- The rule for a store by task t to a point. -/
def storePointTo (s : State) (t p : Nat) : StoreTo :=
  if p < 0x10000 then (if reservedPoint p then .reservedInput else .aerr)
  else if reservedPoint p || !ownedBy s t p then .notOwned
  else if heldByForce s p then .ignored
  else .item

/-- A store of value, L, Q and V into an item; M, S and F stay, E follows R166, and a line that would exceed D is an
overrun (R167). -/
def storeInto (s : State) (sc : Scan) (k : Nat) (v : Word) (l : Bool) (q : Quality) (point : Bool) :
    Except OverrunCause State :=
  let old := getItem s k
  let new : Tagged :=
    if point then ⟨old.val, mkTag (tagE old.tag) l (tagM old.tag) (tagS old.tag) (tagF old.tag) q (v.getLsbD 0)⟩
    else ⟨v, mkTag (tagE old.tag) l (tagM old.tag) (tagS old.tag) (tagF old.tag) q false⟩
  let s' := storeItem s k new
  if tagE (getItem s' k).tag then
    let lines := sc.dirty ++ sc.shadowDirty
    let line := lineOf k
    if lines.contains line then .ok (modRun s' (fun x => { x with dirty := if x.dirty.contains line then x.dirty else x.dirty ++ [line] }))
    else if (taskDef s sc.task).d < lines.eraseDups.length + 1 then .error .dirty
    else .ok (modRun s' (fun x => { x with dirty := x.dirty ++ [line] }))
  else .ok s'

/-- A store of a tagged word at a data address, with the Q of its address (R218). -/
def storeWord (s : State) (sc : Scan) (a : BitVec 24) (t : Tagged) (aq : Quality) : Except OverrunCause State :=
  let n := a.toNat
  if inSf n then
    match sfWrite s (n - 0xFFF000) t.val with
    | some s => .ok s
    | none => .ok (modEng s (fun e => setAerrAt e a))
  else
    match storeWordTo s sc.task n with
    | .item => storeInto s sc (wKey n) t.val (tagL t.tag) (worseQ (tagQ t.tag) aq) false
    | .aerr => .ok (modEng s (fun e => setAerrAt e a))
    | .notOwned | .reservedInput => .ok (discardStore s (wKey n))
    | .ignored => .ok s

/-- A store of V, L and Q into a point. -/
def storePoint (s : State) (sc : Scan) (p : Point) (v l : Bool) (q : Quality) : Except OverrunCause State :=
  match storePointTo s sc.task p.toNat with
  | .item => storeInto s sc p.toNat (if v then 1 else 0) l q true
  | .aerr => .ok (modEng s (fun e => setAerrAt e (p.setWidth 24)))
  | .notOwned => .ok (discardStore s p.toNat)
  | .reservedInput => .ok (modEng (discardStore s p.toNat) (fun e => setAerrAt e (p.setWidth 24)))
  | .ignored => .ok s

/-- Run a body with the running scan. -/
def withScan (s : State) (f : Scan → Except OverrunCause EngOut) : Except OverrunCause EngOut :=
  match s.sched.running with
  | none => .ok (engOut s s.eng)
  | some sc => f sc

end Sys2Proof.Machine
end

