-- ==== Sys2Proof/Machine/EngAcc.lean ====
section
/-!
DEFINITION. The accumulator instructions (R227, R230, R260, R261).
-/
namespace Sys2Proof.Machine

open Sys2Proof

def execMpy (g : Guard) (a : BitVec 2) (rs1 rs2 : Reg) (s : State) : Host.Outcome State Fault Refusal :=
  engineRegs s g 3 [.acc a] (fun e => writeAcc e a (accStep ⟨0, 0⟩ (readReg e rs1) (readReg e rs2) false))

def execMac (g : Guard) (a : BitVec 2) (rs1 rs2 : Reg) (s : State) : Host.Outcome State Fault Refusal :=
  engineRegs s g 3 [.acc a] (fun e => writeAcc e a (accStep (readAcc e a) (readReg e rs1) (readReg e rs2) false))

def execMsu (g : Guard) (a : BitVec 2) (rs1 rs2 : Reg) (s : State) : Host.Outcome State Fault Refusal :=
  engineRegs s g 3 [.acc a] (fun e => writeAcc e a (accStep (readAcc e a) (readReg e rs1) (readReg e rs2) true))

/-! ### Dual fetch (R261) -/

/-- A factor fetched through an address register, with the Q of the register. -/
def fetchFactor (s : State) (sc : Scan) (k : BitVec 3) : Tagged :=
  let x := readX s.eng k
  let t := loadWord s sc x.val.toNat
  { t with tag := worsenTag t.tag x.q }

/-- AERR of a factor from an unmapped address (R221). -/
def factorErr (s : State) (sc : Scan) (e : Engine) (k : BitVec 3) : Engine :=
  if loadErr s sc (readX s.eng k).val.toNat then setAerrAt e (readX s.eng k).val else e

/-- Both factors, the product, and the post-modification of each register once. -/
def dualFetch (s : State) (sc : Scan) (a : BitVec 2) (xi xj : BitVec 3) (neg : Bool) : Engine :=
  let r := accStep (readAcc s.eng a) (fetchFactor s sc xi) (fetchFactor s sc xj) neg
  let e := factorErr s sc (writeAcc s.eng a r) xi
  if xi = xj then postModify e xi else postModify (postModify (factorErr s sc e xj) xi) xj

def execMacd (g : Guard) (a : BitVec 2) (xi xj : BitVec 3) (s : State) : Host.Outcome State Fault Refusal :=
  .next (engineRun s g 3 [.acc a] false (fun s => withScan s (fun sc =>
    .ok (engOut s (dualFetch s sc a xi xj false)))))

def execMsud (g : Guard) (a : BitVec 2) (xi xj : BitVec 3) (s : State) : Host.Outcome State Fault Refusal :=
  .next (engineRun s g 3 [.acc a] false (fun s => withScan s (fun sc =>
    .ok (engOut s (dualFetch s sc a xi xj true)))))

def execClra (g : Guard) (a : BitVec 2) (s : State) : Host.Outcome State Fault Refusal :=
  engineRegs s g 1 [.acc a] (fun e => writeAcc e a ⟨0, 0⟩)

/-- A move to a general register under R227: ACCSAT clamps with L, else the word wraps with OV. Log entry 34 (DEDUCED). -/
def execMva (g : Guard) (rd : Reg) (a : BitVec 2) (sh : BitVec 6) (s : State) : Host.Outcome State Fault Refusal :=
  engineRegs s g 1 [.reg rd] (fun e =>
    let x := readAcc e a
    let r := accMove x.val sh.toNat (ctrlAccsat e)
    writeReg (ovStatus e r.2.2) rd ⟨r.1, setL (tagMove x.tag) (tagL x.tag || r.2.1)⟩)

def execMvra (g : Guard) (a : BitVec 2) (rs : Reg) (s : State) : Host.Outcome State Fault Refusal :=
  engineRegs s g 1 [.acc a] (fun e =>
    let t := readReg e rs
    writeAcc e a ⟨t.val.signExtend 88, tagMove t.tag⟩)

end Sys2Proof.Machine
end

