-- ==== Sys2Proof/Machine/EngBlocks.lean ====
section
/-!
DEFINITION. Scanned timer, counter and edge blocks (R184-R189, R272-R276).
-/
namespace Sys2Proof.Machine

open Sys2Proof

/-! ### The address and the words of a block -/

/-- The address xk + k of a block (R272). -/
def blockAddr (e : Engine) (x : BitVec 3) (k : BitVec 10) : BitVec 24 := (readX e x).val + k.setWidth 24

/-- The value and tag of a state word. -/
def blockWord (s : State) (a : BitVec 24) (i : Nat) : Tagged := getItem s (wKey (a.toNat + i))

/-- A state word that a block writes: index, value, L and Q. -/
structure BlockWrite where
  idx : Nat
  val : Word
  l : Bool
  q : Quality
  deriving DecidableEq, Repr

/-- What an evaluation leaves: words, output, quality of the output, whether an outage could not be measured. -/
structure BlockRes where
  words : List BlockWrite
  out : Bool
  q : Quality
  gap : Bool
  deriving DecidableEq, Repr

/-- Write the state words of a block in order, each with the Q of the address (R218, R273). Log entry 38 (DEDUCED). -/
def writeBlock (s : State) (a : BitVec 24) (aq : Quality) : List BlockWrite → Except OverrunCause State
  | [] => .ok s
  | w :: ws =>
    match s.sched.running with
    | none => .ok s
    | some sc =>
      match storeWord s sc (a + BitVec.ofNat 24 w.idx) ⟨w.val, mkTag false w.l false false false w.q false⟩ aq with
      | .error c => .error c
      | .ok s => writeBlock s a aq ws

/-- TIMER_GAP_UNKNOWN is set and stays until PROG.RUN (R186, R197). -/
def setGapUnknown (s : State) : State :=
  let t := getItem s 0xF00F
  putItem (modSched s (fun x => { x with gapUnknown := true })) 0xF00F ⟨t.val, setV t.tag true⟩

/-- One block instruction: 6 beats; a state word outside data SRAM leaves it unevaluated (R273). -/
def blockRun (s : State) (g : Guard) (pd : BitVec 3) (x : BitVec 3) (k : BitVec 10) (n : Nat)
    (eval : State → Scan → BitVec 24 → BlockRes) : Host.Outcome State Fault Refusal :=
  .next (engineRun s g 6 [.pred pd] false (fun s => withScan s (fun sc =>
    let a := blockAddr s.eng x k
    let aq := (readX s.eng x).q
    if 0x200000 < a.toNat + n then .ok (engOut s (writePred (setAerrAt s.eng a) pd false qBad))
    else
      let r := eval s sc a
      let s1 := if r.gap then setGapUnknown s else s
      match writeBlock s1 a aq r.words with
      | .error c => .error c
      | .ok s => .ok (engOut s (writePred s.eng pd r.out (worseQ r.q aq))))))

/-! ### Timers -/

/-- The state of a timer (R185, R275). -/
structure TimerSt where
  pt : Int
  ptTag : Byte
  et : Int
  prev : Bool
  q : Bool
  epoch : Nat
  rem : Nat
  last : Nat
  deriving DecidableEq, Repr

def timerSt (s : State) (a : BitVec 24) : TimerSt :=
  let w0 := blockWord s a 0
  let w2 := (blockWord s a 2).val
  { pt := w0.val.toInt, ptTag := w0.tag, et := (blockWord s a 1).val.toInt, prev := w2.getLsbD 32, q := w2.getLsbD 33,
    epoch := (w2.extractLsb' 8 24).toNat, rem := (w2.extractLsb' 0 8).toNat, last := (blockWord s a 3).val.toNat }

/-- The time d in tb that a timer adds, and whether TIMER_GAP_UNKNOWN is set (R186). -/
def timerDelta (s : State) (sc : Scan) (t : TimerSt) : Nat × Bool :=
  let valid := sc.flagsAtAcquire.getLsbD 0
  let r := taskRt s sc.task
  if t.epoch = 0 then (0, false)
  else if t.epoch = runEpoch s then ((sc.stamp + 2 ^ 40 - t.last % 2 ^ 40) % 2 ^ 40, false)
  else if par s 0x0303 = 1 then (0, !valid)
  else if r.sealedOnce && r.sealRtcValid && valid && decide (r.sealRtc ≤ sc.rtcAtAcquire) then
    ((sc.rtcAtAcquire - r.sealRtc) * 200000000 / 32768, false)
  else (0, true)

/-- How a timer moves: elapsed time and output, and whether the remainder restarts (R187). -/
abbrev TimerRule := (inp prev q : Bool) → (et add pt : Int) → Int × Bool × Bool

/-- An addition that would carry ET past PT leaves it at PT. -/
def addEt (et add pt : Int) : Int := min (et + add) pt

def tonRule : TimerRule := fun inp prev _ et add pt =>
  if inp && !prev then (0, decide (pt = 0), true)
  else if inp then let e := addEt et add pt; (e, decide (pt ≤ e), false)
  else (0, false, false)

def tofRule : TimerRule := fun inp prev q et add pt =>
  if inp then (0, true, false)
  else if prev then (0, decide (pt ≠ 0), true)
  else if q then let e := addEt et add pt; (e, !decide (pt ≤ e), false)
  else (et, false, false)

def tpRule : TimerRule := fun inp prev q et add pt =>
  if inp && !prev && !q then (0, true, true)
  else
    let e := if q then addEt et add pt else et
    let q' := q && !decide (pt ≤ e)
    (if !inp && !q' then 0 else e, q', false)

/-- One evaluation of a timer. -/
def evalTimer (rule : TimerRule) (inp : Bool) (inQ : Quality) (s : State) (sc : Scan) (a : BitVec 24) : BlockRes :=
  let t := timerSt s a
  let d := timerDelta s sc t
  let rem := t.rem + d.1
  let pt := if t.pt < 0 then 0 else t.pt
  let r := rule inp t.prev t.q t.et (rem / 200 : Nat) pt
  let tag := tagWorst [qTag inQ, t.ptTag] (decide (t.pt < 0))
  let rem' := if r.2.2 then 0 else rem % 200
  let w2 := boolBit inp * 2 ^ 32 + boolBit r.2.1 * 2 ^ 33 + runEpoch s * 256 + rem'
  { words :=
      [⟨1, BitVec.ofInt 40 r.1, tagL tag, tagQ tag⟩, ⟨2, BitVec.ofNat 40 w2, false, qGood⟩,
       ⟨3, low40 sc.stamp, false, qGood⟩],
    out := r.2.1, q := tagQ tag, gap := d.2 }

def execTon (g : Guard) (pd : BitVec 3) (s1 : PSrc) (x : BitVec 3) (k : BitVec 10) (s : State) :
    Host.Outcome State Fault Refusal :=
  blockRun s g pd x k 4 (fun s => evalTimer tonRule (srcVal s.eng s1) (srcQ s.eng s1) s)

def execTof (g : Guard) (pd : BitVec 3) (s1 : PSrc) (x : BitVec 3) (k : BitVec 10) (s : State) :
    Host.Outcome State Fault Refusal :=
  blockRun s g pd x k 4 (fun s => evalTimer tofRule (srcVal s.eng s1) (srcQ s.eng s1) s)

def execTp (g : Guard) (pd : BitVec 3) (s1 : PSrc) (x : BitVec 3) (k : BitVec 10) (s : State) :
    Host.Outcome State Fault Refusal :=
  blockRun s g pd x k 4 (fun s => evalTimer tpRule (srcVal s.eng s1) (srcQ s.eng s1) s)

/-! ### Counters (R188, R275, R276) -/

/-- CV after a count, clamped at the I40 limits, with whether it clamped. -/
def satCount (v : Int) : Int × Bool :=
  let r := clampI40 v
  (r.1.toInt, r.2)

/-- One evaluation of a counter from PV, CV and the edges; the rule gives CV, the clamp, Q or QU, and QD. -/
def evalCounter (c1 c2 : Bool) (inQ : Quality)
    (rule : (rise1 rise2 : Bool) → (pv cv : Int) → (Int × Bool) × Bool × Bool) (s : State) (a : BitVec 24) : BlockRes :=
  let pv := blockWord s a 0
  let cv := (blockWord s a 1).val.toInt
  let w2 := (blockWord s a 2).val
  let r := rule (c1 && !w2.getLsbD 0) (c2 && !w2.getLsbD 1) pv.val.toInt cv
  let tag := tagWorst [qTag inQ, pv.tag] r.1.2
  let bits := boolBit c1 + 2 * boolBit c2 + 4 * boolBit r.2.1 + 8 * boolBit r.2.2
  { words := [⟨1, BitVec.ofInt 40 r.1.1, tagL tag, tagQ tag⟩, ⟨2, BitVec.ofNat 40 bits, false, qGood⟩],
    out := r.2.1, q := tagQ tag, gap := false }

def ctuRule (reset : Bool) (rise _r2 : Bool) (pv cv : Int) : (Int × Bool) × Bool × Bool :=
  let c := if reset then (0, false) else if rise then satCount (cv + 1) else (cv, false)
  (c, decide (pv ≤ c.1), false)

def ctdRule (load : Bool) (rise _r2 : Bool) (pv cv : Int) : (Int × Bool) × Bool × Bool :=
  let c := if load then (pv, false) else if rise then satCount (cv - 1) else (cv, false)
  (c, decide (c.1 ≤ 0), false)

def ctudRule (reset : Bool) (up down : Bool) (pv cv : Int) : (Int × Bool) × Bool × Bool :=
  let c :=
    if reset then (0, false)
    else if up && down then (cv, false)
    else if up then satCount (cv + 1)
    else if down then satCount (cv - 1)
    else (cv, false)
  (c, decide (pv ≤ c.1), decide (c.1 ≤ 0))

def execCtu (g : Guard) (pd : BitVec 3) (s1 s2 : PSrc) (x : BitVec 3) (k : BitVec 10) (s : State) :
    Host.Outcome State Fault Refusal :=
  blockRun s g pd x k 3 (fun s _ a =>
    evalCounter (srcVal s.eng s1) false (worseQ (srcQ s.eng s1) (srcQ s.eng s2)) (ctuRule (srcVal s.eng s2)) s a)

def execCtd (g : Guard) (pd : BitVec 3) (s1 s2 : PSrc) (x : BitVec 3) (k : BitVec 10) (s : State) :
    Host.Outcome State Fault Refusal :=
  blockRun s g pd x k 3 (fun s _ a =>
    evalCounter (srcVal s.eng s1) false (worseQ (srcQ s.eng s1) (srcQ s.eng s2)) (ctdRule (srcVal s.eng s2)) s a)

def execCtud (g : Guard) (pd : BitVec 3) (s1 s2 s3 : PSrc) (x : BitVec 3) (k : BitVec 10) (s : State) :
    Host.Outcome State Fault Refusal :=
  blockRun s g pd x k 3 (fun s _ a =>
    evalCounter (srcVal s.eng s1) (srcVal s.eng s2)
      (worseQ (srcQ s.eng s1) (worseQ (srcQ s.eng s2) (srcQ s.eng s3))) (ctudRule (srcVal s.eng s3)) s a)

/-! ### Edges (R188, R275) -/

/-- One evaluation of an edge block. -/
def evalEdge (clk : Bool) (inQ : Quality) (edge : (clk prev : Bool) → Bool) (s : State) (a : BitVec 24) : BlockRes :=
  let q := edge clk ((blockWord s a 0).val.getLsbD 0)
  { words := [⟨0, BitVec.ofNat 40 (boolBit clk + 2 * boolBit q), false, qGood⟩], out := q, q := inQ, gap := false }

def execRtrig (g : Guard) (pd : BitVec 3) (s1 : PSrc) (x : BitVec 3) (k : BitVec 10) (s : State) :
    Host.Outcome State Fault Refusal :=
  blockRun s g pd x k 1 (fun s _ a => evalEdge (srcVal s.eng s1) (srcQ s.eng s1) (fun c p => c && !p) s a)

def execFtrig (g : Guard) (pd : BitVec 3) (s1 : PSrc) (x : BitVec 3) (k : BitVec 10) (s : State) :
    Host.Outcome State Fault Refusal :=
  blockRun s g pd x k 1 (fun s _ a => evalEdge (srcVal s.eng s1) (srcQ s.eng s1) (fun c p => !c && p) s a)

end Sys2Proof.Machine
end

