-- ==== Sys2Proof/Machine/EngBranch.lean ====
section
/-!
DEFINITION. Branches, calls and returns (R206-R211, R219, R270, R271).
-/
namespace Sys2Proof.Machine

open Sys2Proof

/-- Go to a target. -/
def jumpTo (s : State) (target : CodeAddr) : Except OverrunCause EngOut := .ok ⟨s, target, none⟩

def execBr (g : Guard) (target : CodeAddr) (s : State) : Host.Outcome State Fault Refusal :=
  .next (engineRun s g 3 [] false (fun s => jumpTo s target))

/-- Both the governing and the operand predicate must hold; not taken costs 1 (R270). -/
def branchOn (s : State) (g : Guard) (take : Bool) (target : CodeAddr) : State :=
  engineRun s g (if take then 3 else 1) [] false (fun s => jumpTo s (if take then target else nextPc s))

def execBeq (g : Guard) (pk : BitVec 3) (target : CodeAddr) (s : State) : Host.Outcome State Fault Refusal :=
  .next (branchOn s g (readPred s.eng pk).v target)

def execBne (g : Guard) (pk : BitVec 3) (target : CodeAddr) (s : State) : Host.Outcome State Fault Refusal :=
  .next (branchOn s g (!(readPred s.eng pk).v) target)

def execJmp (g : Guard) (rs : Reg) (s : State) : Host.Outcome State Fault Refusal :=
  .next (engineRun s g 3 [] false (fun s => jumpTo s ((readReg s.eng rs).val.setWidth 20)))

/-! ### Calls and returns (R206-R211, R271) -/

/-- The position that a call takes. -/
def callPos (e : Engine) : Nat := (e.wpos + 1).toNat

/-- A call spills the window that the next position holds (R207): 20 beats more. -/
def callCost (e : Engine) : Nat := if (vget e.owner (callPos e) none).isSome then 24 else 4

/-- A call: a depth above WSTK is an overrun (R210); else the return address goes into the link entry of the new window.
Log entry 31 (DEDUCED). -/
def callTo (s : State) (target : CodeAddr) : Except OverrunCause EngOut :=
  withScan s (fun sc =>
    if (taskDef s sc.task).wstk < s.eng.depth + 1 then .error .stack
    else
      let ret := nextPc s
      let pos := callPos s.eng
      let s := (spillAt s pos).2
      let s := modEng s (fun e => { e with
        win := vmod e.win pos (fun w => { w with link := ret }),
        owner := vset e.owner pos (some (sc.task, e.depth + 1)), wpos := e.wpos + 1, depth := e.depth + 1 })
      jumpTo s target)

def execCall (g : Guard) (target : CodeAddr) (s : State) : Host.Outcome State Fault Refusal :=
  .next (engineRun s g (callCost s.eng) [] false (fun s => callTo s target))

def execCalli (g : Guard) (rs : Reg) (s : State) : Host.Outcome State Fault Refusal :=
  .next (engineRun s g (callCost s.eng) [] false (fun s => callTo s ((readReg s.eng rs).val.setWidth 20)))

/-- Whether a return must fill the caller's own parent (R208): the caller is at depth 1 or more and the position below it
no longer holds that parent. -/
def retFills (s : State) (t : Nat) : Bool :=
  let e := s.eng
  decide (2 ≤ e.depth) && !decide (vget e.owner ((e.wpos.toNat + 14) % 16) none = some (t, e.depth - 2))

def retCost (s : State) : Nat :=
  match s.sched.running with
  | none => 4
  | some sc => if retFills s sc.task then 24 else 4

/-- Fill a position from the task's window stack (R208). -/
def fillAt (s : State) (t pos depth : Nat) : State :=
  let st := (taskRt s t).stack
  let w := st.getLast?.getD Window.reset
  modTask (modEng s (fun e => { e with win := vset e.win pos w, owner := vset e.owner pos (some (t, depth)) })) t
    (fun r => { r with stack := st.dropLast })

/-- A return at depth 0 is an overrun (R271); else it continues at the link entry and moves WPOS back. -/
def retFrom (s : State) : Except OverrunCause EngOut :=
  withScan s (fun sc =>
    if s.eng.depth = 0 then .error .retAtZero
    else
      let e := s.eng
      let target := (vget e.win e.wpos.toNat Window.reset).link
      let s' := modEng s (fun e => { e with
        owner := vset e.owner e.wpos.toNat none, wpos := e.wpos - 1, depth := e.depth - 1 })
      jumpTo (if retFills s sc.task then fillAt s' sc.task ((e.wpos.toNat + 14) % 16) (e.depth - 2) else s') target)

def execRet (g : Guard) (s : State) : Host.Outcome State Fault Refusal :=
  .next (engineRun s g (retCost s) [] false retFrom)

end Sys2Proof.Machine
end

