-- ==== Sys2Proof/Machine/EngCmp.lean ====
section
/-!
DEFINITION. Compares (R224, R267).
-/
namespace Sys2Proof.Machine

open Sys2Proof

/-- A comparison writes a predicate under WORST. -/
def compare (e : Engine) (pd : BitVec 3) (cc : BitVec 4) (x y : Tagged) : Engine :=
  writePred e pd (ccHolds cc.toNat x.val y.val) (tagQ (tagWorst [x.tag, y.tag] false))

/-- Condition codes above 9 make the word illegal (R242, R267). -/
def execCmp (g : Guard) (pd : BitVec 3) (cc : BitVec 4) (rs1 rs2 : Reg) (s : State) : Host.Outcome State Fault Refusal :=
  if 9 < cc.toNat then .next (engineIllegal s)
  else engineRegs s g 1 [.pred pd] (fun e => compare e pd cc (readReg e rs1) (readReg e rs2))

def execCmpi (g : Guard) (pd : BitVec 3) (cc : BitVec 4) (rs1 : Reg) (imm : BitVec 16) (s : State) : Host.Outcome State Fault Refusal :=
  if 9 < cc.toNat then .next (engineIllegal s)
  else engineRegs s g 1 [.pred pd] (fun e => compare e pd cc (readReg e rs1) ⟨imm.signExtend 40, 0⟩)

/-- F40 comparison: codes 0 to 5; a NaN writes 0 with Q bad (R224). -/
def execFcmp (g : Guard) (pd : BitVec 3) (cc : BitVec 4) (rs1 rs2 : Reg) (s : State) : Host.Outcome State Fault Refusal :=
  if 5 < cc.toNat then .next (engineIllegal s)
  else engineRegs s g 4 [.pred pd] (fun e =>
    let x := readReg e rs1
    let y := readReg e rs2
    let q := tagQ (tagWorst [x.tag, y.tag] false)
    match fCmp cc.toNat x.val y.val with
    | some v => writePred e pd v q
    | none => writePred e pd false qBad)

end Sys2Proof.Machine
end

