-- ==== Sys2Proof/Machine/EngInt.lean ====
section
/-!
DEFINITION. The integer instructions (R222, R255-R257).
-/
namespace Sys2Proof.Machine

open Sys2Proof

/-- A result from two registers. -/
def regs2 (s : State) (g : Guard) (cost : Nat) (rd rs1 rs2 : Reg) (f : Engine → Tagged → Tagged → Engine × Tagged) :
    Host.Outcome State Fault Refusal :=
  engineRegs s g cost [.reg rd] (fun e =>
    let r := f e (readReg e rs1) (readReg e rs2)
    writeReg r.1 rd r.2)

/-- A result from one register. -/
def regs1 (s : State) (g : Guard) (cost : Nat) (rd rs : Reg) (f : Engine → Tagged → Engine × Tagged) :
    Host.Outcome State Fault Refusal :=
  engineRegs s g cost [.reg rd] (fun e =>
    let r := f e (readReg e rs)
    writeReg r.1 rd r.2)

/-- An immediate has tag 0x00 (R228) and is sign-extended (R255). -/
def immTagged (v : BitVec 18) : Tagged := ⟨v.signExtend 40, 0⟩

/-! ### Results with their tags -/

/-- A wrapping result under WORST, with OV (R222). -/
def wrapRes (e : Engine) (v : Int) (ts : List Byte) : Engine × Tagged :=
  let r := wrapI40 v
  (ovStatus e r.2, ⟨r.1, ovTag e (tagWorst ts false) r.2⟩)

/-- A clamping result under WORST, with L (R257). -/
def clampRes (e : Engine) (v : Int) (ts : List Byte) : Engine × Tagged :=
  let r := clampI40 v
  (e, ⟨r.1, tagWorst ts r.2⟩)

/-- A plain result under WORST. -/
def worstRes (e : Engine) (v : Word) (ts : List Byte) : Engine × Tagged := (e, ⟨v, tagWorst ts false⟩)

def addRes (e : Engine) (x y : Tagged) : Engine × Tagged := wrapRes e (x.val.toInt + y.val.toInt) [x.tag, y.tag]
def subRes (e : Engine) (x y : Tagged) : Engine × Tagged := wrapRes e (x.val.toInt - y.val.toInt) [x.tag, y.tag]

/-- AND: a good 0 decides; OR: good ones decide (R229). -/
def andRes (e : Engine) (x y : Tagged) : Engine × Tagged :=
  (e, ⟨x.val &&& y.val, tagDom [(x.tag, decide (x.val = 0)), (y.tag, decide (y.val = 0))] false⟩)

def orRes (e : Engine) (x y : Tagged) : Engine × Tagged :=
  (e, ⟨x.val ||| y.val,
    tagDom [(x.tag, decide (x.val = 0xFFFFFFFFFF)), (y.tag, decide (y.val = 0xFFFFFFFFFF))] false⟩)

def xorRes (e : Engine) (x y : Tagged) : Engine × Tagged := worstRes e (x.val ^^^ y.val) [x.tag, y.tag]

/-- Shifts: a good count of 40 or more decides the logical ones (R229, R256, R257). -/
def shlRes (e : Engine) (x y : Tagged) : Engine × Tagged :=
  let r := shiftLeft x.val y.val.toNat
  (ovStatus e r.2, ⟨r.1, ovTag e (tagDom [(x.tag, false), (y.tag, decide (40 ≤ y.val.toNat))] false) r.2⟩)

def shrRes (e : Engine) (x y : Tagged) : Engine × Tagged :=
  (e, ⟨shiftRight x.val y.val.toNat, tagDom [(x.tag, false), (y.tag, decide (40 ≤ y.val.toNat))] false⟩)

def sarRes (e : Engine) (x y : Tagged) : Engine × Tagged :=
  worstRes e (shiftArith x.val y.val.toNat) [x.tag, y.tag]

/-- The count or bit index of an RI form (R239). -/
def countTagged (c : BitVec 6) : Tagged := ⟨c.setWidth 40, 0⟩

/-! ### The instructions of R255 -/

def execAdd (g : Guard) (rd rs1 rs2 : Reg) (s : State) : Host.Outcome State Fault Refusal :=
  regs2 s g 1 rd rs1 rs2 addRes

def execSub (g : Guard) (rd rs1 rs2 : Reg) (s : State) : Host.Outcome State Fault Refusal :=
  regs2 s g 1 rd rs1 rs2 subRes

def execAnd (g : Guard) (rd rs1 rs2 : Reg) (s : State) : Host.Outcome State Fault Refusal :=
  regs2 s g 1 rd rs1 rs2 andRes

def execOr (g : Guard) (rd rs1 rs2 : Reg) (s : State) : Host.Outcome State Fault Refusal :=
  regs2 s g 1 rd rs1 rs2 orRes

def execXor (g : Guard) (rd rs1 rs2 : Reg) (s : State) : Host.Outcome State Fault Refusal :=
  regs2 s g 1 rd rs1 rs2 xorRes

def execAdds (g : Guard) (rd rs1 rs2 : Reg) (s : State) : Host.Outcome State Fault Refusal :=
  regs2 s g 1 rd rs1 rs2 (fun e x y => clampRes e (x.val.toInt + y.val.toInt) [x.tag, y.tag])

def execSubs (g : Guard) (rd rs1 rs2 : Reg) (s : State) : Host.Outcome State Fault Refusal :=
  regs2 s g 1 rd rs1 rs2 (fun e x y => clampRes e (x.val.toInt - y.val.toInt) [x.tag, y.tag])

def execMin (g : Guard) (rd rs1 rs2 : Reg) (s : State) : Host.Outcome State Fault Refusal :=
  regs2 s g 1 rd rs1 rs2 (fun e x y => worstRes e (if y.val.toInt < x.val.toInt then y.val else x.val) [x.tag, y.tag])

def execMax (g : Guard) (rd rs1 rs2 : Reg) (s : State) : Host.Outcome State Fault Refusal :=
  regs2 s g 1 rd rs1 rs2 (fun e x y => worstRes e (if x.val.toInt < y.val.toInt then y.val else x.val) [x.tag, y.tag])

def execMinu (g : Guard) (rd rs1 rs2 : Reg) (s : State) : Host.Outcome State Fault Refusal :=
  regs2 s g 1 rd rs1 rs2 (fun e x y => worstRes e (if y.val.toNat < x.val.toNat then y.val else x.val) [x.tag, y.tag])

def execMaxu (g : Guard) (rd rs1 rs2 : Reg) (s : State) : Host.Outcome State Fault Refusal :=
  regs2 s g 1 rd rs1 rs2 (fun e x y => worstRes e (if x.val.toNat < y.val.toNat then y.val else x.val) [x.tag, y.tag])

def execShl (g : Guard) (rd rs1 rs2 : Reg) (s : State) : Host.Outcome State Fault Refusal :=
  regs2 s g 1 rd rs1 rs2 shlRes

def execShr (g : Guard) (rd rs1 rs2 : Reg) (s : State) : Host.Outcome State Fault Refusal :=
  regs2 s g 1 rd rs1 rs2 shrRes

def execSar (g : Guard) (rd rs1 rs2 : Reg) (s : State) : Host.Outcome State Fault Refusal :=
  regs2 s g 1 rd rs1 rs2 sarRes

def execNeg (g : Guard) (rd rs1 : Reg) (s : State) : Host.Outcome State Fault Refusal :=
  regs1 s g 1 rd rs1 (fun e x => wrapRes e (-x.val.toInt) [x.tag])

def execAbs (g : Guard) (rd rs1 : Reg) (s : State) : Host.Outcome State Fault Refusal :=
  regs1 s g 1 rd rs1 (fun e x => wrapRes e (if x.val.toInt < 0 then -x.val.toInt else x.val.toInt) [x.tag])

def execAddi (g : Guard) (rd rs1 : Reg) (imm : BitVec 18) (s : State) : Host.Outcome State Fault Refusal :=
  regs1 s g 1 rd rs1 (fun e x => addRes e x (immTagged imm))

def execAndi (g : Guard) (rd rs1 : Reg) (imm : BitVec 18) (s : State) : Host.Outcome State Fault Refusal :=
  regs1 s g 1 rd rs1 (fun e x => andRes e x (immTagged imm))

def execOri (g : Guard) (rd rs1 : Reg) (imm : BitVec 18) (s : State) : Host.Outcome State Fault Refusal :=
  regs1 s g 1 rd rs1 (fun e x => orRes e x (immTagged imm))

def execXori (g : Guard) (rd rs1 : Reg) (imm : BitVec 18) (s : State) : Host.Outcome State Fault Refusal :=
  regs1 s g 1 rd rs1 (fun e x => xorRes e x (immTagged imm))

def execShli (g : Guard) (rd rs1 : Reg) (count : BitVec 6) (s : State) : Host.Outcome State Fault Refusal :=
  regs1 s g 1 rd rs1 (fun e x => shlRes e x (countTagged count))

def execShri (g : Guard) (rd rs1 : Reg) (count : BitVec 6) (s : State) : Host.Outcome State Fault Refusal :=
  regs1 s g 1 rd rs1 (fun e x => shrRes e x (countTagged count))

def execSari (g : Guard) (rd rs1 : Reg) (count : BitVec 6) (s : State) : Host.Outcome State Fault Refusal :=
  regs1 s g 1 rd rs1 (fun e x => sarRes e x (countTagged count))

/-- A bit index above 39 makes the word illegal (R242). -/
def execBset (g : Guard) (rd rs1 : Reg) (bit : BitVec 6) (s : State) : Host.Outcome State Fault Refusal :=
  if 39 < bit.toNat then .next (engineIllegal s)
  else regs1 s g 1 rd rs1 (fun e x => worstRes e (x.val ||| (1#40 <<< bit.toNat)) [x.tag])

/-- A bit index above 39 makes the word illegal (R242). -/
def execBclr (g : Guard) (rd rs1 : Reg) (bit : BitVec 6) (s : State) : Host.Outcome State Fault Refusal :=
  if 39 < bit.toNat then .next (engineIllegal s)
  else regs1 s g 1 rd rs1 (fun e x => worstRes e (x.val &&& ~~~(1#40 <<< bit.toNat)) [x.tag])

end Sys2Proof.Machine
end

