-- ==== Sys2Proof/Machine/EngF40.lean ====
section
/-!
DEFINITION. The F40 instructions (R223-R226, R262, R263).
-/
namespace Sys2Proof.Machine

open Sys2Proof

/-- An F40 result: its flags are sticky, and NaN, an overflow and a division by zero take Q bad (R224, R263). -/
def fpRes (e : Engine) (r : FRes) (t : Byte) : Engine × Tagged := (orFpstat e (fpBits r.fl), ⟨r.val, badIf t r.bad⟩)

def fp2 (f : Word → Word → FRes) (e : Engine) (x y : Tagged) : Engine × Tagged :=
  fpRes e (f x.val y.val) (tagWorst [x.tag, y.tag] false)

def fp1 (f : Word → FRes) (e : Engine) (x : Tagged) : Engine × Tagged := fpRes e (f x.val) (tagWorst [x.tag] false)

/-- A factor of ±0 decides when the other is neither infinity nor NaN (R229). -/
def fmulRes (e : Engine) (x y : Tagged) : Engine × Tagged :=
  fpRes e (fMul x.val y.val) (tagDom
    [(x.tag, fIsZero x.val && !fIsInf y.val && !fIsNan y.val),
     (y.tag, fIsZero y.val && !fIsInf x.val && !fIsNan x.val)] false)

/-- A conversion to I40: a clamp sets L, NaN gives 0 with Q bad (R225). -/
def toI40 (f : Word → Word × Bool × Bool) (e : Engine) (x : Tagged) : Engine × Tagged :=
  let r := f x.val
  (e, ⟨r.1, badIf (tagWorst [x.tag] r.2.1) r.2.2⟩)

def execFadd (g : Guard) (rd rs1 rs2 : Reg) (s : State) : Host.Outcome State Fault Refusal :=
  regs2 s g 4 rd rs1 rs2 (fp2 fAdd)

def execFsub (g : Guard) (rd rs1 rs2 : Reg) (s : State) : Host.Outcome State Fault Refusal :=
  regs2 s g 4 rd rs1 rs2 (fp2 fSub)

def execFmul (g : Guard) (rd rs1 rs2 : Reg) (s : State) : Host.Outcome State Fault Refusal :=
  regs2 s g 4 rd rs1 rs2 fmulRes

def execFdiv (g : Guard) (rd rs1 rs2 : Reg) (s : State) : Host.Outcome State Fault Refusal :=
  regs2 s g 18 rd rs1 rs2 (fp2 fDiv)

def execFsqrt (g : Guard) (rd rs1 : Reg) (s : State) : Host.Outcome State Fault Refusal :=
  regs1 s g 20 rd rs1 (fp1 fSqrt)

def execFneg (g : Guard) (rd rs1 : Reg) (s : State) : Host.Outcome State Fault Refusal :=
  regs1 s g 1 rd rs1 (fp1 fNeg)

def execFabs (g : Guard) (rd rs1 : Reg) (s : State) : Host.Outcome State Fault Refusal :=
  regs1 s g 1 rd rs1 (fp1 fAbs)

def execFmin (g : Guard) (rd rs1 rs2 : Reg) (s : State) : Host.Outcome State Fault Refusal :=
  regs2 s g 4 rd rs1 rs2 (fp2 fMin)

def execFmax (g : Guard) (rd rs1 rs2 : Reg) (s : State) : Host.Outcome State Fault Refusal :=
  regs2 s g 4 rd rs1 rs2 (fp2 fMax)

def execItof (g : Guard) (rd rs1 : Reg) (s : State) : Host.Outcome State Fault Refusal :=
  regs1 s g 4 rd rs1 (fp1 itof)

def execFtoi (g : Guard) (rd rs1 : Reg) (s : State) : Host.Outcome State Fault Refusal :=
  regs1 s g 4 rd rs1 (toI40 ftoi)

def execFtrunc (g : Guard) (rd rs1 : Reg) (s : State) : Host.Outcome State Fault Refusal :=
  regs1 s g 4 rd rs1 (toI40 ftrunc)

end Sys2Proof.Machine
end

