-- ==== Sys2Proof/Machine/EngMem.lean ====
section
/-!
DEFINITION. Word loads and stores (R212, R217, R218, R221, R268, R269).
-/
namespace Sys2Proof.Machine

open Sys2Proof

/-- A load from a data address: value and tag with the Q of the address, pending until the end of the next instruction
(R212, R218); an unmapped address is an access error (R221). Log entry 33 (DEDUCED). -/
def wordLoad (s : State) (rd : Reg) (x : Ea) : Except OverrunCause EngOut :=
  withScan s (fun sc =>
    let t := loadWord s sc x.addr.toNat
    let l := regLoc s.eng rd
    let e := if loadErr s sc x.addr.toNat then setAerrAt s.eng x.addr else s.eng
    let e := if l = .nowhere then setAerr e else e
    .ok { engOut s (postOf e x) with load := some ⟨l, ⟨t.val, worsenTag t.tag x.q⟩⟩ })

/-- A store at a data address (R268, R269). -/
def wordStore (s : State) (rs : Reg) (x : Ea) : Except OverrunCause EngOut :=
  withScan s (fun sc =>
    match storeWord s sc x.addr (readReg s.eng rs) x.q with
    | .error c => .error c
    | .ok s => .ok (engOut s (postOf s.eng x)))

/-- Mode 0b000 is illegal in `ld` and `st` (R242). -/
def pointMode : Mode → Bool
  | .absPoint _ => true
  | _ => false

def execLd (g : Guard) (rd : Reg) (m : Mode) (s : State) : Host.Outcome State Fault Refusal :=
  if pointMode m then .next (engineIllegal s)
  else .next (engineRun s g 2 [.reg rd] true (fun s => wordLoad s rd (eaOf s.eng m)))

/-- Region 0b11 is illegal (R241, R242). -/
def execLdAbs (g : Guard) (rd : Reg) (addr : Abs) (s : State) : Host.Outcome State Fault Refusal :=
  if addr.region = 3 then .next (engineIllegal s)
  else .next (engineRun s g 2 [.reg rd] true (fun s => wordLoad s rd ⟨absAddr addr, qGood, none⟩))

def execSt (g : Guard) (m : Mode) (rs : Reg) (s : State) : Host.Outcome State Fault Refusal :=
  if pointMode m then .next (engineIllegal s)
  else .next (engineRun s g 2 [] false (fun s => wordStore s rs (eaOf s.eng m)))

def execStAbs (g : Guard) (addr : Abs) (rs : Reg) (s : State) : Host.Outcome State Fault Refusal :=
  if addr.region = 3 then .next (engineIllegal s)
  else .next (engineRun s g 2 [] false (fun s => wordStore s rs ⟨absAddr addr, qGood, none⟩))

end Sys2Proof.Machine
end

