-- ==== Sys2Proof/Machine/EngMove.lean ====
section
/-!
DEFINITION. Moves, selects and address registers (R264-R266).
-/
namespace Sys2Proof.Machine

open Sys2Proof

def execMov (g : Guard) (rd rs : Reg) (s : State) : Host.Outcome State Fault Refusal :=
  regs1 s g 1 rd rs (fun e x => (e, ⟨x.val, tagMove x.tag⟩))

def execMovImm (g : Guard) (rd : Reg) (imm : BitVec 23) (s : State) : Host.Outcome State Fault Refusal :=
  engineRegs s g 1 [.reg rd] (fun e => writeReg e rd ⟨imm.signExtend 40, 0⟩)

def execMovh (g : Guard) (rd : Reg) (imm : BitVec 20) (s : State) : Host.Outcome State Fault Refusal :=
  regs1 s g 1 rd rd (fun e x =>
    worstRes e ((imm.setWidth 40 <<< (20 : Nat)) ||| (x.val.extractLsb' 0 20).setWidth 40) [x.tag])

def execSel (g : Guard) (rd : Reg) (p : PSrc) (rs1 rs2 : Reg) (s : State) : Host.Outcome State Fault Refusal :=
  engineRegs s g 1 [.reg rd] (fun e =>
    let t := if srcVal e p then readReg e rs1 else readReg e rs2
    writeReg e rd ⟨t.val, tagSel t.tag (srcQ e p)⟩)

/-- xk takes the Q of rs (R218, R265). -/
def execMovx (g : Guard) (k : BitVec 3) (rs : Reg) (s : State) : Host.Outcome State Fault Refusal :=
  engineRegs s g 1 [.xreg k] (fun e =>
    let t := readReg e rs
    writeX e k ⟨t.val.setWidth 24, tagQ t.tag⟩)

/-- A doubtful value worsens the address register of the same index (R265). Log entry 36 (DEDUCED). -/
def execMovm (g : Guard) (k : BitVec 3) (rs : Reg) (s : State) : Host.Outcome State Fault Refusal :=
  engineRegs s g 1 [] (fun e =>
    let t := readReg e rs
    worsenX { e with m := vset e.m k.toNat (t.val.setWidth 24) } k (tagQ t.tag))

/-- A doubtful value worsens the address register of the same index (R265). Log entry 36 (DEDUCED). -/
def execMovb (g : Guard) (k : BitVec 3) (rs : Reg) (s : State) : Host.Outcome State Fault Refusal :=
  engineRegs s g 1 [] (fun e =>
    let t := readReg e rs
    worsenX { e with b := vset e.b k.toNat (t.val.setWidth 24) } k (tagQ t.tag))

/-- A doubtful value worsens the address register of the same index (R265). Log entry 36 (DEDUCED). -/
def execMovn (g : Guard) (k : BitVec 3) (rs : Reg) (s : State) : Host.Outcome State Fault Refusal :=
  engineRegs s g 1 [] (fun e =>
    let t := readReg e rs
    worsenX { e with n := vset e.n k.toNat (t.val.setWidth 24) } k (tagQ t.tag))

def execSetx (g : Guard) (k : BitVec 3) (imm : BitVec 24) (s : State) : Host.Outcome State Fault Refusal :=
  engineRegs s g 1 [.xreg k] (fun e => writeX e k ⟨imm, qGood⟩)

/-- Log entry 36 (DEDUCED). -/
def execSetm (g : Guard) (k : BitVec 3) (imm : BitVec 24) (s : State) : Host.Outcome State Fault Refusal :=
  engineRegs s g 1 [] (fun e => { e with m := vset e.m k.toNat imm })

/-- Log entry 36 (DEDUCED). -/
def execSetb (g : Guard) (k : BitVec 3) (imm : BitVec 24) (s : State) : Host.Outcome State Fault Refusal :=
  engineRegs s g 1 [] (fun e => { e with b := vset e.b k.toNat imm })

/-- Log entry 36 (DEDUCED). -/
def execSetn (g : Guard) (k : BitVec 3) (imm : BitVec 24) (s : State) : Host.Outcome State Fault Refusal :=
  engineRegs s g 1 [] (fun e => { e with n := vset e.n k.toNat imm })

def execRdx (g : Guard) (rd : Reg) (k : BitVec 3) (s : State) : Host.Outcome State Fault Refusal :=
  engineRegs s g 1 [.reg rd] (fun e => writeReg e rd ⟨(readX e k).val.setWidth 40, qTag (readX e k).q⟩)

/-- WORST over rs and a tag operand given by q and l (R266). -/
def execQmax (g : Guard) (rd rs : Reg) (q : BitVec 2) (l : Bool) (s : State) : Host.Outcome State Fault Refusal :=
  regs1 s g 1 rd rs (fun e x => worstRes e x.val [x.tag, mkTag false l false false false q false])

/-- The tag byte as a good value (R266). -/
def execTagr (g : Guard) (rd rs : Reg) (s : State) : Host.Outcome State Fault Refusal :=
  regs1 s g 1 rd rs (fun e x => (e, ⟨x.tag.setWidth 40, 0⟩))

end Sys2Proof.Machine
end

