-- ==== Sys2Proof/Machine/EngMul.lean ====
section
/-!
DEFINITION. Multiply and divide (R225, R258, R259).
-/
namespace Sys2Proof.Machine

open Sys2Proof

/-- DOM of a product: a good 0 decides (R229). -/
def mulTag (x y : Tagged) (l : Bool) : Byte :=
  tagDom [(x.tag, decide (x.val = 0)), (y.tag, decide (y.val = 0))] l

def execMul (g : Guard) (rd rs1 rs2 : Reg) (s : State) : Host.Outcome State Fault Refusal :=
  regs2 s g 3 rd rs1 rs2 (fun e x y =>
    let r := wrapI40 (x.val.toInt * y.val.toInt)
    (ovStatus e r.2, ⟨r.1, ovTag e (mulTag x y false) r.2⟩))

def execMuls (g : Guard) (rd rs1 rs2 : Reg) (s : State) : Host.Outcome State Fault Refusal :=
  regs2 s g 3 rd rs1 rs2 (fun e x y =>
    let r := clampI40 (x.val.toInt * y.val.toInt)
    (e, ⟨r.1, mulTag x y r.2⟩))

/-- Division by zero returns 0 with Q bad and sets DIV0 (R225). -/
def divZero (e : Engine) (x y : Tagged) : Engine × Tagged :=
  (orStatus e stDiv0, ⟨0, worsenTag (tagWorst [x.tag, y.tag] false) qBad⟩)

def execDiv (g : Guard) (rd rs1 rs2 : Reg) (s : State) : Host.Outcome State Fault Refusal :=
  regs2 s g 24 rd rs1 rs2 (fun e x y =>
    if y.val = 0 then divZero e x y else wrapRes e (Int.tdiv x.val.toInt y.val.toInt) [x.tag, y.tag])

def execDivu (g : Guard) (rd rs1 rs2 : Reg) (s : State) : Host.Outcome State Fault Refusal :=
  regs2 s g 24 rd rs1 rs2 (fun e x y =>
    if y.val = 0 then divZero e x y else worstRes e (BitVec.ofNat 40 (x.val.toNat / y.val.toNat)) [x.tag, y.tag])

def execRem (g : Guard) (rd rs1 rs2 : Reg) (s : State) : Host.Outcome State Fault Refusal :=
  regs2 s g 24 rd rs1 rs2 (fun e x y =>
    if y.val = 0 then divZero e x y else worstRes e (BitVec.ofInt 40 (Int.tmod x.val.toInt y.val.toInt)) [x.tag, y.tag])

end Sys2Proof.Machine
end

