-- ==== Sys2Proof/Machine/EngPred.lean ====
section
/-!
DEFINITION. Predicate logic and point access (R251-R254).
-/
namespace Sys2Proof.Machine

open Sys2Proof

/-! ### Predicate logic (R251, R252) -/

/-- The quality of a predicate result under DOM: `dom` is the source value that decides (R229). -/
def predDomQ (e : Engine) (s1 s2 : PSrc) (dom : Bool) : Quality :=
  tagQ (tagDom [(srcTag e s1, srcVal e s1 == dom), (srcTag e s2, srcVal e s2 == dom)] false)

def execPand (g : Guard) (pd : BitVec 3) (s1 s2 : PSrc) (s : State) : Host.Outcome State Fault Refusal :=
  engineRegs s g 1 [.pred pd] (fun e => writePred e pd (srcVal e s1 && srcVal e s2) (predDomQ e s1 s2 false))

def execPnand (g : Guard) (pd : BitVec 3) (s1 s2 : PSrc) (s : State) : Host.Outcome State Fault Refusal :=
  engineRegs s g 1 [.pred pd] (fun e => writePred e pd (!(srcVal e s1 && srcVal e s2)) (predDomQ e s1 s2 false))

def execPor (g : Guard) (pd : BitVec 3) (s1 s2 : PSrc) (s : State) : Host.Outcome State Fault Refusal :=
  engineRegs s g 1 [.pred pd] (fun e => writePred e pd (srcVal e s1 || srcVal e s2) (predDomQ e s1 s2 true))

def execPnor (g : Guard) (pd : BitVec 3) (s1 s2 : PSrc) (s : State) : Host.Outcome State Fault Refusal :=
  engineRegs s g 1 [.pred pd] (fun e => writePred e pd (!(srcVal e s1 || srcVal e s2)) (predDomQ e s1 s2 true))

def execPxor (g : Guard) (pd : BitVec 3) (s1 s2 : PSrc) (s : State) : Host.Outcome State Fault Refusal :=
  engineRegs s g 1 [.pred pd] (fun e =>
    writePred e pd (xor (srcVal e s1) (srcVal e s2)) (worseQ (srcQ e s1) (srcQ e s2)))

def execPmov (g : Guard) (pd : BitVec 3) (s1 : PSrc) (s : State) : Host.Outcome State Fault Refusal :=
  engineRegs s g 1 [.pred pd] (fun e => writePred e pd (srcVal e s1) (srcQ e s1))

/-- A bit index above 39 makes the word illegal (R242). -/
def execBtst (g : Guard) (pd : BitVec 3) (rs : Reg) (bit : BitVec 6) (s : State) : Host.Outcome State Fault Refusal :=
  if 39 < bit.toNat then .next (engineIllegal s)
  else engineRegs s g 1 [.pred pd] (fun e =>
    writePred e pd ((readReg e rs).val.getLsbD bit.toNat) (tagQ (readReg e rs).tag))

/-- A Q code above 3 makes the word illegal (R242); the result is good (CONST). -/
def execQtst (g : Guard) (pd : BitVec 3) (rs : Reg) (q : BitVec 6) (s : State) : Host.Outcome State Fault Refusal :=
  if 3 < q.toNat then .next (engineIllegal s)
  else engineRegs s g 1 [.pred pd] (fun e =>
    writePred e pd (decide (q.toNat ≤ (tagQ (readReg e rs).tag).toNat)) qGood)

def execPmovr (g : Guard) (rd : Reg) (p : PSrc) (s : State) : Host.Outcome State Fault Refusal :=
  engineRegs s g 1 [.reg rd] (fun e => writeReg e rd ⟨if srcVal e p then 1 else 0, srcTag e p⟩)

/-! ### Point access (R253, R254) -/

/-- The point of an effective address: bits [16:0] (R217). -/
def pointOf (x : Ea) : Point := x.addr.setWidth 17

/-- Load V of the point into a predicate; its Q is the worse of the point's and the address's (R218). -/
def execLdp (g : Guard) (pd : BitVec 3) (m : Mode) (s : State) : Host.Outcome State Fault Refusal :=
  .next (engineRun s g 2 [.pred pd] true (fun s =>
    let x := eaOf s.eng m
    let t := loadPoint s (pointOf x)
    .ok { engOut s (postOf s.eng x) with
      load := some ⟨.pred pd.toNat, ⟨if tagV t.tag then 1 else 0, worsenTag t.tag x.q⟩⟩ }))

/-- Load V of the point as 0 or 1 with the point's tag. -/
def execLdpr (g : Guard) (rd : Reg) (m : Mode) (s : State) : Host.Outcome State Fault Refusal :=
  .next (engineRun s g 2 [.reg rd] true (fun s =>
    let x := eaOf s.eng m
    let t := loadPoint s (pointOf x)
    let l := regLoc s.eng rd
    let e := if l = .nowhere then setAerr s.eng else s.eng
    .ok { engOut s (postOf e x) with load := some ⟨l, ⟨if tagV t.tag then 1 else 0, worsenTag t.tag x.q⟩⟩ }))

/-- A store to a point, then the post-modification of its address register. -/
def pointStore (s : State) (m : Mode) (v l : Bool) (q : Quality) : Except OverrunCause EngOut :=
  withScan s (fun sc =>
    let x := eaOf s.eng m
    match storePoint s sc (pointOf x) v l (worseQ q x.q) with
    | .error c => .error c
    | .ok s => .ok (engOut s (postOf s.eng x)))

def execStp (g : Guard) (m : Mode) (p : PSrc) (s : State) : Host.Outcome State Fault Refusal :=
  .next (engineRun s g 2 [] false (fun s => pointStore s m (srcVal s.eng p) false (srcQ s.eng p)))

def execStpr (g : Guard) (m : Mode) (rs : Reg) (s : State) : Host.Outcome State Fault Refusal :=
  .next (engineRun s g 2 [] false (fun s =>
    let t := readReg s.eng rs
    pointStore s m (t.val.getLsbD 0) (tagL t.tag) (tagQ t.tag)))

end Sys2Proof.Machine
end

