-- ==== Sys2Proof/Machine/EngSys.lean ====
section
/-!
DEFINITION. The system instructions (R242, R247-R250) and the stores to special function registers as commands of their own
(R237, R269).
-/
namespace Sys2Proof.Machine

open Sys2Proof

/-- 0x01 (R247). -/
def execNop (g : Guard) (s : State) : Host.Outcome State Fault Refusal :=
  engineRegs s g 1 [] id

/-- The end of EXECUTE (R248): a pending load completes, the mask ends, the windows of the scan are discarded, the beats are
kept for SF.TBEATS, and SEAL follows; the engine takes back the context of a task that this one preempted (R232). -/
def endExecute (s : State) : State :=
  match s.sched.running with
  | none => s
  | some sc =>
    let s := modEng s (fun e => { e with ctrl := e.ctrl &&& 0xFFFFFFFFFE })
    let s := modTask (dropWindows s sc.task) sc.task (fun r => { r with beats := s.eng.beats })
    let s := beginSeal s sc
    match s.sched.suspended with
    | [] => s
    | (below, c) :: _ => restoreContext s below.task c

/-- 0x02 (R248). -/
def execEos (g : Guard) (s : State) : Host.Outcome State Fault Refusal :=
  .next (engineRunThen s g 3 [] false (fun s => .ok (engOut s s.eng))
    (fun met s => if met then endExecute s else preemptNow s))

/-- 0x03 (R249). -/
def execChg (g : Guard) (chart : BitVec 3) (s : State) : Host.Outcome State Fault Refusal :=
  .next (engineRun s g 2 [] false (fun s => .ok (let s' := requestChg s chart.toNat; engOut s' s'.eng)))

/-- The request of `chgr`: a value outside 0 to 7 or of worse quality than good is discarded (R249). -/
def requestFrom (s : State) (t : Tagged) : State :=
  if 7 < t.val.toNat ∨ tagQ t.tag ≠ qGood then logDiscard s (if 7 < t.val.toNat then 0xFFFF else t.val.toNat) 1
  else requestChg s t.val.toNat

/-- 0x04 (R249). -/
def execChgr (g : Guard) (rs : Reg) (s : State) : Host.Outcome State Fault Refusal :=
  .next (engineRun s g 2 [] false (fun s => .ok (let s' := requestFrom s (readReg s.eng rs); engOut s' s'.eng)))

/-- 0x05 (R250). -/
def execWdci (g : Guard) (s : State) : Host.Outcome State Fault Refusal :=
  .next (engineRun s g 2 [] false (fun s => withScan s (fun sc =>
    .ok (let s' := wdCheckIn s sc.task; engOut s' s'.eng))))

/-- A word that R242 calls illegal. -/
def execIllegalInstruction (_w : Word) (s : State) : Host.Outcome State Fault Refusal :=
  .next (engineIllegal s)

/-- A store to a special function register by the scan in EXECUTE, apart from the cost of the instruction that makes it. -/
def sfStore (s : State) (n : Nat) (v : Word) : State :=
  match s.sched.running with
  | none => s
  | some sc =>
    if sc.phase ≠ .execute then s
    else
      match sfWrite s n v with
      | some s => s
      | none => modEng s (fun e => setAerrAt e (BitVec.ofNat 24 (0xFFF000 + n)))

/-- R237: p1 to p7 and their Q together. -/
def execSfPredStore (value : Word) (s : State) : Host.Outcome State Fault Refusal := .next (sfStore s 0x18 value)

/-- R237: SF.CTRL. -/
def execSfCtrlStore (value : Word) (s : State) : Host.Outcome State Fault Refusal := .next (sfStore s 0x10 value)

/-- R269: another special function register, by its access code. -/
def execSfRegisterWrite (addr : BitVec 12) (value : Word) (s : State) : Host.Outcome State Fault Refusal :=
  .next (sfStore s addr.toNat value)

end Sys2Proof.Machine
end

