-- ==== Sys2Proof/Machine/LogRows.lean ====
section
/-!
DEFINITION. The logbook: LOG.READ, LOG.CLEAR, LOG.MARK, SUPPRESSED records and the overwrite of cleared records (R573-R584).
-/
namespace Sys2Proof.Machine

open Sys2Proof

def modLog (s : State) (f : Logbook → Logbook) : State := { s with log := f s.log }

/-! ### LOG.READ (R581, R582) -/

/-- Records available from a sequence on: neither cleared nor overwritten. -/
def availableFrom (l : Logbook) (first : Nat) : List LogRec :=
  l.recs.filter (fun r => decide (l.oldest ≤ r.seq ∧ first ≤ r.seq))

/-- Whole records while the limit allows; the first always. -/
def takeRecords (limit : Nat) : List LogRec → Nat → List Byte
  | [], _ => []
  | r :: rest, used =>
    if used = 0 ∨ used + r.length ≤ limit then r.bytes ++ takeRecords limit rest (used + r.length) else []

def logReadBytes (s : State) (first limit : Nat) : List Byte :=
  let head := fun (n : Nat) => BitVec.ofNat 8 n :: ([0, 0, 0] ++ le 4 s.log.oldest)
  if first < s.log.oldest then head 1 else head 0 ++ takeRecords limit (availableFrom s.log first) 0

def execLogRead (now : Tb) (c : CmdRef) (first limit : Nat) (s : State) : Host.Outcome State Fault Refusal :=
  runWork now c (.logRead now c first limit) s (fun s _ => done s c (logReadBytes s first limit))

/-! ### LOG.CLEAR (R583, R584) -/

/-- The CLEARED record, then everything up to the last sequence given is unavailable. -/
def logClearOp (s : State) (c : CmdRef) (last : Nat) : State :=
  let from_ := s.log.oldest
  let body := le 8 s.tb ++ le 1 (frankSlotOf s c) ++ le 1 (portCode c.port) ++ [0, 0] ++ le 4 from_
    ++ leInt 4 (if last < from_ then (from_ : Int) - 1 else last)
  let seq := s.log.next
  let s := (logRaw s 0x02 sevInfo 0x1D body).2
  let s := modLog s (fun l => { l with
    oldest := Nat.max l.oldest (if last < from_ then from_ else last + 1),
    overwrite := if last < from_ then l.overwrite else some last })
  done s c (le 4 seq)

def execLogClear (now : Tb) (c : CmdRef) (last : Nat) (s : State) : Host.Outcome State Fault Refusal :=
  runLast now c (.logClear now c last) s (fun s => logClearOp s c last)

/-- The service processor overwrites cleared records with zeros (R584). -/
def execLogClearOverwrite (now : Tb) (s : State) : Host.Outcome State Fault Refusal :=
  let s := s.at now
  .next (match s.log.overwrite with
    | none => s
    | some n => if dieRuns s then
        modLog s (fun l => { l with recs := l.recs.filter (fun r => decide (n < r.seq)), overwrite := none })
      else s)

/-! ### LOG.MARK (R579, R580) -/

/-- Log entry 74 (DESIGN CHOICE). -/
def logMarkOp (s : State) (c : CmdRef) (code : Nat) (data : List Byte) : State :=
  let body := le 8 s.tb ++ le 2 code ++ le 1 (portCode c.port) ++ le 1 (frankSlotOf s c) ++ data
  let seq := s.log.next
  let r := logRaw s 0x04 sevNotice 0x1E body
  done r.2 c (le 4 (if r.1 = 0 then seq else 0) ++ [BitVec.ofNat 8 r.1, 0, 0, 0])

def execLogMark (now : Tb) (c : CmdRef) (code : Nat) (data : List Byte) (s : State) : Host.Outcome State Fault Refusal :=
  runWork now c (.logMark now c code data) s (fun s _ => logMarkOp s c code data)

/-! ### SUPPRESSED (R579) -/

/-- The SUPPRESSED record: the total, and up to 32 entries by type and source. -/
def suppressedBody (s : State) : List Byte :=
  le 8 s.tb ++ le 4 (s.log.suppressed.foldl (fun n e => n + e.2.2) 0)
    ++ (s.log.suppressed.take 32).flatMap (fun e => le 1 e.1 ++ le 1 e.2.1 ++ le 2 (Nat.min e.2.2 0xFFFF))

/-- While records were not written, one SUPPRESSED record at most every 16 s. -/
def suppressedOp (s : State) : State :=
  if s.log.suppressed.isEmpty || decide (s.power.opsec < s.log.suppressedAt + 16) || !dieRuns s then s
  else
    modLog (logRaw s 0x03 sevInfo 0x1D (suppressedBody s)).2 (fun l => { l with
      suppressed := [], suppressedAt := s.power.opsec })

def execSuppressedRecordDue (now : Tb) (s : State) : Host.Outcome State Fault Refusal := .next (suppressedOp (s.at now))

end Sys2Proof.Machine
end

