-- ==== Sys2Proof/Machine/WdRows.lean ====
section
/-!
DEFINITION. The watchdog's rows: WD.STATUS, periods, check-ins and replies of the service processor, and its control registers
(R588-R610).
-/
namespace Sys2Proof.Machine

open Sys2Proof

/-- The watchdog's status block (R610). -/
def wdStatusBytes (s : State) : List Byte :=
  let w := s.wd
  let state := match w.state with | .disabled => 0 | .running => 1 | .warned => 2
  let flags := boolBit (decide (w.state ≠ .disabled)) + 2 * boolBit w.lock + 4 * boolBit s.store.wdlockf
    + 8 * boolBit (wdOpen s w.tick && decide (w.state ≠ .disabled)) + 16 * boolBit w.pwign + 32 * boolBit w.keyerr
    + 64 * s.store.wdwin.toNat
  le 1 state ++ le 1 (boolBit w.engineMode) ++ le 1 flags ++ le 1 w.lastRes ++ le 2 w.period
    ++ le 1 (w.recDtask.getD 0xFF) ++ [0] ++ le 4 w.lfsr.toNat ++ le 4 w.mask.toNat ++ le 4 w.observed.toNat
    ++ le 4 (w.implied.toNat + 2 ^ 31 * boolBit w.impliedVoid) ++ le 4 s.store.wdsalt.toNat ++ le 4 w.count

def execWdStatus (now : Tb) (c : CmdRef) (s : State) : Host.Outcome State Fault Refusal :=
  runWork now c (.wdStatus now c) s (fun s _ => done s c (wdStatusBytes s))

/-- The watchdog counts: the logic die runs and EN is 1 (R586). -/
def wdCounts (s : State) : Bool := dieRuns s && decide (s.wd.state ≠ .disabled)

/-- Tick P without a good service (R588). Log entry 82 (DEDUCED). -/
def execWdPeriodExpiry (now : Tb) (s : State) : Host.Outcome State Fault Refusal :=
  let s := dieAt s now
  .next (if wdCounts s then wdAfter (wdBad s .expiry 0xFFFF none) else s)

/-- The service processor's check-in, once per period (R590). -/
def execServiceProcessorCheckIn (now : Tb) (s : State) : Host.Outcome State Fault Refusal :=
  let s := dieAt s now
  .next (if wdCounts s && !s.wd.mask.getLsbD 16 then wdCheckIn s 16 else s)

/-- In SERVICE mode the service processor replies at or after W once bit 16 is set, with the mask it observes (R597).
Log entry 82 (DEDUCED). -/
def execServiceProcessorReply (now : Tb) (tick : Nat) (s : State) : Host.Outcome State Fault Refusal :=
  let s := dieAt s now
  .next (if wdCounts s && !s.wd.engineMode && s.wd.mask.getLsbD 16 && wdOpen s tick then
      wdAfter (wdReplyAt s 16 (wdExpected s.wd.lfsr s.wd.mask s.store.wdsalt) tick)
    else s)

/-- A store to SF.WDREPLY by the running task at a tick of the present period (R592, R595, R598). -/
def execWdReply (now : Tb) (value : Word) (tick : Nat) (s : State) : Host.Outcome State Fault Refusal :=
  let s := dieAt s now
  .next (match s.sched.running with
    | none => s
    | some sc =>
      if dieRuns s && s.wd.engineMode && decide (tick < wdP s.wd) then
        wdAfter (wdReplyAt s sc.task (value.setWidth 32) tick)
      else s)

/-- A write of WD_CTRL: EN, LOCK and PERIOD, in that order of effect (R604, R605); once locked, EN 1 is ignored (R9).
Log entry 54 (DEDUCED). -/
def wdCtrlOp (s : State) (value : BitVec 32) (tick : Nat) : State :=
  let s := modWd s (fun w => { w with tick := Nat.max w.tick tick })
  let s := if value.getLsbD 16 then (if wdLocked s then s else wdEnable s) else wdDisable s tick
  let s := wdSetLock s (value.getLsbD 17)
  let p := value.toNat % 8192
  if s.wd.state = .disabled ∨ p = s.wd.period then s else wdWritePeriod s p tick

def execWdCtrlWrite (now : Tb) (value : BitVec 32) (tick : Nat) (s : State) : Host.Outcome State Fault Refusal :=
  let s := dieAt s now
  .next (if dieRuns s then wdCtrlOp s value tick else s)

/-- A write of WD_KEY (R605). -/
def execWdKeyWrite (now : Tb) (value : BitVec 32) (tick : Nat) (s : State) : Host.Outcome State Fault Refusal :=
  let s := dieAt s now
  .next (if dieRuns s then wdKey (modWd s (fun w => { w with tick := Nat.max w.tick tick })) value tick else s)

end Sys2Proof.Machine
end

