-- ==== Sys2Proof/Machine/SecRows.lean ====
section
/-!
DEFINITION. Keys, certificates and attestation: SEC.ATTEST, SEC.KEYS, SEC.CERT (R641-R645).
-/
namespace Sys2Proof.Machine

open Sys2Proof

/-! ### Certificates and keys -/

/-- The certificate that SEC.CERT names: 0 identity, 1 to 4 the owner slots (R139, R641). -/
def certOf (s : State) (which : Nat) : List Byte :=
  if which = 0 then s.store.idCert else (ownerSlot s (which - 1)).cert

/-- Log entry 81 (DEDUCED). -/
def execSecCert (now : Tb) (c : CmdRef) (which : Nat) (s : State) : Host.Outcome State Fault Refusal :=
  runWork now c (.secCert now c which) s (fun s _ => done s c (certOf s which))

/-- Put an owner slot's state and certificate into the next copy of the key store (R642). -/
def setOwner (s : State) (slot : Nat) (o : OwnerSlot) : State :=
  modStore s (fun x =>
    let owners := vset x.owners slot o
    let n := x.keySeq + 1
    { x with owners, keySeq := n, keyCopies := vset x.keyCopies (n % 2) (some ⟨n, true, owners⟩) })

/-- The record of a key or fuse operation and the DONE payload (R643). -/
def keysDone (s : State) (c : CmdRef) (op slot state : Nat) : State :=
  done (log s 0xC3 sevNotice 0x02 slot op (le 1 state)) c (le 1 slot ++ le 1 state)

/-- Program a fuse: one that is programmed already stays, and its value is returned (R587, R643). Log entry 81 (DEDUCED). -/
def programFuse (s : State) (fuse value : Nat) : Nat × State :=
  if fuse = 0 then
    if s.store.wdwinSet then (s.store.wdwin.toNat, s)
    else (value, modStore s (fun x => { x with wdwin := BitVec.ofNat 2 value, wdwinSet := decide (value ≠ 0) }))
  else (boolBit (s.store.wdlockf || decide (value = 1)),
    modStore s (fun x => { x with wdlockf := x.wdlockf || decide (value = 1) }))

/-- SEC.KEYS (R643): install, revoke, or program a fuse. Log entry 81 (DEDUCED). -/
def secKeysOp (s : State) (c : CmdRef) (op slot : Nat) (data : List Byte) : State :=
  match op with
  | 0 =>
    match closingEntry s 8 with
    | some e => abortedBy s c 8 e.2.1
    | none => if certAccepted s (data.take 368) 4 then keysDone (setOwner s slot ⟨1, data.take 368⟩) c 0 slot 1
      else setResult s c stAuth 0x02 0 []
  | 1 => keysDone (setOwner s slot { ownerSlot s slot with state := 2 }) c 1 slot 2
  | _ =>
    let r := programFuse s (field data 0 1) (field data 1 1)
    keysDone r.2 c 2 0xFF r.1

def execSecKeys (now : Tb) (c : CmdRef) (op slot : Nat) (data : List Byte) (s : State) : Host.Outcome State Fault Refusal :=
  runLast now c (.secKeys now c op slot data) s (fun s => secKeysOp s c op slot data)

/-! ### Attestation (R644, R645) -/

/-- Insert a key in ascending order of kind, scope and key. Log entry 81 (DEDUCED). -/
def insertKey (k : PKind × Nat × Nat) : List (PKind × Nat × Nat) → List (PKind × Nat × Nat)
  | [] => [k]
  | x :: r =>
    let rank := fun (z : PKind × Nat × Nat) => (pkindCode z.1 * 256 + z.2.1) * 2 ^ 32 + z.2.2
    if rank k ≤ rank x then k :: x :: r else x :: insertKey k r

/-- The configuration hash over live parameter and force records that are not in CONFLICT (R645). -/
def configHash (s : State) : List Byte :=
  let keys := ((pstoreKeys s.pstore).filter (fun k => decide (k.1 = .param ∨ k.1 = .force))).foldr insertKey []
  sha512 (keys.flatMap (fun k => match pstoreGet s.pstore k.1 k.2.1 k.2.2 with
    | none => []
    | some b => le 1 (pkindCode k.1) ++ le 1 k.2.1 ++ le 4 k.2.2 ++ padTo 8 b))

/-- The hash of a chart in the quote. -/
def chartHash (s : State) (c : Nat) : List Byte :=
  let x := chartSlot s c
  match x.state with
  | .conflict => List.replicate 64 0xFF
  | _ => (x.image.map (·.hash)).getD (List.replicate 64 0)

/-- RTC as in a record header: [63] valid, [48:15] seconds, [14:0] sub-second count (R325). -/
def rtcField (s : State) : Nat := 2 ^ 63 * boolBit s.clock.valid + 2 ^ 15 * s.clock.sec + s.clock.sub

/-- Bytes 0 to 807 of the quote. -/
def quoteBytes (s : State) (nonce : List Byte) : List Byte :=
  let owners := (List.range 4).foldl (fun v i => v + 4 ^ i * ((ownerSlot s i).state % 4)) 0
  le 2 944 ++ le 1 1 ++ le 1 s.store.runFw ++ padTo 16 s.store.serial ++ padTo 32 nonce
    ++ padTo 64 (((fwSlot s s.store.runFw).desc.map (fun d => d.2.2)).getD [])
    ++ (s.prog.map (fun p => padTo 64 p.chained)).getD (List.replicate 64 0)
    ++ (List.range 8).flatMap (chartHash s) ++ configHash s ++ le 4 s.power.powerCycles ++ le 4 s.wd.count
    ++ le 8 s.power.opsec ++ le 4 s.log.next ++ le 8 s.ring.lastSealSeq ++ le 8 s.tb ++ le 8 (rtcField s)
    ++ le 1 owners ++ le 1 s.store.svfuse ++ le 1 (s.store.wdwin.toNat + 4 * boolBit s.store.wdlockf)
    ++ le 1 (fwState (fwSlot s s.store.runFw)) ++ le 4 0

/-- The signature block of the device identity (R614). -/
def deviceBlock (digest : List Byte) : List Byte :=
  let v := (Config.deviceSign digest).toNat
  le 4 0x20 ++ le 66 v ++ le 66 (v / 2 ^ 528)

/-- Log entry 8 (DEDUCED). -/
def execSecAttest (now : Tb) (c : CmdRef) (nonce : List Byte) (s : State) : Host.Outcome State Fault Refusal :=
  runLast now c (.secAttest now c nonce) s (fun s =>
    match closingEntry s 8 with
    | some e => abortedBy s c 8 e.2.1
    | none =>
      let q := quoteBytes s nonce
      done s c (q ++ deviceBlock (sha512 q)))

end Sys2Proof.Machine
end

