-- ==== Sys2Proof/Machine/UpdRows.lean ====
section
/-!
DEFINITION. Updates of firmware and programs: UPD.BEGIN, UPD.CHUNK, UPD.APPLY, UPD.CONFIRM, UPD.ABANDON and the health window
(R617-R636).
-/
namespace Sys2Proof.Machine

open Sys2Proof

def modUpdate (s : State) (f : Update → Update) : State := modStore s (fun x => { x with update := x.update.map f })

/-- The record of an update step (R722). -/
def logUpdate (s : State) (slot code : Nat) : State :=
  log s 0xC0 (if code = 5 then sevAlarm else sevNotice) 0x00 slot code []

/-! ### UPD.BEGIN and UPD.CHUNK -/

/-- The program slot an update builds while no program is loaded: the lower apply sequence, slot 0 when both are EMPTY; of
equals the older by R621. Log entry 80 (DEDUCED). -/
def freeProgSlot (s : State) : Nat :=
  let n0 := applySeq (progSlot s 0).desc
  let n1 := applySeq (progSlot s 1).desc
  if n0 < n1 then 0 else if n1 < n0 then 1 else if n0 = 0 then 0 else (n0 + 1) % 2

/-- The slot an update builds (R622). Log entry 80 (DEDUCED). -/
def targetSlot (s : State) (firmware : Bool) : Nat :=
  if firmware then (s.store.runFw + 1) % 2
  else match s.prog with
    | some p => (p.slot + 1) % 2
    | none => freeProgSlot s

/-- Open an update; the staging partition, with any snapshot in it, is discarded. Log entry 80 (DEDUCED). -/
def updBeginOp (s : State) (c : CmdRef) (target kind length : Nat) (hash : List Byte) : State :=
  let fw := decide (target = 0)
  let slot := targetSlot s fw
  let s := modStore s (fun x => { x with
    snapshot := none,
    update := some { firmware := fw, delta := decide (kind = 1), length, hash, slot, staged := [], applying := false,
                     applied := false } })
  done (logUpdate s slot 1) c (le 1 slot)

def execUpdBegin (now : Tb) (c : CmdRef) (target kind length : Nat) (hash : List Byte) (s : State) :
    Host.Outcome State Fault Refusal :=
  runLast now c (.updBegin now c target kind length hash) s (fun s => updBeginOp s c target kind length hash)

def execUpdChunk (now : Tb) (c : CmdRef) (offset : Nat) (data : List Byte) (s : State) : Host.Outcome State Fault Refusal :=
  runWork now c (.updChunk now c offset data) s (fun s _ =>
    let s := modUpdate s (fun u => { u with staged := u.staged ++ data })
    done s c (le 4 ((s.store.update.map (fun u => u.staged.length)).getD 0)))

/-! ### Delta operations (R624) -/

/-- Bytes of the source from an offset, none beyond its end. -/
def sourceSlice (src : List Byte) (off n : Nat) : Option (List Byte) :=
  if off + n ≤ src.length then some ((src.drop off).take n) else none

/-- Reconstruct the target; none where an operation is none of R624's or reads beyond the source or the section. Fuel is
the section's length. Log entry 80 (DEDUCED). -/
def applyDelta (src : List Byte) : Nat → List Byte → Option (List Byte)
  | 0, _ => none
  | f + 1, ops =>
    let s := field ops 1 4
    let n := field ops 5 4
    match ops with
    | [] => none
    | o :: _ =>
      match o.toNat with
      | 0 => some []
      | 1 => match sourceSlice src s n, applyDelta src f (ops.drop 9) with
        | some a, some b => some (a ++ b)
        | _, _ => none
      | 2 =>
        if ops.length < 9 + n then none
        else match sourceSlice src s n, applyDelta src f (ops.drop (9 + n)) with
          | some a, some b => some (List.zipWith (· + ·) a ((ops.drop 9).take n) ++ b)
          | _, _ => none
      | 3 =>
        if ops.length < 5 + s then none
        else match applyDelta src f (ops.drop (5 + s)) with
          | some b => some ((ops.drop 5).take s ++ b)
          | none => none
      | _ => none

/-- The source image: the running firmware, or the program slot that is not the target. -/
def deltaSource (s : State) (u : Update) : List Byte :=
  if u.firmware then (fwSlot s s.store.runFw).bytes else (progSlot s ((u.slot + 1) % 2)).bytes

/-- What an apply builds from the staged object. -/
def builtImage (s : State) (u : Update) : Option (List Byte) :=
  if u.delta then
    match (parseContainer u.staged).bind (fun c => sectOf c 0x0501) with
    | none => none
    | some ops => applyDelta (deltaSource s u) (ops.length + 1) ops
  else some u.staged

/-! ### The checks of UPD.APPLY (R625, R626): reason and detail of REFUSED_AUTH -/

abbrev ApplyFail := Option (BitVec 8 × Nat)

/-- A signer's check as a failure: the slot's state, or code 4. -/
def signerFail (s : State) (c : Container) : ApplyFail :=
  match checkSigner s c with
  | 0 => none
  | 4 => some (0x04, 0)
  | _ => some (0x02, 4)

/-- Step 1: container, kind, length, signature, base of a delta. Log entry 80 (DEDUCED). -/
def stagedFail (s : State) (u : Update) : ApplyFail :=
  let bs := u.staged
  if bs.length < 392 ∨ field bs 0 2 ≠ 0x5E1A then some (0x02, 1)
  else if field bs 4 4 ≠ bs.length ∨ (!u.delta && decide (bs.length ≠ u.length)) then some (0x02, 3)
  else match parseContainer bs with
    | none => some (0x02, 1)
    | some c =>
      let kind := if u.firmware then 1 else 2
      if (if u.delta then decide (c.kind ≠ 5 ∨ c.target ≠ kind) else decide (c.kind ≠ kind)) then some (0x02, 2)
      else (signerFail s c).or
        (if u.delta && decide (c.baseHash ≠ imageHash (deltaSource s u)) then some (0x02, 5) else none)

/-- Step 5: the image built has the hash of UPD.BEGIN, and that of the delta. Log entry 80 (DEDUCED). -/
def builtFail (s : State) (u : Update) : ApplyFail :=
  match builtImage s u with
  | none => some (0x02, 6)
  | some bs =>
    let target := ((parseContainer u.staged).map (·.targetHash)).getD []
    if imageHash bs ≠ u.hash ∨ bs.length ≠ u.length ∨ (u.delta && decide (imageHash bs ≠ target)) then some (0x02, 6)
    else none

/-- The running firmware's version as [15:8] major, [7:0] minor; 0.0 in recovery (R612, R635). -/
def runningVersion (s : State) : Nat := if s.store.recovery then 0 else (fwSlot s s.store.runFw).version / 65536

/-- The rules of step 6 for a program; a display block needs a chart with a display (R521). Log entry 80 (DEDUCED). -/
def programFail (s : State) (c : Container) : ApplyFail :=
  match parseProgram c with
  | none => some (0x02, 8)
  | some p =>
    if programOk p && (p.dspBase.isNone || s.charts.slots.toList.any (fun x =>
        x.image.any (fun i => decide (smGet paramDefault i.params 0x1C00 ≠ 0)))) then none
    else some (0x02, 8)

/-- Step 6: the target's own container, kind, signature, security version, content and minimum firmware. -/
def targetFail (s : State) (u : Update) : ApplyFail :=
  match (builtImage s u).bind parseContainer with
  | none => some (0x02, 1)
  | some c =>
    if c.kind ≠ (if u.firmware then 1 else 2) then some (0x02, 2)
    else (signerFail s c).or (
      if u.firmware && decide (c.secVer < s.store.svfuse) then some (0x02, 7)
      else (if u.firmware then none else programFail s c).or
        (if runningVersion s < c.minFw then some (0x02, 9) else none))

/-- The first check that fails of those done up to a point. Log entry 80 (DEDUCED). -/
def applyFail (s : State) (u : Update) (readBack : Bool) : ApplyFail :=
  (stagedFail s u).or (if readBack then (builtFail s u).or (targetFail s u) else none)

/-! ### UPD.APPLY -/

/-- A failed apply leaves its slot EMPTY and the update open for chunks from offset 0 (R626). A program that breaks R46, R209 or
another rule of step 6 of R625 ends with REFUSED_AUTH and code 8, as R626 has it. Log entry 99 (DEDUCED). -/
def applyRefused (s : State) (c : CmdRef) (u : Update) (f : BitVec 8 × Nat) : State :=
  setResult (emptyTarget s u) c stAuth f.1 (BitVec.ofNat 32 f.2) []

/-- One more than the highest apply sequence of the slot kind (R621). Log entry 80 (DEDUCED). -/
def nextApply (s : State) (firmware : Bool) : Nat :=
  1 + (if firmware then Nat.max (applySeq (fwSlot s 0).desc) (applySeq (fwSlot s 1).desc)
    else Nat.max (applySeq (progSlot s 0).desc) (applySeq (progSlot s 1).desc))

/-- Step 2: the trailer is erased, the descriptor written, and the slot is BUILDING. -/
def beginBuild (s : State) (u : Update) : State :=
  let d := some (nextApply s u.firmware, u.length, u.hash)
  if u.firmware then
    (if (fwSlot s u.slot).building then s
      else setFwSlot s u.slot (fun _ => { FwSlot.blank with desc := d, building := true }))
  else if (progSlot s u.slot).building then s
  else setProgSlot s u.slot (fun _ => { ProgSlot.blank with desc := d, building := true })

/-- Steps 7 and 8: BUILT, and for firmware the snapshot. The slot is BUILDING up to the DONE receipt. Log entry 80 (DEDUCED). -/
def finishApply (s : State) (c : CmdRef) (u : Update) : State :=
  match builtImage s u with
  | none => applyRefused s c u (0x02, 6)
  | some bs =>
    match parseContainer bs with
    | none => applyRefused s c u (0x02, 1)
    | some k =>
      let s := beginBuild s u
      let s := if u.firmware then
          modStore (setFwSlot s u.slot (fun x => { x with
              builtWord := markerSet, version := k.version, epoch := k.epoch, secVer := k.secVer, bytes := bs }))
            (fun x => { x with snapshot := some s.pstore })
        else setProgSlot s u.slot (fun x => { x with
            builtWord := markerSet, image := parseProgram k, bytes := bs, edits := [] })
      done s c k.hash

/-- One stage of UPD.APPLY: the first verifies the staged object, the erases and programmings build the slot, and from the
read-back on the image is checked; the last completes it. -/
def applyStage (s : State) (c : CmdRef) (x : Cmd) : State :=
  match s.store.update with
  | none => refuseState s c 0x01
  | some u =>
    let left := x.stages.length
    let tail := if u.firmware then 4 else 3
    match applyFail s u (decide (left ≤ tail)) with
    | some f => applyRefused s c u f
    | none =>
      let s := modUpdate s (fun u => { u with applying := true })
      if lastStage x then finishApply s c u
      else if left < (applyStages s).length then beginBuild s u else s

/-- Log entry 8 (DEDUCED). -/
def execUpdApply (now : Tb) (c : CmdRef) (s : State) : Host.Outcome State Fault Refusal :=
  runWork now c (.updApply now c) s (fun s x => applyStage s c x)

/-! ### UPD.CONFIRM, UPD.ABANDON and the health window -/

/-- UPD.CONFIRM programs CONFIRMED (R631); the rest goes with its DONE receipt. -/
def updConfirmOp (s : State) (c : CmdRef) : State :=
  done (setFwSlot s s.store.runFw (fun x => { x with confirmedWord := markerSet })) c []

def execUpdConfirm (now : Tb) (c : CmdRef) (s : State) : Host.Outcome State Fault Refusal :=
  runLast now c (.updConfirm now c) s (fun s => updConfirmOp s c)

/-- UPD.ABANDON (R629): a READY or TRIAL slot is rejected; the update closes with the DONE receipt. -/
def updAbandonOp (s : State) (c : CmdRef) : State :=
  match s.store.update with
  | none => refuseState s c 0x01
  | some u =>
    let s := if u.applied && u.firmware then setFwSlot s u.slot (fun x => { x with rejectedWord := markerSet })
      else if u.applied then setProgSlot s u.slot (fun x => { x with rejectedWord := markerSet })
      else s
    done s c []

def execUpdAbandon (now : Tb) (c : CmdRef) (s : State) : Host.Outcome State Fault Refusal :=
  runLast now c (.updAbandon now c) s (fun s => updAbandonOp s c)

/-- The health window passes without UPD.CONFIRM (R631): REJECTED, a record, and the device runs on. -/
def healthOp (s : State) : State :=
  match s.store.healthAt with
  | none => s
  | some t =>
    if s.tb < t || !inTrial s then s
    else
      let i := s.store.runFw
      let s := modStore (setFwSlot s i (fun x => { x with rejectedWord := markerSet })) (fun x => { x with
        update := none, healthAt := none })
      logUpdate s i 5

def execHealthWindowExpiry (now : Tb) (s : State) : Host.Outcome State Fault Refusal :=
  .next (if dieRuns s then healthOp (s.at now) else s)

end Sys2Proof.Machine
end

