-- ==== Sys2Proof/Machine/PowerRows.lean ====
section
/-!
DEFINITION. Pace, temperature and time base (R36, R39-R44, R22), faults and fault halt (R84, R674-R678), power and the starts
of the logic die (R337, R647-R668), operating seconds and compaction (R356, R358, R579).
-/
namespace Sys2Proof.Machine

open Sys2Proof

/-! ### Pace, junction, time base -/

/-- The pace warning of R42, at most once per second; SF.EVENT shows it (R235). -/
def paceWarning (s : State) (ps : Nat) : State :=
  let due := match s.power.paceWarnAt with
    | none => true
    | some t => decide (t + msToTb 1000 ≤ s.tb)
  let ceil := bandCeiling s.power.band
  if 100 * ceil < 106 * ps ∧ due = true then
    log (raiseEvent (modPower s (fun p => { p with paceWarnAt := some s.tb })) evPacew) 0x10 sevWarning 0x18 0 0
      (le 2 ps ++ le 2 ceil)
  else s

/-- A sample of the pace gauge in ps (R41-R44). Log entry 16 (DESIGN CHOICE). -/
def paceOp (s : State) (ps : Nat) : State :=
  let m := Config.paceModel s.freeIdx
  let s := modPower { s with freeIdx := s.freeIdx + 1 } (fun p => { p with
    pace := ps, paceModel := m.1, paceSlope := m.2 })
  if 100 * cAdm s < 106 * ps then
    raiseFault (modPower s (fun p => { p with paceGood := 0 })) 0x80 (65536 * ps + cAdm s)
  else openPorts (paceWarning (modPower s (fun p => { p with paceGood := Nat.min 1000 (p.paceGood + 1) })) ps)

def execPaceSample (now : Tb) (ps : Nat) (s : State) : Host.Outcome State Fault Refusal :=
  .next (if dieRuns s then paceOp (s.at now) ps else s)

/-- A sample of the junction sensor in 0.1 °C: the reported band, and the thermal fault (R36, R39). -/
def junctionOp (s : State) (t : Int) : State :=
  let s := modPower s (fun p => { p with junction := t, band := bandStep bandBounds p.band t })
  if 1250 < t then raiseFault s 0x81 (unle (leInt 4 t)) else s

def execJunctionSample (now : Tb) (tenths : Int) (s : State) : Host.Outcome State Fault Refusal :=
  .next (if dieRuns s then junctionOp (s.at now) tenths else s)

/-- The TB multiplier loses lock (R22). -/
def execTbLockLost (now : Tb) (s : State) : Host.Outcome State Fault Refusal :=
  .next (if dieRuns s then raiseFault (modPower (s.at now) (fun p => { p with tbLocked := false })) 0x82 0 else s)

def execTbLockRegained (now : Tb) (s : State) : Host.Outcome State Fault Refusal :=
  let s := modPower (dieAt s now) (fun p => { p with tbLocked := true })
  .next (if dieRuns s then openPorts s else s)

/-! ### Promises, faults and the restart from HALT -/

/-- The admitted scans with their promises: those begun, and the releases that wait, whose promise runs from the release
(R58). -/
def scanPromises (s : State) : List (Nat × Nat) :=
  (s.sched.running.toList ++ s.sched.suspended.map (·.1)).map (fun sc => (sc.task, sc.promise))
    ++ s.sched.waiting.map (fun w => (w.1, w.2.2))

/-- The scan, or else the accepted command, that has not ended at its promise: the detail word of R85.
Log entry 17 (DEDUCED). -/
def breached (s : State) : Option Nat :=
  match (scanPromises s).find? (fun e => decide (e.2 ≤ s.tb)) with
  | some e => some (0xFFFF0000 + e.1)
  | none => (s.host.cmds.find? (fun x => decide (x.phase ≠ .held) && x.book.isSome && decide (x.promise ≤ s.tb))).map
      (fun x => x.ref.seq.toNat)

/-- Log entry 17 (DEDUCED). -/
def execPromiseBreach (now : Tb) (s : State) : Host.Outcome State Fault Refusal :=
  let s := dieAt s now
  .next (match breached s with
    | some d => if dieRuns s then raiseFault s 0x83 d else s
    | none => s)

/-- A ring line with an uncorrectable error stays so until it is written again: a walk breaks at its record (R341). -/
def badLine (s : State) (store index : Nat) : State :=
  if store = 3 ∧ index < ringLines ∧ ¬s.ring.badLines.contains index then
    { s with ring := { s.ring with badLines := s.ring.badLines ++ [index] } }
  else s

/-- An uncorrectable memory error by store and index; those that recovery and resume find are handled there (R674).
Log entry 18 (DEDUCED). -/
def execUncorrectableMemoryError (now : Tb) (store index : Nat) (s : State) : Host.Outcome State Fault Refusal :=
  let s := badLine s store index
  .next (if dieRuns s && s.power.resumed then
      raiseFault (s.at now) 0x86 (2 ^ 28 * (store % 16) + index % 2 ^ 28)
    else s)

/-- Fault-halt restarts of the last 3,600 operating seconds. -/
def recentRestarts (s : State) : List Nat := s.power.haltRestarts.filter (fun t => decide (s.power.opsec < t + 3600))

/-- Leaving HALT: by the DEV.RESET that waited for the restart condition (R678), or by a restart under R677. At the
limit the device stays in HALT. -/
def haltRestartOp (s : State) : State :=
  if s.power.mode ≠ .halt ∨ restartCondition s = false then s
  else match s.power.haltReset with
    | some k => gracefulReset s k
    | none =>
      if s.tb < s.power.haltAt + msToTb (par s 0x0120) then s
      else if (recentRestarts s).length < par s 0x0121 then
        let s := modPower s (fun p => { p with
          haltRestarts := recentRestarts s, startAs := if par s 0x0122 = 1 then 2 else 0 })
        dieStart (dieStop s) 6
      else if s.power.restartLimit then s
      else log (modPower s (fun p => { p with restartLimit := true })) 0xD2 sevAlarm 0x1A (s.power.lastFault + 0x7F) 0 []

def execFaultHaltRestart (now : Tb) (s : State) : Host.Outcome State Fault Refusal := .next (haltRestartOp (dieAt s now))

/-! ### VIN, RST_N, DORMANT -/

/-- Device mark DSP_INCOMPLETE, while an update runs (R536). Log entry 77 (DEDUCED). -/
def markIncomplete (s : State) : State :=
  if s.dsp.update.isSome then (groupWrite s [⟨.mark, globalScope, markDspIncomplete, some [1]⟩]).getD s else s

/-- Steps 1 and 2 of R337: admission closes, a scan that is not yet sealed is abandoned and emits nothing.
Log entry 79 (DEDUCED). -/
def abandonScans (s : State) : State :=
  modSched s (fun x => { x with
    running := x.running.filter (fun sc => decide (sc.phase ≠ .execute)), suspended := [], waiting := [], roundLeft := [],
    roundOpen := false })

/-- VIN fails. The logic die finishes its seal, its EMIT and a bistable update, then enters BACKUP; in DORMANT it is off
already. -/
def vinFailOp (s : State) : State :=
  if s.power.mode = .dormant then modPower s (fun p => { p with mode := .backup, vinValid := false, wakeMask := 0 })
  else if s.power.mode = .backup then modPower s (fun p => { p with vinValid := false })
  else
    let first := !s.power.failing
    let s := modPower s (fun p => { p with vinValid := false, failing := true })
    if first then finishStop (markIncomplete (abandonScans s)) else s

def execVinFail (now : Tb) (s : State) : Host.Outcome State Fault Refusal := .next (vinFailOp (dieAt s now))

/-- VIN is valid: a start from BACKUP or DORMANT with kind 0x01 (R660). The sequence of R337 runs to its end first
(R648). -/
def execVinValid (s : State) : Host.Outcome State Fault Refusal :=
  let s := modPower s (fun p => { p with vinValid := true })
  .next (if s.power.mode = .backup then dieStart s 1 else s)

/-- RST_N was low for a time: at least 10 µs acts, below 2 µs is ignored, between the part decides (R668). -/
def rstActs (s : State) (lowNs : Nat) : Bool × State :=
  if 10000 ≤ lowNs then (true, s)
  else if lowNs < 2000 then (false, s)
  else
    let (v, s) := s.draw
    (v.getLsbD 0, s)

/-- The logic die stops at once and starts with kind 0x02; without valid VIN it stays off. Log entry 84 (DEDUCED). -/
def rstOp (s : State) (lowNs : Nat) : State :=
  let (acts, s) := rstActs s lowNs
  if !acts || decide (s.power.mode = .backup) then s
  else
  let s := if dieRuns s then tearMarkers s else s
  if s.power.vinValid then dieStart (dieStop s) 2
  else modPower (dieOff (cutUpdate s) .backup) (fun p => { p with failing := false })

def execRstNReset (now : Tb) (lowNs : Nat) (s : State) : Host.Outcome State Fault Refusal := .next (rstOp (dieAt s now) lowNs)

/-- The mask bit of a wake source (R659). -/
def wakeBit : WakeSource → Nat
  | .wake => 0
  | .lineA => 1
  | .lineB => 2
  | .hcs => 3
  | .mrx => 4

def execDormantWake (source : WakeSource) (s : State) : Host.Outcome State Fault Refusal :=
  .next (if s.power.mode = .dormant && s.power.wakeMask.getLsbD (wakeBit source) then dieStart s 7 else s)

/-! ### Hold-up (R652-R657) -/

/-- The capacitance is measured once per start: a fall ΔV in µV (R652, R656). Log entry 79 (DEDUCED). -/
def capacitanceOp (s : State) (deltaUv : Nat) : State :=
  if s.power.capMeasured.isSome then s
  else
    let full := eUsable deltaUv 33000
    let weak := decide (full < 60000000)
    let bad := decide (full < 31400000)
    let s := modPower s (fun p => { p with capMeasured := some deltaUv, holdupWeak := weak, holdupFault := bad })
    let s := if weak then log s 0xD7 sevAlarm 0x1A 0 0 (le 4 (full / 1000)) else s
    let s := if bad then log s 0xD8 sevAlarm 0x1A 0 0 (le 4 (full / 1000)) else s
    syncMode s

def execHoldupCapacitanceMeasure (now : Tb) (deltaUv : Nat) (s : State) : Host.Outcome State Fault Refusal :=
  .next (if dieRuns s then capacitanceOp (s.at now) deltaUv else s)

/-- The energy has run out during the sequence of R337: the die stops where it is (R339, R537). Log entry 79 (DEDUCED). -/
def energyOut (s : State) : State :=
  let s := tearMarkers s
  modPower (dieOff { s with dsp := { s.dsp with update := none } } .backup) (fun p => { p with failing := false })

/-- A sample of VHOLD in mV (R653); since when E_use is below E_seal (R657). Log entry 79 (DEDUCED). -/
def holdupOp (s : State) (mv : Nat) : State :=
  let s := modPower s (fun p => { p with holdupMv := mv })
  let low := decide (eUse s < eSeal) && s.power.resumed && s.power.vinValid && !s.power.failing
  let s := modPower s (fun p => { p with holdupLowSince := if low then some (p.holdupLowSince.getD s.tb) else none })
  if s.power.failing && decide (mv < 9000) then energyOut s else s

def execHoldupSample (now : Tb) (mv : Nat) (s : State) : Host.Outcome State Fault Refusal :=
  .next (if dieRuns s then holdupOp (s.at now) mv else s)

/-- E_use has stayed below E_seal for 100 µs (R657). Log entry 18 (DEDUCED). -/
def execHoldupFault (now : Tb) (s : State) : Host.Outcome State Fault Refusal :=
  let s := dieAt s now
  .next (match s.power.holdupLowSince with
    | some t => if dieRuns s && decide (t + usToTb 100 ≤ s.tb) then raiseFault s 0x87 (eUse s / 1000) else s
    | none => s)

/-! ### Backup domain, VBAT, operating seconds -/

/-- The retention rail has been below 1.45 V for a time: from 1 µs on the backup registers are cleared and the time
register restarts (R550, R663). The watchdog's own registers stand while the logic die runs. Log entry 83 (DEDUCED). -/
def railLossOp (s : State) (ns : Nat) : State :=
  if ns < 1000 then s
  else
    let run := dieRuns s
    let s := modPower s (fun p => { p with powerCycles := 0 })
    let s := modWd s (fun w =>
      let w := { w with count := 0, lock := false, resetRecord := false }
      if run then w else { w with lastRes := 0, observed := 0, implied := 0, impliedVoid := false, recDtask := none, recAgent := 0 })
    modClock s (fun c => { c with
      sec := 0, sub := 0, valid := false, range := false, bkpLost := true, shiftLeft := 0, shiftTicks := 0,
      shiftPend := none, setPend := c.setPend, acc := 0, corr := 0, secondDue := false, shiftDone := false,
      servo := 0, servoValid := false, trimStopped := 0 })

def execRetentionRailLoss (ns : Nat) (s : State) : Host.Outcome State Fault Refusal := .next (railLossOp s ns)

/-- VBAT in mV (R651). -/
def vbatOp (s : State) (mv : Nat) : State :=
  let low := decide (mv < 2000)
  let was := s.power.vbatLow
  let s := modPower s (fun p => { p with vbatMv := mv, vbatLow := low })
  if low = was then s
  else log s (if low then 0xD5 else 0xD6) (if low then sevWarning else sevNotice) 0x1A 0 0 (le 2 mv)

def execVbatMeasure (now : Tb) (mv : Nat) (s : State) : Host.Outcome State Fault Refusal :=
  .next (if dieRuns s then vbatOp (s.at now) mv else s)

/-- An operating second: spread counter 0 and the logbook's allowances (R358, R359, R579), and the single-bit memory errors
corrected in it (R25). Log entries 74 (DESIGN CHOICE) and 79 (DEDUCED). -/
def operatingOp (s : State) : State :=
  let n := Config.eccCount s.freeIdx
  let s := modPower { s with freeIdx := s.freeIdx + 1 } (fun p => { p with opsec := p.opsec + 1, ecc := p.ecc + n })
  let s := if energyFor s (eGroup 0) then spreadPut s 0 s.power.opsec else s
  modLog s (fun l => { l with
    credits := Nat.min 4096 (l.credits + 4),
    alarmCredits := if s.power.opsec % 16 = 0 then Nat.min 256 (l.alarmCredits + 1) else l.alarmCredits })

def execOperatingSecond (now : Tb) (s : State) : Host.Outcome State Fault Refusal :=
  .next (if dieRuns s then operatingOp (s.at now) else s)

/-- A half with fewer free pages than PSTORE_COMPACT_AT is compacted, as housekeeping (R356). Log entry 79 (DEDUCED). -/
def execPstoreCompaction (now : Tb) (half : Fin 2) (s : State) : Host.Outcome State Fault Refusal :=
  let s := dieAt s now
  .next (if dieRuns s && !s.power.failing && decide (freePages s.pstore half.val < par s 0x0503) && energyFor s (eGroup 1) then
      { s with pstore := compactHalf s.pstore half.val }
    else s)

end Sys2Proof.Machine
end

