-- ==== Sys2Proof/Machine/Dispatch.lean ====
section
/-!
DEFINITION. The effect of a command: one arm per row of the command table.
-/
namespace Sys2Proof.Machine

open Sys2Proof

def exec (i : Instr) (s : State) : Host.Outcome State Fault Refusal :=
  match i with
  | .nop g => Sys2Proof.Machine.execNop g s
  | .eos g => Sys2Proof.Machine.execEos g s
  | .chg g chart => Sys2Proof.Machine.execChg g chart s
  | .chgr g rs => Sys2Proof.Machine.execChgr g rs s
  | .wdci g => Sys2Proof.Machine.execWdci g s
  | .illegalInstruction w => Sys2Proof.Machine.execIllegalInstruction w s
  | .pand g pd s1 s2 => Sys2Proof.Machine.execPand g pd s1 s2 s
  | .pnand g pd s1 s2 => Sys2Proof.Machine.execPnand g pd s1 s2 s
  | .por g pd s1 s2 => Sys2Proof.Machine.execPor g pd s1 s2 s
  | .pnor g pd s1 s2 => Sys2Proof.Machine.execPnor g pd s1 s2 s
  | .pxor g pd s1 s2 => Sys2Proof.Machine.execPxor g pd s1 s2 s
  | .pmov g pd s1 => Sys2Proof.Machine.execPmov g pd s1 s
  | .btst g pd rs bit => Sys2Proof.Machine.execBtst g pd rs bit s
  | .qtst g pd rs q => Sys2Proof.Machine.execQtst g pd rs q s
  | .pmovr g rd ps => Sys2Proof.Machine.execPmovr g rd ps s
  | .ldp g pd m => Sys2Proof.Machine.execLdp g pd m s
  | .stp g m ps => Sys2Proof.Machine.execStp g m ps s
  | .ldpr g rd m => Sys2Proof.Machine.execLdpr g rd m s
  | .stpr g m rs => Sys2Proof.Machine.execStpr g m rs s
  | .add g rd rs1 rs2 => Sys2Proof.Machine.execAdd g rd rs1 rs2 s
  | .sub g rd rs1 rs2 => Sys2Proof.Machine.execSub g rd rs1 rs2 s
  | .and g rd rs1 rs2 => Sys2Proof.Machine.execAnd g rd rs1 rs2 s
  | .or g rd rs1 rs2 => Sys2Proof.Machine.execOr g rd rs1 rs2 s
  | .xor g rd rs1 rs2 => Sys2Proof.Machine.execXor g rd rs1 rs2 s
  | .adds g rd rs1 rs2 => Sys2Proof.Machine.execAdds g rd rs1 rs2 s
  | .subs g rd rs1 rs2 => Sys2Proof.Machine.execSubs g rd rs1 rs2 s
  | .min g rd rs1 rs2 => Sys2Proof.Machine.execMin g rd rs1 rs2 s
  | .max g rd rs1 rs2 => Sys2Proof.Machine.execMax g rd rs1 rs2 s
  | .minu g rd rs1 rs2 => Sys2Proof.Machine.execMinu g rd rs1 rs2 s
  | .maxu g rd rs1 rs2 => Sys2Proof.Machine.execMaxu g rd rs1 rs2 s
  | .shl g rd rs1 rs2 => Sys2Proof.Machine.execShl g rd rs1 rs2 s
  | .shr g rd rs1 rs2 => Sys2Proof.Machine.execShr g rd rs1 rs2 s
  | .sar g rd rs1 rs2 => Sys2Proof.Machine.execSar g rd rs1 rs2 s
  | .neg g rd rs1 => Sys2Proof.Machine.execNeg g rd rs1 s
  | .abs g rd rs1 => Sys2Proof.Machine.execAbs g rd rs1 s
  | .addi g rd rs1 imm => Sys2Proof.Machine.execAddi g rd rs1 imm s
  | .andi g rd rs1 imm => Sys2Proof.Machine.execAndi g rd rs1 imm s
  | .ori g rd rs1 imm => Sys2Proof.Machine.execOri g rd rs1 imm s
  | .xori g rd rs1 imm => Sys2Proof.Machine.execXori g rd rs1 imm s
  | .shli g rd rs1 count => Sys2Proof.Machine.execShli g rd rs1 count s
  | .shri g rd rs1 count => Sys2Proof.Machine.execShri g rd rs1 count s
  | .sari g rd rs1 count => Sys2Proof.Machine.execSari g rd rs1 count s
  | .bset g rd rs1 bit => Sys2Proof.Machine.execBset g rd rs1 bit s
  | .bclr g rd rs1 bit => Sys2Proof.Machine.execBclr g rd rs1 bit s
  | .mul g rd rs1 rs2 => Sys2Proof.Machine.execMul g rd rs1 rs2 s
  | .muls g rd rs1 rs2 => Sys2Proof.Machine.execMuls g rd rs1 rs2 s
  | .div g rd rs1 rs2 => Sys2Proof.Machine.execDiv g rd rs1 rs2 s
  | .divu g rd rs1 rs2 => Sys2Proof.Machine.execDivu g rd rs1 rs2 s
  | .rem g rd rs1 rs2 => Sys2Proof.Machine.execRem g rd rs1 rs2 s
  | .mpy g a rs1 rs2 => Sys2Proof.Machine.execMpy g a rs1 rs2 s
  | .mac g a rs1 rs2 => Sys2Proof.Machine.execMac g a rs1 rs2 s
  | .msu g a rs1 rs2 => Sys2Proof.Machine.execMsu g a rs1 rs2 s
  | .macd g a xi xj => Sys2Proof.Machine.execMacd g a xi xj s
  | .msud g a xi xj => Sys2Proof.Machine.execMsud g a xi xj s
  | .clra g a => Sys2Proof.Machine.execClra g a s
  | .mva g rd a sh => Sys2Proof.Machine.execMva g rd a sh s
  | .mvra g a rs => Sys2Proof.Machine.execMvra g a rs s
  | .fadd g rd rs1 rs2 => Sys2Proof.Machine.execFadd g rd rs1 rs2 s
  | .fsub g rd rs1 rs2 => Sys2Proof.Machine.execFsub g rd rs1 rs2 s
  | .fmul g rd rs1 rs2 => Sys2Proof.Machine.execFmul g rd rs1 rs2 s
  | .fdiv g rd rs1 rs2 => Sys2Proof.Machine.execFdiv g rd rs1 rs2 s
  | .fsqrt g rd rs1 => Sys2Proof.Machine.execFsqrt g rd rs1 s
  | .fneg g rd rs1 => Sys2Proof.Machine.execFneg g rd rs1 s
  | .fabs g rd rs1 => Sys2Proof.Machine.execFabs g rd rs1 s
  | .fmin g rd rs1 rs2 => Sys2Proof.Machine.execFmin g rd rs1 rs2 s
  | .fmax g rd rs1 rs2 => Sys2Proof.Machine.execFmax g rd rs1 rs2 s
  | .itof g rd rs1 => Sys2Proof.Machine.execItof g rd rs1 s
  | .ftoi g rd rs1 => Sys2Proof.Machine.execFtoi g rd rs1 s
  | .ftrunc g rd rs1 => Sys2Proof.Machine.execFtrunc g rd rs1 s
  | .mov g rd rs => Sys2Proof.Machine.execMov g rd rs s
  | .movImm g rd imm => Sys2Proof.Machine.execMovImm g rd imm s
  | .movh g rd imm => Sys2Proof.Machine.execMovh g rd imm s
  | .sel g rd ps rs1 rs2 => Sys2Proof.Machine.execSel g rd ps rs1 rs2 s
  | .movx g k rs => Sys2Proof.Machine.execMovx g k rs s
  | .movm g k rs => Sys2Proof.Machine.execMovm g k rs s
  | .movb g k rs => Sys2Proof.Machine.execMovb g k rs s
  | .movn g k rs => Sys2Proof.Machine.execMovn g k rs s
  | .setx g k imm => Sys2Proof.Machine.execSetx g k imm s
  | .setm g k imm => Sys2Proof.Machine.execSetm g k imm s
  | .setb g k imm => Sys2Proof.Machine.execSetb g k imm s
  | .setn g k imm => Sys2Proof.Machine.execSetn g k imm s
  | .rdx g rd k => Sys2Proof.Machine.execRdx g rd k s
  | .qmax g rd rs q l => Sys2Proof.Machine.execQmax g rd rs q l s
  | .tagr g rd rs => Sys2Proof.Machine.execTagr g rd rs s
  | .cmp g pd cc rs1 rs2 => Sys2Proof.Machine.execCmp g pd cc rs1 rs2 s
  | .cmpi g pd cc rs1 imm => Sys2Proof.Machine.execCmpi g pd cc rs1 imm s
  | .fcmp g pd cc rs1 rs2 => Sys2Proof.Machine.execFcmp g pd cc rs1 rs2 s
  | .ld g rd m => Sys2Proof.Machine.execLd g rd m s
  | .ldAbs g rd addr => Sys2Proof.Machine.execLdAbs g rd addr s
  | .st g m rs => Sys2Proof.Machine.execSt g m rs s
  | .stAbs g addr rs => Sys2Proof.Machine.execStAbs g addr rs s
  | .br g target => Sys2Proof.Machine.execBr g target s
  | .beq g pk target => Sys2Proof.Machine.execBeq g pk target s
  | .bne g pk target => Sys2Proof.Machine.execBne g pk target s
  | .jmp g rs => Sys2Proof.Machine.execJmp g rs s
  | .call g target => Sys2Proof.Machine.execCall g target s
  | .calli g rs => Sys2Proof.Machine.execCalli g rs s
  | .ret g => Sys2Proof.Machine.execRet g s
  | .ton g pd s1 x k => Sys2Proof.Machine.execTon g pd s1 x k s
  | .tof g pd s1 x k => Sys2Proof.Machine.execTof g pd s1 x k s
  | .tp g pd s1 x k => Sys2Proof.Machine.execTp g pd s1 x k s
  | .ctu g pd s1 s2 x k => Sys2Proof.Machine.execCtu g pd s1 s2 x k s
  | .ctd g pd s1 s2 x k => Sys2Proof.Machine.execCtd g pd s1 s2 x k s
  | .ctud g pd s1 s2 s3 x k => Sys2Proof.Machine.execCtud g pd s1 s2 s3 x k s
  | .rtrig g pd s1 x k => Sys2Proof.Machine.execRtrig g pd s1 x k s
  | .ftrig g pd s1 x k => Sys2Proof.Machine.execFtrig g pd s1 x k s
  | .packetArrival now port => Sys2Proof.Machine.execPacketArrival now port s
  | .partialPacketTimeout now port => Sys2Proof.Machine.execPartialPacketTimeout now port s
  | .status now => Sys2Proof.Machine.execStatus now s
  | .statusClr now mask => Sys2Proof.Machine.execStatusClr now mask s
  | .put now bytes => Sys2Proof.Machine.execPut now bytes s
  | .putQ now bytes => Sys2Proof.Machine.execPutQ now bytes s
  | .take now n => Sys2Proof.Machine.execTake now n s
  | .takeQ now n => Sys2Proof.Machine.execTakeQ now n s
  | .repeatLast now n => Sys2Proof.Machine.execRepeatLast now n s
  | .repeatLastQ now n => Sys2Proof.Machine.execRepeatLastQ now n s
  | .portReset now => Sys2Proof.Machine.execPortReset now s
  | .unknownCommandByte now b => Sys2Proof.Machine.execUnknownCommandByte now b s
  | .maintBreak now durUs => Sys2Proof.Machine.execMaintBreak now durUs s
  | .maintByteReceived now b => Sys2Proof.Machine.execMaintByteReceived now b s
  | .shareWindowStart now => Sys2Proof.Machine.execShareWindowStart now s
  | .heldCommandAgesOut now c => Sys2Proof.Machine.execHeldCommandAgesOut now c s
  | .commandStageComplete now c => Sys2Proof.Machine.execCommandStageComplete now c s
  | .sessionIdleTimeout now => Sys2Proof.Machine.execSessionIdleTimeout now s
  | .segmentTransferTimeout now => Sys2Proof.Machine.execSegmentTransferTimeout now s
  | .sessionOpen now c host => Sys2Proof.Machine.execSessionOpen now c host s
  | .sessionClose now c => Sys2Proof.Machine.execSessionClose now c s
  | .sessionNonce now c => Sys2Proof.Machine.execSessionNonce now c s
  | .sessionClaim now c host => Sys2Proof.Machine.execSessionClaim now c host s
  | .statusGet now c => Sys2Proof.Machine.execStatusGet now c s
  | .admitQuery now c packet => Sys2Proof.Machine.execAdmitQuery now c packet s
  | .admitCancel now c seqs => Sys2Proof.Machine.execAdmitCancel now c seqs s
  | .admitShares now c v p ps d => Sys2Proof.Machine.execAdmitShares now c v p ps d s
  | .imageRead now c space n start => Sys2Proof.Machine.execImageRead now c space n start s
  | .imageWrite now c space start vals => Sys2Proof.Machine.execImageWrite now c space start vals s
  | .imageWatch now c task space addrs timeoutUs => Sys2Proof.Machine.execImageWatch now c task space addrs timeoutUs s
  | .paramRead now c pids => Sys2Proof.Machine.execParamRead now c pids s
  | .paramWrite now c entries => Sys2Proof.Machine.execParamWrite now c entries s
  | .paramCommit now c => Sys2Proof.Machine.execParamCommit now c s
  | .paramValueTakesEffect now kind => Sys2Proof.Machine.execParamValueTakesEffect now kind s
  | .progLoad now c slot => Sys2Proof.Machine.execProgLoad now c slot s
  | .progEdit now c seg => Sys2Proof.Machine.execProgEdit now c seg s
  | .progRun now c => Sys2Proof.Machine.execProgRun now c s
  | .progStop now c mode => Sys2Proof.Machine.execProgStop now c mode s
  | .progTasks now c => Sys2Proof.Machine.execProgTasks now c s
  | .forceSet now c entries => Sys2Proof.Machine.execForceSet now c entries s
  | .forceRelease now c addrs => Sys2Proof.Machine.execForceRelease now c addrs s
  | .forceList now c first => Sys2Proof.Machine.execForceList now c first s
  | .chartLoad now c seg => Sys2Proof.Machine.execChartLoad now c seg s
  | .chartSelect now c chart => Sys2Proof.Machine.execChartSelect now c chart s
  | .chartInfo now c chart => Sys2Proof.Machine.execChartInfo now c chart s
  | .sealStatus now c => Sys2Proof.Machine.execSealStatus now c s
  | .retainClear now c parts => Sys2Proof.Machine.execRetainClear now c parts s
  | .twinStatus now c => Sys2Proof.Machine.execTwinStatus now c s
  | .twinChange now c => Sys2Proof.Machine.execTwinChange now c s
  | .twinResync now c => Sys2Proof.Machine.execTwinResync now c s
  | .dioStatus now c => Sys2Proof.Machine.execDioStatus now c s
  | .dioTest now c kind channel => Sys2Proof.Machine.execDioTest now c kind channel s
  | .anaTrim now c channel kind => Sys2Proof.Machine.execAnaTrim now c channel kind s
  | .anaRelay now c mask => Sys2Proof.Machine.execAnaRelay now c mask s
  | .anaHart now c channel frame => Sys2Proof.Machine.execAnaHart now c channel frame s
  | .anaStatus now c => Sys2Proof.Machine.execAnaStatus now c s
  | .busSend now c line frame => Sys2Proof.Machine.execBusSend now c line frame s
  | .busStatus now c line => Sys2Proof.Machine.execBusStatus now c line s
  | .stationList now c line => Sys2Proof.Machine.execStationList now c line s
  | .busSleep now c line mode => Sys2Proof.Machine.execBusSleep now c line mode s
  | .dspWrite now c first count bytes => Sys2Proof.Machine.execDspWrite now c first count bytes s
  | .dspMode now c owner => Sys2Proof.Machine.execDspMode now c owner s
  | .dspCheck now c => Sys2Proof.Machine.execDspCheck now c s
  | .timeSet now c year month day hour minute second => Sys2Proof.Machine.execTimeSet now c year month day hour minute second s
  | .timeGet now c => Sys2Proof.Machine.execTimeGet now c s
  | .timeShift now c shift divisor => Sys2Proof.Machine.execTimeShift now c shift divisor s
  | .timeTrim now c source fixed => Sys2Proof.Machine.execTimeTrim now c source fixed s
  | .logRead now c first limit => Sys2Proof.Machine.execLogRead now c first limit s
  | .logClear now c last => Sys2Proof.Machine.execLogClear now c last s
  | .logMark now c code data => Sys2Proof.Machine.execLogMark now c code data s
  | .wdStatus now c => Sys2Proof.Machine.execWdStatus now c s
  | .updBegin now c target kind length hash => Sys2Proof.Machine.execUpdBegin now c target kind length hash s
  | .updChunk now c offset data => Sys2Proof.Machine.execUpdChunk now c offset data s
  | .updApply now c => Sys2Proof.Machine.execUpdApply now c s
  | .updConfirm now c => Sys2Proof.Machine.execUpdConfirm now c s
  | .updAbandon now c => Sys2Proof.Machine.execUpdAbandon now c s
  | .secAttest now c nonce => Sys2Proof.Machine.execSecAttest now c nonce s
  | .secKeys now c op slot data => Sys2Proof.Machine.execSecKeys now c op slot data s
  | .secCert now c which => Sys2Proof.Machine.execSecCert now c which s
  | .testSelf now c unit => Sys2Proof.Machine.execTestSelf now c unit s
  | .testPace now c => Sys2Proof.Machine.execTestPace now c s
  | .devReset now c kind => Sys2Proof.Machine.execDevReset now c kind s
  | .unitReset now c unit => Sys2Proof.Machine.execUnitReset now c unit s
  | .devDormant now c mask => Sys2Proof.Machine.execDevDormant now c mask s
  | .scanReady now => Sys2Proof.Machine.execScanReady now s
  | .roundMinExpiry now => Sys2Proof.Machine.execRoundMinExpiry now s
  | .fixedPeriodRelease now task => Sys2Proof.Machine.execFixedPeriodRelease now task s
  | .overrun now cause => Sys2Proof.Machine.execOverrun now cause s
  | .sealPoint now => Sys2Proof.Machine.execSealPoint now s
  | .manifestAckDeadline now => Sys2Proof.Machine.execManifestAckDeadline now s
  | .emit now => Sys2Proof.Machine.execEmit now s
  | .emitEnd now => Sys2Proof.Machine.execEmitEnd now s
  | .imageSlot now => Sys2Proof.Machine.execImageSlot now s
  | .classDSlice now => Sys2Proof.Machine.execClassDSlice now s
  | .carryRecordWrite now => Sys2Proof.Machine.execCarryRecordWrite now s
  | .sealFault now line => Sys2Proof.Machine.execSealFault now line s
  | .chartPreloadComplete now => Sys2Proof.Machine.execChartPreloadComplete now s
  | .paceSample now ps => Sys2Proof.Machine.execPaceSample now ps s
  | .junctionSample now tenths => Sys2Proof.Machine.execJunctionSample now tenths s
  | .tbLockLost now => Sys2Proof.Machine.execTbLockLost now s
  | .tbLockRegained now => Sys2Proof.Machine.execTbLockRegained now s
  | .promiseBreach now => Sys2Proof.Machine.execPromiseBreach now s
  | .faultHaltRestart now => Sys2Proof.Machine.execFaultHaltRestart now s
  | .uncorrectableMemoryError now store index => Sys2Proof.Machine.execUncorrectableMemoryError now store index s
  | .unitFault now unit => Sys2Proof.Machine.execUnitFault now unit s
  | .collarReopen now unit => Sys2Proof.Machine.execCollarReopen now unit s
  | .requestToClosedCollar now unit who => Sys2Proof.Machine.execRequestToClosedCollar now unit who s
  | .vinFail now => Sys2Proof.Machine.execVinFail now s
  | .vinValid => Sys2Proof.Machine.execVinValid s
  | .reEmit now => Sys2Proof.Machine.execReEmit now s
  | .rstNReset now lowNs => Sys2Proof.Machine.execRstNReset now lowNs s
  | .dormantWake source => Sys2Proof.Machine.execDormantWake source s
  | .holdupCapacitanceMeasure now deltaUv => Sys2Proof.Machine.execHoldupCapacitanceMeasure now deltaUv s
  | .holdupSample now mv => Sys2Proof.Machine.execHoldupSample now mv s
  | .holdupFault now => Sys2Proof.Machine.execHoldupFault now s
  | .retentionRailLoss ns => Sys2Proof.Machine.execRetentionRailLoss ns s
  | .vbatMeasure now mv => Sys2Proof.Machine.execVbatMeasure now mv s
  | .operatingSecond now => Sys2Proof.Machine.execOperatingSecond now s
  | .pstoreCompaction now half => Sys2Proof.Machine.execPstoreCompaction now half s
  | .laneAlignmentChange now lane aligned => Sys2Proof.Machine.execLaneAlignmentChange now lane aligned s
  | .hello now f => Sys2Proof.Machine.execHello now f s
  | .manifest now ok r => Sys2Proof.Machine.execManifest now ok r s
  | .ack now seq written => Sys2Proof.Machine.execAck now seq written s
  | .heartbeatDue now => Sys2Proof.Machine.execHeartbeatDue now s
  | .heartbeat now f => Sys2Proof.Machine.execHeartbeat now f s
  | .handover now f => Sys2Proof.Machine.execHandover now f s
  | .taken now term => Sys2Proof.Machine.execTaken now term s
  | .watchOutputsSafe now => Sys2Proof.Machine.execWatchOutputsSafe now s
  | .drop now reason => Sys2Proof.Machine.execDrop now reason s
  | .config now kind data => Sys2Proof.Machine.execConfig now kind data s
  | .changeReq now => Sys2Proof.Machine.execChangeReq now s
  | .watchTimeout now => Sys2Proof.Machine.execWatchTimeout now s
  | .helmGivesUp now => Sys2Proof.Machine.execHelmGivesUp now s
  | .twinStartWaitExpiry now => Sys2Proof.Machine.execTwinStartWaitExpiry now s
  | .busHeartbeatDue now line => Sys2Proof.Machine.execBusHeartbeatDue now line s
  | .busHeartbeatReceived now line side role term seq => Sys2Proof.Machine.execBusHeartbeatReceived now line side role term seq s
  | .fieldLinkSilence now => Sys2Proof.Machine.execFieldLinkSilence now s
  | .safeStateStaggerStep now => Sys2Proof.Machine.execSafeStateStaggerStep now s
  | .diSampleTick now group currents => Sys2Proof.Machine.execDiSampleTick now group currents s
  | .outputDiagnosis now output cond present => Sys2Proof.Machine.execOutputDiagnosis now output cond present s
  | .vfldSample now mv => Sys2Proof.Machine.execVfldSample now mv s
  | .fieldDieRestart now => Sys2Proof.Machine.execFieldDieRestart now s
  | .restoreStaggerStep now => Sys2Proof.Machine.execRestoreStaggerStep now s
  | .dioTestEnd now measured offSeen onSeen => Sys2Proof.Machine.execDioTestEnd now measured offSeen onSeen s
  | .anaOutputUpdate now ch => Sys2Proof.Machine.execAnaOutputUpdate now ch s
  | .anaSample now ch code => Sys2Proof.Machine.execAnaSample now ch code s
  | .islandTemperatureSample now ch tenths => Sys2Proof.Machine.execIslandTemperatureSample now ch tenths s
  | .relayCalibrationDue now ch => Sys2Proof.Machine.execRelayCalibrationDue now ch s
  | .relayCalibrationStepEnd now ch measured => Sys2Proof.Machine.execRelayCalibrationStepEnd now ch measured s
  | .handoverAbort now ch => Sys2Proof.Machine.execHandoverAbort now ch s
  | .activeStageFailure now ch => Sys2Proof.Machine.execActiveStageFailure now ch s
  | .loopOpen now ch present => Sys2Proof.Machine.execLoopOpen now ch present s
  | .complianceLack now ch headroomMv present => Sys2Proof.Machine.execComplianceLack now ch headroomMv present s
  | .hartPoll now ch => Sys2Proof.Machine.execHartPoll now ch s
  | .hartReply now ch reply => Sys2Proof.Machine.execHartReply now ch reply s
  | .hartRequest now ch frame => Sys2Proof.Machine.execHartRequest now ch frame s
  | .busCycleStart now line => Sys2Proof.Machine.execBusCycleStart now line s
  | .busFrameReceived now line f => Sys2Proof.Machine.execBusFrameReceived now line f s
  | .inputWindowEnd now line => Sys2Proof.Machine.execInputWindowEnd now line s
  | .confirmationWindowEnd now line => Sys2Proof.Machine.execConfirmationWindowEnd now line s
  | .busFrameTransmitted now line buf outcome => Sys2Proof.Machine.execBusFrameTransmitted now line buf outcome s
  | .windowOrSlotEnd now line => Sys2Proof.Machine.execWindowOrSlotEnd now line s
  | .busOffRecovery now line => Sys2Proof.Machine.execBusOffRecovery now line s
  | .fifoDrain now line => Sys2Proof.Machine.execFifoDrain now line s
  | .filterAgeExpiry now line filter => Sys2Proof.Machine.execFilterAgeExpiry now line filter s
  | .busWake now line => Sys2Proof.Machine.execBusWake now line s
  | .transceiverSleepEntry now line => Sys2Proof.Machine.execTransceiverSleepEntry now line s
  | .timeReferenceFrame now line f => Sys2Proof.Machine.execTimeReferenceFrame now line f s
  | .lcdFrameStart now vdsp0Mv => Sys2Proof.Machine.execLcdFrameStart now vdsp0Mv s
  | .bistableUpdateStart now vdsp0Mv => Sys2Proof.Machine.execBistableUpdateStart now vdsp0Mv s
  | .bistablePhaseEnd now vdsp0Mv => Sys2Proof.Machine.execBistablePhaseEnd now vdsp0Mv s
  | .fullRewrite now => Sys2Proof.Machine.execFullRewrite now s
  | .displayNtcRead now tenths => Sys2Proof.Machine.execDisplayNtcRead now tenths s
  | .crackLoopMeasure now ohm => Sys2Proof.Machine.execCrackLoopMeasure now ohm s
  | .crystalTick now => Sys2Proof.Machine.execCrystalTick now s
  | .trimSecond now => Sys2Proof.Machine.execTrimSecond now s
  | .shiftComplete now => Sys2Proof.Machine.execShiftComplete now s
  | .servoWindowEnd now => Sys2Proof.Machine.execServoWindowEnd now s
  | .referenceAbsentTimeout now => Sys2Proof.Machine.execReferenceAbsentTimeout now s
  | .periodicAnchor now => Sys2Proof.Machine.execPeriodicAnchor now s
  | .suppressedRecordDue now => Sys2Proof.Machine.execSuppressedRecordDue now s
  | .logClearOverwrite now => Sys2Proof.Machine.execLogClearOverwrite now s
  | .healthWindowExpiry now => Sys2Proof.Machine.execHealthWindowExpiry now s
  | .wdPeriodExpiry now => Sys2Proof.Machine.execWdPeriodExpiry now s
  | .serviceProcessorCheckIn now => Sys2Proof.Machine.execServiceProcessorCheckIn now s
  | .serviceProcessorReply now tick => Sys2Proof.Machine.execServiceProcessorReply now tick s
  | .wdReply now value tick => Sys2Proof.Machine.execWdReply now value tick s
  | .wdCtrlWrite now value tick => Sys2Proof.Machine.execWdCtrlWrite now value tick s
  | .wdKeyWrite now value tick => Sys2Proof.Machine.execWdKeyWrite now value tick s
  | .sfPredStore value => Sys2Proof.Machine.execSfPredStore value s
  | .sfCtrlStore value => Sys2Proof.Machine.execSfCtrlStore value s
  | .sfRegisterWrite addr value => Sys2Proof.Machine.execSfRegisterWrite addr value s
  | .looseAckTimeout now seq => Sys2Proof.Machine.execLooseAckTimeout now seq s
  | .silenceVoteElapsed now => Sys2Proof.Machine.execSilenceVoteElapsed now s
  | .busError now line err => Sys2Proof.Machine.execBusError now line err s
  | .busWindowStart now line w => Sys2Proof.Machine.execBusWindowStart now line w s
  | .relayHandoverBlocked now ch => Sys2Proof.Machine.execRelayHandoverBlocked now ch s
  | .modeChangeComplete now ch => Sys2Proof.Machine.execModeChangeComplete now ch s
  | .panelImageCheck now => Sys2Proof.Machine.execPanelImageCheck now s
  | .lrefZeroCrossing now periodUs => Sys2Proof.Machine.execLrefZeroCrossing now periodUs s
  | .receiptWaitExpiry now => Sys2Proof.Machine.execReceiptWaitExpiry now s
  | .maintReceiptSent now => Sys2Proof.Machine.execMaintReceiptSent now s
  | .imageWatchTimeout now c => Sys2Proof.Machine.execImageWatchTimeout now c s
  | .timeReferenceAgeExpiry now line => Sys2Proof.Machine.execTimeReferenceAgeExpiry now line s

end Sys2Proof.Machine
end

