-- ==== Sys2Proof/WellFormed.lean ====
section
/-!
DEFINITION. The well-formed commands: those whose operands the interface can carry. An instruction of the logic engine is
well formed when its word is not illegal (R242); a host command when each number fits the field of its packet (R139, R140);
an event when its operands lie in the range that the thing it names has. A value that a check of the device refuses is well
formed: refusing it is the command's effect.
-/
namespace Sys2Proof

/-- A number that fits n bytes. -/
def fits (n v : Nat) : Bool := decide (v < 256 ^ n)

/-- A mode that `ld` and `st` permit (R240, R268). -/
def Mode.notPoint : Mode → Bool
  | .absPoint _ => false
  | _ => true

/-- A region that R241 defines. -/
def Abs.wf (a : Abs) : Bool := !decide (a.region = 3)

/-- The data lengths of ISO 11898-1: 0 to 8 bytes, and in an FD frame 12, 16, 20, 24, 32, 48 and 64 (R490). -/
def CanFrame.wf (f : CanFrame) : Bool :=
  decide (f.id < if f.ext then 2 ^ 29 else 2 ^ 11) && (f.fd || !f.brs)
    && (decide (f.data.length ≤ 8) || (f.fd && [12, 16, 20, 24, 32, 48, 64].contains f.data.length))

/-- The segment header of R131, and bytes within its total. -/
def Segment.wf (g : Segment) : Bool :=
  fits 1 g.target && fits 4 g.offset && fits 4 g.total && decide (g.bytes.length ≤ 4080)

/-- The command's operands lie in the fields that carry them. -/
def Instr.wf : Instr → Bool
  | .btst _ _ _ b | .bset _ _ _ b | .bclr _ _ _ b => decide (b < 40#6)
  | .qtst _ _ _ q => decide (q < 4#6)
  | .cmp _ _ cc _ _ | .cmpi _ _ cc _ _ => decide (cc < 10#4)
  | .fcmp _ _ cc _ _ => decide (cc < 6#4)
  | .ld _ _ m | .st _ m _ => m.notPoint
  | .ldAbs _ _ a | .stAbs _ a _ => a.wf
  | .put _ bs | .putQ _ bs => decide (bs ≠ [])
  | .admitQuery _ _ p => decide (16 ≤ p.length)
  | .admitShares _ _ v p s d => fits 1 v && fits 1 p && fits 1 s && fits 1 d
  | .imageRead _ _ sp n first => fits 1 sp && fits 2 n && fits 4 first
  | .imageWrite _ _ sp first _ => fits 1 sp && fits 4 first
  | .imageWatch _ _ t sp as to_ => fits 1 t && fits 1 sp && as.all (fits 4) && fits 4 to_
  | .paramRead _ _ ps => ps.all (fits 2)
  | .paramWrite _ _ es => es.all (fun e => fits 2 e.1 && fits 8 e.2)
  | .progLoad _ _ slot => fits 1 slot
  | .progEdit _ _ g | .chartLoad _ _ g => g.wf
  | .progStop _ _ m => fits 1 m
  | .forceList _ _ f => fits 2 f
  | .chartSelect _ _ c | .chartInfo _ _ c => fits 1 c
  | .dioTest _ _ k c => fits 1 k && fits 1 c
  | .anaTrim _ _ c k => fits 1 c && fits 1 k
  | .anaHart _ _ c _ => fits 1 c
  | .busSend _ _ _ f => f.wf
  | .busFrameReceived _ _ f | .timeReferenceFrame _ _ f => f.wf
  | .busSleep _ _ _ m => fits 1 m
  | .dspWrite _ _ f n bs => fits 1 f && fits 1 n && decide (bs.length = 18 * n)
  | .dspMode _ _ o => fits 1 o
  | .timeSet _ _ y mo d h mi se => fits 2 y && fits 1 mo && fits 1 d && fits 1 h && fits 1 mi && fits 1 se
  | .timeShift _ _ sh d => decide (-2 ^ 31 ≤ sh ∧ sh < 2 ^ 31) && fits 2 d
  | .timeTrim _ _ so f => fits 1 so && decide (-2 ^ 15 ≤ f ∧ f < 2 ^ 15)
  | .logRead _ _ f l => fits 4 f && fits 2 l
  | .logClear _ _ l => fits 4 l
  | .logMark _ _ c bs => fits 2 c && decide (bs.length ≤ 240)
  | .updBegin _ _ t k l h => fits 1 t && fits 1 k && fits 4 l && decide (h.length = 64)
  | .updChunk _ _ o _ => fits 4 o
  | .secAttest _ _ n => decide (n.length = 32)
  | .secKeys _ _ o sl _ => fits 1 o && fits 1 sl
  | .secCert _ _ w => fits 1 w
  | .testSelf _ _ u | .unitReset _ _ u => fits 1 u
  | .devReset _ _ k => fits 1 k
  | .diSampleTick _ _ cs => decide (cs.length = 8)
  | .config _ k bs => fits 1 k && decide (bs.length ≤ 252)
  | _ => true

end Sys2Proof
end

