-- ==== Sys2Proof/Laws/Encode.lean ====
section
/-!
SUPPORT. The fields of an encoded word: what a field or a bit of a word built by `put` reads as.
-/
namespace Sys2Proof

theorem fld_or (a b : Word) (i n : Nat) : fld (a ||| b) i n = fld a i n ||| fld b i n := by
  apply BitVec.eq_of_getLsbD_eq
  intro j hj
  simp [fld, hj]

theorem getLsbD_put {n : Nat} (i j : Nat) (x : BitVec n) :
    (put i x).getLsbD j = (decide (j < 40) && (decide (i ≤ j) && x.getLsbD (j - i))) := by
  simp only [put, BitVec.getLsbD_shiftLeft, BitVec.getLsbD_setWidth]
  by_cases h : j < 40 <;> by_cases h2 : j < i
  · simp [h, h2]
  · have : j - i < 40 := by omega
    simp [h, h2, this, Nat.not_lt.mp h2]
  · simp [h]
  · simp [h]

/-- A field reads back where it was put. -/
theorem fld_put_same {n : Nat} (i : Nat) (x : BitVec n) (h : i + n ≤ 40) : fld (put i x) i n = x := by
  apply BitVec.eq_of_getLsbD_eq
  intro j hj
  have : i + j < 40 := by omega
  simp only [fld, BitVec.getLsbD_extractLsb', getLsbD_put]
  simp [hj, this]

/-- A field put elsewhere does not show. -/
theorem fld_put_ne {n : Nat} (i j m : Nat) (x : BitVec n) (h : i + n ≤ j ∨ j + m ≤ i) : fld (put i x) j m = 0 := by
  apply BitVec.eq_of_getLsbD_eq
  intro k hk
  simp only [fld, BitVec.getLsbD_extractLsb', getLsbD_put]
  rcases h with h | h
  · have : n ≤ j + k - i := by omega
    simp [BitVec.getLsbD_of_ge _ _ this]
  · have : ¬ (i ≤ j + k) := by omega
    simp [this]

theorem getLsbD_put_same {n : Nat} (i : Nat) (x : BitVec n) (h : i < 40) : (put i x).getLsbD i = x.getLsbD 0 := by
  rw [getLsbD_put]
  simp [h]

theorem getLsbD_put_ne {n : Nat} (i j : Nat) (x : BitVec n) (h : i + n ≤ j ∨ j < i) : (put i x).getLsbD j = false := by
  rw [getLsbD_put]
  rcases h with h | h
  · have : n ≤ j - i := by omega
    simp [BitVec.getLsbD_of_ge _ _ this]
  · have : ¬ (i ≤ j) := by omega
    simp [this]

theorem fld_zero (i n : Nat) : fld 0 i n = 0 := by simp [fld]

/-- The mode and address fields lie below bit 23. -/
theorem fld_encMode_high (m : Mode) (i n : Nat) (h : 23 ≤ i) : fld (encMode m) i n = 0 := by
  cases m <;> simp (disch := omega) [encMode, fld_or, fld_put_ne]

theorem getLsbD_encMode_high (m : Mode) (i : Nat) (h : 23 ≤ i) : (encMode m).getLsbD i = false := by
  cases m <;> simp (disch := omega) [encMode, -BitVec.getLsbD_eq_getElem, getLsbD_put_ne]

/-- A word whose low 23 bits are those of a mode decodes to that mode, where it is permitted. -/
theorem decMode_of_fields (w : Word) (m : Mode) (point : Bool)
    (h0 : fld w 20 3 = fld (encMode m) 20 3) (h1 : fld w 17 3 = fld (encMode m) 17 3)
    (h2 : fld w 15 5 = fld (encMode m) 15 5) (h3 : fld w 0 14 = fld (encMode m) 0 14)
    (h4 : fld w 0 17 = fld (encMode m) 0 17) (h5 : point = true ∨ m.notPoint = true) : decMode w point = some m := by
  cases m <;> simp (disch := omega) [decMode, h0, h1, h2, h3, h4, encMode, fld_or, fld_put_ne, fld_put_same] at h5 ⊢
  simpa [Mode.notPoint] using h5

end Sys2Proof
end

