-- ==== Sys2Proof/Safety.lean ====
section
/-!
DEFINITION. What the claims about the U640 speak of: the scan that lets an instruction run, what an instruction leaves,
the host command whose work a row performs, and the canonical form of the maps of the state.
-/
namespace Sys2Proof.Machine

open Sys2Proof

/-! ### The logic engine -/

/-- A scan is in EXECUTE and `cost` more beats stay within its task's execution postage P (R47). -/
def canRun (s : State) (cost : Nat) : Bool :=
  match s.sched.running with
  | none => false
  | some sc => decide (sc.phase = .execute) && decide (s.eng.beats + cost ≤ (taskDef s sc.task).p)

/-- The 9,600th masked beat ends the mask after this instruction (R233). -/
def maskEnds (e : Engine) (cost : Nat) : Bool := ctrlPmask e && decide (9600 ≤ e.pmcount + cost)

/-- SF.STATUS.PMOVR when the mask ends. -/
def pmovrBit (e : Engine) (cost : Nat) : Word := if maskEnds e cost then stPmovr else 0

/-- SF.STATUS.AERR of a write to e0 to e7 at call depth 0 (R205). -/
def nowhereBit (e : Engine) (rd : Reg) : Word := if regLoc e rd = .nowhere then stAerr else 0

/-- Outside the engine an instruction leaves everything as it was, but for the logbook record of PMOVR and the mark that
it is written (R233). -/
def engineOnly (s t : State) : Prop :=
  { t with eng := s.eng, log := s.log, sched := s.sched } = s ∧
  { t.sched with running := s.sched.running } = s.sched ∧
  (t.eng.status.getLsbD 3 = false → t = { s with eng := t.eng })

/-- The frame of an instruction with one destination: every other register and predicate holds what it held once the
pending load has reached its destination (R212), and the rest of the engine stands, the pc, the beats and the mask apart. -/
def regFrame (e e' : Engine) (cost : Nat) (pc : CodeAddr) (dest : LoadDest) : Prop :=
  (∀ l, l ≠ dest → readLoc e' l = readLoc (commitLoad e) l) ∧
  (∀ w, (vget e'.win w Window.reset).link = (vget e.win w Window.reset).link) ∧
  e'.owner = e.owner ∧ e'.wpos = e.wpos ∧ e'.depth = e.depth ∧ e'.amode = e.amode ∧ e'.erraddr = e.erraddr ∧
  e'.m = e.m ∧ e'.b = e.b ∧ e'.n = e.n ∧
  e'.pc = pc ∧ e'.beats = e.beats + cost ∧ e'.pend = none ∧
  e'.pmcount = (if ctrlPmask e then e.pmcount + cost else e.pmcount) ∧
  e'.ctrl = (if maskEnds e cost then e.ctrl &&& 0xFFFFFFFFFE else e.ctrl)

/-- An instruction under its guard writes one general register: value, tag, sticky flags and its cost in beats. -/
def writesReg (s : State) (i : Instr) (g : Guard) (cost : Nat) (rd : Reg) (r : Tagged) (flags fp : Word) : Prop :=
  canRun s cost = true → guardMet s.eng g = true →
  ∃ t, exec i s = .next (preemptNow t) ∧ engineOnly s t ∧
    regFrame s.eng t.eng cost (s.eng.pc + 1) (regLoc s.eng rd) ∧ t.eng.a = s.eng.a ∧ t.eng.x = s.eng.x ∧
    (regLoc s.eng rd ≠ .nowhere → readReg t.eng rd = ⟨r.val, worsenTag r.tag (guardQ s.eng g)⟩) ∧
    t.eng.status = s.eng.status ||| flags ||| nowhereBit s.eng rd ||| pmovrBit s.eng cost ∧
    t.eng.fpstat = s.eng.fpstat ||| fp ∧
    t.eng.errpc = (if regLoc s.eng rd = .nowhere then s.eng.pc else s.eng.errpc)

/-- An F40 result (R224): its flags are sticky, and a bad one worsens the tag. -/
def writesF40 (s : State) (i : Instr) (g : Guard) (cost : Nat) (rd : Reg) (r : FRes) (tag : Byte) : Prop :=
  writesReg s i g cost rd ⟨r.val, if r.bad then worsenTag tag qBad else tag⟩ 0 (fpBits r.fl)

/-- A conversion from F40 to I40 (R225): L for the clamp, Q bad for NaN. -/
def writesI40 (s : State) (i : Instr) (g : Guard) (rd : Reg) (r : Word × Bool × Bool) (tag : Bool → Byte) : Prop :=
  writesReg s i g 4 rd ⟨r.1, if r.2.2 then worsenTag (tag r.2.1) qBad else tag r.2.1⟩ 0 0

/-- An instruction under its guard writes one predicate. Writes to p0 are ignored (R203). -/
def writesPred (s : State) (i : Instr) (g : Guard) (cost : Nat) (pd : BitVec 3) (v : Bool) (q : Quality) : Prop :=
  canRun s cost = true → guardMet s.eng g = true →
  ∃ t, exec i s = .next (preemptNow t) ∧ engineOnly s t ∧
    regFrame s.eng t.eng cost (s.eng.pc + 1) (.pred pd.toNat) ∧ t.eng.a = s.eng.a ∧ t.eng.x = s.eng.x ∧
    readPred t.eng pd = (if pd = 0 then ⟨true, qGood⟩ else ⟨v, worseQ q (guardQ s.eng g)⟩) ∧
    t.eng.status = s.eng.status ||| pmovrBit s.eng cost ∧ t.eng.fpstat = s.eng.fpstat ∧ t.eng.errpc = s.eng.errpc

/-- An instruction under its guard writes no general register and no predicate: what it leaves outside them. -/
def writesNone (s : State) (i : Instr) (g : Guard) (cost : Nat) (post : State → Prop) : Prop :=
  canRun s cost = true → guardMet s.eng g = true →
  ∃ t, exec i s = .next (preemptNow t) ∧ engineOnly s t ∧
    (∀ l, readLoc t.eng l = readLoc (commitLoad s.eng) l) ∧
    t.eng.pc = s.eng.pc + 1 ∧ t.eng.beats = s.eng.beats + cost ∧ t.eng.pend = none ∧
    t.eng.wpos = s.eng.wpos ∧ t.eng.depth = s.eng.depth ∧ t.eng.owner = s.eng.owner ∧ t.eng.amode = s.eng.amode ∧
    t.eng.fpstat = s.eng.fpstat ∧ post t

/-- Outside the I40 range (R222). -/
def outI40 (v : Int) : Bool := decide (v < -549755813888 ∨ 549755813887 < v)

/-- A wrapping result (R222): OV is set when the exact result leaves the range, and the tag is bad with OVQ. -/
def writesWrapped (s : State) (i : Instr) (g : Guard) (cost : Nat) (rd : Reg) (v : Word) (exact : Int) (tag : Byte) : Prop :=
  writesReg s i g cost rd ⟨v, if outI40 exact && ctrlOvq s.eng then worsenTag tag qBad else tag⟩
    (if outI40 exact then stOv else 0) 0

/-- A clamped result (R257): the nearest I40 value, with L when it is not the exact one; OV is never set. -/
def writesClamped (s : State) (i : Instr) (g : Guard) (cost : Nat) (rd : Reg) (exact : Int) (tag : Bool → Byte) : Prop :=
  writesReg s i g cost rd ⟨BitVec.ofInt 40 (max (-549755813888) (min exact 549755813887)), tag (outI40 exact)⟩ 0 0

/-! ### Host commands -/

/-- The state in which the work of command c, with record x, runs: the row's instant, the command begun, its stage worked,
the energy of the stage's flash operation reserved (R29, R63, R655). -/
def workState (s : State) (now : Tb) (c : CmdRef) (x : Cmd) : State :=
  reserveEnergy (updCmd (beginWork (s.at now) c) c (fun y => { y with worked := true })) (stageDemand x)

/-- The turn of command c, with record x, has come: it is pending, its stage has work that no other goes before (R65), its
frank has verified if it needs one, and the checks that R63 repeats before the first stage pass. -/
def hasTurn (s : State) (now : Tb) (c : CmdRef) (i : Instr) (x : Cmd) : Prop :=
  findCmd (s.at now) c = some x ∧ mayWork (s.at now) x = true ∧ (x.franked = true → x.frankDone = true) ∧
  (x.begun = false → recheck (beginWork (s.at now) c) c i = none)

/-- The work of command c can run: its turn has come, the crypto engine is open if the stage asks it (R14), and the hold-up
energy covers the stage's flash operation (R29). -/
def ready (s : State) (now : Tb) (c : CmdRef) (i : Instr) (x : Cmd) : Prop :=
  hasTurn s now c i x ∧ (cryptoStage x = true → collarClosed (s.at now) 8 = false) ∧
  (stageDemand x ≠ 0 → energyFor (s.at now) (stageDemand x) = true)

/-- The row of a command whose work can run answers a next state, of which `post` holds: of the command's record, the state
in which the work ran, and the state it left. -/
def works (s : State) (now : Tb) (c : CmdRef) (i : Instr) (post : Cmd → State → State → Prop) : Prop :=
  ∀ x, ready s now c i x → ∃ t, exec i s = .next t ∧ post x (workState s now c x) t

/-- DONE stands as the outcome of command c, with this payload (R111). -/
def answers (t : State) (c : CmdRef) (payload : List Byte) : Prop :=
  ∃ r, findResult t c = some r ∧ r.status = stDone ∧ r.reason = 0 ∧ r.payload = payload

/-- An outcome other than DONE stands for command c. -/
def refuses (t : State) (c : CmdRef) (status reason : BitVec 8) : Prop :=
  ∃ r, findResult t c = some r ∧ r.status = status ∧ r.reason = reason ∧ r.payload = []

/-- Between b and t nothing has changed but the host link, the bookings, and the energy that commands hold (R29, R67, R655). -/
def hostOnly (b t : State) : Prop :=
  { t with host := b.host, book := b.book, power := { t.power with reservedNj := b.power.reservedNj } } = b

/-- Between b and t nothing has changed but outcomes. -/
def sameButResults (b t : State) : Prop := t = { b with host := { b.host with results := t.host.results } }

/-- The work answered and changed nothing else. -/
def onlyAnswers (b t : State) (c : CmdRef) (payload : List Byte) : Prop :=
  answers t c payload ∧ sameButResults b t ∧ ∀ c', c' ≠ c → findResult t c' = findResult b c'

/-- Command c waits for a later event. -/
def waits (t : State) (c : CmdRef) : Prop := ∃ y, findCmd t c = some y ∧ y.phase = .waiting

/-- The last stage of command c, with record x, ends with DONE standing as its outcome, within the promise (R71, R72, R83). -/
def endsStage (s : State) (now : Tb) (c : CmdRef) (x : Cmd) (r : CmdResult) : Prop :=
  findCmd (s.at now) c = some x ∧ x.phase ≠ .held ∧ x.book ≠ none ∧ (s.at now).tb ≤ x.promise ∧
  (x.franked = true → x.frankDone = true) ∧ lastStage x = true ∧
  findResult (s.at now) c = some r ∧ r.status = stDone ∧ r.reason = 0 ∧ r.time = none

/-- Port p carries one receipt more (R99). -/
def placed (b t : State) (p : Port) (r : List Byte) : Prop := (portSt t p).tx = (portSt b p).tx ++ [r]

/-- Command c, with record x in state b, has ended: its final receipt is placed and the command forgotten (R71, R72, R112). -/
def endsAs (b t : State) (c : CmdRef) (x : Cmd) (status reason : BitVec 8) (detail : Nat) (payload : List Byte) : Prop :=
  placed b t c.port (mkReceipt 0 x.opcode.toNat status reason c.seq.toNat x.token.toNat b.tb detail payload) ∧
  t.host.cmds = b.host.cmds.eraseP (fun y => decide (y.ref = c)) ∧ findResult t c = none

/-- Command c, unless it has outlived its promise (R83), has ended with DONE, whose detail is the slack to the promise
(R72). -/
def endsDone (b t : State) (c : CmdRef) (payload : List Byte) : Prop :=
  ∀ x, findCmd b c = some x → b.tb ≤ x.promise →
    endsAs b t c x stDone 0 (min (x.promise - b.tb) 0xFFFFFFFF) payload

/-- A stage that asks the crypto engine behind a closed collar ends its command with REQ_ABORTED (R14, R17). -/
def cryptoAborts (s : State) (now : Tb) (c : CmdRef) (i : Instr) : Prop :=
  ∀ x e, hasTurn s now c i x → cryptoStage x = true → closingEntry (s.at now) 8 = some e →
    ∃ t, exec i s = .next t ∧ endsAs (beginWork (s.at now) c) t c x stFault 8 e.2.1 []

/-- A flash operation that the hold-up energy does not cover is refused (R29). -/
def lacksEnergy (s : State) (now : Tb) (c : CmdRef) (i : Instr) : Prop :=
  ∀ x, hasTurn s now c i x → (cryptoStage x = true → collarClosed (s.at now) 8 = false) → stageDemand x ≠ 0 →
    energyFor (s.at now) (stageDemand x) = false → ∃ t, exec i s = .next t ∧ refuses t c stState 0x06

/-! ### Ring, slots, scans -/

/-- The ring takes records of up to n lines: no segment that the head would enter holds a live copy (R336). -/
def ringTakes (s : State) (n : Nat) : Prop := ∀ r : RingRec, r.lines.length ≤ n → ∃ t, ringAppend s r = .ok t

/-- No scan runs or stands suspended, this gap between scans has had no slot (R51), the supply is good, and neither a chart
change nor an edit waits for a seal point: an image slot does its accesses and nothing else. -/
def slotIdle (s : State) : Prop :=
  s.sched.running = none ∧ s.sched.suspended = [] ∧ s.power.failing = false ∧ s.sched.noMoreScans = false ∧
  s.power.mode ≠ .halt ∧ s.charts.req = none ∧ s.sched.editPending = none ∧
  (s.sched.slotDone = false ∨ scansFollow s = false)

/-- An access is queued for the next image slots, and nothing else has changed (R69). -/
def queuedOnly (b t : State) (w : SlotWork) : Prop :=
  t = { b with sched := { b.sched with slotWork := b.sched.slotWork ++ [w] } }

/-- An item holds a value with V, L, Q, and M, S and F. -/
def holds6 (s : State) (k : Nat) (v : Word) (vb l : Bool) (q : Quality) (m sub f : Bool) : Prop :=
  let t := getItem s k
  t.val = v ∧ tagV t.tag = vb ∧ tagL t.tag = l ∧ tagQ t.tag = q ∧ tagM t.tag = m ∧ tagS t.tag = sub ∧ tagF t.tag = f

/-! ### Watchdog and faults -/

/-- What a bad service or an expiry with a class code of R595 does (R600-R602): from RUNNING the first-expiry actions, from WARNED a
watchdog reset. -/
def wdActs (s n : State) (x : Host.Outcome State Fault Refusal) (code : Nat) : Prop :=
  (s.wd.state = .running → ∃ t, x = .next t ∧ t.wd.state = .warned ∧ t.wd.mask = 0 ∧ t.wd.dbl = false ∧ t.wd.tick = 0 ∧
    t.wd.lastRes = code ∧ t.wd.observed = s.wd.mask ∧ t.wd.lfsr = s.wd.lfsr ∧ t.power.event = s.power.event ||| 1#40 ∧
    { t with wd := s.wd, power := s.power, log := s.log } = n) ∧
  (s.wd.state = .warned → s.power.powerCycles ≠ 0 → ∃ t, x = .next t ∧ t.power.resetKind = 3 ∧
    t.power.resumed = false ∧ t.tb = 0 ∧ t.wd.count = (s.wd.count + 1) % 2 ^ 32 ∧ t.wd.lastRes = code ∧
    t.wd.observed = s.wd.mask ∧ (s.field.lockout = false → t.field.safe.isSome = true))

/-- What a fault of R674 does: fault halt. Scans stop and emit nothing, every pending command is discarded, the field link falls
silent; the image stands. -/
def halts (s : State) (x : Host.Outcome State Fault Refusal) (lastFault : Nat) : Prop :=
  s.power.mode ≠ .halt → ∃ t, x = .next t ∧ t.power.mode = .halt ∧ t.power.lastFault = lastFault ∧
    t.sched.running = none ∧ t.sched.suspended = [] ∧ t.host.cmds = [] ∧ t.image = s.image ∧ t.field.linkAlive = false

end Sys2Proof.Machine
end

