-- ==== Sys2Proof/Certificates/Slice0/Obligations.lean ====
section
/-!
DEFINITION. The statements about the U640 that the provers are asked for. Each formalises numbered rules of the spec or
follows from the sections its entry in OBLIGATIONS.json names.
-/

open Sys2Proof Sys2Proof.Machine

/-! ### The block: commands and the queue -/

/-- A step takes the command at the front of the queue and gives its effect on the state with the rest of the queue; with
an empty queue the block idles (the model's own convention, log entry 2). -/
def Obligations.StepTakesFrontCommand : Prop :=
  (∀ (c : Instr) (rest : List Instr) (s : State), step { s with pending := c :: rest } = exec c { s with pending := rest }) ∧
  ∀ s : State, s.pending = [] → step s = .next s

/-! ### The logic engine: results in general registers -/

/-- Integer addition, subtraction, negation, absolute value, minimum and maximum (R222, R255, R257): the wrapping forms with OV, the
clamping forms with L, and all that stays.
Each completes, with the next state it names, when its guard holds and its beats fit. -/
def Obligations.IntegerArithmeticResults : Prop :=
  (∀ (s : State) (g : Guard) (rd rs1 rs2 : Reg) (imm : BitVec 18),
     let x := readReg s.eng rs1
     let y := readReg s.eng rs2
     let k := imm.signExtend 40
     writesWrapped s (.add g rd rs1 rs2) g 1 rd (x.val + y.val) (x.val.toInt + y.val.toInt) (tagWorst [x.tag, y.tag] false) ∧
     writesWrapped s (.sub g rd rs1 rs2) g 1 rd (x.val - y.val) (x.val.toInt - y.val.toInt) (tagWorst [x.tag, y.tag] false) ∧
     writesWrapped s (.neg g rd rs1) g 1 rd (-x.val) (-x.val.toInt) (tagWorst [x.tag] false) ∧
     writesWrapped s (.abs g rd rs1) g 1 rd (if x.val.msb then -x.val else x.val) |x.val.toInt| (tagWorst [x.tag] false) ∧
     writesWrapped s (.addi g rd rs1 imm) g 1 rd (x.val + k) (x.val.toInt + imm.toInt) (tagWorst [x.tag, 0] false)) ∧
  (∀ (s : State) (g : Guard) (rd rs1 rs2 : Reg),
     let x := readReg s.eng rs1
     let y := readReg s.eng rs2
     let w := tagWorst [x.tag, y.tag]
     writesClamped s (.adds g rd rs1 rs2) g 1 rd (x.val.toInt + y.val.toInt) w ∧
     writesClamped s (.subs g rd rs1 rs2) g 1 rd (x.val.toInt - y.val.toInt) w ∧
     writesReg s (.min g rd rs1 rs2) g 1 rd ⟨BitVec.ofInt 40 (min x.val.toInt y.val.toInt), w false⟩ 0 0 ∧
     writesReg s (.max g rd rs1 rs2) g 1 rd ⟨BitVec.ofInt 40 (max x.val.toInt y.val.toInt), w false⟩ 0 0 ∧
     writesReg s (.minu g rd rs1 rs2) g 1 rd ⟨BitVec.ofNat 40 (min x.val.toNat y.val.toNat), w false⟩ 0 0 ∧
     writesReg s (.maxu g rd rs1 rs2) g 1 rd ⟨BitVec.ofNat 40 (max x.val.toNat y.val.toNat), w false⟩ 0 0)

/-- Bitwise instructions (R229, R255): a good 0 decides AND and a good word of ones decides OR.
Shifts (R255-R257): a count of 40 or more gives 0, or the sign for `sar`; a good one decides the logical shifts; OV of
`shl` when the result differs from the product by 2^c, for counts below 40 alone.
Each completes, with the next state it names, when its guard holds and its beats fit. -/
def Obligations.IntegerLogicAndShiftResults : Prop :=
  (∀ (s : State) (g : Guard) (rd rs1 rs2 : Reg) (imm : BitVec 18) (b : BitVec 6),
     let x := readReg s.eng rs1
     let y := readReg s.eng rs2
     let k : Tagged := ⟨imm.signExtend 40, 0⟩
     let dom := fun (d : Word) (x y : Tagged) => tagDom [(x.tag, decide (x.val = d)), (y.tag, decide (y.val = d))] false
     writesReg s (.and g rd rs1 rs2) g 1 rd ⟨x.val &&& y.val, dom 0 x y⟩ 0 0 ∧
     writesReg s (.or g rd rs1 rs2) g 1 rd ⟨x.val ||| y.val, dom (BitVec.allOnes 40) x y⟩ 0 0 ∧
     writesReg s (.xor g rd rs1 rs2) g 1 rd ⟨x.val ^^^ y.val, tagWorst [x.tag, y.tag] false⟩ 0 0 ∧
     writesReg s (.andi g rd rs1 imm) g 1 rd ⟨x.val &&& k.val, dom 0 x k⟩ 0 0 ∧
     writesReg s (.ori g rd rs1 imm) g 1 rd ⟨x.val ||| k.val, dom (BitVec.allOnes 40) x k⟩ 0 0 ∧
     writesReg s (.xori g rd rs1 imm) g 1 rd ⟨x.val ^^^ k.val, tagWorst [x.tag, 0] false⟩ 0 0 ∧
     (b < 40#6 →
       writesReg s (.bset g rd rs1 b) g 1 rd ⟨x.val ||| BitVec.twoPow 40 b.toNat, tagWorst [x.tag] false⟩ 0 0 ∧
       writesReg s (.bclr g rd rs1 b) g 1 rd ⟨x.val &&& ~~~BitVec.twoPow 40 b.toNat, tagWorst [x.tag] false⟩ 0 0)) ∧
  (∀ (s : State) (g : Guard) (rd rs1 rs2 : Reg) (c : BitVec 6),
     let x := readReg s.eng rs1
     let y := readReg s.eng rs2
     let k : Tagged := ⟨c.setWidth 40, 0⟩
     let tag := fun (y : Tagged) => tagDom [(x.tag, false), (y.tag, decide (40 ≤ y.val.toNat))] false
     let left := fun (i : Instr) (y : Tagged) =>
       writesWrapped s i g 1 rd (x.val <<< y.val.toNat) (if y.val.toNat < 40 then x.val.toInt * 2 ^ y.val.toNat else 0) (tag y)
     let right := fun (i : Instr) (y : Tagged) => writesReg s i g 1 rd ⟨x.val >>> y.val.toNat, tag y⟩ 0 0
     let arith := fun (i : Instr) (y : Tagged) =>
       writesReg s i g 1 rd ⟨BitVec.ofInt 40 (x.val.toInt / 2 ^ y.val.toNat), tagWorst [x.tag, y.tag] false⟩ 0 0
     left (.shl g rd rs1 rs2) y ∧ right (.shr g rd rs1 rs2) y ∧ arith (.sar g rd rs1 rs2) y ∧
     left (.shli g rd rs1 c) k ∧ right (.shri g rd rs1 c) k ∧ arith (.sari g rd rs1 c) k)

/-- Multiply and divide (R225, R258, R259): a good 0 factor decides a product; division by zero gives a bad 0 and DIV0.
Each completes, with the next state it names, when its guard holds and its beats fit. -/
def Obligations.MultiplyDivideResults : Prop :=
  ∀ (s : State) (g : Guard) (rd rs1 rs2 : Reg),
    let x := readReg s.eng rs1
    let y := readReg s.eng rs2
    let p := x.val.toInt * y.val.toInt
    let dom := tagDom [(x.tag, decide (x.val = 0)), (y.tag, decide (y.val = 0))]
    let w := tagWorst [x.tag, y.tag] false
    writesWrapped s (.mul g rd rs1 rs2) g 3 rd (x.val * y.val) p (dom false) ∧
    writesClamped s (.muls g rd rs1 rs2) g 3 rd p dom ∧
    (y.val ≠ 0 →
      writesWrapped s (.div g rd rs1 rs2) g 24 rd (x.val.sdiv y.val) (x.val.toInt.tdiv y.val.toInt) w ∧
      writesReg s (.divu g rd rs1 rs2) g 24 rd ⟨x.val / y.val, w⟩ 0 0 ∧
      writesReg s (.rem g rd rs1 rs2) g 24 rd ⟨x.val.srem y.val, w⟩ 0 0) ∧
    (y.val = 0 → ∀ i, i = .div g rd rs1 rs2 ∨ i = .divu g rd rs1 rs2 ∨ i = .rem g rd rs1 rs2 →
      writesReg s i g 24 rd ⟨0, worsenTag w qBad⟩ stDiv0 0)

/-- The F40 instructions (R223-R225, R229, R262, R263): each completes under its guard when its beats fit, and writes the result of
the F40 operation with its sticky flags, and Q bad for NaN, overflow and division by zero; conversions to I40 clamp with L.
The special cases: NaN operands, divisions by zero and by infinity, roots, the order of the zeros, conversions of infinities.
Where the manual leaves a point open it states the reading of log entry 37. -/
def Obligations.F40Results : Prop :=
  (∀ (s : State) (g : Guard) (rd rs1 rs2 : Reg),
     let x := readReg s.eng rs1
     let y := readReg s.eng rs2
     let w2 := tagWorst [x.tag, y.tag] false
     let w1 := tagWorst [x.tag]
     writesF40 s (.fadd g rd rs1 rs2) g 4 rd (fAdd x.val y.val) w2 ∧
     writesF40 s (.fsub g rd rs1 rs2) g 4 rd (fSub x.val y.val) w2 ∧
     writesF40 s (.fmul g rd rs1 rs2) g 4 rd (fMul x.val y.val) (tagDom
       [(x.tag, fIsZero x.val && !fIsInf y.val && !fIsNan y.val), (y.tag, fIsZero y.val && !fIsInf x.val && !fIsNan x.val)] false) ∧
     writesF40 s (.fdiv g rd rs1 rs2) g 18 rd (fDiv x.val y.val) w2 ∧
     writesF40 s (.fsqrt g rd rs1) g 20 rd (fSqrt x.val) (w1 false) ∧
     writesF40 s (.fneg g rd rs1) g 1 rd ⟨x.val ^^^ BitVec.twoPow 40 39, fpNone, fIsNan x.val⟩ (w1 false) ∧
     writesF40 s (.fabs g rd rs1) g 1 rd ⟨x.val &&& ~~~BitVec.twoPow 40 39, fpNone, fIsNan x.val⟩ (w1 false) ∧
     writesF40 s (.fmin g rd rs1 rs2) g 4 rd (fMin x.val y.val) w2 ∧
     writesF40 s (.fmax g rd rs1 rs2) g 4 rd (fMax x.val y.val) w2 ∧
     writesF40 s (.itof g rd rs1) g 4 rd (itof x.val) (w1 false) ∧
     writesI40 s (.ftoi g rd rs1) g rd (ftoi x.val) w1 ∧
     writesI40 s (.ftrunc g rd rs1) g rd (ftrunc x.val) w1) ∧
  (∀ a b : Word,
     let nan : Word := 0x7FC0000000
     let sign := fSign a ^^ fSign b
     (fIsNan a = true ∨ fIsNan b = true → ∀ r ∈ [fAdd a b, fSub a b, fMul a b, fDiv a b, fMin a b, fMax a b],
       r.val = nan ∧ r.bad = true) ∧
     (fIsZero a = true → fIsZero b = true → fDiv a b = ⟨nan, fpIv, true⟩) ∧
     (fIsInf a = true → fIsInf b = true → fDiv a b = ⟨nan, fpIv, true⟩) ∧
     (fIsZero a = false → fIsInf a = false → fIsNan a = false → fIsZero b = true → fDiv a b = ⟨fInf sign, fpDz, true⟩) ∧
     (fIsInf a = true → fIsZero b = true → fMul a b = ⟨nan, fpIv, true⟩) ∧
     (fIsInf a = true → fIsInf b = true → fSign a ≠ fSign b → fAdd a b = ⟨nan, fpIv, true⟩) ∧
     (fIsInf a = true → fIsInf b = true → fSign a = fSign b → fSub a b = ⟨nan, fpIv, true⟩) ∧
     (fIsZero a = true → (fSqrt a).val = fZero (fSign a) ∧ (fSqrt a).bad = false) ∧
     (fSign a = true → fIsZero a = false → fIsNan a = false → fSqrt a = ⟨nan, fpIv, true⟩) ∧
     (fIsZero a = true → fIsZero b = true → fSign a = true → (fMin a b).val = fZero true ∧ (fMin b a).val = fZero true ∧
       (fMax a b).val = fZero (fSign b)) ∧
     (fIsNan a = true → ftoi a = (0, false, true) ∧ ftrunc a = (0, false, true)) ∧
     (fIsInf a = true → ftoi a = (if fSign a then BitVec.ofInt 40 i40Min else BitVec.ofInt 40 i40Max, true, false) ∧
       ftrunc a = ftoi a))

/-- Moves to a general register, selection, tag instructions, and the reads of an address register, a predicate and an
accumulator (R227, R228, R251, R260, R264, R266). A moved tag loses E, S and F.
Each completes, with the next state it names, when its guard holds and its beats fit. -/
def Obligations.MoveResults : Prop :=
  ∀ (s : State) (g : Guard) (rd rs rs2 : Reg) (p : PSrc) (k : BitVec 3) (i23 : BitVec 23) (i20 : BitVec 20) (q : BitVec 2)
    (l : Bool) (a : BitVec 2) (sh : BitVec 6),
    let x := readReg s.eng rs
    let y := readReg s.eng rs2
    let acc := readAcc s.eng a
    let v := acc.val.toInt / 2 ^ sh.toNat
    let sat := ctrlAccsat s.eng
    writesReg s (.mov g rd rs) g 1 rd ⟨x.val, tagMove x.tag⟩ 0 0 ∧
    writesReg s (.movImm g rd i23) g 1 rd ⟨i23.signExtend 40, 0⟩ 0 0 ∧
    writesReg s (.movh g rd i20) g 1 rd
      ⟨i20 ++ (readReg s.eng rd).val.extractLsb' 0 20, tagWorst [(readReg s.eng rd).tag] false⟩ 0 0 ∧
    writesReg s (.sel g rd p rs rs2) g 1 rd
      ⟨if srcVal s.eng p then x.val else y.val,
        worsenTag (tagMove (if srcVal s.eng p then x.tag else y.tag)) (srcQ s.eng p)⟩ 0 0 ∧
    writesReg s (.rdx g rd k) g 1 rd ⟨(readX s.eng k).val.setWidth 40, qTag (readX s.eng k).q⟩ 0 0 ∧
    writesReg s (.qmax g rd rs q l) g 1 rd ⟨x.val, tagWorst [x.tag, mkTag false l false false false q false] false⟩ 0 0 ∧
    writesReg s (.tagr g rd rs) g 1 rd ⟨x.tag.setWidth 40, 0⟩ 0 0 ∧
    writesReg s (.pmovr g rd p) g 1 rd ⟨if srcVal s.eng p then 1 else 0, qTag (srcQ s.eng p)⟩ 0 0 ∧
    writesReg s (.mva g rd a sh) g 1 rd
      ⟨BitVec.ofInt 40 (if sat then max (-549755813888) (min v 549755813887) else v),
        setL (tagMove acc.tag) (tagL acc.tag || (sat && outI40 v))⟩ (if outI40 v && !sat then stOv else 0) 0

/-! ### The logic engine: predicates -/

/-- Predicate logic, bit and quality tests, compares (R224, R229, R251, R252, R266), and the condition codes of R267: equality, the
signed and the unsigned orders.
Each completes, with the next state it names, when its guard holds and its beats fit. -/
def Obligations.PredicateResults : Prop :=
  (∀ (s : State) (g : Guard) (pd : BitVec 3) (p1 p2 : PSrc) (rs1 rs2 : Reg) (f : BitVec 6) (cc : BitVec 4) (imm : BitVec 16),
     let a := srcVal s.eng p1
     let b := srcVal s.eng p2
     let qa := srcQ s.eng p1
     let qb := srcQ s.eng p2
     let dom := fun (d : Bool) => if (a = d ∧ qa = qGood) ∨ (b = d ∧ qb = qGood) then qGood else worseQ qa qb
     let x := readReg s.eng rs1
     let y := readReg s.eng rs2
     let qx := tagQ x.tag
     writesPred s (.pand g pd p1 p2) g 1 pd (a && b) (dom false) ∧
     writesPred s (.pnand g pd p1 p2) g 1 pd (!(a && b)) (dom false) ∧
     writesPred s (.por g pd p1 p2) g 1 pd (a || b) (dom true) ∧
     writesPred s (.pnor g pd p1 p2) g 1 pd (!(a || b)) (dom true) ∧
     writesPred s (.pxor g pd p1 p2) g 1 pd (a ^^ b) (worseQ qa qb) ∧
     writesPred s (.pmov g pd p1) g 1 pd a qa ∧
     (f < 40#6 → writesPred s (.btst g pd rs1 f) g 1 pd (x.val.getLsbD f.toNat) qx) ∧
     (f < 4#6 → writesPred s (.qtst g pd rs1 f) g 1 pd (decide (f.toNat ≤ qx.toNat)) qGood) ∧
     (cc < 10#4 →
       writesPred s (.cmp g pd cc rs1 rs2) g 1 pd (ccHolds cc.toNat x.val y.val) (worseQ qx (tagQ y.tag)) ∧
       writesPred s (.cmpi g pd cc rs1 imm) g 1 pd (ccHolds cc.toNat x.val (imm.signExtend 40)) qx) ∧
     (cc < 6#4 → writesPred s (.fcmp g pd cc rs1 rs2) g 4 pd ((fCmp cc.toNat x.val y.val).getD false)
       (if fIsNan x.val || fIsNan y.val then qBad else worseQ qx (tagQ y.tag)))) ∧
  (∀ a b : Word,
     [ccHolds 0 a b, ccHolds 1 a b, ccHolds 2 a b, ccHolds 3 a b, ccHolds 4 a b, ccHolds 5 a b, ccHolds 6 a b, ccHolds 7 a b,
       ccHolds 8 a b, ccHolds 9 a b] =
     [a == b, a != b, a.slt b, a.sle b, b.slt a, b.sle a, a.ult b, a.ule b, b.ult a, b.ule a])

/-! ### The logic engine: address registers, accumulators -/

/-- Address registers, modifiers, bases and lengths (R202, R218, R264, R265), and the dual-fetch forms (R215, R218, R221, R261): a
doubtful modifier, base or length worsens the address register of its index; both factors of a dual fetch carry the Q of their
address registers, each register is post-modified once, and one word serves twice when both name the same register.
Each completes, with the next state it names, when its guard holds and its beats fit.
Where the manual leaves a point open it states the reading of log entry 36. -/
def Obligations.AddressRegisterAndDualFetchResults : Prop :=
  (∀ (s : State) (g : Guard) (k : BitVec 3) (rs : Reg) (imm : BitVec 24),
     let v := (readReg s.eng rs).val.setWidth 24
     let q := tagQ (readReg s.eng rs).tag
     let e := s.eng
     let flags := fun (t : State) => t.eng.a = e.a ∧ t.eng.status = e.status ||| pmovrBit e 1 ∧ t.eng.errpc = e.errpc
     let others := fun (t : State) => ∀ j, j ≠ k → readX t.eng j = readX e j ∧ readM t.eng j = readM e j ∧
       readB t.eng j = readB e j ∧ readN t.eng j = readN e j
     let worse : XReg := ⟨(readX e k).val, worseQ (readX e k).q q⟩
     let post := fun (x : XReg) (m b n : BitVec 24) (t : State) => flags t ∧ others t ∧ readX t.eng k = x ∧
       readM t.eng k = m ∧ readB t.eng k = b ∧ readN t.eng k = n
     writesNone s (.movx g k rs) g 1 (post ⟨v, worseQ q (guardQ e g)⟩ (readM e k) (readB e k) (readN e k)) ∧
     writesNone s (.setx g k imm) g 1 (post ⟨imm, guardQ e g⟩ (readM e k) (readB e k) (readN e k)) ∧
     writesNone s (.movm g k rs) g 1 (post worse v (readB e k) (readN e k)) ∧
     writesNone s (.movb g k rs) g 1 (post worse (readM e k) v (readN e k)) ∧
     writesNone s (.movn g k rs) g 1 (post worse (readM e k) (readB e k) v) ∧
     writesNone s (.setm g k imm) g 1 (post (readX e k) imm (readB e k) (readN e k)) ∧
     writesNone s (.setb g k imm) g 1 (post (readX e k) (readM e k) imm (readN e k)) ∧
     writesNone s (.setn g k imm) g 1 (post (readX e k) (readM e k) (readB e k) imm)) ∧
  (∀ (s : State) (sc : Scan) (g : Guard) (a : BitVec 2) (xi xj : BitVec 3) (sub : Bool),
     s.sched.running = some sc →
     let e := s.eng
     let fetch := fun (k : BitVec 3) =>
       let t := loadWord s sc (readX e k).val.toNat
       (⟨t.val, worsenTag t.tag (readX e k).q⟩ : Tagged)
     writesNone s (if sub then .msud g a xi xj else .macd g a xi xj) g 3 (fun t =>
       t.eng.m = e.m ∧ t.eng.b = e.b ∧ t.eng.n = e.n ∧
       (let r := accStep (readAcc e a) (fetch xi) (fetch xj) sub
        readAcc t.eng a = ⟨r.val, worsenTag r.tag (guardQ e g)⟩) ∧
       (∀ b, b ≠ a → readAcc t.eng b = readAcc e b) ∧
       readX t.eng xi = readX (postModify e xi) xi ∧ readX t.eng xj = readX (postModify e xj) xj ∧
       ∀ k, k ≠ xi → k ≠ xj → readX t.eng k = readX e k))

/-- Accumulators (R229, R230, R260): a product that a good 0 decides adds nothing and does not count toward the tag; any other
product is added or subtracted exactly and clamped to 88 bits, with L on the clamp.
Each completes, with the next state it names, when its guard holds and its beats fit.
Where the manual leaves a point open it states the reading of log entry 34. -/
def Obligations.AccumulatorResults : Prop :=
  ∀ (s : State) (g : Guard) (a : BitVec 2) (rs1 rs2 : Reg),
    let e := s.eng
    let x := readReg e rs1
    let y := readReg e rs2
    let decided := (tagQ x.tag = qGood ∧ x.val = 0) ∨ (tagQ y.tag = qGood ∧ y.val = 0)
    let acc := readAcc e a
    let sum := fun (start : Accum) (sign : Int) =>
      let v := start.val.toInt + sign * (x.val.toInt * y.val.toInt)
      if decided then start
      else ⟨BitVec.ofInt 88 (max accMin (min v accMax)),
        tagWorst [start.tag, tagWorst [x.tag, y.tag] false] (decide (v < accMin ∨ accMax < v))⟩
    let post := fun (cost : Nat) (r : Accum) (t : State) => t.eng.x = e.x ∧ t.eng.m = e.m ∧ t.eng.b = e.b ∧ t.eng.n = e.n ∧
      t.eng.status = e.status ||| pmovrBit e cost ∧ t.eng.errpc = e.errpc ∧
      readAcc t.eng a = ⟨r.val, worsenTag r.tag (guardQ e g)⟩ ∧ ∀ b, b ≠ a → readAcc t.eng b = readAcc e b
    writesNone s (.mpy g a rs1 rs2) g 3 (post 3 (sum ⟨0, 0⟩ 1)) ∧
    writesNone s (.mac g a rs1 rs2) g 3 (post 3 (sum acc 1)) ∧
    writesNone s (.msu g a rs1 rs2) g 3 (post 3 (sum acc (-1))) ∧
    writesNone s (.clra g a) g 1 (post 1 ⟨0, 0⟩) ∧
    writesNone s (.mvra g a rs1) g 1 (post 1 ⟨x.val.signExtend 88, tagMove x.tag⟩)

/-! ### The logic engine: loads and stores -/

/-- The load delay (R212, R218, R221, R245, R253, R268): at the end of a load its destination still holds its old content; the
loaded value, with the Q of the address and of the guard, is pending and reaches it at the end of the next instruction.
What a load reads: the item of a mapped data address, the register of a special function address, and a bad 0 at a reserved
or unmapped address (R191, R193, R220, R221, R236).
Each completes, with the next state it names, when its guard holds and its beats fit.
Where the manual leaves a point open it states the reading of log entries 32 and 33. -/
def Obligations.LoadResults : Prop :=
  (∀ (s : State) (sc : Scan) (g : Guard) (rd : Reg) (pd : BitVec 3) (m : Mode) (addr : Abs),
     s.sched.running = some sc →
     let e := s.eng
     let ea := eaOf e m
     let pt := loadPoint s (ea.addr.setWidth 17)
     let v : Word := if tagV pt.tag then 1 else 0
     let loads := fun (i : Instr) (dest : LoadDest) (r : Tagged) => canRun s 2 = true → guardMet e g = true →
       ∃ t, exec i s = .next (preemptNow t) ∧ engineOnly s t ∧
         (∀ l, readLoc t.eng l = readLoc (commitLoad e) l) ∧
         t.eng.pend = some ⟨dest, ⟨r.val, worsenTag r.tag (guardQ e g)⟩⟩ ∧ t.eng.pc = e.pc + 1 ∧
         t.eng.beats = e.beats + 2 ∧ t.eng.a = e.a
     loads (.ldp g pd m) (.pred pd.toNat) ⟨v, worsenTag pt.tag ea.q⟩ ∧
     loads (.ldpr g rd m) (regLoc e rd) ⟨v, worsenTag pt.tag ea.q⟩ ∧
     (m.notPoint = true →
       let w := loadWord s sc ea.addr.toNat
       loads (.ld g rd m) (regLoc e rd) ⟨w.val, worsenTag w.tag ea.q⟩) ∧
     (addr.wf = true →
       let w := loadWord s sc (absAddr addr).toNat
       loads (.ldAbs g rd addr) (regLoc e rd) ⟨w.val, worsenTag w.tag qGood⟩)) ∧
  (∀ (s : State) (sc : Scan) (a : Nat) (p : Point),
     (a < 0x200000 → loadWord s sc a = getItem s (wKey a) ∧ loadErr s sc a = false) ∧
     (0x800000 ≤ a → a < 0x808000 → reservedWord a = false → loadWord s sc a = getItem s (wKey a) ∧ loadErr s sc a = false) ∧
     (0x800000 ≤ a → a < 0x808000 → reservedWord a = true → loadWord s sc a = zeroBad ∧ loadErr s sc a = false) ∧
     (0x200000 ≤ a → a < 0x800000 → loadWord s sc a = zeroBad ∧ loadErr s sc a = true) ∧
     (0x808000 ≤ a → a < 0xFFF000 → loadWord s sc a = zeroBad ∧ loadErr s sc a = true) ∧
     (∀ n w, n < 0x1000 → sfRead s sc n = some w →
       loadWord s sc (0xFFF000 + n) = ⟨w, 0⟩ ∧ loadErr s sc (0xFFF000 + n) = false) ∧
     (∀ n, n < 0x1000 → sfRead s sc n = none →
       loadWord s sc (0xFFF000 + n) = zeroBad ∧ loadErr s sc (0xFFF000 + n) = true) ∧
     (reservedPoint p.toNat = true → loadPoint s p = zeroBad) ∧
     (reservedPoint p.toNat = false → loadPoint s p = getItem s p.toNat))

/-- A store (R152, R166, R167, R195, R215, R218, R221, R253, R254, R268, R269): the item that the effective address names
takes the value, its Q and L, keeping M, S and F; every other item of the image stays, and so does every item when the address
may not be stored to; the address register is post-modified; nothing outside engine, image and the scan's counts changes.
Where a store may go (R152, R193, R195, R198, R221, R254, R269, R318): a task reaches only what its emit mask covers, a
forced item keeps its value, inputs and the protected words above DEXT are access errors, a reserved input is discarded.
Each completes, with the next state it names, when its guard holds and its beats fit.
Where the manual leaves a point open it states the reading of log entry 33. -/
def Obligations.StoreResults : Prop :=
  (∀ (s : State) (sc : Scan) (g : Guard) (rs : Reg) (p : PSrc) (m : Mode) (addr : Abs),
     s.sched.running = some sc →
     let e := s.eng
     let r := readReg e rs
     let room := fun (k : Nat) => (sc.dirty ++ sc.shadowDirty).contains (lineOf k) = true ∨
       (sc.dirty ++ sc.shadowDirty).eraseDups.length + 1 ≤ (taskDef s sc.task).d
     let tagged := fun (k : Nat) (v l : Bool) (q : Quality) (t : State) =>
       let old := (getItem s k).tag
       let new := (getItem t k).tag
       tagQ new = q ∧ tagL new = l ∧ tagM new = tagM old ∧ tagS new = tagS old ∧ tagF new = tagF old ∧ tagV new = v
     let ran := fun (i : Instr) (x : Ea) (aerr : Word) (post : State → Prop) => canRun s 2 = true → guardMet e g = true →
       ∃ t, exec i s = .next (preemptNow t) ∧ { t with eng := s.eng, image := s.image, log := s.log, sched := s.sched } = s ∧
         t.eng.pc = e.pc + 1 ∧ t.eng.beats = e.beats + 2 ∧ (∀ l, readLoc t.eng l = readLoc (commitLoad e) l) ∧
         t.eng.a = e.a ∧ t.eng.x = (postOf e x).x ∧ t.eng.status = (postOf e x).status ||| aerr ||| pmovrBit e 2 ∧ post t
     let word := fun (i : Instr) (x : Ea) =>
       let n := x.addr.toNat
       n < 0xFFF000 →
       (storeWordTo s sc.task n = .item → room (wKey n) → ran i x 0 (fun t =>
         (getItem t (wKey n)).val = r.val ∧ tagged (wKey n) false (tagL r.tag) (worseQ (tagQ r.tag) x.q) t ∧
         ∀ k, k ≠ wKey n → getItem t k = getItem s k)) ∧
       (storeWordTo s sc.task n = .aerr → ran i x stAerr (fun t => (∀ k, getItem t k = getItem s k) ∧
         t.eng.errpc = e.pc ∧ t.eng.erraddr = x.addr)) ∧
       (storeWordTo s sc.task n = .notOwned → ran i x 0 (fun t => ∀ k, k ≠ 0xF014 → getItem t k = getItem s k)) ∧
       (storeWordTo s sc.task n = .ignored → ran i x 0 (fun t => ∀ k, getItem t k = getItem s k))
     let point := fun (i : Instr) (x : Ea) (v l : Bool) (q : Quality) =>
       let k := (x.addr.setWidth 17 : Point).toNat
       (storePointTo s sc.task k = .item → room k → ran i x 0 (fun t =>
         (getItem t k).val = (getItem s k).val ∧ tagged k v l (worseQ q x.q) t ∧
         ∀ k', k' ≠ k → getItem t k' = getItem s k')) ∧
       (storePointTo s sc.task k = .aerr → ran i x stAerr (fun t => (∀ k, getItem t k = getItem s k) ∧ t.eng.errpc = e.pc)) ∧
       (storePointTo s sc.task k = .notOwned → ran i x 0 (fun t => ∀ k', k' ≠ 0xF014 → getItem t k' = getItem s k')) ∧
       (storePointTo s sc.task k = .reservedInput → ran i x stAerr (fun t =>
         (∀ k', k' ≠ 0xF014 → getItem t k' = getItem s k') ∧ t.eng.errpc = e.pc)) ∧
       (storePointTo s sc.task k = .ignored → ran i x 0 (fun t => ∀ k', getItem t k' = getItem s k'))
     (m.notPoint = true → word (.st g m rs) (eaOf e m)) ∧
     (addr.wf = true → word (.stAbs g addr rs) ⟨absAddr addr, qGood, none⟩) ∧
     point (.stp g m p) (eaOf e m) (srcVal e p) false (srcQ e p) ∧
     point (.stpr g m rs) (eaOf e m) (r.val.getLsbD 0) (tagL r.tag) (tagQ r.tag)) ∧
  (∀ (s : State) (t a p : Nat),
     (0x800000 ≤ a → a < 0x804000 → storeWordTo s t a = if reservedWord a then .notOwned else .aerr) ∧
     (0x200000 ≤ a → a < 0x800000 → storeWordTo s t a = .aerr) ∧ (0x808000 ≤ a → storeWordTo s t a = .aerr) ∧
     (a < 0x200000 → dext s ≤ a → storeWordTo s t a = .aerr) ∧
     (a < 0x200000 → a < dext s → dspBase s = none →
       storeWordTo s t a = if heldByForce s (wKey a) then .ignored else .item) ∧
     (0x804000 ≤ a → a < 0x808000 → ownedBy s t (wKey a) = false → storeWordTo s t a = .notOwned) ∧
     (0x804000 ≤ a → a < 0x808000 → heldByForce s (wKey a) = true → storeWordTo s t a ≠ .item) ∧
     (p < 0x10000 → storePointTo s t p = if reservedPoint p then .reservedInput else .aerr) ∧
     (0x10000 ≤ p → (storePointTo s t p = .item ↔
       reservedPoint p = false ∧ ownedBy s t p = true ∧ heldByForce s p = false)) ∧
     (0x10000 ≤ p → (storePointTo s t p = .notOwned ↔ reservedPoint p = true ∨ ownedBy s t p = false)))

/-! ### The logic engine: branches, calls, blocks -/

/-- Branches and jumps (R219, R245, R270): `beq` and `bne` cost 3 beats when taken and 1 when not.
Each completes, with the next state it names, when its guard holds and its beats fit. -/
def Obligations.BranchResults : Prop :=
  ∀ (s : State) (g : Guard) (pk : BitVec 3) (rs : Reg) (target : CodeAddr),
    let e := s.eng
    let goes := fun (i : Instr) (cost : Nat) (pc : CodeAddr) => canRun s cost = true → guardMet e g = true →
      ∃ t, exec i s = .next (preemptNow t) ∧ engineOnly s t ∧ (∀ l, readLoc t.eng l = readLoc (commitLoad e) l) ∧
        t.eng.pc = pc ∧ t.eng.beats = e.beats + cost ∧ t.eng.pend = none ∧ t.eng.wpos = e.wpos ∧ t.eng.depth = e.depth ∧
        t.eng.owner = e.owner ∧ t.eng.a = e.a ∧ t.eng.x = e.x ∧ t.eng.m = e.m ∧ t.eng.b = e.b ∧ t.eng.n = e.n ∧
        t.eng.status = e.status ||| pmovrBit e cost ∧ t.eng.fpstat = e.fpstat
    goes (.br g target) 3 target ∧
    goes (.jmp g rs) 3 ((readReg e rs).val.setWidth 20) ∧
    ((readPred e pk).v = true → goes (.beq g pk target) 3 target ∧ goes (.bne g pk target) 1 (e.pc + 1)) ∧
    ((readPred e pk).v = false → goes (.beq g pk target) 1 (e.pc + 1) ∧ goes (.bne g pk target) 3 target)

/-- Calls (R205-R207, R210, R270, R271): the return address goes to the link entry of the next window position, the caller's v8
to v15 are the callee's e0 to e7, and a window that the position held is spilled at 20 beats more. A call beyond WSTK is an
overrun.
Each completes, with the next state it names, when its guard holds and its beats fit.
Where the manual leaves a point open it states the reading of log entry 31. -/
def Obligations.CallResults : Prop :=
  ∀ (s : State) (sc : Scan) (g : Guard) (rs : Reg) (target : CodeAddr),
    s.sched.running = some sc →
    let e := s.eng
    let pos := (e.wpos + 1).toNat
    let held := vget e.owner pos none
    let cost := if held.isSome then 24 else 4
    ∀ i to_, (i = .call g target ∧ to_ = target) ∨ (i = .calli g rs ∧ to_ = (readReg e rs).val.setWidth 20) →
    canRun s cost = true → guardMet e g = true →
    (e.depth + 1 ≤ (taskDef s sc.task).wstk →
      ∃ t, exec i s = .next (preemptNow t) ∧ t.eng.pc = to_ ∧ t.eng.beats = e.beats + cost ∧
        t.eng.wpos = e.wpos + 1 ∧ t.eng.depth = e.depth + 1 ∧
        (vget t.eng.win pos Window.reset).link = e.pc + 1 ∧
        (∀ l, readLoc t.eng l = readLoc (commitLoad e) l) ∧
        (∀ j : BitVec 5, j.toNat < 8 →
          readReg t.eng (24 + j) = readLoc (commitLoad e) (.frame e.wpos.toNat (8 + j.toNat))) ∧
        t.image = s.image ∧ t.code = s.code ∧ t.eng.a = e.a ∧ t.eng.x = e.x ∧
        (held = none → t.tasks = s.tasks) ∧
        (∀ u d, held = some (u, d) → u < 16 →
          (taskRt t u).stack = (taskRt s u).stack ++ [vget e.win pos Window.reset])) ∧
    ((taskDef s sc.task).wstk < e.depth + 1 → exec i s = .next (overrunOp s .stack))

/-- Returns (R206, R208, R270, R271): to the link entry of the current window, whose parent is filled from the task's window
stack at 20 beats more when its position no longer holds it. At call depth 0 it is an overrun.
Each completes, with the next state it names, when its guard holds and its beats fit. -/
def Obligations.ReturnResults : Prop :=
  ∀ (s : State) (sc : Scan) (g : Guard),
    s.sched.running = some sc →
    let e := s.eng
    let below := (e.wpos.toNat + 14) % 16
    let cost := if retFills s sc.task then 24 else 4
    canRun s cost = true → guardMet e g = true →
    (0 < e.depth →
      ∃ t, exec (.ret g) s = .next (preemptNow t) ∧ t.eng.pc = (vget e.win e.wpos.toNat Window.reset).link ∧
        t.eng.beats = e.beats + cost ∧ t.eng.wpos = e.wpos - 1 ∧ t.eng.depth = e.depth - 1 ∧
        t.image = s.image ∧ t.code = s.code ∧ t.eng.a = e.a ∧ t.eng.x = e.x ∧
        (retFills s sc.task = false → t.tasks = s.tasks ∧ ∀ l, readLoc t.eng l = readLoc (commitLoad e) l) ∧
        (retFills s sc.task = true →
          (sc.task < 16 → (taskRt t sc.task).stack = (taskRt s sc.task).stack.dropLast) ∧
          ∀ w, (taskRt s sc.task).stack.getLast? = some w →
            ∀ l, readLoc t.eng l = readLoc (commitLoad { e with win := vset e.win below w }) l)) ∧
    (e.depth = 0 → exec (.ret g) s = .next (overrunOp s .retAtZero))

/-- Blocks (R185, R188, R218, R272-R276): the output, its Q and every state word that the evaluation gives are written, each
with the Q of its address; a block outside data SRAM is not evaluated and leaves a bad 0 with AERR.
Each completes, with the next state it names, when its guard holds and its beats fit.
Where the manual leaves a point open it states the reading of log entry 38. -/
def Obligations.BlockResults : Prop :=
  ∀ (s : State) (sc : Scan) (g : Guard) (pd x : BitVec 3) (p1 p2 p3 : PSrc) (k : BitVec 10),
    s.sched.running = some sc →
    let e := s.eng
    let base := (readX e x).val + k.setWidth 24
    let a := base.toNat
    let aq := (readX e x).q
    let v := srcVal e
    let q2 := worseQ (srcQ e p1) (srcQ e p2)
    let q3 := worseQ (srcQ e p1) (worseQ (srcQ e p2) (srcQ e p3))
    let block := fun (i : Instr) (n : Nat) (r : BlockRes) => canRun s 6 = true → guardMet e g = true →
      (a + n ≤ 0x200000 → (∀ w ∈ r.words, storeWordTo s sc.task (a + w.idx) = .item) →
        sc.dirty.length + sc.shadowDirty.length + r.words.length ≤ (taskDef s sc.task).d →
        ∃ t, exec i s = .next (preemptNow t) ∧ t.eng.pc = e.pc + 1 ∧ t.eng.beats = e.beats + 6 ∧
          readPred t.eng pd = (if pd = 0 then ⟨true, qGood⟩ else ⟨r.out, worseQ (worseQ r.q aq) (guardQ e g)⟩) ∧
          (∀ w ∈ r.words, (getItem t (wKey (a + w.idx))).val = w.val ∧ tagL (getItem t (wKey (a + w.idx))).tag = w.l ∧
            tagQ (getItem t (wKey (a + w.idx))).tag = worseQ w.q aq) ∧
          (∀ key, key ≠ 0xF00F → (∀ w ∈ r.words, key ≠ wKey (a + w.idx)) → getItem t key = getItem s key) ∧
          (∀ l, l ≠ .pred pd.toNat → readLoc t.eng l = readLoc (commitLoad e) l) ∧ t.eng.a = e.a ∧ t.eng.x = e.x) ∧
      (0x200000 < a + n →
        ∃ t, exec i s = .next (preemptNow t) ∧
          readPred t.eng pd = (if pd = 0 then ⟨true, qGood⟩ else ⟨false, qBad⟩) ∧
          t.eng.status = e.status ||| stAerr ||| pmovrBit e 6 ∧ t.eng.erraddr = base ∧ t.eng.errpc = e.pc ∧
          t.image = s.image)
    block (.ton g pd p1 x k) 4 (evalTimer tonRule (v p1) (srcQ e p1) s sc base) ∧
    block (.tof g pd p1 x k) 4 (evalTimer tofRule (v p1) (srcQ e p1) s sc base) ∧
    block (.tp g pd p1 x k) 4 (evalTimer tpRule (v p1) (srcQ e p1) s sc base) ∧
    block (.ctu g pd p1 p2 x k) 3 (evalCounter (v p1) false q2 (ctuRule (v p2)) s base) ∧
    block (.ctd g pd p1 p2 x k) 3 (evalCounter (v p1) false q2 (ctdRule (v p2)) s base) ∧
    block (.ctud g pd p1 p2 p3 x k) 3 (evalCounter (v p1) (v p2) q3 (ctudRule (v p3)) s base) ∧
    block (.rtrig g pd p1 x k) 1 (evalEdge (v p1) (srcQ e p1) (fun c p => c && !p) s base) ∧
    block (.ftrig g pd p1 x k) 1 (evalEdge (v p1) (srcQ e p1) (fun c p => !c && p) s base)

/-- The rules of the timers (R187), for an elapsed time and a preset that are not negative and an elapsed time not above the
preset: ET stays between 0 and PT; `ton` is on while the input has been on for PT; `tof` goes off when the input has been off for
PT; a `tp` pulse lasts until ET reaches PT whatever the input does.
The rules of the counters (R188, R276): counts saturate at the I40 limits, reset and load act by level, two edges at once
leave CV, and the outputs compare the new CV. -/
def Obligations.TimerAndCounterRules : Prop :=
  (∀ (inp prev q : Bool) (et add pt : Int), 0 ≤ et → et ≤ pt → 0 ≤ add →
     (let r := tonRule inp prev q et add pt
      0 ≤ r.1 ∧ r.1 ≤ pt ∧ (r.2.1 = true ↔ inp = true ∧ r.1 = pt) ∧
      (inp = true → prev = true → r.1 = min (et + add) pt) ∧ (inp = true → prev = false → r.1 = 0 ∧ r.2.2 = true)) ∧
     (let r := tofRule inp prev q et add pt
      0 ≤ r.1 ∧ r.1 ≤ pt ∧ (inp = true → r.1 = 0 ∧ r.2.1 = true) ∧ (inp = false → r.2.1 = true → r.1 < pt) ∧
      (inp = false → prev = false → q = false → r.2.1 = false ∧ r.1 = et)) ∧
     (let r := tpRule inp prev q et add pt
      0 ≤ r.1 ∧ r.1 ≤ pt ∧ (q = true → (r.2.1 = true ↔ et + add < pt)) ∧
      (q = false → (r.2.1 = true ↔ inp = true ∧ prev = false)))) ∧
  (∀ (reset up down : Bool) (pv cv : Int), i40Min ≤ cv → cv ≤ i40Max → i40Min ≤ pv → pv ≤ i40Max →
     let sat := fun (v : Int) => max i40Min (min v i40Max)
     (let r := ctuRule reset up down pv cv
      r.1.1 = (if reset then 0 else if up then sat (cv + 1) else cv) ∧ (r.2.1 = true ↔ pv ≤ r.1.1) ∧
      (r.1.2 = true ↔ reset = false ∧ up = true ∧ cv = i40Max)) ∧
     (let r := ctdRule reset up down pv cv
      r.1.1 = (if reset then pv else if up then sat (cv - 1) else cv) ∧ (r.2.1 = true ↔ r.1.1 ≤ 0) ∧
      (r.1.2 = true ↔ reset = false ∧ up = true ∧ cv = i40Min)) ∧
     (let r := ctudRule reset up down pv cv
      r.1.1 = (if reset then 0 else if up ∧ down then cv else if up then sat (cv + 1) else if down then sat (cv - 1) else cv) ∧
      (r.2.1 = true ↔ pv ≤ r.1.1) ∧ (r.2.2 = true ↔ r.1.1 ≤ 0)))

/-- Circular addressing (R215, R217): an address inside a buffer of length n stays inside it under any modifier, and moves by the
modifier modulo n. -/
def Obligations.CircularStaysInBuffer : Prop :=
  ∀ (e : Engine) (k : BitVec 3), amodeOf e k = 1 →
    let b := (readB e k).toNat
    let n := (readN e k).toNat
    0 < n → b + n ≤ 0x1000000 →
    let a := (readX e k).val.toNat
    let a' := (readX (postModify e k) k).val.toNat
    b ≤ a' ∧ a' < b + n ∧ ((a' : Int) - b) % n = ((a : Int) - b + (readM e k).toInt) % n ∧
      (readX (postModify e k) k).q = (readX e k).q

/-! ### The logic engine: system, guards, overruns, preemption -/

/-- The system instructions (R232, R242, R247-R250, R237): no operation, end of scan, after which the engine holds the context of a
task that this one preempted, watchdog check-in, chart change requests, an
illegal word, and the stores to SF.PRED, SF.CTRL and the write-1-to-clear registers.
Stores to special function registers (R9, R233, R236, R237, R269): SF.PRED takes p1 to p7 with their Q, SF.CTRL its three
bits, W1C registers clear the bits written as 1, and a register that cannot be written is an access error.
Where the manual leaves a point open it states the reading of log entries 33 and 35. -/
def Obligations.SystemResults : Prop :=
  (∀ (s : State) (sc : Scan) (g : Guard) (rs : Reg) (c : BitVec 3) (w : Word),
     s.sched.running = some sc → sc.phase = .execute →
     let e := s.eng
     let t := readReg e rs
     writesNone s (.nop g) g 1 (fun t => t.eng.status = e.status ||| pmovrBit e 1 ∧ t.eng.a = e.a ∧ t.eng.x = e.x) ∧
     (canRun s 3 = true → guardMet e g = true → ∃ t, exec (.eos g) s = .next t ∧
       (∃ sc', t.sched.running = some sc' ∧ sc'.phase = .seal ∧ sc'.task = sc.task ∧ sc'.promise = sc.promise) ∧
       (sc.task < 16 → (taskRt t sc.task).beats = e.beats + 3) ∧ t.image = s.image ∧
       t.params = { s.params with sealWait := [], sealing := s.params.sealing ++ s.params.sealWait } ∧
       (s.sched.suspended = [] → t.eng.beats = e.beats + 3 ∧ ∀ l, readLoc t.eng l = readLoc (commitLoad e) l) ∧
       ∀ below cx rest, s.sched.suspended = (below, cx) :: rest → t.eng.pc = cx.eng.pc ∧ t.eng.beats = cx.eng.beats ∧
         t.eng.wpos = cx.eng.wpos ∧ t.eng.depth = cx.eng.depth ∧ t.eng.a = cx.eng.a ∧ t.eng.x = cx.eng.x) ∧
     (canRun s 2 = true → guardMet e g = true → ∃ t, exec (.wdci g) s = .next (preemptNow t) ∧
       t.eng.pc = e.pc + 1 ∧ t.eng.beats = e.beats + 2 ∧ t.wd = (wdCheckIn s sc.task).wd ∧ t.image = s.image) ∧
     (canRun s 2 = true → guardMet e g = true → s.charts.req = none → c.toNat ≠ s.charts.active →
       ∃ t, exec (.chg g c) s = .next (preemptNow t) ∧ t.charts.reqField = c.toNat ∧
         (∃ r, t.charts.req = some r ∧ r.chart = c.toNat ∧ r.kind = .chg) ∧ t.charts.active = s.charts.active ∧
         t.eng.pc = e.pc + 1 ∧ t.image = s.image) ∧
     (canRun s 2 = true → guardMet e g = true → s.charts.req = none → c.toNat = s.charts.active →
       ∃ t, exec (.chg g c) s = .next (preemptNow t) ∧ t.charts = s.charts ∧ t.eng.pc = e.pc + 1 ∧ t.image = s.image) ∧
     (canRun s 2 = true → guardMet e g = true → s.charts.req = none → t.val.toNat ≤ 7 → tagQ t.tag = qGood →
       t.val.toNat ≠ s.charts.active →
       ∃ u, exec (.chgr g rs) s = .next (preemptNow u) ∧ u.charts.reqField = t.val.toNat ∧
         (∃ r, u.charts.req = some r ∧ r.chart = t.val.toNat ∧ r.kind = .chg) ∧ u.eng.pc = e.pc + 1 ∧ u.image = s.image) ∧
     (canRun s 2 = true → guardMet e g = true → (7 < t.val.toNat ∨ tagQ t.tag ≠ qGood) →
       ∃ u, exec (.chgr g rs) s = .next (preemptNow u) ∧ u.charts = s.charts ∧ u.eng.pc = e.pc + 1 ∧ u.image = s.image) ∧
     exec (.illegalInstruction w) s = .next (overrunOp s .illegal)) ∧
  (∀ (s : State) (sc : Scan) (w : Word),
     s.sched.running = some sc → sc.phase = .execute →
     let e := s.eng
     (∃ t, exec (.sfPredStore w) s = .next t ∧ { t with eng := s.eng } = s ∧
       (∀ k : BitVec 3, k ≠ 0 → readPred t.eng k = ⟨w.getLsbD k.toNat, w.extractLsb' (2 * k.toNat + 8) 2⟩) ∧
       (∀ l : LoadDest, (∀ i, l ≠ .pred i) → readLoc t.eng l = readLoc e l)) ∧
     (exec (.sfCtrlStore w) s = .next { s with eng := { e with
       ctrl := w &&& 7, pmcount := if w.getLsbD 0 && !e.ctrl.getLsbD 0 then 0 else e.pmcount } }) ∧
     (exec (.sfRegisterWrite 0x11 w) s = .next { s with eng := { e with status := e.status &&& ~~~w } }) ∧
     (exec (.sfRegisterWrite 0x12 w) s = .next { s with power := { s.power with event := s.power.event &&& ~~~w } }) ∧
     (exec (.sfRegisterWrite 0x19 w) s = .next { s with eng := { e with fpstat := e.fpstat &&& ~~~w } }) ∧
     (∃ t, exec (.sfRegisterWrite 0x13 w) s = .next t ∧ { t with eng := s.eng } = s ∧ t.eng.ctrl = e.ctrl ∧
       ∀ k : BitVec 3, amodeOf t.eng k =
         (let f := w.extractLsb' (2 * k.toNat) 2; if f = 3 then amodeOf e k else f.toNat)) ∧
     (∀ n : BitVec 12, n ∉ [0x10#12, 0x11#12, 0x12#12, 0x13#12, 0x18#12, 0x19#12, 0x21#12] →
       exec (.sfRegisterWrite n w) s = .next { s with eng := { e with
         status := e.status ||| stAerr, errpc := e.pc, erraddr := 0xFFF#12 ++ n } }))

/-- An instruction whose predicate condition is not met (R201, R202, R246): one beat, the next word in code order, a pending load
completes, and the destination named to the left of the arrow is worsened by the Q of the predicate and nothing else.
Where the manual leaves a point open it states the reading of log entry 36. -/
def Obligations.UnmetGuardOnlyWorsens : Prop :=
  ∀ (s : State) (g : Guard) (rd rs1 rs2 : Reg) (pd k : BitVec 3) (p1 p2 : PSrc) (m : Mode) (a : BitVec 2) (t20 : CodeAddr)
    (k10 : BitVec 10),
    canRun s 1 = true → guardMet s.eng g = false →
    let e := s.eng
    let q := guardQ e g
    let base := commitLoad e
    let ends := fun (i : Instr) (post : Engine → Prop) => ∃ t, exec i s = .next (preemptNow t) ∧ engineOnly s t ∧
      t.eng.pc = e.pc + 1 ∧ t.eng.beats = e.beats + 1 ∧ t.eng.pend = none ∧ t.eng.wpos = e.wpos ∧ t.eng.depth = e.depth ∧
      t.eng.m = e.m ∧ t.eng.b = e.b ∧ t.eng.n = e.n ∧ post t.eng
    let reg := fun (e' : Engine) => (∀ l, l ≠ regLoc e rd → readLoc e' l = readLoc base l) ∧
      (regLoc e rd ≠ .nowhere → readReg e' rd = ⟨(readReg base rd).val, worsenTag (readReg base rd).tag q⟩) ∧
      e'.a = e.a ∧ e'.x = e.x
    let pred := fun (e' : Engine) => (∀ l, l ≠ .pred pd.toNat → readLoc e' l = readLoc base l) ∧
      (pd ≠ 0 → readPred e' pd = ⟨(readPred base pd).v, worseQ (readPred base pd).q q⟩) ∧ e'.a = e.a ∧ e'.x = e.x
    let none_ := fun (e' : Engine) => (∀ l, readLoc e' l = readLoc base l) ∧ e'.a = e.a ∧ e'.x = e.x
    ends (.add g rd rs1 rs2) reg ∧ ends (.fadd g rd rs1 rs2) reg ∧ ends (.mov g rd rs1) reg ∧ ends (.ldpr g rd m) reg ∧
    ends (.pand g pd p1 p2) pred ∧ ends (.ldp g pd m) pred ∧ ends (.ton g pd p1 k k10) pred ∧
    ends (.clra g a) (fun e' => readAcc e' a = ⟨(readAcc e a).val, worsenTag (readAcc e a).tag q⟩ ∧ e'.x = e.x) ∧
    ends (.movx g k rs1) (fun e' => readX e' k = ⟨(readX e k).val, worseQ (readX e k).q q⟩ ∧ e'.a = e.a) ∧
    ends (.stp g m p1) none_ ∧ ends (.br g t20) none_ ∧ ends (.call g t20) none_ ∧ ends (.ret g) none_ ∧
    ends (.nop g) none_ ∧ ends (.chgr g rs1) none_ ∧ ends (.eos g) none_

/-- An instruction whose cost would take the beats above P is not performed: the scan overruns at it (R47, R175, R242).
What an overrun does (R175-R177): a Guarded task takes the watchdog-stop path into fault halt, with no scan left in progress;
a Tolerant task gives its scan up, its next scan is skipped and counted, and nothing outside the lines that the scan dirtied
changes.
Where the manual leaves a point open it states the reading of log entry 38. -/
def Obligations.OverrunRules : Prop :=
  (∀ (s : State) (sc : Scan) (g : Guard) (rd rs1 rs2 : Reg) (pd : BitVec 3) (p1 p2 : PSrc) (m : Mode) (a : BitVec 2)
     (target : CodeAddr), s.sched.running = some sc → sc.phase = .execute → guardMet s.eng g = true →
     ∀ i cost, (i, cost) ∈ [(Instr.add g rd rs1 rs2, 1), (.mul g rd rs1 rs2, 3), (.div g rd rs1 rs2, 24), (.fadd g rd rs1 rs2, 4),
       (.fsqrt g rd rs1, 20), (.mac g a rs1 rs2, 3), (.pand g pd p1 p2, 1), (.ldp g pd m, 2), (.stp g m p1, 2), (.br g target, 3),
       (.eos g, 3), (.nop g, 1), (.ton g pd p1 0 0, 6)] →
     (taskDef s sc.task).p < s.eng.beats + cost → exec i s = .next (overrunOp s .postage)) ∧
  (∀ (s : State) (sc : Scan) (cause : OverrunCause),
     s.sched.running = some sc → sc.phase = .execute →
     ((taskDef s sc.task).tolerant = false → s.power.mode ≠ .halt →
       let t := overrunOp s cause
       t.power.mode = .halt ∧ t.power.lastFault = 5 ∧ t.sched.running = none ∧ t.sched.suspended = [] ∧
         t.field.linkAlive = false) ∧
     ((taskDef s sc.task).tolerant = true → sc.task < 16 → s.sched.suspended = [] → s.sched.waiting = [] →
       s.sched.stopping = none → s.sched.handoverReq = none → s.power.failing = false → s.power.stopping = false →
       let t := overrunOp s cause
       t.sched.running = none ∧ (taskRt t sc.task).skipNext = true ∧
         (taskRt t sc.task).skipCount = min ((taskRt s sc.task).skipCount + 1) 0xFFFFFFFFFF ∧
         t.power.mode = s.power.mode ∧ t.ring = s.ring ∧
         ∀ k, (∀ l ∈ sc.dirty, k ∉ lineKeys l) → getItem t k = getItem s k))

/-- Preemption (R158, R231-R233): with no release waiting, or while the engine is masked, or by a task that does not outrank it,
the scan goes on; else its whole engine state is put aside and the released task's scan begins with a cleared engine.
Where the manual leaves a point open it states the reading of log entries 31 and 39. -/
def Obligations.PreemptionRules : Prop :=
  (∀ s : State, s.sched.waiting = [] ∨ s.eng.ctrl.getLsbD 0 = true ∨ s.sched.running = none → preemptNow s = s) ∧
  ∀ (s : State) (sc : Scan) (t rel pr : Nat),
    s.sched.running = some sc → sc.phase = .execute → s.sched.waiting = [(t, rel, pr)] → s.eng.ctrl.getLsbD 0 = false →
    (taskDef s t).fixed = true → scansAllowed s = true →
    (outranks s t sc.task = false → preemptNow s = s) ∧
    (outranks s t sc.task = true → preemptNow s = startScan (dropWaiting (modSched s (fun x => { x with
      suspended := (sc, saveContext s) :: x.suspended, running := none })) t) t rel pr (s.eng.wpos + 1))

/-- Decode of encode: the word of every well-formed instruction of the logic engine decodes to it, with every operand at every
value its field admits (R200, R238-R242). -/
def Obligations.DecodeOfEncode : Prop :=
  ∀ (i : Instr) (w : Word), i.wf = true → encodeWord i = some w → decodeWord w = some i

/-- Whatever decodes is a well-formed instruction: no undefined mode, region, condition, bit index or Q code gets through
(R242). -/
def Obligations.DecodedIsWellFormed : Prop :=
  ∀ (w : Word) (i : Instr), decodeWord w = some i → i.wf = true ∧ (encodeWord i).isSome = true

/-! ### Host commands: reading, sessions, receipts -/

/-- The commands that only read (R139): each answers with its block, made from the state at its work, and changes nothing
else.
Where the manual leaves a point open it states the reading of log entry 53. -/
def Obligations.ReadingCommands : Prop :=
  ∀ (s : State) (now : Tb) (c : CmdRef) (pids : List Nat) (packet nonce : List Byte) (k first limit : Nat) (l : Line),
    let reads := fun (i : Instr) (payload : State → List Byte) =>
      works s now c i (fun _ b t => onlyAnswers b t c (payload b))
    let last := fun (i : Instr) (payload : State → List Byte) =>
      works s now c i (fun x b t => lastStage x = true → onlyAnswers b t c (payload b))
    reads (.statusGet now c) statusBytes ∧ reads (.paramRead now c pids) (fun b => paramReadBytes b pids) ∧
    reads (.progTasks now c)
      (fun b => ((List.range 16).filter (fun t => (taskDef b t).present)).flatMap (taskBytes b)) ∧
    reads (.chartInfo now c k) (fun b => if k = 255 then (List.range 8).flatMap (chartBytes b) else chartBytes b k) ∧
    reads (.sealStatus now c) (fun b => le 8 b.ring.lastSealSeq ++ le 8 b.ring.lastSealTb ++ le 4 (ringFill b.ring)
      ++ le 4 b.ring.passes ++ le 4 b.ring.resumes ++ le 4 0) ∧
    reads (.twinStatus now c) twinStatusBytes ∧ reads (.dioStatus now c) dioStatusBytes ∧
    works s now c (.anaStatus now c) (fun _ b t =>
      onlyAnswers { b with freeIdx := b.freeIdx + 8 } t c ((List.range 8).flatMap (anaBlock b))) ∧
    reads (.busStatus now c l) (fun b => busStatusBytes b l) ∧ reads (.stationList now c l) (fun b => stationBytes b l) ∧
    reads (.timeGet now c) timeGetBytes ∧ reads (.logRead now c first limit) (fun b => logReadBytes b first limit) ∧
    reads (.wdStatus now c) wdStatusBytes ∧ reads (.secCert now c k) (fun b => certOf b k) ∧
    reads (.admitQuery now c packet) (fun b => queryBytes b c.port packet) ∧
    last (.testPace now c) (fun b => le 2 b.power.pace ++ le 2 b.power.paceModel ++ le 2 b.power.paceSlope
      ++ leInt 2 b.power.junction) ∧
    last (.forceList now c first) (fun b => forceListBytes b first) ∧
    works s now c (.dspCheck now c) (fun _ b t => closingEntry b 7 = none → onlyAnswers b t c (dspCheckBytes b)) ∧
    works s now c (.secAttest now c nonce) (fun x b t => lastStage x = true → closingEntry b 8 = none →
      onlyAnswers b t c (quoteBytes b nonce ++ deviceBlock (sha512 (quoteBytes b nonce))))

/-- The payloads of fixed layout (R139, R363, R407, R434, R477, R518, R551, R610): their lengths, and fields at their
offsets.
Where the manual leaves a point open it states the reading of log entries 56 and 91. -/
def Obligations.StatusBlocks : Prop :=
  ∀ (s : State) (l : Line) (k : Nat),
    (let p := statusBytes s
     p.length = 64 ∧ field p 15 1 = deviceStateCode s ∧ field p 36 8 = s.tb % 2 ^ 64 ∧
     field p 52 3 = s.power.powerCycles % 2 ^ 24 ∧ field p 56 4 = faultFlags s) ∧
    (timeGetBytes s).length = 28 ∧ field (timeGetBytes s) 0 8 = s.clock.sec % 2 ^ 64 ∧
    field (timeGetBytes s) 8 2 = s.clock.sub % 2 ^ 16 ∧ field (timeGetBytes s) 20 8 = s.tb % 2 ^ 64 ∧
    (let p := wdStatusBytes s
     p.length = 32 ∧ field p 4 2 = s.wd.period % 2 ^ 16 ∧ field p 8 4 = s.wd.lfsr.toNat ∧
     field p 12 4 = s.wd.mask.toNat ∧ field p 16 4 = s.wd.observed.toNat ∧ field p 24 4 = s.store.wdsalt.toNat ∧
     field p 28 4 = s.wd.count % 2 ^ 32) ∧
    (twinStatusBytes s).length = 40 ∧ field (twinStatusBytes s) 32 4 = s.twin.term % 2 ^ 32 ∧
    (dioStatusBytes s).length = 74 ∧ field (dioStatusBytes s) 72 2 = s.field.vfld % 2 ^ 16 ∧
    ((List.range 8).flatMap (anaBlock s)).length = 256 ∧ (busStatusBytes s l).length = 32 ∧
    (stationBytes s l).length = 252 ∧ (taskBytes s k).length = 32 ∧
    ((∀ i, (chartSlot s k).image = some i → i.hash.length ≤ 64) → (chartBytes s k).length = 80)

/-! ### Sessions, receipts, admission -/

/-- Sessions (R116, R120-R123, R127, R134): SESSION.OPEN without a session; SESSION.CLOSE and SESSION.CLAIM remove the commands
that have not started and answer with their numbers; SESSION.NONCE gives its port a fresh nonce; the idle timeout and the
segment timeout.
Where the manual leaves a point open it states the reading of log entries 19 and 41. -/
def Obligations.SessionCommands : Prop :=
  ∀ (s : State) (now : Tb) (c : CmdRef) (host : BitVec 32),
    let n := s.at now
    works s now c (.sessionOpen now c host) (fun _ b t =>
      (b.host.session = none → onlyAnswers b t c []) ∧
      (b.host.session ≠ none → refuses t c stState 0x01 ∧ sameButResults b t)) ∧
    works s now c (.sessionNonce now c) (fun _ b t =>
      let v := le 32 (Config.freeValue b.freeIdx).toNat
      answers t c v ∧ (portSt t c.port).nonce = some v ∧ t.freeIdx = b.freeIdx + 1 ∧
      (∀ p, p ≠ c.port → portSt t p = portSt b p) ∧ { t with host := b.host, freeIdx := b.freeIdx } = b) ∧
    works s now c (.sessionClose now c) (fun _ b t =>
      b.host.session ≠ none → b.host.closing = none →
        answers t c (seqBytes (removeUnstarted b c).2) ∧ t.host.closing = some c ∧ hostOnly b t) ∧
    works s now c (.sessionClaim now c host) (fun _ b t =>
      answers t c ([BitVec.ofNat 8 (portCode c.port), BitVec.ofNat 8 (frankSlotOf b c)] ++ seqBytes (removeUnstarted b c).2) ∧
      hostOnly b t) ∧
    (∀ z, s.host.session = some z → par s 0x0111 ≠ 0 → sessionCmds s = [] →
      z.lastPacket + msToTb (1000 * par s 0x0111) ≤ n.tb →
      exec (.sessionIdleTimeout now) s = .next { n with
        host := { n.host with session := none, transfer := none, dspOwner := false, closing := none } }) ∧
    (∀ z, s.host.session = some z → n.tb < z.lastPacket + msToTb (1000 * par s 0x0111) →
      exec (.sessionIdleTimeout now) s = .next n) ∧
    (∀ x, s.host.transfer = some x → exec (.segmentTransferTimeout now) s = .next
      (if n.tb < x.lastAt + msToTb 60000 then n else { n with host := { n.host with transfer := none } }))

/-- The end of a stage (R71, R72, R83, R84, R112, R116): with an outcome in the last stage the final receipt is placed, for DONE
with the slack to the promise; SESSION.OPEN begins its session with a non-zero token; a stage with stages booked after it gives
ACCEPTED for the next; work that has outlived its promise is a promise breach, and goes into fault halt.
Where the manual leaves a point open it states the reading of log entries 7, 8 and 43. -/
def Obligations.CommandStageCompletes : Prop :=
  ∀ (s : State) (now : Tb) (c : CmdRef) (x : Cmd),
    let b := s.at now
    findCmd b c = some x → x.phase ≠ .held → x.book ≠ none →
    (x.promise < b.tb → halts s (exec (.commandStageComplete now c) s) 4) ∧
    (b.tb ≤ x.promise → (x.franked = true → x.frankDone = true) →
    (∀ r, findResult b c = some r → r.status ≠ stDone → ∃ t, exec (.commandStageComplete now c) s = .next t ∧
      endsAs b t c x r.status r.reason r.detail.toNat r.payload ∧ hostOnly b t) ∧
    (∀ r, findResult b c = some r → r.status = stDone → r.reason = 0 → r.time = none → lastStage x = true →
      x.opcode ∉ [0x0001#16, 0x0002#16, 0x0004#16, 0x0303#16, 0x1003#16, 0x1004#16, 0x1005#16] →
      ∃ t, exec (.commandStageComplete now c) s = .next t ∧ endsDone b t c r.payload ∧ hostOnly b t) ∧
    (∀ r, findResult b c = some r → r.status = stDone → lastStage x = true → x.opcode = 0x0001#16 → b.host.session = none →
      ∃ t k, exec (.commandStageComplete now c) s = .next t ∧ k ≠ 0#16 ∧
        t.host.session = some { port := c.port, token := k, lastPacket := b.tb, pending := [] } ∧
        placed b t c.port (mkReceipt 0 1 stDone 0 c.seq.toNat k.toNat b.tb (min (x.promise - b.tb) 0xFFFFFFFF)
          (le 2 k.toNat ++ [BitVec.ofNat 8 (portCode c.port),
            BitVec.ofNat 8 (boolBit b.host.prevEnded + 2 * boolBit b.host.workDiscarded), BitVec.ofNat 8 b.power.resetKind]
            ++ le 3 b.power.powerCycles ++ le 8 b.tb)) ∧
        hostOnly b { t with freeIdx := b.freeIdx }) ∧
    (∀ k later, 1 < x.stages.length → (∀ r, findResult b c = some r → r.status = stDone) →
      (findResult b c = none → x.phase ≠ .waiting ∧ x.worked = true) → s.power.failing = false → x.later = k :: later →
      ∃ t y, exec (.commandStageComplete now c) s = .next t ∧ findCmd t c = some y ∧ y.stages = x.stages.drop 1 ∧
        y.phase = .started ∧ y.promise = k.bound ∧ y.later = later ∧
        placed b t c.port (mkReceipt (moreFlag (x.stages.drop 1)) x.opcode.toNat stAccepted k.bandCode c.seq.toNat
          x.token.toNat k.bound k.sp []) ∧ hostOnly b t))

/-- The arrival of a packet (R60-R62, R90, R95-R97, R105, R108-R114): nothing happens before it is whole, nor without transmit
bytes for its receipts; a packet that fails the check of its first byte, version, length or CRC is refused with its reason and
leaves the buffer; one that passes every check is accepted with its promise.
Where the manual leaves a point open it states the reading of log entries 12, 40, 45, 47, 48, 49 and 107. -/
def Obligations.PacketArrivals : Prop :=
  ∀ (s : State) (now : Tb) (p : Port),
    let b := s.at now
    let x := portSt b p
    let n := frameLen x.rx
    let bs := x.rx.take n
    let k := packetOf bs 4
    let crc := (crc32c (bs.take (bs.length - 4))).toNat
    let refused := fun (t : State) (reason : BitVec 8) (detail : Nat) =>
      exec (.packetArrival now p) s = .next t ∧ (portSt t p).rx = x.rx.drop n ∧ { t with host := b.host } = b ∧
      t.host.cmds = b.host.cmds ∧
      placed b t p (mkReceipt 0 (field bs 4 2) stFormat reason (field bs 8 2) (field bs 14 2) b.tb detail [])
    let whole := field bs 0 1 = 0x5E ∧ k.version = 1 ∧ 20 ≤ k.length ∧ k.length = bs.length
    (portOpen b = false ∨ s.power.failing = true ∨ s.power.stopping = true ∨ frontWhole x.rx = false ∨ txFree b p < 56 →
      exec (.packetArrival now p) s = .next b) ∧
    (portOpen b = true → s.power.failing = false → s.power.stopping = false → frontWhole x.rx = true → 56 ≤ txFree b p →
      (field bs 0 1 ≠ 0x5E → ∃ t, refused t 0x01 0) ∧
      (field bs 0 1 = 0x5E → k.version ≠ 1 → ∃ t, refused t 0x02 k.version) ∧
      (field bs 0 1 = 0x5E → k.version = 1 → k.length < 20 ∨ k.length ≠ bs.length → ∃ t, refused t 0x03 k.length) ∧
      (whole → field bs (bs.length - 4) 4 ≠ crc → ∃ t, refused t 0x04 crc) ∧
      (whole → field bs (bs.length - 4) 4 = crc →
        (∀ r d, parsePacket b.tb p k = .error (r, d) → r < 256 → d < 2 ^ 32 → ∃ t, refused t (BitVec.ofNat 8 r) d) ∧
        (∀ i bk later,
          let b' := noteSession (setPort b p { x with rx := x.rx.drop n }) p
          parsePacket b.tb p k = .ok i → checksOf b' p k i = none →
          judge b' (packetAsk b' p k bs.length i) = .accept (bk :: later) → findCmd b ⟨p, k.seq⟩ = none →
          ∃ t y, exec (.packetArrival now p) s = .next t ∧ (portSt t p).rx = x.rx.drop n ∧
            findCmd t ⟨p, k.seq⟩ = some y ∧ y.phase = .accepted ∧ y.opcode = BitVec.ofNat 16 k.opcode ∧
            y.token = k.token ∧ y.promise = bk.bound ∧
            placed b t p (mkReceipt (moreFlag y.stages) y.opcode.toNat stAccepted bk.bandCode k.seq.toNat k.token.toNat
              bk.bound bk.sp []))))

/-- Admission (R75, R76, R78, R79): ADMIT.CANCEL tells an unknown and a started command and removes one that has not started;
ADMIT.SHARES takes effect at the window after the latest promise; a command still held 2 s after its arrival is refused; a
window that finds nothing held takes the shares that are due.
Where the manual leaves a point open it states the reading of log entries 11 and 13. -/
def Obligations.AdmissionCommands : Prop :=
  ∀ (s : State) (now : Tb) (c : CmdRef) (q : BitVec 16) (v ps ss d : Nat),
    let n := s.at now
    works s now c (.admitCancel now c [q]) (fun _ b t =>
      (findCmd b ⟨c.port, q⟩ = none → onlyAnswers b t c (le 2 q.toNat ++ [2, 0])) ∧
      ∀ y, findCmd b ⟨c.port, q⟩ = some y →
        (y.begun = true → onlyAnswers b t c (le 2 q.toNat ++ [1, 0])) ∧
        (y.begun = false → answers t c (le 2 q.toNat ++ [0, 0]) ∧
          t.host.cmds = b.host.cmds.eraseP (fun z => decide (z.ref = ⟨c.port, q⟩)) ∧ hostOnly b t)) ∧
    works s now c (.admitShares now c v ps ss d) (fun _ b t => energyFor b (eGroup 1) = true →
      answers t c [] ∧
      t.book = { b.book with
        sharesNext := putShares (max b.book.latest b.tb / 200000 + 1, (v, ps, ss, d)) b.book.sharesNext }) ∧
    (∀ x, findCmd n c = some x → x.phase = .held → x.arrival + horizonTb ≤ n.tb →
      ∃ t, exec (.heldCommandAgesOut now c) s = .next t ∧ endsAs n t c x stHorizon 0x09
        (((heldIn n x.cls).takeWhile (fun y => y.ref ≠ c)).length + 1) [] ∧ hostOnly n t) ∧
    ((∀ x ∈ s.host.cmds, x.phase ≠ .held ∧ (x.phase = .started → x.book ≠ none)) →
      ∃ t, exec (.shareWindowStart now) s = .next t ∧ t.host = n.host ∧ t.image = s.image ∧ t.ring = s.ring ∧
      (∀ e ∈ t.book.sp, n.tb / 200000 ≤ e.1) ∧
      (∀ w sh, s.book.sharesNext = [(w, sh)] →
        (w ≤ n.tb / 200000 → t.book.shares = sh ∧ t.book.sharesNext = []) ∧
        (n.tb / 200000 < w → t.book.shares = s.book.shares ∧ t.book.sharesNext = [(w, sh)])))

/-! ### Ports -/

/-- The SPI transactions (R92-R101): STATUS shows transmit length, free space, RX_ERR and the session; STATUS.CLR clears RX_ERR;
PUT and PUT.Q append what a packet may begin with; TAKE and TAKE.Q remove the bytes they return, zeros once nothing is left;
REPEAT and REPEAT.Q return the last whole receipt again; RESET drops the part of a packet; a byte that is no command's sets
RX_ERR. -/
def Obligations.PortTransactions : Prop :=
  ∀ (s : State) (now : Tb) (mask : BitVec 32) (bytes : List Byte) (n : Nat) (u : Byte),
    let b := s.at now
    let x := s.host.spi
    let out := fun (bs : List Byte) (y : PortSt) => Host.Outcome.next (φ := Fault) (ρ := Refusal)
      { b with host := { b.host with out := bs, spi := y } }
    (portOpen s = false → exec (.status now) s = out [0, 0, 0, 0] x) ∧
    (portOpen s = true → ∃ w, exec (.status now) s = out (le 4 w) x ∧ w / 65536 = min (txNext x) 0xFFFF ∧
      (x.rx.length ≤ 8192 → w % 65536 / 4 = 8192 - x.rx.length) ∧ (w / 2 % 2 = 1 ↔ x.rxErr = true) ∧
      (w % 2 = 1 ↔ ∃ z, s.host.session = some z ∧ z.port = .spi)) ∧
    exec (.statusClr now mask) s = out [] (if mask.getLsbD 1 then { x with rxErr := false } else x) ∧
    (∀ i, i = .put now bytes ∨ i = .putQ now bytes →
      (portOpen s = true → x.rx = [] → bytes.head? = some 0x5E → bytes.length < 16 →
        exec i s = out [] { x with rx := bytes, lastByteAt := b.tb }) ∧
      (portOpen s = true → x.rx = [] → bytes.head? ≠ some 0x5E → bytes ≠ [] →
        exec i s = out [] { x with lastByteAt := b.tb, rxErr := true })) ∧
    (∀ i, i = .take now n ∨ i = .takeQ now n →
      (x.tx = [] → exec i s = out (List.replicate n 0) x) ∧
      (∀ r rest, x.tx = r :: rest → n < r.length - x.taken →
        exec i s = out ((r.drop x.taken).take n) { x with taken := x.taken + n }) ∧
      (∀ r rest, x.tx = r :: rest → x.taken < r.length → n = r.length - x.taken →
        exec i s = out (r.drop x.taken) { x with tx := rest, taken := 0, lastTaken := r })) ∧
    (∀ i, i = .repeatLast now n ∨ i = .repeatLastQ now n → 
      exec i s = out (x.lastTaken.take n ++ List.replicate (n - x.lastTaken.length) 0) x) ∧
    (frontWhole x.rx = false → exec (.portReset now) s = out [] { x with rx := [] }) ∧
    (u ∉ [0x0F#8, 0x1F#8, 0x20#8, 0x2F#8, 0x40#8, 0x4F#8, 0x44#8, 0x45#8, 0xF0#8] →
      exec (.unknownCommandByte now u) s = out [] { x with rxErr := true }) ∧
    (u ∈ [0x0F#8, 0x1F#8, 0x20#8, 0x2F#8, 0x40#8, 0x4F#8, 0x44#8, 0x45#8, 0xF0#8] →
      exec (.unknownCommandByte now u) s = .next s)

/-- The maintenance port and partly received packets (R97, R98, R103, R104, R145): breaks, the byte that cannot begin a packet,
the receipt that leaves, and the 10 ms limit between the bytes of a packet. -/
def Obligations.MaintPort : Prop :=
  ∀ (s : State) (now : Tb) (us : Nat) (u : Byte) (p : Port),
    let b := s.at now
    let x := s.host.maint
    let y := portSt b p
    let host := fun (f : HostSt → HostSt) => Host.Outcome.next (φ := Fault) (ρ := Refusal) { b with host := f b.host }
    (us * baudRate s.host.baud < 20000000 → us < 100000 → exec (.maintBreak now us) s = .next b) ∧
    (20000000 ≤ us * baudRate s.host.baud → us < 100000 → frontWhole x.rx = false →
      exec (.maintBreak now us) s = host (fun h => { h with maint := { x with rx := [], rxErr := true, discarding := false } })) ∧
    (100000 ≤ us → ∃ t, exec (.maintBreak now us) s = .next t ∧ t.host.baud = 0 ∧ t.host.spi = s.host.spi) ∧
    (x.discarding = true → exec (.maintByteReceived now u) s = .next b) ∧
    (x.discarding = false → portOpen s = true → x.rx = [] → u ≠ 0x5E →
      exec (.maintByteReceived now u) s = host (fun h => { h with
        maint := { x with lastByteAt := b.tb, rxErr := true, discarding := true } })) ∧
    (x.discarding = false → portOpen s = true → x.rx = [] → u = 0x5E →
      exec (.maintByteReceived now u) s = host (fun h => { h with maint := { x with rx := [u], lastByteAt := b.tb } })) ∧
    (∀ r rest, x.tx = r :: rest → field r 4 2 ≠ 0x0303 →
      exec (.maintReceiptSent now) s = host (fun h => { h with
        maint := { x with tx := rest, taken := 0, lastTaken := r } })) ∧
    (∀ r rest v, x.tx = r :: rest → field r 4 2 = 0x0303 → field r 6 1 = 0 → s.host.baudNext = some v →
      exec (.maintReceiptSent now) s = host (fun h => { h with
        maint := { x with tx := rest, taken := 0, lastTaken := r }, baud := v, baudNext := none })) ∧
    (b.tb < y.lastByteAt + msToTb 10 → exec (.partialPacketTimeout now p) s = .next b) ∧
    (frontWhole y.rx = false → y.rx ≠ [] → y.rx.length < 16 → y.lastByteAt + msToTb 10 ≤ b.tb →
      exec (.partialPacketTimeout now p) s = .next (setPort b p { y with rx := [], rxErr := true })) ∧
    (frontWhole y.rx = false → 16 ≤ y.rx.length → y.lastByteAt + msToTb 10 ≤ b.tb → 28 ≤ txFree b p →
      ∃ t, exec (.partialPacketTimeout now p) s = .next t ∧ (portSt t p).rx = [] ∧ (portSt t p).rxErr = true ∧
        placed b t p (mkReceipt 0 (field y.rx 4 2) stFormat 0x0A (field y.rx 8 2) (field y.rx 14 2) b.tb y.rx.length []))

/-! ### Image, forces, parameters -/

/-- Host accesses to image and force table (R69, R139, R142, R308, R310, R526): the work queues the access for an image slot;
FORCE.SET and FORCE.RELEASE first write the store, and are refused without the energy for it.
Where the manual leaves a point open it states the reading of log entries 26 and 53. -/
def Obligations.ImageAccessQueued : Prop :=
  ∀ (s : State) (now : Tb) (c : CmdRef) (space n start first count : Nat) (vals : List Word) (bytes : List Byte)
    (es : List ForceArg) (as : List (BitVec 32)),
    let fresh := fun (b : State) => ∀ w ∈ b.sched.slotWork, slotRef w ≠ c
    let store := fun (b : State) (ws : List PWrite) => energyFor b (eGroup (groupPages ws))
    works s now c (.imageRead now c space n start) (fun _ b t => fresh b →
      queuedOnly b t (.read c ((List.range n).map (fun i => itemKey space (start + i))))) ∧
    works s now c (.imageWrite now c space start vals) (fun _ b t => fresh b →
      queuedOnly b t (.write c
        (((writeKeys space start vals.length).zip vals).map (fun x => (x.1, writtenItem x.1 x.2))))) ∧
    works s now c (.dspWrite now c first count bytes) (fun _ b t => fresh b →
      queuedOnly b t (.dspWrite c (((dspWords b first count).zip (dspValues count bytes)).map (fun x => (x.1, ⟨x.2, 0⟩))))) ∧
    works s now c (.forceSet now c es) (fun _ b t => fresh b →
      (store b (es.map forceWrite) = true →
        t.pstore = writeGroup b.pstore (es.map forceWrite) ∧ t.sched.slotWork = b.sched.slotWork ++ [.forceSet c es] ∧
        t.image = b.image ∧ t.forces = b.forces) ∧
      (store b (es.map forceWrite) = false → refuses t c stState 0x06 ∧ sameButResults b t)) ∧
    works s now c (.forceRelease now c as) (fun _ b t => fresh b →
      let gone := (b.forces.map (fun f => forceAddr f.addr)).filter (fun a =>
        decide (as = [0xFFFFFFFF#32]) || as.any (fun x => decide (forceAddr (forceKey x.toNat) = a)))
      let work := SlotWork.forceRelease c (decide (as = [0xFFFFFFFF#32])) (as.map (·.toNat))
      (gone = [] → queuedOnly b t work) ∧
      (gone ≠ [] → store b (gone.map forceDelete) = true →
        t.pstore = writeGroup b.pstore (gone.map forceDelete) ∧ t.sched.slotWork = b.sched.slotWork ++ [work] ∧
        t.image = b.image ∧ t.forces = b.forces) ∧
      (gone ≠ [] → store b (gone.map forceDelete) = false → refuses t c stState 0x06 ∧ sameButResults b t))

/-- The access that an image slot performs (R69, R135, R173, R174, R306-R310): a read returns the items, a write takes its
value with Q good and L 0 unless a force stands, a force or simulation entry holds its item if the chart maps it, its release
leaves the value. A slot does nothing while a scan is in progress.
Where the manual leaves a point open it states the reading of log entry 29. -/
def Obligations.ImageSlotPerforms : Prop :=
  ∀ (s : State) (now : Tb) (c : CmdRef) (x : Cmd) (ks : List Nat) (k : Nat) (v : Tagged) (e : ForceArg) (f : Force),
    let n := s.at now
    (s.sched.running ≠ none ∨ s.sched.suspended ≠ [] → exec (.imageSlot now) s = .next n) ∧
    (slotIdle s → findCmd n c = some x → ringTakes s 4 →
      let slot := fun (w : SlotWork) (post : State → Prop) => s.sched.slotWork = [w] →
        ∃ t, exec (.imageSlot now) s = .next t ∧ t.sched.slotWork = [] ∧ t.sched.slotNo = s.sched.slotNo + 1 ∧
          t.eng = s.eng ∧ t.code = s.code ∧ t.sent = s.sent ∧ post t
      let old := getItem s k
      let others := fun (t : State) (k : Nat) => ∀ j, j ≠ k → getItem t j = getItem s j
      slot (.read c ks) (fun t => answers t c (readBytes n ks) ∧ t.image = s.image ∧ t.ring = s.ring) ∧
      (heldByForce s k = false → slot (.write c [(k, v)]) (fun t => answers t c (le 2 0) ∧ others t k ∧
        holds6 t k v.val (tagV v.tag) false qGood (tagM old.tag) (tagS old.tag) (tagF old.tag))) ∧
      (heldByForce s k = true → slot (.write c [(k, v)]) (fun t =>
        answers t c (le 2 1) ∧ t.image = s.image ∧ t.ring = s.ring)) ∧
      (let fk := forceKey e.addr.toNat
       let old := getItem s fk
       slot (.forceSet c [e]) (fun t => (∃ n, answers t c (le 2 n) ∧ n = t.forces.length) ∧ others t fk ∧
        t.forces = s.forces.filter (fun g => g.addr ≠ fk) ++ [⟨fk, e.value, e.simulate, false⟩] ∧
        (forceActs s fk = true →
          holds6 t fk (if isPointKey fk then 0 else e.value) (isPointKey fk && e.value.getLsbD 0) false qGood e.simulate
            (tagS old.tag) (!e.simulate)) ∧
        (forceActs s fk = false → (getItem t fk).val = old.val))) ∧
      (s.forces = [f] → slot (.forceRelease c true [0xFFFFFFFF]) (fun t =>
        let old := getItem s f.addr
        answers t c (le 2 0) ∧ t.forces = [] ∧ others t f.addr ∧
        holds6 t f.addr old.val (tagV old.tag) (tagL old.tag) (tagQ old.tag) false (tagS old.tag) false)))

/-- IMAGE.WATCH waits for a seal of its task or its timeout, whose reply has seal tb 0 and no item; PARAM.WRITE replaces and
appends entries of the pending set; PARAM.COMMIT writes the set as one group or is refused, as an unfranked change of FRANK_POLICY
is, and empties it; a committed value takes effect at its own moment (R128, R139, R141, R691, R695, R697, R698).
Where the manual leaves a point open it states the reading of log entries 26 and 89. -/
def Obligations.WatchAndParameters : Prop :=
  ∀ (s : State) (now : Tb) (c : CmdRef) (task space us pid v : Nat) (addrs : List Nat) (z : Session),
    let n := s.at now
    works s now c (.imageWatch now c task space addrs us) (fun x b t => waits t c ∧
      t.sched.watches = b.sched.watches ++ [(c, task, addrs.map (itemKey space), x.arrival + usToTb us)] ∧
      { t with host := b.host, sched := b.sched } = b) ∧
    (∀ w, s.sched.watches.find? (fun x => decide (x.1 = c)) = some w →
      (n.tb < w.2.2.2 → exec (.imageWatchTimeout now c) s = .next n) ∧
      (w.2.2.2 ≤ n.tb → ∃ t, exec (.imageWatchTimeout now c) s = .next t ∧ endsDone n t c (le 8 0 ++ le 2 0) ∧
        t.sched.watches = s.sched.watches.filter (fun y => decide (y.1 ≠ c)))) ∧
    works s now c (.paramWrite now c [(pid, v)]) (fun _ b t => b.host.session = some z →
      let set_ := z.pending.filter (fun e => decide (e.1 ≠ pid)) ++ [(pid, v)]
      answers t c (le 2 set_.length) ∧ t.host.session = some { z with pending := set_ } ∧ t.params = b.params ∧
      t.pstore = b.pstore ∧ { t with host := b.host } = b) ∧
    works s now c (.paramCommit now c) (fun x b t => lastStage x = true → b.host.session = some z →
      let policy := z.pending.any (fun e => decide (e.1 = 0x2010 ∧ e.2 ≠ par b 0x2010)) && !x.franked
      let ok := !policy && commitRules b z.pending && (commitAdmission b z.pending).isNone
      let ws := commitWrites b
      (t.host.session.map (·.pending) = some []) ∧ t.params.eff = b.params.eff ∧
      (policy = true → refuses t c stAuth 0x01 ∧ t.pstore = b.pstore ∧ t.params = b.params) ∧
      (policy = false → ok = false → refuses t c stState 0x01 ∧ t.pstore = b.pstore ∧ t.params = b.params) ∧
      (ok = true → ws ≠ [] → energyFor b (eGroup (groupPages ws)) = false →
        refuses t c stState 0x06 ∧ t.pstore = b.pstore ∧ t.params = b.params) ∧
      (ok = true → ws ≠ [] → energyFor b (eGroup (groupPages ws)) = true → t.pstore = writeGroup b.pstore ws ∧
        answers t c (le 2 z.pending.length ++ [BitVec.ofNat 8 (commitFlags b z.pending)]))) ∧
    exec (.paramValueTakesEffect now .restart) s = .next n ∧
    (s.params.wait = [(.now, pid, some v)] → (∀ x ∈ s.host.cmds, x.opcode ≠ 0x0303) → pid ∉ [0x0110, 0x1F01, 0x1F02] →
      ∃ t, exec (.paramValueTakesEffect now .now) s = .next t ∧ par t pid = v ∧ (∀ p, p ≠ pid → par t p = par s p) ∧
        t.params.wait = [] ∧ { t with params := s.params } = n) ∧
    (s.params.wait = [(.seal, pid, some v)] → s.pstate ≠ .running →
      let pids := pid :: (s.params.sealing ++ s.params.sealWait).map (·.1)
      (∀ p ∈ pids, p ∉ [0x0110, 0x1F01, 0x1F02]) →
      ∃ t, exec (.paramValueTakesEffect now .seal) s = .next t ∧ par t pid = v ∧ (∀ p, p ∉ pids → par t p = par s p) ∧
        t.params.wait = [] ∧ t.params.sealing = [] ∧ t.params.sealWait = [] ∧ { t with params := s.params } = n) ∧
    (s.pstate = .running → (s.twin.role ≠ .watch ∨ ∃ r, s.sched.running = some r) →
      exec (.paramValueTakesEffect now .seal) s = .next n)

/-! ### Programs and charts -/

/-- Program commands (R28, R130-R134, R178-R182, R194, R302, R305, R311, R320): PROG.LOAD of an image that matches its hash leaves
the slot's program loaded and stopped, its initial data in place, no edit, no force, and a Helm's Watch OUT_OF_STEP (R386); a segment with MORE is stored and counted; the last segment of an edit
patches the code and waits; PROG.RUN shows FIRST_SCAN to every task and waits for its first scan; PROG.STOP by the program's
state.
Where the manual leaves a point open it states the reading of log entries 27, 28, 63, 88 and 94. -/
def Obligations.ProgramCommands : Prop :=
  ∀ (s : State) (now : Tb) (c : CmdRef) (slot mode : Nat) (g : Segment),
    works s now c (.progLoad now c slot) (fun x b t => lastStage x = true →
      let ws := b.forces.map (fun f => forceDelete (forceAddr f.addr))
      ((progSlot b slot).image = none → refuses t c stState 0x01 ∧ sameButResults b t) ∧
      (∀ img, (progSlot b slot).image = some img → imageHash (progSlot b slot).bytes ≠ img.hash →
        refuses t c stState 0x01 ∧ sameButResults b t) ∧
      ∀ img, (progSlot b slot).image = some img → imageHash (progSlot b slot).bytes = img.hash →
        (ws ≠ [] → energyFor b (eGroup (groupPages ws)) = false → refuses t c stState 0x06 ∧ sameButResults b t) ∧
        (ws = [] ∨ energyFor b (eGroup (groupPages ws)) = true →
          let p : Program := { slot, img, tasks := img.tasks, edits := [], chained := chainHash img.hash [] }
          t.prog = some p ∧ t.pstate = .stopped ∧ t.code = buildCode img [] ∧ t.forces = [] ∧ t.held = [] ∧
          (progSlot t slot).edits = [] ∧ t.charts.active = par b 0x0401 ∧ t.charts.req = none ∧
          (b.twin.role = .helm → b.twin.pair = .inStep → t.twin.pair = .outOfStep) ∧
          (∀ a, a < 0x200000 → getItem t (wKey a) = smGet itemDefault (baseImage p) (wKey a)) ∧
          ∀ k, taskRt t k = TaskRt.reset)) ∧
    (g.more = true → works s now c (.progEdit now c g) (fun _ b t =>
      let tr := addSegment b.host.transfer 0x0402 g b.tb
      t.host.transfer = tr ∧ answers t c (le 4 ((tr.map (fun x => x.data.length)).getD 0)) ∧
      { t with host := b.host } = b)) ∧
    (g.more = false → works s now c (.progEdit now c g) (fun x b t => lastStage x = true →
      let parsed := (parseContainer (wholeImage b.host.transfer g)).bind parseEdit
      (parsed = none → refuses t c stState 0x01 ∧ t.host.transfer = none ∧ { t with host := b.host } = b) ∧
      ∀ e p, parsed = some e → b.prog = some p → b.charts.req = none → b.pstate = .running → enabledTasks b ≠ [] →
        waits t c ∧ t.code = putWords b.code e.patchBase e.patch ∧ t.prog = b.prog ∧ t.image = b.image ∧
        t.sched.editPending = some (c, e, e.inits.isEmpty) ∧ t.host.transfer = none)) ∧
    works s now c (.progRun now c) (fun _ b t => enabledTasks b ≠ [] → ringTakes b (clearedLines b).length →
      waits t c ∧ t.pstate = .running ∧ (∀ k, k < 16 → (taskRt t k).firstScan = true ∧ (taskRt t k).skipNext = false) ∧
      t.held = [] ∧ t.sched.roundReady = b.tb ∧ t.sched.roundOpen = false ∧ t.prog = b.prog ∧ t.code = b.code ∧
      (dspBase b = none → t.image = b.image)) ∧
    works s now c (.progStop now c mode) (fun _ b t =>
      (b.pstate = .notLoaded → refuses t c stState 0x01 ∧ sameButResults b t) ∧
      (b.pstate = .stopped → mode = 0 ∨ b.sched.stopMode = .safe → onlyAnswers b t c (le 8 b.ring.lastSealTb)) ∧
      (b.pstate = .stopped → mode ≠ 0 → b.sched.stopMode ≠ .safe → ringTakes b 0 →
        answers t c (le 8 b.ring.lastSealTb) ∧ t.sched.stopMode = .safe ∧ t.pstate = .stopped ∧
        (b.field.safe.isSome = true → t.field = b.field) ∧
        (b.field.safe = none → b.field.lockout = false → t.field.safe = some (b.tb, 3) ∧
          ∀ k, k < 24 → (doAt t k).cmd = b.field.safeVals.getLsbD (gangLead b k))) ∧
      (b.pstate = .running → noScan b = false →
        waits t c ∧ (b.sched.stopping = none → t.sched = { b.sched with stopping := some (if mode = 1 then .safe else .hold, [c]) }) ∧
        { t with host := b.host, sched := b.sched } = b))

/-- Chart commands (R133, R249, R280, R281, R284, R287, R288, R361): CHART.LOAD gives the copy its store header with the next
sequence and then makes the image the chart's working copy; it leaves every other chart; CHART.SELECT waits as the pending request, or ends at once for the active
chart; the preload makes a usable request ready and discards an unusable one; RETAIN.CLEAR by its parts,
a Helm's Watch OUT_OF_STEP after bit 0 (R386).
Where the manual leaves a point open it states the reading of log entries 21, 50 and 88. -/
def Obligations.ChartCommands : Prop :=
  ∀ (s : State) (now : Tb) (c : CmdRef) (k : Nat) (g : Segment) (r : ChgReq),
    let sel : ChgReq := { chart := k, kind := .select, ref := some c, madeBy := 0, isSealed := true, preloaded := false }
    (g.more = true → works s now c (.chartLoad now c g) (fun _ b t =>
      let tr := addSegment b.host.transfer 0x0601 g b.tb
      t.host.transfer = tr ∧ answers t c (le 4 ((tr.map (fun x => x.data.length)).getD 0)) ∧
      { t with host := b.host } = b)) ∧
    (g.more = false → g.target < 8 → works s now c (.chartLoad now c g) (fun x b t => lastStage x = true →
      let parsed := (parseContainer (wholeImage b.host.transfer g)).bind parseChart
      let ws := chartDeletes b g.target
      (parsed = none → refuses t c stState 0x01 ∧ sameButResults b t) ∧
      ∀ img, parsed = some img →
        (ws ≠ [] → energyFor b (eGroup (groupPages ws)) = false → refuses t c stState 0x06 ∧ t.charts = b.charts) ∧
        (ws = [] ∨ energyFor b (eGroup (groupPages ws)) = true →
          answers t c img.hash ∧ t.host.transfer = none ∧
          chartSlot t g.target = { chartSlot b g.target with state := .valid, image := some img } ∧
          (∀ j, j ≠ g.target → chartSlot t j = chartSlot b j) ∧ t.charts.active = b.charts.active ∧
          t.params = b.params ∧ t.image = b.image))) ∧
    (g.more = false → g.target < 8 → works s now c (.chartLoad now c g) (fun x b t => x.stages.length = 2 →
      let bs := wholeImage b.host.transfer g
      let q := chartSeq (chartSlot b g.target) + 1
      ∀ img, (parseContainer bs).bind parseChart = some img →
        (targetCopy (chartSlot b g.target)).data = bs → q < 2 ^ 32 → bs.length < 2 ^ 32 →
        chartSeq (chartSlot t g.target) = q ∧ (∀ j, j ≠ g.target → chartSlot t j = chartSlot b j) ∧
        { t with charts := b.charts } = b)) ∧
    works s now c (.chartSelect now c k) (fun _ b t =>
      (b.charts.committed = none → b.charts.req = none → k ≠ b.charts.active →
        waits t c ∧ t.charts = { b.charts with reqField := k, req := some sel } ∧
        { t with host := b.host, charts := b.charts } = b) ∧
      (b.charts.committed = none → b.charts.req = none → k = b.charts.active →
        endsDone b t c (le 8 0) ∧ hostOnly b t) ∧
      (b.charts.committed ≠ none → waits t c ∧ t.charts.req = b.charts.req ∧ t.charts.committed = b.charts.committed ∧
        t.charts.deferred = b.charts.deferred ++ [sel])) ∧
    (let n := s.at now
     (s.charts.req = none → exec (.chartPreloadComplete now) s = .next n) ∧
     (s.charts.req = some r → chartUsable s r.chart = true → s.pstate = .running → enabledTasks s ≠ [] →
       exec (.chartPreloadComplete now) s =
         .next { n with charts := { n.charts with req := some { r with preloaded := true } } }) ∧
     (s.charts.req = some r → chartUsable s r.chart = false → chartValuesPending s = false →
       ∃ t, exec (.chartPreloadComplete now) s = .next t ∧ t.charts = { s.charts with req := none } ∧
         hostOnly n { t with charts := s.charts, log := s.log })) ∧
    works s now c (.retainClear now c 1) (fun x b t => x.stages.length = 1 → b.forces = [] →
      b.twin.resyncRef ≠ some c → c ∉ b.twin.changeRefs → ringTakes b 0 →
      (b.twin.role = .helm → b.twin.pair = .inStep → t.twin.pair = .outOfStep) ∧
      answers t c [] ∧ t.image = (b.prog.map baseImage).getD [] ∧ t.held = [] ∧ t.ring.broken = false ∧
      t.pstore = b.pstore ∧ t.prog = b.prog) ∧
    works s now c (.retainClear now c 2) (fun x _ t => x.stages.length = 1 → t.forces = [] ∧ t.ring.base = none ∧
      t.twin.mark = none ∧ t.pstore = { PStore.reset with nextGroup := t.pstore.nextGroup }) ∧
    works s now c (.retainClear now c 4) (fun x b t => x.stages.length = 1 →
      let ws := b.forces.map (fun f => forceDelete (forceAddr f.addr))
      (ws ≠ [] → energyFor b (eGroup (groupPages ws)) = false → refuses t c stState 0x06 ∧ sameButResults b t) ∧
      (ws = [] ∨ energyFor b (eGroup (groupPages ws)) = true → answers t c [] ∧ t.forces = []))

/-! ### Scans -/

/-- The start of a scan (R58, R154-R159, R161, R176, R204): when a free-running task, a round or a fixed-period release, at T_run
plus whole periods, starts one, and what the scan begins with: a cleared engine at the task's entry in a window of its own, the task's promise, nothing dirty;
data and output items stay.
Where the manual leaves a point open it states the reading of log entries 22 and 25. -/
def Obligations.ScanStarts : Prop :=
  ∀ (s : State) (now : Tb) (k ready pr : Nat) (rest : List Nat) (w k4 : BitVec 4),
    let n := s.at now
    let rel := k4.toNat
    let released := isRelease n rel = true
    let idle := noScan s = true ∧ s.sched.waiting = []
    (noScan s = false ∨ scansAllowed n = false → exec (.scanReady now) s = .next n) ∧
    (idle → scansAllowed n = true → s.sched.roundOpen = true → s.sched.roundLeft = k :: rest →
      ((taskRt s k).skipNext = false →
        exec (.scanReady now) s = .next (startScan n k n.tb (scanPromise n k n.tb n.sched.aheadPs) 0)) ∧
      ((taskRt s k).skipNext = true → k < 16 → ∃ t, exec (.scanReady now) s = .next t ∧ t.sched.roundLeft = rest ∧
        t.sched.running = none ∧ (taskRt t k).skipNext = false ∧ (taskRt t k).skipped = true ∧ t.image = s.image)) ∧
    (idle → s.sched.roundOpen = false → n.tb < s.sched.roundReady ∨ enabledFree s = [] →
      exec (.scanReady now) s = .next n) ∧
    (scansAllowed n = true → s.sched.roundOpen = false → s.sched.roundReady ≤ n.tb → enabledFree s ≠ [] →
      exec (.roundMinExpiry now) s = .next { n with sched := { n.sched with
        roundOpen := true, roundStart := s.sched.roundReady, roundLast := none, roundLeft := enabledFree s } }) ∧
    (s.sched.roundOpen = true ∨ n.tb < s.sched.roundReady → exec (.roundMinExpiry now) s = .next n) ∧
    ((taskDef s rel).fixed = false ∨ rel ∉ enabledTasks s ∨ scansAllowed n = false ∨ ¬ released →
      exec (.fixedPeriodRelease now k4) s = .next n) ∧
    (∀ b, s.sched.phases = [] → s.sched.trun = some b →
      (released ↔ b ≤ n.tb ∧ (n.tb - b) % msToTb (taskDef s rel).periodMs = 0)) ∧
    ((taskDef s rel).fixed = true → rel ∈ enabledTasks s → scansAllowed n = true → released →
      ((taskRt s rel).skipNext = true → ∃ t, exec (.fixedPeriodRelease now k4) s = .next t ∧
        (taskRt t rel).skipNext = false ∧ (taskRt t rel).skipped = true ∧ { t with tasks := s.tasks } = n) ∧
      ((taskRt s rel).skipNext = false → idle →
        exec (.fixedPeriodRelease now k4) s = .next (startScan n rel n.tb (scanPromise n rel n.tb 0) 0)) ∧
      ((taskRt s rel).skipNext = false → s.sched.waiting = [] → ∀ sc, s.sched.running = some sc → sc.phase ≠ .execute →
        sc.task ≠ rel → (∀ x ∈ s.sched.suspended, x.1.task ≠ rel) →
        exec (.fixedPeriodRelease now k4) s = .next { n with sched := { n.sched with
          waiting := [(rel, n.tb, scanPromise n rel n.tb 0)] } })) ∧
    (let t := startScan n k ready pr w
     (∃ sc, t.sched.running = some sc ∧ sc.task = k ∧ sc.phase = .execute ∧ sc.dirty = [] ∧ sc.chgBefore = none ∧
       sc.promise = pr) ∧
     t.eng = { Engine.reset with win := t.eng.win, owner := t.eng.owner, pc := (taskDef s k).entry, wpos := w,
                                 ctrl := BitVec.ofNat 40 ((taskDef s k).ctrl.toNat % 8 / 2 * 2) } ∧
     vget t.eng.win w.toNat Window.reset = Window.reset ∧ vget t.eng.owner w.toNat none = some (k, 0) ∧
     (k < 16 → (taskRt t k).firstScan = false ∧ (taskRt t k).stack = []) ∧ t.prog = s.prog ∧ t.forces = s.forces ∧
     (∀ a, a < 0x200000 → getItem t (wKey a) = getItem s (wKey a)) ∧
     ∀ p, 0x10000 ≤ p → p < 0x20000 → getItem t p = getItem s p)

/-- Seal, acknowledgement and EMIT (R83, R84, R168-R172, R320, R333, R382, R383): the seal record completes, E of every item of its
lines is cleared and nothing else of the image changes, and the carrying that it owes is counted; the deadline, 3 µs after the
seal point, lets the Helm emit; EMIT sets S as the outcome decides and no value; its end records what was sent, lets the SEAL values that
wait for it take effect and closes the scan, or, past the promise,
is a promise breach.
Where the manual leaves a point open it states the reading of log entries 23 and 24. -/
def Obligations.ScanSealsAndEmits : Prop :=
  ∀ (s : State) (now : Tb) (sc : Scan),
    let n := s.at now
    (s.sched.running = none ∨ (s.sched.running = some sc ∧ sc.phase = .execute) →
      exec (.sealPoint now) s = .next n ∧ exec (.manifestAckDeadline now) s = .next n ∧
      exec (.emit now) s = .next n ∧ exec (.emitEnd now) s = .next n) ∧
    (s.sched.running = some sc → sc.phase = .seal →
      let lines := sealLines n sc
      (∀ l, ringAppend n (scanRecord n sc lines) = .error l → exec (.sealPoint now) s = .next (sealFaultAt n l)) ∧
      ∀ u, ringAppend n (scanRecord n sc lines) = .ok u → ∃ t, exec (.sealPoint now) s = .next t ∧
        t.sched.running = some { sc with
          phase := if tightK u = 0 then .emit else .waitAck, sealSeq := u.ring.nextSeq - 1 } ∧
        t.ring = { u.ring with lastSealSeq := u.ring.nextSeq - 1, lastSealTb := n.tb,
                               carryOwed := u.ring.carryOwed + lines.length * retainedLines s } ∧
        (∀ l ∈ lines, ∀ k ∈ lineKeys l, getItem t k = ⟨(getItem s k).val, setE (getItem s k).tag false⟩) ∧
        (∀ k, (∀ l ∈ lines, k ∉ lineKeys l) → getItem t k = getItem s k) ∧ t.eng = s.eng ∧ t.sent = s.sent) ∧
    (s.sched.running = some sc → n.tb < s.ring.lastSealTb + usToTb 3 → exec (.manifestAckDeadline now) s = .next n) ∧
    (s.sched.running = some sc → sc.phase = .waitAck → s.ring.lastSealTb + usToTb 3 ≤ n.tb →
      ∃ t, exec (.manifestAckDeadline now) s = .next t ∧
      t.sched.running = some { sc with phase := .emit } ∧ t.image = s.image ∧
      (s.twin.role = .helm → s.twin.pair = .inStep → t.twin.pair = .outOfStep) ∧
      (s.twin.role ≠ .helm → { t with sched := s.sched } = n)) ∧
    (s.sched.running = some sc → sc.phase = .emit → dspBase s = none →
      let items := (taskAreas s sc.task).flatMap (outItems s)
      ∃ t, exec (.emit now) s = .next t ∧ t.sched.running = some { sc with phase := .emitting } ∧ t.sent = s.sent ∧
        t.eng = s.eng ∧ (∀ k, k ∉ items → getItem t k = getItem s k) ∧
        ∀ k ∈ items, let r := emitItem n k
          (getItem t k).val = (getItem s k).val ∧
          (getItem t k).tag = if r.step = 1 then (getItem s k).tag else setS (getItem s k).tag (decide (4 ≤ r.step))) ∧
    (s.sched.running = some sc → sc.phase = .emitting → sc.task < 16 → s.sched.suspended = [] → s.sched.waiting = [] →
      sc.isChange = false → sc.isEdit = false → sc.isHandover = false → s.sched.stopping = none → s.pstate = .running →
      enabledTasks s ≠ [] → s.power.failing = false → s.power.stopping = false → s.charts.req = none →
      s.sched.editPending = none → n.tb ≤ sc.promise → s.ring.carryOwed < 4 * (390786 - retainedLines s) →
      ∃ t, exec (.emitEnd now) s = .next t ∧ t.sched.running = none ∧
        taskRt t sc.task = { taskRt s sc.task with
          slack := sc.promise - n.tb, done := n.tb, lastPromise := sc.promise, fieldSafe := (taskRt t sc.task).fieldSafe } ∧
        (∀ k ∈ (taskAreas s sc.task).flatMap (outItems s), (emitItem n k).step ≠ 1 →
          smGet itemDefault t.sent k = (emitItem n k).item) ∧ t.ring = s.ring ∧ t.eng = s.eng ∧ t.params.sealing = [] ∧
        ∀ pid v, s.params.sealing = [(pid, some v)] → par t pid = v ∧ ∀ p, p ≠ pid → par t p = par s p) ∧
    (s.sched.running = some sc → sc.phase = .emitting → sc.promise < n.tb → halts s (exec (.emitEnd now) s) 4)

/-- Other ring records, idle capacity, overruns and the end of a start (R51, R81, R85, R88, R175, R332, R333, R336, R337, R344, R388,
R660, R674, R676): a CARRY record is appended at the head when one is due; a seal fault is a fault halt with every command
discarded, in HALT too; a class D slice, at most one between two scans, serves a command that waits for it and is counted ahead
of the next scan; RE_EMIT ends the resume.
Where the manual leaves a point open it states the reading of log entries 28, 64 and 79. -/
def Obligations.RingFaultsAndResume : Prop :=
  ∀ (s : State) (now : Tb) (line : Nat) (cause : OverrunCause) (sc : Scan),
    let n := s.at now
    (carryDue n = false ∨ s.power.failing = true ∨ s.power.mode = .halt ∨ energyFor n 0 = false →
      exec (.carryRecordWrite now) s = .next n) ∧
    (carryDue n = true → s.power.failing = false → s.power.mode ≠ .halt → energyFor n 0 = true → s.sched.running = none →
      ∀ u, ringAppend n (recHeader n .carry .none (carryLines n)) = .ok u → exec (.carryRecordWrite now) s =
        .next { u with ring := { u.ring with
          carryOwed := u.ring.carryOwed - (carryLines n).length * (390786 - retainedLines u) } }) ∧
    (s.power.mode = .halt → ∃ t, exec (.sealFault now line) s = .next t ∧ t.power.mode = .halt ∧ t.host.cmds = [] ∧
      t.sched.running = none ∧ t.image = s.image ∧ t.ring = s.ring ∧
      (6 = s.power.lastFault → t.power.haltFaults = s.power.haltFaults ∧ t.log = n.log) ∧
      (6 ≠ s.power.lastFault → 0x85 ∉ s.power.haltFaults →
        t.power.lastFault = 6 ∧ t.power.haltFaults = s.power.haltFaults ++ [s.power.lastFault + 0x7F, 0x85])) ∧
    (s.power.mode ≠ .halt → ∃ t, exec (.sealFault now line) s = .next t ∧ t.power.mode = .halt ∧ t.power.lastFault = 6 ∧
      t.power.haltAt = n.tb ∧ t.sched.running = none ∧ t.sched.suspended = [] ∧ t.host.cmds = [] ∧
      t.field.linkAlive = false ∧ t.image = s.image ∧ t.ring = s.ring ∧ t.sent = s.sent) ∧
    (noScan s = false ∨ s.power.failing = true ∨ s.sched.noMoreScans = true ∨ s.power.mode = .halt ∨
      (s.sched.sliceDone = true ∧ scansFollow s = true) → exec (.classDSlice now) s = .next n) ∧
    (noScan s = true → s.power.failing = false → s.sched.noMoreScans = false → s.power.mode ≠ .halt → twinOn n = false →
      s.sched.sliceDone = false ∨ scansFollow s = false →
      (par s 0x0207 = 0 ∨ (scansFollow s = true ∧ sliceFits n = false) → exec (.classDSlice now) s = .next n) ∧
      (par s 0x0207 ≠ 0 → scansFollow s = false ∨ sliceFits n = true →
        let u := { n with sched := { n.sched with sliceDone := true, aheadPs := n.sched.aheadPs + usPs (par s 0x0207) } }
        (s.host.cmds.find? wantsSlice = none → exec (.classDSlice now) s = .next u) ∧
        ∀ x, s.host.cmds.find? wantsSlice = some x →
          exec (.classDSlice now) s = .next (updCmd u x.ref (fun y => { y with sliced := true })))) ∧
    (s.sched.running = none → exec (.overrun now cause) s = .next n) ∧
    (s.sched.running = some sc → sc.phase ≠ .execute → exec (.overrun now cause) s = .next n) ∧
    (s.sched.running = some sc → sc.phase = .execute → exec (.overrun now cause) s = .next (overrunOp n cause)) ∧
    (s.power.resumed = true ∨ s.power.mode ≠ .idle ∨ eUse n < eSeal → exec (.reEmit now) s = .next n) ∧
    (s.power.resumed = false → s.power.mode = .idle → eSeal ≤ eUse n → ∃ t, exec (.reEmit now) s = .next t ∧
      t.power.resumed = true ∧
      (s.twin.role = .unpaired ∨ s.twin.role = .helm → t.power.startAs = 0 ∧ (s.prog = none → t.field.linkAlive = true)) ∧
      (s.twin.role ≠ .unpaired → s.twin.role ≠ .helm → t.image = s.image ∧ t.sent = s.sent ∧ t.ring = s.ring))

/-! ### Digital field I/O -/

/-- Inputs, diagnosis and the tests (R297, R412-R415, R420-R424, R435, R723): a tick on the group's grid filters its eight inputs,
but for one under test, and nothing else; a condition that enters sets its mark on the gang, LIMIT and THERMAL switch it off and only an EMIT clears them; DIO.TEST
waits for its end or answers result 2 at once.
Where the manual leaves a point open it states the reading of log entry 70. -/
def Obligations.FieldInputsAndTests : Prop :=
  ∀ (s : State) (now : Tb) (c : CmdRef) (g : Fin 6) (us : List Nat) (o : Fin 24) (cond : OutCond) (present off on : Bool)
    (kind ch : Nat) (z : DioTest) (v : Int),
    let n := s.at now
    let di := fun (s : State) (j : Nat) => vget s.field.di j DiCh.reset
    (s.field.lockout = true → exec (.diSampleTick now g us) s = .next n ∧
      exec (.outputDiagnosis now o cond present) s = .next n) ∧
    (s.field.lockout = false → onGrid n g = false → exec (.diSampleTick now g us) s = .next n) ∧
    (s.field.lockout = false → onGrid n g = true → ∃ t, exec (.diSampleTick now g us) s = .next t ∧
      (∀ k, k < 8 → let j := 8 * g.val + k
        di t j = if (di s j).underTest then { di s j with raw := .between, sampled := true }
          else filterStep (diP s j 1) (rawClass s j (us.getD k 0)) (di s j)) ∧
      (∀ j, j < 8 * g.val ∨ 8 * g.val + 8 ≤ j → di t j = di s j) ∧
      { t with field := { t.field with di := s.field.di } } = n) ∧
    (let lead := gangLead s o.val
     let gang := gangMembers s lead
     let d := doAt s lead
     (condNow d cond = present → exec (.outputDiagnosis now o cond present) s = .next n) ∧
     (s.field.lockout = false → condNow d cond = false → condLooked n lead cond = true →
       ∃ t, exec (.outputDiagnosis now o cond true) s = .next t ∧
         (∀ j, j < 24 → j ∈ gang → doAt t j = condEnter cond (doAt s j)) ∧ (∀ j, j ∉ gang → doAt t j = doAt s j) ∧
         { t with field := { t.field with do_ := s.field.do_ }, log := s.log } = n) ∧
     (s.field.lockout = false → d.limit = true → exec (.outputDiagnosis now o .limit false) s = .next n) ∧
     (s.field.lockout = false → d.openLoad = true → ∃ t, exec (.outputDiagnosis now o .openLoad false) s = .next t ∧
       (∀ j, j < 24 → j ∈ gang → doAt t j = { doAt s j with openLoad := false }) ∧
       { t with field := { t.field with do_ := s.field.do_ }, log := s.log } = n)) ∧
    works s now c (.dioTest now c kind ch) (fun x b t => lastStage x = true →
      (∀ e, closingEntry b 6 = some e → endsAs b t c x stFault 6 e.2.1 []) ∧
      (closingEntry b 6 = none → b.field.test.isSome = true ∨ kind = 0 ∧ (latched (doAt b ch) = true ∨ b.field.cut = true) →
        onlyAnswers b t c [2, 0, 0, 0]) ∧
      (closingEntry b 6 = none → b.field.test = none → kind = 0 → latched (doAt b ch) = false → b.field.cut = false →
        waits t c ∧ t.field = { b.field with test := some { ref := c, kind := 0, channel := ch } }) ∧
      (closingEntry b 6 = none → b.field.test = none → kind = 1 → ch < 48 →
        waits t c ∧ t.field.test = some { ref := c, kind := 1, channel := ch } ∧ (di t ch).underTest = true ∧
        ∀ j, j ≠ ch → di t j = di b j)) ∧
    (s.field.test = none → exec (.dioTestEnd now v off on) s = .next n) ∧
    (s.field.test = some z → ∃ t, exec (.dioTestEnd now v off on) s = .next t ∧ t.field.test = none ∧
      (z.kind = 0 → latched (doAt s z.channel) = true → endsDone n t z.ref testNone) ∧
      (z.kind = 0 → latched (doAt s z.channel) = false → endsDone n t z.ref
        ((if (if (doAt s z.channel).on then v < 3000 else (s.field.vfld : Int) - 1500 < v) then 0 else 1) :: leInt 3 v)) ∧
      (z.kind ≠ 0 → endsDone n t z.ref ((if off = true ∧ on = true then 0 else 1) :: leInt 2 v ++
        [BitVec.ofNat 8 (boolBit off + 2 * boolBit on)])))

/-- The supply VFLD and the safe state (R425-R432, R672, R723): warning, cut-off and lockout with their levels and times; the restart
of the field die leaves every output off and its collar open; silence of the link, which a pause frame extends by 1 ms, applies
the safe state, whose outputs of value 1 take their turns.
Where the manual leaves a point open it states the reading of log entry 69. -/
def Obligations.FieldSupplyAndSafeState : Prop :=
  ∀ (s : State) (now : Tb) (mv k u : Nat) (rest : List Nat),
    let n := s.at now
    let f := s.field
    let allOff := fun (t : State) => ∀ j, j < 24 → (doAt t j).on = false
    (f.lockout = true → exec (.vfldSample now mv) s = .next { n with field := { f with vfld := mv } }) ∧
    (f.lockout = false → f.warn = false → f.cut = false → 18000 ≤ mv →
      exec (.vfldSample now mv) s = .next { n with field := { f with vfld := mv, warnSince := none, cutSince := none } }) ∧
    (f.lockout = false → f.warn = false → f.cut = false → 14000 ≤ mv → mv < 18000 → f.warnSince = some u →
      u + msToTb 1 ≤ n.tb → ∃ t, exec (.vfldSample now mv) s = .next t ∧
        t.field = { f with vfld := mv, warn := true, warnSince := none, cutSince := none }) ∧
    (f.lockout = false → f.cut = false → 8000 ≤ mv → mv < 14000 → f.cutSince = some u →
      (n.tb < u + usToTb 200 → ∃ t, exec (.vfldSample now mv) s = .next t ∧ t.field.cut = false ∧ t.field.do_ = f.do_) ∧
      (u + usToTb 200 ≤ n.tb → ∃ t, exec (.vfldSample now mv) s = .next t ∧ t.field.cut = true ∧ allOff t ∧
        t.field.turns = [] ∧ t.field.safeTurns = [])) ∧
    (f.lockout = false → f.cut = true → 17000 < mv → f.cutSince = some u → u + msToTb 10 ≤ n.tb → f.safe = none →
      ∃ t, exec (.vfldSample now mv) s = .next t ∧ t.field.cut = false ∧ t.field.do_ = f.do_) ∧
    (f.lockout = false → mv < 8000 → ∃ t, exec (.vfldSample now mv) s = .next t ∧ t.field.lockout = true ∧
      t.field.cut = true ∧ allOff t ∧ collarClosed t 6 = true) ∧
    (f.lockout = false ∨ f.vfld ≤ 8500 → exec (.fieldDieRestart now) s = .next n) ∧
    (f.lockout = true → 8500 < f.vfld → ∃ t, exec (.fieldDieRestart now) s = .next t ∧ t.field.lockout = false ∧
      t.field.cut = true ∧ allOff t ∧ t.field.di = Vector.replicate 48 DiCh.reset ∧ collarClosed t 6 = false) ∧
    (f.linkAlive = true → fieldLinkDown s = false → exec (.fieldLinkSilence now) s = .next n) ∧
    (∀ u, f.pauseAt = some u → n.tb < u + msToTb (par s 0x1301) + msToTb 1 → exec (.fieldLinkSilence now) s = .next n) ∧
    (f.lockout = true ∨ f.safe.isSome = true → exec (.fieldLinkSilence now) s = .next n) ∧
    (f.linkAlive = false → f.lockout = false → f.safe = none → silencePaused n = false →
      ∃ t, exec (.fieldLinkSilence now) s = .next t ∧
      t.field.safe = some (n.tb, 1) ∧ t.field.turns = [] ∧
      (∀ j, j < 24 → let want := f.safeVals.getLsbD (gangLead s j)
        (doAt t j).cmd = want ∧ (doAt t j).on = ((doAt s j).on && want)) ∧
      (∀ j, j < 16 → (taskRt t j).fieldSafe = true) ∧ t.image = s.image) ∧
    (let turn := fun (i : Instr) (t : State) => exec i s = .next t ∧
       (∀ j, j < 24 → j ∈ gangMembers s k → (doAt t j).on = true) ∧ (∀ j, j ∉ gangMembers s k → doAt t j = doAt s j)
     (f.safeTurns = [] ∨ f.cut = true ∨ f.lockout = true → exec (.safeStateStaggerStep now) s = .next n) ∧
     (f.turns = [] ∨ f.cut = true ∨ f.lockout = true → exec (.restoreStaggerStep now) s = .next n) ∧
     ((doAt s k).cmd = true → latched (doAt s k) = false → f.cut = false → f.lockout = false →
       (f.safeTurns = k :: rest → ∃ t, turn (.safeStateStaggerStep now) t ∧ t.field.safeTurns = rest) ∧
       (f.turns = k :: rest → ∃ t, turn (.restoreStaggerStep now) t ∧ t.field.turns = rest ∧
         t.field.restoring = !rest.isEmpty)))

/-! ### Analogue islands -/

/-- What an island does by itself (R295, R296, R438, R450, R452, R457-R461, R466): output updates by mode and move, samples,
temperature bands, open loop, compliance, mode change, stage failure. An island without supply does nothing.
Where the manual leaves a point open it states the reading of log entries 57 and 59. -/
def Obligations.AnalogueIsland : Prop :=
  ∀ (s : State) (now : Tb) (ch : Fin 8) (v : Int) (yes : Bool),
    let n := s.at now
    let c := ch.val
    let a := island s c
    let becomes := fun (i : Instr) (f : Island → Island) => exec i s = .next (modAna n c f)
    let logs := fun (i : Instr) (b : Island) => ∃ t, exec i s = .next t ∧ island t c = b ∧
      (∀ j, j ≠ c → island t j = island s j) ∧ { t with ana := s.ana, log := s.log } = n
    let upd := Instr.anaOutputUpdate now ch
    let step : Int := anaP s c 0xC * updPeriod s c
    let at_ := a.segAt + updPeriod s c
    let moved := fun (f : Island → Island) => becomes upd (fun a => f { a with blendLeft := 0 })
    (anaOn s c = false → ∀ i, i = upd ∨ i = .anaSample now ch v ∨ i = .islandTemperatureSample now ch v ∨
      i = .loopOpen now ch yes ∨ i = .complianceLack now ch v yes ∨ i = .modeChangeComplete now ch ∨
      i = .activeStageFailure now ch → exec i s = .next n) ∧
    (anaOn s c = true →
      (a.blendLeft = 0 → a.mode = .source →
        (a.pass = true → moved (fun a => { a with current := 22500000 })) ∧
        (a.pass = false → a.hold = true → moved id) ∧
        (a.pass = false → a.hold = false → a.comply = false → a.crossing = false → a.safeMove = false →
          (anaP s c 0xB = 0 → a.current + step < a.setPoint → 0 < step →
            moved (fun a => { a with current := a.current + step, safeMove := false })) ∧
          (anaP s c 0xB = 0 → a.current ≤ a.setPoint → a.setPoint ≤ a.current + step →
            moved (fun a => { a with current := a.setPoint, safeMove := false })) ∧
          (anaP s c 0xB ≠ 0 → at_ < anaP s c 0xD → moved (fun a => { a with
            segAt := at_, current := a.segFrom + (a.setPoint - a.segFrom) * at_ / anaP s c 0xD })) ∧
          (anaP s c 0xB ≠ 0 → anaP s c 0xD ≤ at_ → moved (fun a => { a with
            current := a.setPoint, segAt := anaP s c 0xD, segFrom := a.setPoint })))) ∧
      becomes (.anaSample now ch v) (fun a => { a with
        useTrim := senseTrim a, meas := if a.mode = .input then trimmed (senseTrim a) v else v, sampled := decide (a.mode ≠ .changing),
        uncertainNow := a.uncertainNext, uncertainNext := false, measLeft := a.measLeft - 1 }) ∧
      (let b := bandStep (anaBounds s) a.band v
       (b = a.band → becomes (.islandTemperatureSample now ch v) (fun a => { a with temp := v })) ∧
       (b ≠ a.band → a.step = none → becomes (.islandTemperatureSample now ch v) (fun a => { a with
         temp := v, band := b, blendLeft := 256, measLeft := 256 }))) ∧
      (a.open_ = yes → exec (.loopOpen now ch yes) s = .next n) ∧
      (a.open_ ≠ yes → logs (.loopOpen now ch yes) { a with open_ := yes }) ∧
      (isOutputMode a.mode = true → a.comply = false → v < 500 →
        logs (.complianceLack now ch v true) { a with
          headroomMv := v, comply := true, current := min a.meas a.current }) ∧
      (isOutputMode a.mode = true → a.comply = true → 1000 ≤ v → a.current = moveTarget s c a →
        logs (.complianceLack now ch v false) { a with headroomMv := v, safeMove := true, comply := false }) ∧
      (a.mode ≠ .changing ∨ a.crossing = true → exec (.modeChangeComplete now ch) s = .next n) ∧
      (a.mode = .changing → a.crossing = false → s.field.safe = none → s.twin.role ≠ .watch →
        let m := a.nextMode
        becomes (.modeChangeComplete now ch) (fun a => { a with
          mode := m, current := floorCurrent m, setPoint := floorCurrent m, segFrom := floorCurrent m, segAt := 0,
          hold := false, safeMove := false, pass := false, sampled := false, open_ := false, comply := false,
          clamped := false })) ∧
      (isOutputMode a.mode = false ∨ a.open_ = true ∨ a.failOver = true ∨ a.step = some 5 ∨ a.step = some 6 →
        exec (.activeStageFailure now ch) s = .next n) ∧
      (isOutputMode a.mode = true → a.open_ = false → a.failOver = false → a.step ≠ some 5 → a.step ≠ some 6 →
        (stageFault a (!a.stageB) = true → a.chFault = false →
          logs (.activeStageFailure now ch) { a with chFault := true }) ∧
        (stageFault a (!a.stageB) = false → a.trimRef = none → a.relayRef = none → relayBlocked a = false →
          becomes (.activeStageFailure now ch) (fun a => { a with step := some 4, calReady := false, failOver := true })) ∧
        (stageFault a (!a.stageB) = false → a.trimRef = none → a.relayRef = none → relayBlocked a = true →
          becomes (.activeStageFailure now ch) (fun a => { a with step := some 3, calReady := true, failOver := true }))))

/-- Relay calibration, trim and their commands (R446, R453-R457, R475, R476): when a calibration starts, its six steps, the
corrections of the idle stage, the handover, an abort, the blocked step 4, and what ANA.TRIM and ANA.RELAY start or answer.
Where the manual leaves a point open it states the reading of log entry 58. -/
def Obligations.RelayCalibration : Prop :=
  ∀ (s : State) (now : Tb) (ch : Fin 8) (v : Int) (c : CmdRef) (k kind : Nat) (mask : BitVec 8),
    let n := s.at now
    let i := ch.val
    let a := island s i
    let free := a.trimRef = none ∧ a.relayRef = none
    let ends := Instr.relayCalibrationStepEnd now ch v
    let becomes := fun (i : Instr) (f : Island → Island) => exec i s = .next (modAna n ch.val f)
    (anaOn s i = false → exec (.relayCalibrationDue now ch) s = .next n ∧ exec ends s = .next n ∧
      exec (.handoverAbort now ch) s = .next n ∧ exec (.relayHandoverBlocked now ch) s = .next n) ∧
    (anaOn s i = true →
      (calDue s i = false → exec (.relayCalibrationDue now ch) s = .next n) ∧
      (calDue s i = true → becomes (.relayCalibrationDue now ch) (fun a => { a with
        step := some 1, calReady := false, newTrim := Trim.zero, failOver := false })) ∧
      (a.step = none → exec ends s = .next n) ∧
      (a.step = some 1 → becomes ends (fun a => { a with step := some 2 })) ∧
      (a.step = some 2 → becomes ends (fun a => { a with step := some 3, newTrim := { a.newTrim with z := v - 4000000 } })) ∧
      (a.step = some 3 → a.calReady = false → free → a.band < 8 →
        let new : Trim := { a.newTrim with g := gainOf a.newTrim.z v }
        (trimOk new = true → ∃ t, exec ends s = .next t ∧ stageTrim (island t i) (!a.stageB) = new ∧
          stageTrim (island t i) a.stageB = stageTrim a a.stageB ∧
          (island t i).step = (if relayBlocked a then some 3 else some 4) ∧ { t with ana := s.ana } = n) ∧
        (trimOk new = false → ∃ t, exec ends s = .next t ∧ stageFault (island t i) (!a.stageB) = true ∧
          (island t i).step = none ∧ (island t i).current = a.current ∧ { t with ana := s.ana, log := s.log } = n)) ∧
      (a.step = some 4 → becomes ends (fun a => { a with step := some 5 })) ∧
      (a.step = some 5 → a.hartQueue = [] → becomes ends (fun a => { a with
        step := some 6, stageB := !a.stageB, useTrim := stageTrim a (!a.stageB), blendLeft := 0 })) ∧
      (a.step = some 6 → a.failOver = false → free → ∃ t, exec ends s = .next t ∧ (island t i).step = none ∧
        (island t i).calCount = a.calCount + 1 ∧ (island t i).relayDone = s.power.opsec ∧
        (island t i).relayNext = s.power.opsec + anaP s i 0x12 ∧ (island t i).aborts = 0) ∧
      (a.step ≠ some 5 → exec (.handoverAbort now ch) s = .next n) ∧
      (a.step = some 5 → free → a.hartQueue = [] → a.aborts = 0 → becomes (.handoverAbort now ch) (fun a => { a with
        step := none, failOver := false, uncertainNext := true, aborts := 1, relayNext := s.power.opsec + anaP s i 0x12 })) ∧
      (a.step = some 5 → free → 1 ≤ a.aborts → ∃ t, exec (.handoverAbort now ch) s = .next t ∧ (island t i).step = none ∧
        stageFault (island t i) (!a.stageB) = true ∧ (island t i).stageB = a.stageB) ∧
      (a.step ≠ some 3 ∨ a.calReady = false → exec (.relayHandoverBlocked now ch) s = .next n) ∧
      (a.step = some 3 → a.calReady = true → free → becomes (.relayHandoverBlocked now ch) (fun a => { a with
        step := none, calReady := false, failOver := false, relayNext := s.power.opsec + 10 }))) ∧
    works s now c (.anaTrim now c i kind) (fun x b t => lastStage x = true →
      let a := island b i
      (∀ e, closingEntry b (0x10 + i) = some e → endsAs b t c x stFault (BitVec.ofNat 8 (0x10 + i)) e.2.1 []) ∧
      (closingEntry b (0x10 + i) = none →
        (a.mode = .changing ∨ a.trimRef.isSome = true ∨ a.failOver = true → onlyAnswers b t c [2, 0, 0, 0, 0, 0, 0, 0]) ∧
        (a.mode ≠ .changing → a.trimRef = none → a.failOver = false → a.relayRef = none → waits t c ∧
          island t i = { a with trimRef := some c, trimSecond := false, step := some 1, calReady := false,
                                newTrim := Trim.zero } ∧ ∀ j, j ≠ i → island t j = island b j))) ∧
    works s now c (.anaRelay now c mask) (fun x b t => lastStage x = true →
      (∀ j, j < 8 → mask.getLsbD j = true → closingEntry b (0x10 + j) = none) →
      (mask.getLsbD k = true → k < 8 → (island b k).mode ≠ .changing → (island b k).relayRef = none →
        (island b k).trimRef = none → (island b k).failOver = false → (island b k).faultA = false →
        (island b k).faultB = false →
        waits t c ∧ (island t k).relayRef = some (c, 0) ∧ (island t k).step.isSome = true) ∧
      (mask = 0 → (∀ j r, (island b j).relayRef = some r → r.1 ≠ c) → endsDone b t c [0]))

/-- HART (R467-R473): polls of a primary master, their replies, retries and misses; a host frame is sent in turn and its reply
answers ANA.HART; a field device answers what addresses it.
Where the manual leaves a point open it states the reading of log entry 51. -/
def Obligations.HartTransactions : Prop :=
  ∀ (s : State) (now : Tb) (ch : Fin 8) (c r : CmdRef) (frame fr : List Byte) (reply : Option (List Byte)),
    let n := s.at now
    let i := ch.val
    let a := island s i
    let becomes := fun (x : Instr) (f : Island → Island) => exec x s = .next (modAna n ch.val f)
    (anaOn s i = false → exec (.hartPoll now ch) s = .next n ∧ exec (.hartReply now ch reply) s = .next n ∧
      exec (.hartRequest now ch frame) s = .next n) ∧
    (anaOn s i = true →
      (hartMaster s i = false ∨ a.hartBusy = true ∨ a.step = some 5 → exec (.hartPoll now ch) s = .next n) ∧
      (hartMaster s i = true → a.hartBusy = false → a.step ≠ some 5 →
        let p := match a.hartLong with
          | none => [0x02, 0x80, 0, 0]
          | some addr => [0x82] ++ addr ++ [3, 0]
        becomes (.hartPoll now ch) (fun a => { a with
          hartTries := 0, hartHost := false, hartBusy := true, hartSent := p ++ [hartCheck p] })) ∧
      (a.hartBusy = false → exec (.hartReply now ch reply) s = .next n) ∧
      (a.hartBusy = true → a.hartHost = false → a.hartQueue = [] →
        (a.hartTries < 2 → becomes (.hartReply now ch none) (fun a => { a with hartTries := a.hartTries + 1 })) ∧
        (2 ≤ a.hartTries → becomes (.hartReply now ch none) (fun a => { a with
          hartBusy := false, hartTries := 0, hartOk := false, hartMiss := a.hartMiss + 1,
          hartLong := if 2 ≤ a.hartMiss then none else a.hartLong })) ∧
        (replyValid a fr = true → hartCmd fr = 0 → becomes (.hartReply now ch (some fr)) (fun a => { a with
          hartBusy := false, hartMiss := 0, hartOk := true, hartTries := 0,
          hartLong := some (longAddress (hartData fr)) })) ∧
        (replyValid a fr = true → hartCmd fr = 3 → (hartData fr).getD 0 0 = 0 →
          becomes (.hartReply now ch (some fr)) (fun a => { a with
            hartBusy := false, hartMiss := 0, hartOk := true, hartTries := 0, hartLastReply := some n.tb, hartResp := 0,
            hartStatus := (hartData fr).getD 1 0, hartVars := dynamicVars (hartData fr) }))) ∧
      (a.hartBusy = true → a.hartHost = true → a.hartQueue = [(r, frame)] →
        (∃ t, exec (.hartReply now ch none) s = .next t ∧ endsDone n t r (le 2 0) ∧ (island t i).hartQueue = [] ∧
          (island t i).hartBusy = false) ∧
        (hartOkFrame fr = true → hartCount fr ≤ 32 → ∃ t, exec (.hartReply now ch (some fr)) s = .next t ∧
          endsDone n t r (le 2 (fr.length - 1) ++ fr.dropLast) ∧ (island t i).hartQueue = [])) ∧
      (hartDeviceRole s i = false → exec (.hartRequest now ch fr) s = .next n) ∧
      (hartDeviceRole s i = true → hartOkFrame fr = false →
        becomes (.hartRequest now ch fr) (fun a => { a with hartErr := a.hartErr + 1 })) ∧
      (hartDeviceRole s i = true → hartOkFrame fr = true → fr.getD 0 0 &&& 0x07 = 0x02 → addressed s i fr = true →
        ∀ rc data, deviceReply n i fr = some (rc, data) →
          let body := [fr.getD 0 0 ||| 0x04] ++ hartAddr fr ++ [BitVec.ofNat 8 (hartCmd fr), BitVec.ofNat 8 (data.length + 2)]
            ++ [rc, deviceStatus n i] ++ data
          becomes (.hartRequest now ch fr) (fun a => { a with
            hartSent := body ++ [hartCheck body], hartAnswered := some n.tb,
            hartCfgChanged := a.hartCfgChanged && decide (hartCmd fr ≠ 38) }))) ∧
    works s now c (.anaHart now c i frame) (fun x b t => lastStage x = true →
      (∀ e, closingEntry b (0x10 + i) = some e → endsAs b t c x stFault (BitVec.ofNat 8 (0x10 + i)) e.2.1 []) ∧
      (closingEntry b (0x10 + i) = none → hartMaster b i = false → onlyAnswers b t c (le 2 0xFFFF)) ∧
      (closingEntry b (0x10 + i) = none → hartMaster b i = true → (island b i).hartQueue = [] →
        (island b i).hartBusy = false → (island b i).step ≠ some 5 → waits t c ∧
        island t i = { island b i with hartQueue := [(c, frame)], hartHost := true, hartBusy := true,
                                       hartSent := frame ++ [hartCheck frame] }))

/-! ### Bus lines -/

/-- The cyclic exchange of a line (R483-R487, R496, R499-R501, R505, R513): t_k, a whole number of cycle times after the last,
counts the cycle and loads SYNC; windows and slots load their frames; transmit outcomes, the buffer that arbitration offers
starting; the frames a window end aborts; error counts, bus-off and its recovery.
Where the manual leaves a point open it states the reading of log entries 14, 71 and 72. -/
def Obligations.BusCycleAndTransmission : Prop :=
  ∀ (s : State) (now : Tb) (l : Line) (k : Fin 3) (f : TxFrame) (c : CmdRef) (sl : Nat),
    let n := s.at now
    let b := lineOfBus s l
    let becomes := fun (i : Instr) (g : BusLine → BusLine) => exec i s = .next (modLine n l g)
    let others := fun (t : State) => ∀ j, j ≠ l → lineOfBus t j = lineOfBus s j
    let logged := fun (i : Instr) (x : BusLine) => ∃ t, exec i s = .next t ∧ lineOfBus t l = x ∧ others t ∧
      { t with busA := s.busA, busB := s.busB, log := s.log } = n
    let sent := fun (o : TxOutcome) => Instr.busFrameTransmitted now l k o
    (lineUp s l = false ∨ drives s = false ∨ b.sleepReq.isSome = true ∨
      (b.cycleRunning = true ∧ (n.tb ≤ b.tk ∨ (n.tb - b.tk) % usToTb (busP s l 7) ≠ 0)) →
      exec (.busCycleStart now l) s = .next n) ∧
    (lineUp s l = true → drives s = true → b.sleepReq = none →
      b.cycleRunning = false ∨ (b.tk < n.tb ∧ (n.tb - b.tk) % usToTb (busP s l 7) = 0) → ∃ t, exec (.busCycleStart now l) s = .next t ∧ others t ∧
      (let u := lineOfBus t l
       u.cycle = (b.cycle + 1) % 2 ^ 32 ∧ u.tk = n.tb ∧ u.cycleRunning = true ∧ u.busy ≤ 1000 ∧ u.fifo = b.fifo ∧
       (∀ j, (station t l j).confirmed = false ∧ (station t l j).publishedNow = false ∧
         (station t l j).state = (station s l j).state) ∧
       (busP s l 0 ≠ 2 → u.outQueue = b.outQueue ∧ u.txb = b.txb) ∧
       (busP s l 0 = 2 → lineReceives s l = true → vget b.txb 0 none = none →
         ∃ y, vget u.txb 0 none = some y ∧ y.sync = true ∧ y.frame.id = 0 ∧ y.frame.data = le 8 0 ++ le 4 u.cycle ∧
           u.snapSafe = safeStations s l)) ∧
      { t with busA := s.busA, busB := s.busB, freeIdx := s.freeIdx } = n) ∧
    (lineReceives s l = false ∨ b.cycleRunning = false ∨ drives s = false →
      exec (.busWindowStart now l .output) s = .next n ∧ exec (.busWindowStart now l (.slot sl)) s = .next n) ∧
    (lineReceives s l = true → b.cycleRunning = true → drives s = true →
      (busP s l 0 = 2 → becomes (.busWindowStart now l .output)
        (fun b => fillTx { b with outQueue := b.outQueue ++ outputFrames s l })) ∧
      (sl < (windows s l).slots → slotFrame s l sl = some f → becomes (.busWindowStart now l (.slot sl))
        (fun b => { b with txb := vset b.txb 2 (some f), outQueue := b.outQueue.erase f })) ∧
      (slotFrame s l sl = none ∨ (windows s l).slots ≤ sl → exec (.busWindowStart now l (.slot sl)) s = .next n)) ∧
    (lineReceives s l = false ∨ vget b.txb k.val none = none → ∀ o, exec (sent o) s = .next n) ∧
    (lineReceives s l = true → vget b.txb k.val none = some f →
      (offered s l ≠ some k.val → exec (sent .started) s = .next n) ∧
      (offered s l = some k.val → f.sync = false → f.time = false → becomes (sent .started)
        (fun b => { b with txb := vset b.txb k.val (some { f with postmark := n.tb / 5 * 5, lost := false, err := false }) })) ∧
      (offered s l = some k.val → f.sync = true → n.tb ≤ b.tk + psToTb (windows s l).slot → becomes (sent .started)
        (fun b => { b with txb := vset b.txb k.val (some { f with
          postmark := n.tb / 5 * 5, lost := false, err := false,
          frame := { f.frame with data := le 8 (n.tb / 5 * 5) ++ f.frame.data.drop 8 } }) })) ∧
      becomes (sent .lostArbitration)
        (fun b => { b with txb := vset b.txb k.val (some { f with lost := true, err := false }) }) ∧
      becomes (sent .error)
        (fun b => { b with txb := vset b.txb k.val (some { f with err := true, lost := false }) }) ∧
      (f.ref = some c → f.sync = false → f.heartbeat = false → k = 2 → ∃ t, exec (sent .acknowledged) s = .next t ∧
        endsDone n t c ([1, 0] ++ le 8 f.postmark) ∧ vget (lineOfBus t l).txb 2 none = none ∧
        (lineOfBus t l).tec = b.tec - 1 ∧ others t)) ∧
    (lineUp s l = false → exec (.windowOrSlotEnd now l) s = .next n) ∧
    (lineUp s l = true → (∀ j y, vget b.txb j none = some y → y.ref = none) →
      ∃ t, exec (.windowOrSlotEnd now l) s = .next t ∧ others t ∧
        lineOfBus t l = { b with txb := Vector.replicate 3 none, outQueue := b.outQueue.filter isService,
                                 aborted := (lineOfBus t l).aborted } ∧
        (lineOfBus t l).aborted = b.aborted + (b.txb.toList.filterMap id).length +
          (b.outQueue.filter (fun y => !isService y)).length) ∧
    (lineUp s l = true → b.txb = Vector.ofFn (fun j => if j.val = 2 then some f else none) → f.ref = some c →
      ∃ t, exec (.windowOrSlotEnd now l) s = .next t ∧
        endsDone n t c ([0, if b.busOff then 3 else if f.err then 2 else 1] ++ le 8 0)) ∧
    (lineReceives s l = false → ∀ e, exec (.busError now l e) s = .next n) ∧
    (lineReceives s l = true → b.tec ≤ 255 →
      logged (.busError now l .receive) { b with recErr := Nat.min (b.recErr + 1) 255 }) ∧
    (lineReceives s l = true → b.tec + 8 ≤ 255 → logged (.busError now l .transmit) { b with tec := b.tec + 8 }) ∧
    (lineReceives s l = true → 255 < b.tec + 8 → ∃ t, exec (.busError now l .transmit) s = .next t ∧
      (lineOfBus t l).busOff = true ∧ (lineOfBus t l).busOffs = b.busOffs + 1 ∧ (lineOfBus t l).outQueue = [] ∧
      (lineOfBus t l).txb = Vector.replicate 3 none ∧ others t) ∧
    (lineUp s l = false ∨ b.busOff = false ∨ busP s l 0xF ≠ 1 → exec (.busOffRecovery now l) s = .next n) ∧
    (lineUp s l = true → b.busOff = true → busP s l 0xF = 1 →
      logged (.busOffRecovery now l) { b with busOff := false, tec := 0, recErr := 0 })

/-- Reception and the judgement of stations (R488-R490, R504, R506, R507, R511, R512): the first filter that matches takes a
frame to the FIFO or counts its overflow; an input frame of the cycle is kept, one of another cycle discarded; a complete set is
published; missed cycles make a station LOST, a wrong map MAP_ERR; the FIFO drains; filters age.
Where the manual leaves a point open it states the reading of log entries 61 and 73. -/
def Obligations.BusReceptionAndStations : Prop :=
  ∀ (s : State) (now : Tb) (l : Line) (f : CanFrame) (k st : Nat) (rest : List (CanFrame × Nat × Nat)) (mark : Nat)
    (flt : Fin 32),
    let n := s.at now
    let b := lineOfBus s l
    let others := fun (t : State) => ∀ j, j ≠ l → lineOfBus t j = lineOfBus s j
    let got := fun (g : BusLine → BusLine) => ∃ t, exec (.busFrameReceived now l f) s = .next t ∧
      lineOfBus t l = g { b with recErr := if 127 < b.recErr then 127 else b.recErr - 1 } ∧ others t ∧
      { t with busA := s.busA, busB := s.busB, log := s.log } = n
    let filtered := f.ext = true ∨ (f.id ≠ 0x780 ∧ f.id ≠ 0x7C0 ∧ (busP s l 0 ≠ 2 ∨ f.id / 512 = 3 ∨
      (f.id / 512 = 1 ∧ isExchange s l (f.id % 64) = false)))
    let first := (List.range 32).find? (fun k => filterMatches s l k f)
    let x := station s l st
    let exchanging := lineUp s l = true ∧ busP s l 0 = 2 ∧ b.cycleRunning = true
    let whole := (inFrames (stMap s l st)).all (fun y => x.frames.any (fun z => z.1 = y.1))
    (lineReceives s l = false → exec (.busFrameReceived now l f) s = .next n ∧ exec (.fifoDrain now l) s = .next n) ∧
    (lineReceives s l = true → filtered → first = none → got id) ∧
    (lineReceives s l = true → filtered → first = some k →
      (b.fifo.length < 64 → got (fun b => { b with
        filterAt := vset b.filterAt k (some n.tb), fifo := b.fifo ++ [(f, k, n.tb / 5 * 5)] })) ∧
      (64 ≤ b.fifo.length → got (fun b => { b with filterAt := vset b.filterAt k (some n.tb), fifoOvf := b.fifoOvf + 1 }))) ∧
    (lineReceives s l = true → busP s l 0 = 2 → f.ext = false → f.id = 512 + 64 * k + st → k < 7 → st < 64 →
      isExchange s l st = true →
      (field f.data 0 1 % 16 ≠ b.cycle % 16 ∨ x.publishedNow = true →
        got (fun b => { b with discarded := b.discarded + 1 })) ∧
      (field f.data 0 1 % 16 = b.cycle % 16 → x.publishedNow = false → n.tb ≤ b.tk + psToTb (inputEnd s l b.cycle) →
        (let kept : Station := { x with frames := x.frames.filter (fun y => y.1 ≠ k) ++ [(k, f.data)] }
         let bad : Station := { x with mapBad := true }
         got (fun b => { b with stations := vset b.stations st (if field f.data 2 2 = stP s l st 2 then kept else bad) })))) ∧
    (¬ exchanging → exec (.inputWindowEnd now l) s = .next n ∧ exec (.confirmationWindowEnd now l) s = .next n) ∧
    (exchanging → st ∈ exchangeStations s l → ∃ t, exec (.inputWindowEnd now l) s = .next t ∧ others t ∧
      (inFrames (stMap s l st) = [] ∨ whole = false → station t l st = x) ∧
      (inFrames (stMap s l st) ≠ [] → whole = true → (station t l st).hasPub = true ∧
        (station t l st).publishedNow = true ∧ (station t l st).frames = x.frames ∧ (station t l st).state = x.state) ∧
      t.image = s.image) ∧
    (exchanging → st ∈ exchangeStations s l → ∃ t u, exec (.confirmationWindowEnd now l) s = .next t ∧ others t ∧
      u = station t l st ∧
      (let good := x.mapBad = false ∧ (inFrames (stMap s l st) = [] ∨ x.publishedNow = true) ∧
         (outFrames (stMap s l st) = [] ∨ x.confirmed = true)
       (good → u.missed = 0 ∧ u.good = x.good + 1) ∧ (¬ good → u.missed = x.missed + 1 ∧ u.good = 0) ∧
       (x.state = .asleep → u.state = .asleep) ∧
       (x.state ≠ .asleep → x.mapBad = true → u.state = .mapErr) ∧
       (x.state = .missing → good → u.state = .ok) ∧
       (x.state = .ok ∨ x.state = .missing → x.mapBad = false → ¬ good → busP s l 9 ≤ x.missed + 1 → u.state = .lost) ∧
       (x.state = .ok → x.mapBad = false → ¬ good → x.missed + 1 < busP s l 9 → u.state = .missing))) ∧
    (lineReceives s l = true → b.fifo = [] → exec (.fifoDrain now l) s = .next n) ∧
    (lineReceives s l = true → b.fifo = (f, k, mark) :: rest → busP s l (0x22 + 4 * k) % 4 ≠ 1 →
      ∃ t, exec (.fifoDrain now l) s = .next t ∧ lineOfBus t l = { b with fifo := rest } ∧ others t ∧
        { t with busA := s.busA, busB := s.busB, log := s.log } = n) ∧
    (lineReceives s l = true → b.fifo = (f, k, mark) :: rest → busP s l (0x22 + 4 * k) % 4 = 1 →
      ∃ t, exec (.fifoDrain now l) s = .next t ∧ (lineOfBus t l).fifo = rest ∧ t.log = s.log ∧ t.image = s.image ∧
        let (y, j, m) := filterWords s l k
        y < 64 → ∀ i, i < m → 4 * i + 4 ≤ f.data.length →
          smGet itemDefault (station t l y).pub (stInWord l y (j + i)) = ⟨BitVec.ofNat 40 (field f.data (4 * i) 4), 0⟩) ∧
    (let age := busP s l (0x23 + 4 * flt.val)
     let old := (vget b.filterAt flt.val none).any (fun t => decide (t + msToTb age ≤ n.tb))
     (lineUp s l = false ∨ age = 0 ∨ old = false → exec (.filterAgeExpiry now l flt) s = .next n) ∧
     (lineUp s l = true → age ≠ 0 → old = true → busP s l (0x22 + 4 * flt.val) % 4 = 1 →
       ∃ t, exec (.filterAgeExpiry now l flt) s = .next t ∧ others t ∧ t.image = s.image ∧
         let (y, j, m) := filterWords s l flt.val
         ∀ e ∈ (station t l y).pub, (∃ i, i < m ∧ e.1 = stInWord l y (j + i)) → tagQ e.2.tag = qStale))

/-- Service of the lines (R392, R502, R510, R513-R516): BUS.SEND waits for its booked slot or answers why it did not go;
BUS.SLEEP waits for the end of the cycle and the sleep, or answers at once; sleep entry, wake; bus heartbeats.
Where the manual leaves a point open it states the reading of log entry 73. -/
def Obligations.BusServiceCommands : Prop :=
  ∀ (s : State) (now : Tb) (l : Line) (c : CmdRef) (frame : CanFrame) (mode side role term seq : Nat) (r : Option CmdRef),
    let n := s.at now
    let b := lineOfBus s l
    let others := fun (t : State) => ∀ j, j ≠ l → lineOfBus t j = lineOfBus s j
    works s now c (.busSend now c l frame) (fun x b t =>
      let u := lineOfBus b l
      let misses := fun (reason : Byte) => answers t c ([0, reason] ++ le 8 0) ∧ lineOfBus t l = u
      (∀ e, closingEntry b (busUnit l) = some e → endsAs b t c x stFault (BitVec.ofNat 8 (busUnit l)) e.2.1 []) ∧
      (closingEntry b (busUnit l) = none →
        let booked := b.book.bus.any (fun y => y.1 = l && y.2.2 = c && decide (slotId u.cycle 0 ≤ y.2.1))
        (u.busOff = true → misses 3) ∧ (u.busOff = false → u.asleep = true → misses 4) ∧
        (u.busOff = false → u.asleep = false → booked = false → misses 5) ∧
        (u.busOff = false → u.asleep = false → booked = true → waits t c ∧ ∃ y, y.frame = frame ∧ y.ref = some c ∧
          lineOfBus t l = { u with outQueue := u.outQueue ++ [y] } ∧ t.book = b.book))) ∧
    works s now c (.busSleep now c l mode) (fun x b t =>
      let u := lineOfBus b l
      (∀ e, closingEntry b (busUnit l) = some e → endsAs b t c x stFault (BitVec.ofNat 8 (busUnit l)) e.2.1 []) ∧
      (closingEntry b (busUnit l) = none →
        (mode ≠ 2 → u.asleep = false → waits t c ∧ lineOfBus t l = { u with sleepReq := some (mode, some c) }) ∧
        (mode ≠ 2 → u.asleep = true → answers t c (le 8 b.tb) ∧ lineOfBus t l = { u with wakeMode := mode }) ∧
        (mode = 2 → u.asleep = false → answers t c (le 8 b.tb) ∧ lineOfBus t l = { u with sleepReq := none }) ∧
        (mode = 2 → u.asleep = true → busP b l 0 = 2 → drives b = true → waits t c ∧ (lineOfBus t l).asleep = false ∧
          (lineOfBus t l).wakeRef = some c ∧ (lineOfBus t l).started = true))) ∧
    (b.sleepReq = none → exec (.transceiverSleepEntry now l) s = .next n) ∧
    (b.sleepReq = some (mode, r) → ∃ t, exec (.transceiverSleepEntry now l) s = .next t ∧ others t ∧
      (let u := lineOfBus t l
       u.asleep = true ∧ u.sleepReq = none ∧ u.wakeMode = mode ∧ u.cycleRunning = false ∧ u.outQueue = [] ∧
       u.txb = Vector.replicate 3 none) ∧ ∀ j ∈ stationNumbers, (station t l j).state = .asleep) ∧
    (dieRuns s = false ∨ b.asleep = false → exec (.busWake now l) s = .next n) ∧
    (dieRuns s = true → b.asleep = true → ∃ t, exec (.busWake now l) s = .next t ∧ others t ∧
      (let u := lineOfBus t l
       u.asleep = false ∧ u.started = true ∧ u.cycleRunning = false ∧
       u.stations = Vector.replicate 64 Station.fresh)) ∧
    (paired s = false ∨ lineReceives s l = false → exec (.busHeartbeatDue now l) s = .next n) ∧
    (paired s = true → lineReceives s l = true → drives s = true → exec (.busHeartbeatDue now l) s = .next (modLine n l
      (fun b => { b with outQueue := heartbeatFrame n :: b.outQueue.filter (fun g => !g.heartbeat) }))) ∧
    (paired s = false ∨ dieRuns s = false ∨ heartbeatLine s l = false ∨ side = twinSide s →
      exec (.busHeartbeatReceived now l side role term seq) s = .next n) ∧
    (paired s = true → dieRuns s = true → heartbeatLine s l = true → side ≠ twinSide s → s.twin.role = .watch →
      exec (.busHeartbeatReceived now l side role term seq) s = .next { n with twin := { s.twin with
        heardAny := setPairOf l s.twin.heardAny (some n.tb),
        heardHelm := if role = 1 then setPairOf l s.twin.heardHelm (some n.tb) else s.twin.heardHelm,
        heardStart := if role = 0 then setPairOf l s.twin.heardStart (some (n.tb, term, seq)) else s.twin.heardStart } })

/-! ### Display -/

/-- The display (R524, R525, R528-R532, R535-R545): DSP.MODE; LCD frames; bistable updates, full rewrites and their phases, with
VDSP0 and the hold-up energy they need; the CRC, panel image and crack loop checks; the band.
Where the manual leaves a point open it states the reading of log entries 77 and 78. -/
def Obligations.DisplayRules : Prop :=
  ∀ (s : State) (now : Tb) (c : CmdRef) (owner mv k com : Nat) (t10 : Int) (u : DspUpdate) (up : Bool)
    (rest : List (Nat × Bool)),
    let n := s.at now
    let d := s.dsp
    let becomes := fun (i : Instr) (e : Display) => exec i s = .next { n with dsp := e }
    let judged := fun (i : Instr) (e : Display) => ∃ t, exec i s = .next t ∧ t.dsp = e ∧
      { t with dsp := s.dsp, log := s.log } = n
    let half := blinkHalf n
    let seen : Display := { d with vdsp0 := mv, blinkOff := half }
    let m := { n with dsp := seen }
    let phases := updatePhases d.panel (bistableTarget m) (dspP s 1)
    let ms := phasesMs s d.band
    works s now c (.dspMode now c owner) (fun _ b t => answers t c [] ∧ t.host.dspOwner = decide (owner = 1) ∧
      { t with host := b.host } = b) ∧
    (dspP s 0 ≠ 1 ∨ dspAlive s = false ∨ s.power.mode = .dormant → exec (.lcdFrameStart now mv) s = .next n) ∧
    (dspP s 0 = 1 → dspAlive s = true → s.power.mode ≠ .dormant →
      let rate := dspP s (0x10 + d.band)
      let off := blinkResolved s rate && half
      (checksCrc s = false → becomes (.lcdFrameStart now mv) { d with
        vdsp0 := mv, rate, switches := d.switches && decide (7000 < mv), blinkOff := off,
        panel := if d.blank || (d.fault && decide (dspP s 7 = 1)) then blankFrame else shownFrame off d.frame }) ∧
      (checksCrc s = true → crc16 d.frame ≠ d.crc → 1 ≤ d.crcBad →
        ∃ t, exec (.lcdFrameStart now mv) s = .next t ∧ t.dsp.fault = true ∧ t.dsp.goodCnt = 0 ∧
          (dspP s 7 = 1 → t.dsp.panel = blankFrame))) ∧
    (updatesPossible s = false → exec (.bistableUpdateStart now mv) s = .next n ∧ exec (.fullRewrite now) s = .next n) ∧
    (updatesPossible s = true →
      (d.rewrite.isSome = true ∨ phases = [] ∨ (mv < 100 * dspP s 8 ∧ neverFits n (ms phases) = false) →
        becomes (.bistableUpdateStart now mv) seen) ∧
      (d.rewrite = none → phases ≠ [] → 100 * dspP s 8 ≤ mv → energyFor n (updateNj (ms phases)) = true →
        ∃ t, exec (.bistableUpdateStart now mv) s = .next t ∧
          t.dsp.update = some ⟨bistableTarget m, phases, d.band, none, updateNj (ms phases)⟩ ∧ t.dsp.panel = d.panel ∧
          t.power.reservedNj = s.power.reservedNj + updateNj (ms phases)) ∧
      (d.rewrite = none → exec (.fullRewrite now) s = .next n) ∧
      (d.rewrite = some k → 100 * dspP s 8 ≤ d.vdsp0 → energyFor n (updateNj (ms (rewritePhases (dspP s 1)))) = true →
        ∃ t y, exec (.fullRewrite now) s = .next t ∧ t.dsp.update = some y ∧ y.left = rewritePhases (dspP s 1) ∧
          y.full = some k ∧ t.dsp.panel = d.panel ∧ t.power.reservedNj = s.power.reservedNj + y.energy)) ∧
    (d.update = none → exec (.bistablePhaseEnd now mv) s = .next n) ∧
    (d.update = some u → u.left = (com, up) :: rest →
      let panel := pulseCommon d.panel u.target com up
      (rest ≠ [] → 100 * dspP s 8 ≤ mv → becomes (.bistablePhaseEnd now mv) { d with
        panel, update := some { u with left := rest }, vdsp0 := mv }) ∧
      (rest ≠ [] → mv < 100 * dspP s 8 → becomes (.bistablePhaseEnd now mv) { d with
        panel, update := some { u with left := rest, full := none }, vdsp0 := mv, rewrite := some 4 }) ∧
      (rest = [] → 100 * dspP s 8 ≤ mv → u.full = none → d.rewrite = some k → checksCrc s = false →
        s.power.failing = false → ∃ t, exec (.bistablePhaseEnd now mv) s = .next t ∧
          t.dsp = { d with panel, update := none, vdsp0 := mv, switches := true } ∧
          t.power = { s.power with reservedNj := s.power.reservedNj - u.energy })) ∧
    (let off := dspP s 0 ≠ 2 ∨ d.update.isSome = true ∨ dspAlive s = false ∨ checksCrc s = false
     let good := crc16 d.frame = d.crc ∧ panelMatches s = true
     (off → exec (.panelImageCheck now) s = .next n) ∧
     (¬ off → good → d.goodCnt + 1 < 10 →
       becomes (.panelImageCheck now) { d with crcBad := 0, goodCnt := d.goodCnt + 1 }) ∧
     (¬ off → good → 10 ≤ d.goodCnt + 1 → d.fault = true → judged (.panelImageCheck now) { d with
       crcBad := 0, goodCnt := d.goodCnt + 1, fault := false, faultCode := 0 }) ∧
     (¬ off → ¬ good → d.crcBad = 0 → becomes (.panelImageCheck now) { d with crcBad := 1, goodCnt := 0 }) ∧
     (¬ off → ¬ good → 1 ≤ d.crcBad → d.fault = false → judged (.panelImageCheck now) { d with
       crcBad := d.crcBad + 1, goodCnt := 0, fault := true, faultCode := 1 })) ∧
    (s.field.lockout = true → exec (.displayNtcRead now t10) s = .next n ∧ exec (.crackLoopMeasure now k) s = .next n) ∧
    (s.field.lockout = false →
      (t10 < -550 ∨ 1500 < t10 → judged (.displayNtcRead now t10) { d with ntcFault := true, band := dspP s 9 }) ∧
      (-550 ≤ t10 → t10 ≤ 1500 → judged (.displayNtcRead now t10) { d with
        ntcFault := false, band := bandStep (dspBounds s) d.band t10 }) ∧
      (checksCrack s = false → exec (.crackLoopMeasure now k) s = .next n) ∧
      (checksCrack s = true → 200 < k → k ≤ 2000 → judged (.crackLoopMeasure now k) { d with
        crackOhm := k, degraded := true, crackBad := 0, goodCnt := 0 }) ∧
      (checksCrack s = true → 2000 < k → d.crackBad < 2 → becomes (.crackLoopMeasure now k) { d with
        crackOhm := min k 10000, degraded := false, crackBad := d.crackBad + 1, goodCnt := 0 }) ∧
      (checksCrack s = true → 2000 < k → 2 ≤ d.crackBad → d.fault = false → judged (.crackLoopMeasure now k) { d with
        crackOhm := min k 10000, degraded := false, crackBad := d.crackBad + 1, goodCnt := 0, fault := true,
        faultCode := 2 }))

/-! ### Clock -/

/-- The time register and its commands (R546, R548, R552, R554, R555, R557-R563, R576): a tick advances it by one count, by two
or none for a correction or a shift; the trim step at a second; TIME.SET loads at the next tick; TIME.SHIFT and TIME.TRIM;
anchors.
Where the manual leaves a point open it states the reading of log entry 75. -/
def Obligations.ClockTicksAndCommands : Prop :=
  ∀ (s : State) (now : Tb) (c r : CmdRef) (y mo d h mi se sec div source : Nat) (sh fixed : Int),
    let n := dieAt s now
    let k := s.clock
    let tick := Instr.crystalTick now
    let bands := if dieRuns s then vmod k.winBands s.power.band (· + 1) else k.winBands
    let ticked := fun (e : Clock) => exec tick s = .next { n with clock := { e with winBands := bands } }
    let plain := k.setPend = none ∧ k.shiftPend = none ∧ k.shiftLeft = 0
    (plain → k.corr = 0 → k.sub < 32767 → k.sec ≤ lastSecond → ticked { k with sub := k.sub + 1 }) ∧
    (plain → k.corr = 0 → k.sub = 32767 → k.sec < lastSecond →
      ticked { k with sub := 0, sec := k.sec + 1, secondDue := true }) ∧
    (plain → k.corr = 0 → k.sub = 32767 → k.sec = maxSeconds → k.range = true → ticked k) ∧
    (plain → 0 < k.corr → k.sub < 32766 → k.sec ≤ lastSecond →
      ticked { k with sub := k.sub + 2, corr := k.corr - 1 }) ∧
    (plain → k.corr < 0 → k.sub < 32767 → k.sec ≤ lastSecond → ticked { k with corr := k.corr + 1 }) ∧
    (k.setPend = none → k.shiftPend = none → k.shiftDiv ≤ k.shiftTicks + 1 → k.sub < 32766 → k.sec ≤ lastSecond →
      (0 < k.shiftLeft → ticked { k with sub := k.sub + 2, shiftLeft := k.shiftLeft - 1, shiftTicks := 0,
                                         shiftDone := k.shiftDone || decide (k.shiftLeft = 1) }) ∧
      (k.shiftLeft < 0 → ticked { k with shiftLeft := k.shiftLeft + 1, shiftTicks := 0,
                                         shiftDone := k.shiftDone || decide (k.shiftLeft = -1) })) ∧
    (k.setPend = some (sec, some r) → ∃ t, exec tick s = .next t ∧ t.clock.sec = sec ∧ t.clock.sub = 0 ∧
      t.clock.valid = true ∧ t.clock.bkpLost = false ∧ t.clock.shiftLeft = 0 ∧ t.clock.setPend = none ∧
      t.clock.anchorAt = s.power.opsec ∧ endsDone n t r []) ∧
    (k.secondDue = false → ∃ t, exec (.trimSecond now) s = .next t ∧ t.clock.acc = k.acc ∧ t.clock.corr = k.corr) ∧
    (k.secondDue = true → ∃ t, exec (.trimSecond now) s = .next t ∧ t.clock.secondDue = false ∧ t.clock.sec = k.sec ∧
      t.clock.sub = k.sub ∧ { t with clock := s.clock } = n ∧
      (let acc := k.acc + 32 * trimInForce s
       (15625 ≤ acc → t.clock.acc = acc - 15625 ∧ t.clock.corr = k.corr + 1) ∧
       (acc ≤ -15625 → t.clock.acc = acc + 15625 ∧ t.clock.corr = k.corr - 1) ∧
       (-15625 < acc → acc < 15625 → t.clock.acc = acc ∧ t.clock.corr = k.corr))) ∧
    (k.shiftDone = false ∨ dieRuns s = false → exec (.shiftComplete now) s = .next n) ∧
    (k.shiftDone = true → dieRuns s = true → ∃ t, exec (.shiftComplete now) s = .next t ∧
      t.clock = { k with shiftDone := false, anchorAt := s.power.opsec }) ∧
    (dieRuns s = false ∨ s.power.opsec < k.anchorAt + par s 0x1E00 → exec (.periodicAnchor now) s = .next n) ∧
    (dieRuns s = true → k.anchorAt + par s 0x1E00 ≤ s.power.opsec → ∃ t, exec (.periodicAnchor now) s = .next t ∧
      t.clock = { k with anchorAt := s.power.opsec }) ∧
    works s now c (.timeSet now c y mo d h mi se) (fun _ b t =>
      let v := secondsOf y mo d h mi se
      let ws := [lastSetMark b c v]
      (energyFor b (eGroup (groupPages ws)) = false → refuses t c stState 0x06 ∧ sameButResults b t) ∧
      (energyFor b (eGroup (groupPages ws)) = true → waits t c ∧ t.clock = { b.clock with setPend := some (v, some c) } ∧
        t.pstore = writeGroup b.pstore ws)) ∧
    works s now c (.timeShift now c sh div) (fun _ b t =>
      (energyFor b (eGroup (groupPages [])) = false → refuses t c stState 0x06 ∧ sameButResults b t) ∧
      (energyFor b (eGroup (groupPages [])) = true → b.clock.shiftPend = none →
        let m := max (-32767) (min (b.clock.shiftLeft + sh) 32767)
        (∃ p, answers t c (le 8 p)) ∧ t.clock.sec = b.clock.sec ∧ t.clock.sub = b.clock.sub ∧
        t.clock.shiftPend = some (m, div))) ∧
    works s now c (.timeTrim now c source fixed) (fun _ b t =>
      let v := unle (leInt 4 fixed)
      let ws : List PWrite :=
        [⟨.param, globalScope, 0x1D00, some (le 8 source)⟩, ⟨.param, globalScope, 0x1D01, some (le 8 v)⟩]
      (energyFor b (eGroup (groupPages ws)) = false → refuses t c stState 0x06 ∧ sameButResults b t) ∧
      (energyFor b (eGroup (groupPages ws)) = true → answers t c [] ∧ par t 0x1D00 = source ∧ par t 0x1D01 = v ∧
        (par b 0x1D00 ≠ source → t.clock.locked = false ∧ t.clock.servo = trimInForce b)))

/-- References and the trim servo (R517, R556, R565-R569): crossings of LREF and time-reference frames give points, a frame sets
a clock that is not valid; absence ends LOCKED after 10 s; a window that counts moves the trim by at most 256 and locks.
Where the manual leaves a point open it states the reading of log entries 60 and 76. -/
def Obligations.TimeReferencesAndServo : Prop :=
  ∀ (s : State) (now : Tb) (l : Line) (f : CanFrame) (p u : Nat) (e : Int),
    let n := s.at now
    let k := s.clock
    let source := par s 0x1D00
    let ref := Instr.timeReferenceFrame now l f
    (dieRuns s = false → ∀ i, i = .lrefZeroCrossing now p ∨ i = ref ∨ i = .timeReferenceAgeExpiry now l ∨
      i = .referenceAbsentTimeout now ∨ i = .servoWindowEnd now → exec i s = .next s) ∧
    (dieRuns s = true →
      (∃ t, exec (.lrefZeroCrossing now p) s = .next t ∧ t.clock.lrefPeriodUs = p ∧ t.clock.lrefAt = n.tb ∧
        t.clock.lrefCount = k.lrefCount + 1 ∧ t.clock.sec = k.sec ∧ t.clock.sub = k.sub ∧ t.clock.locked = k.locked ∧
        { t with clock := s.clock } = n ∧
        (source ≠ 1 → t.clock.winFirst = k.winFirst ∧ t.clock.winLast = k.winLast) ∧
        (source = 1 → k.winFirst = none → t.clock.winFirst = some (k.lrefCount + 1, rtcCount k)) ∧
        (source = 1 → k.winFirst ≠ none → t.clock.winLast = some (k.lrefCount + 1, rtcCount k))) ∧
      (busP s l 0xE = 0 ∨ f.ext = true ∨ f.id ≠ 128 + busP s l 0xE ∨ lineReceives s l = false → exec ref s = .next n) ∧
      (busP s l 0xE ≠ 0 → f.ext = false → f.id = 128 + busP s l 0xE → lineReceives s l = true →
        ∃ t, exec ref s = .next t ∧
          (let b := lineOfBus t l
           let secs := field f.data 0 5 % 2 ^ 34
           let subs := field f.data 5 2 % 32768
           let flags := field f.data 7 1
           let valid := decide (flags / 2 % 2 = 1)
           let mark := n.tb / 5 * 5
           b.timeRef = some (mark, k.sec, k.sub, secs, subs, valid) ∧ b.timeRefPrev = some (mark, k.sec, k.sub) ∧
           b.timeRefOk = ((lineOfBus s l).timeRefOk || valid) ∧ (valid = true → b.timeRefAt = n.tb) ∧
           (valid = false ∨ sourceLine s ≠ some l → t.clock.sec = k.sec ∧ t.clock.valid = k.valid) ∧
           (valid = true → flags % 2 = 0 → sourceLine s = some l → k.valid = false → par s 0x1D04 = 1 →
             t.clock.sec = secs ∧ t.clock.sub = subs ∧ t.clock.valid = true) ∧
           (valid = true → flags % 2 = 0 → sourceLine s = some l → k.valid = true → k.winFirst = none →
             t.clock.winFirst = some (32768 * secs + subs, rtcCount k) ∧ t.clock.sec = k.sec))) ∧
      (let b := lineOfBus s l
       let aged := b.timeRefOk = true ∧ b.timeRefAt + msToTb 2000 ≤ n.tb
       (¬ aged → exec (.timeReferenceAgeExpiry now l) s = .next n) ∧
       (aged → ∃ t, exec (.timeReferenceAgeExpiry now l) s = .next t ∧ lineOfBus t l = { b with timeRefOk := false })) ∧
      (refPresentNow n = true → ∃ t, exec (.referenceAbsentTimeout now) s = .next t ∧ t.clock.locked = k.locked ∧
        t.clock.refAbsentAt = none) ∧
      (refPresentNow n = false → k.refPresent = false → k.refAbsentAt = some u →
        ∃ t, exec (.referenceAbsentTimeout now) s = .next t ∧
          t.clock.locked = (k.locked && decide (n.tb < u + msToTb 10000))) ∧
      (source = 0 ∨ 4 ≤ source ∨ n.tb < k.winAt + k.winLen → exec (.servoWindowEnd now) s = .next n) ∧
      (source ≠ 0 → source < 4 → k.winAt + k.winLen ≤ n.tb →
        (k.winBad = true ∨ refPresentNow n = false ∨ windowError s = none →
          ∃ t, exec (.servoWindowEnd now) s = .next t ∧ t.clock.servo = k.servo ∧ t.clock.locked = k.locked ∧
            t.clock.winAt = n.tb ∧ t.clock.winFirst = none) ∧
        (k.winBad = false → refPresentNow n = true → windowError s = some e →
          ∃ t, exec (.servoWindowEnd now) s = .next t ∧
            t.clock.servo = max (-4096) (min (trimInForce s + max (-256) (min (-e) 256)) 4095) ∧
            t.clock.locked = true ∧ t.clock.servoValid = true ∧ t.clock.winAt = n.tb ∧ t.clock.winFirst = none ∧
            t.clock.sec = k.sec ∧ t.clock.sub = k.sub)))

/-! ### Logbook, updates, keys -/

/-- The logbook (R573, R578-R584): LOG.CLEAR makes everything up to a sequence unavailable and its number the answer; LOG.MARK
appends a record, or says why it did not; cleared records are overwritten; SUPPRESSED is written at most every 16 s.
Where the manual leaves a point open it states the reading of log entry 74. -/
def Obligations.LogbookCommands : Prop :=
  ∀ (s : State) (now : Tb) (c : CmdRef) (last code m : Nat) (data : List Byte),
    let n := s.at now
    works s now c (.logClear now c last) (fun x b t => lastStage x = true →
      answers t c (le 4 b.log.next) ∧ { t with host := b.host, log := b.log } = b ∧ b.log.oldest ≤ t.log.oldest ∧
      (b.log.oldest ≤ last → t.log.overwrite = some last ∧ ∀ r ∈ availableFrom t.log 0, last < r.seq) ∧
      (last < b.log.oldest → t.log.overwrite = b.log.overwrite)) ∧
    works s now c (.logMark now c code data) (fun _ b t =>
      { t with host := b.host, log := b.log } = b ∧
      (b.log.next < 2 ^ 32 → 0 < b.log.credits → data.length ≤ 1024 → answers t c (le 4 b.log.next ++ [0, 0, 0, 0]) ∧
        t.log.next = b.log.next + 1 ∧ ∃ r, t.log.recs.getLast? = some r ∧ r.seq = b.log.next ∧ r.type = 4 ∧
          r.body = le 8 b.tb ++ le 2 code ++ le 1 (portCode c.port) ++ le 1 (frankSlotOf b c) ++ data) ∧
      (b.log.next < 2 ^ 32 → b.log.credits = 0 → answers t c [0, 0, 0, 0, 1, 0, 0, 0] ∧ t.log.recs = b.log.recs)) ∧
    (s.log.overwrite = none ∨ dieRuns s = false → exec (.logClearOverwrite now) s = .next n) ∧
    (s.log.overwrite = some m → dieRuns s = true → exec (.logClearOverwrite now) s = .next { n with log := { s.log with
      recs := s.log.recs.filter (fun r => decide (m < r.seq)), overwrite := none } }) ∧
    (s.log.suppressed = [] ∨ s.power.opsec < s.log.suppressedAt + 16 ∨ dieRuns s = false →
      exec (.suppressedRecordDue now) s = .next n) ∧
    (s.log.suppressed ≠ [] → s.log.suppressedAt + 16 ≤ s.power.opsec → dieRuns s = true →
      ∃ t, exec (.suppressedRecordDue now) s = .next t ∧ t.log.suppressed = [] ∧ t.log.suppressedAt = s.power.opsec ∧
        { t with log := s.log } = n)

/-- Updates, keys and the self test (R14, R29, R587, R620-R631, R641-R643): what each command of an update leaves in slots, staging
and snapshot when its work is done and when its DONE receipt is placed, and how each check refuses; a trial that is not confirmed
is rejected; owner slots and fuses.
Where the manual leaves a point open it states the reading of log entries 80 and 81. -/
def Obligations.UpdatesAndKeys : Prop :=
  ∀ (s : State) (now : Tb) (c : CmdRef) (target kind len off op slot unit : Nat) (hash data bs : List Byte) (k : Container),
    let n := s.at now
    works s now c (.updBegin now c target kind len hash) (fun x b t => lastStage x = true →
      let to_ := targetSlot b (decide (target = 0))
      answers t c (le 1 to_) ∧ t.store = { b.store with
        snapshot := none,
        update := some { firmware := decide (target = 0), delta := decide (kind = 1), length := len, hash, slot := to_,
                         staged := [], applying := false, applied := false } }) ∧
    works s now c (.updChunk now c off data) (fun _ b t => ∀ u, b.store.update = some u →
      answers t c (le 4 (u.staged.length + data.length)) ∧
      t.store = { b.store with update := some { u with staged := u.staged ++ data } } ∧
      { t with host := b.host, store := b.store } = b) ∧
    cryptoAborts s now c (.updApply now c) ∧
    (∀ i, i = .updApply now c ∨ i = .updConfirm now c ∨ i = .updAbandon now c ∨ i = .secKeys now c op slot data →
      lacksEnergy s now c i) ∧
    works s now c (.updApply now c) (fun x b t =>
      (b.store.update = none → refuses t c stState 0x01 ∧ sameButResults b t) ∧
      ∀ u, b.store.update = some u → u.slot < 2 →
        (∀ f, stagedFail b u = some f → refuses t c stAuth f.1 ∧
          t.store.update = some { u with staged := [], applying := false } ∧
          (u.firmware = true → fwSlot t u.slot = FwSlot.blank) ∧
          (u.firmware = false → progSlot t u.slot = ProgSlot.blank)) ∧
        (applyFail b u true = none → lastStage x = true → builtImage b u = some bs → parseContainer bs = some k →
          answers t c k.hash ∧
          t.store.update = some { u with applying := true } ∧
          (u.firmware = true → (fwSlot t u.slot).built = true ∧ (fwSlot t u.slot).bytes = bs ∧
            t.store.snapshot = some b.pstore) ∧
          (u.firmware = false → (progSlot t u.slot).built = true ∧ (progSlot t u.slot).bytes = bs ∧
            (progSlot t u.slot).edits = [] ∧ t.prog = b.prog))) ∧
    works s now c (.updConfirm now c) (fun x b t => lastStage x = true → b.store.runFw < 2 →
      answers t c [] ∧ (fwSlot t b.store.runFw).confirmed = true ∧ { t.store with fw := b.store.fw } = b.store) ∧
    works s now c (.updAbandon now c) (fun x b t => lastStage x = true →
      (b.store.update = none → refuses t c stState 0x01 ∧ sameButResults b t) ∧
      ∀ u, b.store.update = some u → u.slot < 2 → answers t c [] ∧
        { t.store with fw := b.store.fw, prog := b.store.prog } = b.store ∧
        (u.applied = true → u.firmware = true → (fwSlot t u.slot).rejected = true) ∧
        (u.applied = true → u.firmware = false → (progSlot t u.slot).rejected = true) ∧
        (u.applied = false → t.store.fw = b.store.fw ∧ t.store.prog = b.store.prog)) ∧
    (∀ x r u, endsStage s now c x r → x.opcode ∈ [0x1003#16, 0x1004#16, 0x1005#16] → s.store.update = some u → u.slot < 2 →
      s.store.runFw < 2 →
      ∃ t, exec (.commandStageComplete now c) s = .next t ∧ endsDone n t c r.payload ∧
        (x.opcode = 0x1003 →
          (u.firmware = true → (fwSlot t u.slot).building = false ∧ fwSlot t u.slot = { fwSlot s u.slot with building := false } ∧
            t.store.update = some { u with applying := false, applied := true, staged := [] }) ∧
          (u.firmware = false → progSlot t u.slot = { progSlot s u.slot with building := false } ∧ t.store.update = none)) ∧
        (x.opcode = 0x1004 → t.store = { s.store with
          svfuse := max s.store.svfuse (fwSlot s s.store.runFw).secVer, snapshot := none, update := none, trial := false,
          healthAt := none }) ∧
        (x.opcode = 0x1005 → t.store = { s.store with
          update := none, healthAt := none, snapshot := if s.store.trial then s.store.snapshot else none })) ∧
    (dieRuns s = false → exec (.healthWindowExpiry now) s = .next s) ∧
    (dieRuns s = true →
      (s.store.healthAt = none ∨ inTrial s = false ∨ (∃ h, s.store.healthAt = some h ∧ n.tb < h) →
        exec (.healthWindowExpiry now) s = .next n) ∧
      (∀ h, s.store.healthAt = some h → h ≤ n.tb → inTrial s = true → s.store.runFw < 2 →
        ∃ t, exec (.healthWindowExpiry now) s = .next t ∧ (fwSlot t s.store.runFw).rejected = true ∧
          t.store.update = none ∧ t.store.healthAt = none ∧ t.power = s.power ∧ t.prog = s.prog)) ∧
    works s now c (.secKeys now c op slot data) (fun x b t => lastStage x = true →
      (op = 0 → slot < 4 → (∀ e, closingEntry b 8 = some e → endsAs b t c x stFault 8 e.2.1 []) ∧
        (closingEntry b 8 = none → certAccepted b (data.take 368) 4 = true →
          answers t c (le 1 slot ++ le 1 1) ∧ ownerSlot t slot = ⟨1, data.take 368⟩ ∧
          ∀ j, j ≠ slot → ownerSlot t j = ownerSlot b j) ∧
        (closingEntry b 8 = none → certAccepted b (data.take 368) 4 = false → refuses t c stAuth 0x02 ∧ sameButResults b t)) ∧
      (op = 1 → slot < 4 → answers t c (le 1 slot ++ le 1 2) ∧ (ownerSlot t slot).state = 2 ∧
        (ownerSlot t slot).cert = (ownerSlot b slot).cert ∧ ∀ j, j ≠ slot → ownerSlot t j = ownerSlot b j) ∧
      (op = 2 → t.store.owners = b.store.owners ∧ (b.store.wdlockf = true → t.store.wdlockf = true) ∧
        (b.store.wdwinSet = true → t.store.wdwin = b.store.wdwin) ∧
        (field data 0 1 = 1 → field data 1 1 = 1 → t.store.wdlockf = true ∧ answers t c (le 1 0xFF ++ le 1 1)))) ∧
    works s now c (.testSelf now c unit) (fun x b t => lastStage x = true →
      (∀ j ∈ testedUnits unit, closingEntry b j = none) →
      (∃ p, p.length = 4 ∧ answers t c p) ∧ { t with host := b.host, freeIdx := b.freeIdx } = b ∧
      ((∀ j ∈ testedUnits unit, (Config.selfTest b.freeIdx j).toNat % 256 = 0) → answers t c [0, 0, 0, 0]))

/-! ### Watchdog -/

/-- The watchdog (R588-R605): expiry, check-ins, the classes of a reply and what each does, the writes of WD_CTRL and WD_KEY; a
draw of the LFSR is never 0.
Where the manual leaves a point open it states the reading of log entries 54 and 82. -/
def Obligations.WatchdogRules : Prop :=
  ∀ (s : State) (now : Tb) (tick : Nat) (v : BitVec 32) (w : Word) (sc : Scan),
    let n := dieAt s now
    let k := s.wd
    let on := dieRuns s = true ∧ k.state ≠ .disabled
    let p := 1024 * k.period
    let served := dieRuns s = true ∧ k.engineMode = true ∧ tick < p ∧ s.sched.running = some sc
    let right := k.lfsr.rotateLeft 11 ^^^ k.mask.setWidth 32 ^^^ s.store.wdsalt
    let reply := exec (.wdReply now w tick) s
    let fresh := { k with
      mask := 0, dbl := false, dtask := none, tick := 0, period := k.periodNext.getD k.period, periodNext := none }
    let good := fun (x : Host.Outcome State Fault Refusal) => ∃ t, x = .next t ∧
      t.wd = { fresh with state := .running, lfsr := lfsrDraw k.lfsr, keyerr := false, faultN := false } ∧
      { t with wd := s.wd, log := s.log } = n ∧ (k.state = .running → t.log = s.log)
    let locked := k.lock = true ∨ s.store.wdlockf = true
    let en := v.getLsbD 16
    let per := v.toNat % 8192
    let left := fun (i : Instr) (e : Watchdog) => exec i s = .next { n with wd := e }
    let ctrl := Instr.wdCtrlWrite now v tick
    let k' := { k with tick := max k.tick tick }
    let key := Instr.wdKeyWrite now v tick
    (¬ on → exec (.wdPeriodExpiry now) s = .next n ∧ exec (.serviceProcessorCheckIn now) s = .next n ∧
      exec (.serviceProcessorReply now tick) s = .next n) ∧
    (on → wdActs s n (exec (.wdPeriodExpiry now) s) 5) ∧
    (on → exec (.serviceProcessorCheckIn now) s =
      .next (if k.mask.getLsbD 16 then n else { n with wd := { k with mask := k.mask ||| 65536#17 } })) ∧
    (on → k.engineMode = true ∨ k.mask.getLsbD 16 = false ∨ tick < wdW s ∨ p ≤ tick →
      exec (.serviceProcessorReply now tick) s = .next n) ∧
    (on → k.engineMode = false → k.mask.getLsbD 16 = true → wdW s ≤ tick → tick < p →
      (k.dbl = false → good (exec (.serviceProcessorReply now tick) s)) ∧
      (k.dbl = true → wdActs s n (exec (.serviceProcessorReply now tick) s) 4)) ∧
    (s.sched.running = none ∨ k.engineMode = false ∨ p ≤ tick ∨ dieRuns s = false ∨ k.state = .disabled →
      reply = .next n) ∧
    (served → k.state ≠ .disabled →
      (tick < wdW s → wdActs s n reply 2) ∧
      (wdW s ≤ tick → k.dbl = true → wdActs s n reply 4) ∧
      (wdW s ≤ tick → k.dbl = false → w.setWidth 32 ≠ right → wdActs s n reply 3) ∧
      (wdW s ≤ tick → k.dbl = false → w.setWidth 32 = right → good reply)) ∧
    (dieRuns s = false → exec ctrl s = .next s ∧ exec key s = .next s) ∧
    (dieRuns s = true → v.getLsbD 17 = false →
      (k.state = .disabled → en = true → ¬ locked → per = k.periodNext.getD k.period →
        left ctrl { fresh with state := .running }) ∧
      (k.state = .disabled → en = false ∨ locked → left ctrl k') ∧
      (k.state ≠ .disabled → en = false → ¬ locked → k.keyStep = 2 → k.keyTick ≤ tick → tick ≤ k.keyTick + 16 →
        left ctrl { k' with state := .disabled, keyStep := 0 }) ∧
      (k.state ≠ .disabled → en = false → locked ∨ k.keyStep ≠ 2 ∨ tick < k.keyTick ∨ k.keyTick + 16 < tick →
        per = k.period → left ctrl { k' with keyerr := true, keyStep := 0 }) ∧
      (k.state ≠ .disabled → en = true → per ≠ k.period →
        (wdW s ≤ tick → tick < p → 1 ≤ per → per ≤ 4096 → left ctrl { k' with periodNext := some per, pwign := false }) ∧
        (tick < wdW s ∨ p ≤ tick ∨ per = 0 ∨ 4096 < per → left ctrl { k' with pwign := true }))) ∧
    (dieRuns s = true → v.getLsbD 17 = true → k.state ≠ .disabled → en = true → per = k.period →
      left ctrl { k' with lock := true }) ∧
    (dieRuns s = true →
      (locked → left key { k' with keyerr := true, keyStep := 0 }) ∧
      (¬ locked → v.toNat % 65536 = 0x6D41 → left key { k' with keyStep := 1, keyTick := tick }) ∧
      (¬ locked → v.toNat % 65536 = 0x92BE → k.keyStep = 1 → k.keyTick ≤ tick → tick ≤ k.keyTick + 16 →
        left key { k' with keyStep := 2, keyTick := tick }) ∧
      (¬ locked → v.toNat % 65536 ≠ 0x6D41 → v.toNat % 65536 ≠ 0x92BE ∨ k.keyStep ≠ 1 →
        left key { k' with keyStep := 0 })) ∧
    (∀ u : BitVec 32, u ≠ 0 → lfsrDraw u ≠ 0)

/-! ### Power and faults -/

/-- Pace, temperature, time base, promises, memory errors and hold-up (R22, R25, R36, R41-R44, R84-R86, R95, R341, R356, R358, R579,
R651-R657, R674, R677): what each sample leaves and which fault it raises; when the ports open; the restart from fault halt.
Where the manual leaves a point open it states the reading of log entries 16, 17, 18, 79 and 84. -/
def Obligations.PowerAndFaults : Prop :=
  ∀ (s : State) (now : Tb) (ps mv dv store index : Nat) (tc : Int) (half : Fin 2) (d : Nat),
    let n := s.at now
    let q := s.power
    let m := dieAt s now
    (dieRuns s = false → ∀ i, i = .paceSample now ps ∨ i = .junctionSample now tc ∨ i = .tbLockLost now ∨
      i = .promiseBreach now ∨ i = .holdupCapacitanceMeasure now dv ∨ i = .holdupSample now mv ∨ i = .holdupFault now ∨ i = .vbatMeasure now mv ∨ i = .operatingSecond now ∨
      i = .pstoreCompaction now half → exec i s = .next s) ∧
    (let u := { m with power := { q with tbLocked := true } }
     exec (.tbLockRegained now) s = .next (if dieRuns s then openPorts u else u)) ∧
    (dieRuns s = false ∨ q.resumed = false → exec (.uncorrectableMemoryError now store index) s = .next (badLine s store index)) ∧
    (dieRuns s = true →
      (100 * cAdm s < 106 * ps → halts s (exec (.paceSample now ps) s) 1) ∧
      (106 * ps ≤ 100 * cAdm s → ∃ t, exec (.paceSample now ps) s = .next t ∧ t.power.pace = ps ∧
        t.power.paceGood = min 1000 (q.paceGood + 1) ∧ t.power.mode = q.mode ∧
        { t with power := q, log := s.log, freeIdx := s.freeIdx, host := s.host } = n ∧
        (q.opened = true ∨ q.resumed = false ∨ q.tbLocked = false ∨ q.paceGood < 999 →
          t.host = s.host ∧ t.power.opened = q.opened) ∧
        (q.opened = false → q.resumed = true → q.tbLocked = true → 999 ≤ q.paceGood → t.power.opened = true ∧
          t.host = { s.host with baud := if s.host.baudKept then 0 else par s 0x0110 })) ∧
      (1250 < tc → halts s (exec (.junctionSample now tc) s) 2) ∧
      (tc ≤ 1250 → exec (.junctionSample now tc) s =
        .next { n with power := { q with junction := tc, band := bandStep bandBounds q.band tc } }) ∧
      halts s (exec (.tbLockLost now) s) 3 ∧
      (breached n = none → exec (.promiseBreach now) s = .next n) ∧
      (breached n = some d → halts s (exec (.promiseBreach now) s) 4) ∧
      (q.resumed = true → halts s (exec (.uncorrectableMemoryError now store index) s) 7) ∧
      (q.capMeasured.isSome = true → exec (.holdupCapacitanceMeasure now dv) s = .next n) ∧
      (q.capMeasured = none → ∃ t, exec (.holdupCapacitanceMeasure now dv) s = .next t ∧ t.power.capMeasured = some dv ∧
        t.power.holdupWeak = decide (eUsable dv 33000 < 60000000) ∧
        t.power.holdupFault = decide (eUsable dv 33000 < 31400000) ∧ t.image = s.image ∧ t.sched = s.sched) ∧
      (q.failing = false ∨ 9000 ≤ mv → ∃ t, exec (.holdupSample now mv) s = .next t ∧ t.power.holdupMv = mv ∧
        t.power.mode = q.mode ∧ { t with power := q } = n ∧
        (q.resumed = true → q.vinValid = true → q.failing = false → eUse t < eSeal →
          t.power.holdupLowSince = some (q.holdupLowSince.getD n.tb)) ∧
        (eSeal ≤ eUse t → t.power.holdupLowSince = none)) ∧
      (q.failing = true → mv < 9000 → ∃ t, exec (.holdupSample now mv) s = .next t ∧ t.power.mode = .backup ∧
        t.sched.running = none ∧ t.image = s.image ∧ t.ring = s.ring) ∧
      (q.holdupLowSince = none → exec (.holdupFault now) s = .next n) ∧
      (q.holdupLowSince = some d → n.tb < d + usToTb 100 → exec (.holdupFault now) s = .next n) ∧
      (q.holdupLowSince = some d → d + usToTb 100 ≤ n.tb → halts s (exec (.holdupFault now) s) 8) ∧
      (∃ t, exec (.vbatMeasure now mv) s = .next t ∧ t.power = { q with vbatMv := mv, vbatLow := decide (mv < 2000) } ∧
        { t with power := q, log := s.log } = n ∧ (q.vbatLow = decide (mv < 2000) → t.log = s.log)) ∧
      (∃ t k, exec (.operatingSecond now) s = .next t ∧ t.power = { q with opsec := q.opsec + 1, ecc := q.ecc + k } ∧
        t.freeIdx = s.freeIdx + 1 ∧
        t.log = { s.log with
          credits := min 4096 (s.log.credits + 4),
          alarmCredits := if (q.opsec + 1) % 16 = 0 then min 256 (s.log.alarmCredits + 1) else s.log.alarmCredits } ∧
        (energyFor s 100000 = false → t.spread = s.spread) ∧
        { t with power := q, log := s.log, spread := s.spread, freeIdx := s.freeIdx } = n) ∧
      exec (.pstoreCompaction now half) s = .next
        (if q.failing = false ∧ freePages s.pstore half.val < par s 0x0503 ∧ energyFor s 120000 = true then
          { n with pstore := compactHalf s.pstore half.val } else n)) ∧
    (let x := exec (.faultHaltRestart now) s
     let room := (q.haltRestarts.filter (fun t => decide (q.opsec < t + 3600))).length < par s 0x0121
     (q.mode ≠ .halt ∨ restartCondition m = false → x = .next m) ∧
     (q.mode = .halt → restartCondition m = true →
       (q.haltReset = some d → ∃ t, x = .next t ∧ t.power.resetKind = 4 ∧ t.power.resumed = false) ∧
       (q.haltReset = none →
         (m.tb < q.haltAt + msToTb (par s 0x0120) → x = .next m) ∧
         (q.haltAt + msToTb (par s 0x0120) ≤ m.tb →
           (room → ∃ t, x = .next t ∧ t.power.resetKind = 6 ∧ t.power.resumed = false) ∧
           (¬ room → ∃ t, x = .next t ∧ t.power = { q with restartLimit := true } ∧
             { t with power := q, log := s.log } = m)))))

/-- Starts and stops (R337, R550, R648, R658-R663, R668-R670, R678): VIN, RST_N, wake sources, the retention rail, DEV.RESET and
DEV.DORMANT with what they do 2 ms after their receipt.
Where the manual leaves a point open it states the reading of log entries 22, 83 and 85. -/
def Obligations.StartsAndStops : Prop :=
  ∀ (s : State) (now : Tb) (c : CmdRef) (kind ns k : Nat) (mask : BitVec 16) (src : WakeSource) (sc : Scan),
    let n := s.at now
    let m := dieAt s now
    let q := s.power
    let fail := exec (.vinFail now) s
    let rst := exec (.rstNReset now ns) s
    let rail := exec (.retentionRailLoss ns) s
    let expiry := exec (.receiptWaitExpiry now) s
    let starts := fun (x : Host.Outcome State Fault Refusal) (kind : Nat) => ∃ t, x = .next t ∧
      t.power.resetKind = kind ∧ t.power.resumed = false ∧ t.power.mode = .idle ∧ t.tb = 0 ∧ t.host.cmds = [] ∧
      t.host.session = none ∧ t.sched.running = none ∧ t.pending = s.pending
    let idle := s.sched.running = none ∧ s.sched.suspended = [] ∧ s.sched.stopping = none ∧
      s.sched.handoverReq = none ∧ q.failing = false
    let quiet := ∀ x ∈ s.host.cmds, (x.opcode = 0x1301 ∨ x.opcode = 0x1303) → findResult n x.ref = none
    (q.mode = .dormant → fail = .next { s with power := { q with mode := .backup, vinValid := false, wakeMask := 0 } }) ∧
    (q.mode = .backup → fail = .next { s with power := { q with vinValid := false } }) ∧
    (dieRuns s = true → q.failing = true → fail = .next { n with power := { q with vinValid := false } }) ∧
    (dieRuns s = true → q.failing = false → s.dsp.update = none →
      (s.sched.running = none ∨ (s.sched.running = some sc ∧ sc.phase = .execute) → ∃ t, fail = .next t ∧
        t.power.mode = .backup ∧ t.sched.running = none ∧ t.image = s.image ∧ t.emitted = s.emitted ∧ t.ring = s.ring ∧
        t.sent = s.sent) ∧
      (s.sched.running = some sc → sc.phase ≠ .execute → ∃ t, fail = .next t ∧ t.power.mode = q.mode ∧
        t.power.failing = true ∧ t.sched.running = some sc ∧ t.sched.suspended = [] ∧ t.image = s.image)) ∧
    (q.mode = .backup → starts (exec (.vinValid) s) 1) ∧
    (q.mode ≠ .backup → exec (.vinValid) s = .next { s with power := { q with vinValid := true } }) ∧
    (ns < 2000 → rst = .next m) ∧
    (10000 ≤ ns → q.mode = .backup → rst = .next m) ∧
    (10000 ≤ ns → q.mode ≠ .backup → q.vinValid = true → starts rst 2) ∧
    (10000 ≤ ns → q.mode ≠ .backup → q.vinValid = false → ∃ t, rst = .next t ∧ t.power.mode = .backup ∧
      t.sched.running = none ∧ t.image = s.image) ∧
    (let wakes := q.mode = .dormant ∧ q.wakeMask.getLsbD (wakeBit src) = true
     (¬ wakes → exec (.dormantWake src) s = .next s) ∧ (wakes → starts (exec (.dormantWake src) s) 7)) ∧
    (ns < 1000 → rail = .next s) ∧
    (1000 ≤ ns → ∃ t, rail = .next t ∧ t.clock.valid = false ∧ t.clock.sec = 0 ∧ t.clock.sub = 0 ∧
      t.clock.bkpLost = true ∧ t.clock.servoValid = false ∧ t.power = { q with powerCycles := 0 } ∧ t.wd.count = 0 ∧
      t.wd.lock = false ∧ { t with clock := s.clock, power := q, wd := s.wd } = s) ∧
    works s now c (.devReset now c kind) (fun _ b t => answers t c [] ∧ t.host.resetWait = some kind ∧
      t.host.dormantWait = none ∧ { t with host := b.host } = b) ∧
    works s now c (.devDormant now c mask) (fun _ b t => answers t c [] ∧ t.host.dormantWait = some mask ∧
      t.host.resetWait = none ∧ { t with host := b.host } = b) ∧
    (¬ quiet ∨ (s.host.dormantWait = none ∧ s.host.resetWait = none) → expiry = .next n) ∧
    (quiet → s.host.dormantWait = none → s.host.resetWait = some k →
      (q.mode = .halt → restartCondition n = false → expiry = .next { n with power := { q with haltReset := some k } }) ∧
      (q.mode = .halt → restartCondition n = true → starts expiry 4) ∧
      (q.mode ≠ .halt → idle → starts expiry 4) ∧
      (q.mode ≠ .halt → s.sched.running = some sc → expiry = .next { n with power := { q with stopping := true } })) ∧
    (quiet → s.host.dormantWait = some mask →
      (idle → s.pstate ≠ .running → ∃ t, expiry = .next t ∧ t.power.mode = .dormant ∧ t.power.wakeMask = mask ∧
        t.power.resumed = false ∧ t.image = s.image) ∧
      (s.sched.running = some sc → ∃ t, expiry = .next t ∧ t.power = { q with stopping := true } ∧
        (s.pstate = .running → t.sched.stopping.map (·.1) = some .safe) ∧ t.sched.running = some sc))

/-- Unit collars (R12-R18, R432, R670-R673): UNIT.RESET closes a collar, a unit fault closes it or halts, COLLAR_REOPEN answers the
command that waits, requests to a closed collar are answered REQ_ABORTED.
Where the manual leaves a point open it states the reading of log entry 86. -/
def Obligations.UnitCollars : Prop :=
  ∀ (s : State) (now : Tb) (c d : CmdRef) (u k : Nat) (e : Nat × Nat × Option CmdRef × Nat) (x : Cmd),
    let n := s.at now
    let q := s.power
    let reopen := exec (.collarReopen now u) s
    let recent := (q.unitResets.filter (fun x => decide (x.1 = u ∧ n.tb < x.2 + msToTb 60000))).length
    let counted := { n with power := { q with
      closed := q.closed.map (fun y => if y.1 = e.1 then (y.1, y.2.1, y.2.2.1, y.2.2.2 + 1) else y) } }
    works s now c (.unitReset now c u) (fun x b t =>
      (∀ e, closingEntry b u = some e → endsAs b t c x stFault (BitVec.ofNat 8 u) e.2.1 []) ∧
      (closingEntry b u = none → u ≠ 5 ∨ (b.twin.resyncRef ≠ some c ∧ c ∉ b.twin.changeRefs) → waits t c ∧ collarClosed t u = true ∧
        t.power.closed.getLast?.map (fun e => (e.1, e.2.1, e.2.2.1)) = some (u, 0, some c))) ∧
    (dieRuns s = false → exec (.unitFault now u) s = .next n) ∧
    (dieRuns s = true →
      (u = 1 ∨ u = 2 ∨ (resetUnit u = true ∧ 2 ≤ recent) → halts s (exec (.unitFault now u) s) 9) ∧
      (u ≠ 1 → u ≠ 2 → resetUnit u = false → exec (.unitFault now u) s = .next n) ∧
      (resetUnit u = true → recent < 2 → ∃ t, exec (.unitFault now u) s = .next t ∧ t.power.unitFault = true ∧
        collarClosed t u = true ∧ t.power.unitResets.getLast? = some (u, n.tb))) ∧
    (q.closed.find? (fun e => decide (e.1 = u)) = none → reopen = .next n) ∧
    (q.closed.find? (fun e => decide (e.1 = u)) = some (u, 2, some d, k) ∨
      q.closed.find? (fun e => decide (e.1 = u)) = some (u, 2, none, k) → s.field.lockout = true → reopen = .next n) ∧
    (q.closed.find? (fun e => decide (e.1 = u)) = some e → ¬ (e.2.1 = 2 ∧ s.field.lockout = true) →
      ∃ t, reopen = .next t ∧ t.power.closed = q.closed.filter (fun x => decide (x.1 ≠ u)) ∧
        (u ≠ 6 → ∀ r, e.2.2.1 = some r → endsDone n t r (le 4 e.2.2.2))) ∧
    (closingEntry n u = none → exec (.requestToClosedCollar now u .scan) s = .next n ∧
      exec (.requestToClosedCollar now u (.command d)) s = .next n) ∧
    (closingEntry n u = some e → exec (.requestToClosedCollar now u .scan) s = .next counted) ∧
    (closingEntry n u = some e → findCmd n d = some x →
      ∃ t, exec (.requestToClosedCollar now u (.command d)) s = .next t ∧
        endsAs n t d x stFault (BitVec.ofNat 8 u) e.2.1 [] ∧ { t.power with reservedNj := q.reservedNj } = counted.power) ∧
    (∀ i, i = .progLoad now c k ∨ i = .secAttest now c [] → cryptoAborts s now c i)

/-! ### The pair -/

/-- The twin link (R372-R385, R387, R389, R391, R401): alignment, HELLO and the roles it settles, manifests and acknowledgements,
heartbeats, DROP and CONFIG; what leaves the pair as it is.
Where the manual leaves a point open it states the reading of log entries 50, 65 and 67. -/
def Obligations.TwinLinkFrames : Prop :=
  ∀ (s : State) (now : Tb) (lane : Fin 2) (up ok written : Bool) (f : HelloFrame) (h : HeartbeatFrame) (ho : HandoverFrame)
    (r : RingRec) (seq reason kind term : Nat) (data : List Byte),
    let n := s.at now
    let w := s.twin
    let live := { n with twin := { w with lastLive := n.tb } }
    let lanes := if lane = 0 then { w with lane0 := up } else { w with lane1 := up }
    let was := w.lane0 = true ∧ w.lane1 = true
    let is := lanes.lane0 = true ∧ lanes.lane1 = true
    let align := exec (.laneAlignmentChange now lane up) s
    let hello := exec (.hello now f) s
    let manifest := exec (.manifest now ok r) s
    let left := fun (x : Host.Outcome State Fault Refusal) (p : PairState) => ∃ t, x = .next t ∧ t.twin.role = w.role ∧
      t.twin.pair = p ∧ t.image = s.image ∧ t.ring = s.ring
    let partners := f.ok = true ∧ was ∧ f.epoch ≤ ownEpoch s + 1 ∧ ownEpoch s ≤ f.epoch + 1 ∧ f.side ≠ twinSide s
    let same : PairState := if f.term = w.term ∧ f.headSeq = headSeq s then .inStep else .outOfStep
    let follows := w.pair = .inStep ∨ w.pair = .resync ∨ w.pair = .hello
    (twinOn s = false → ∀ i, i = .laneAlignmentChange now lane up ∨ i = .hello now f ∨ i = .manifest now ok r ∨
      i = .ack now seq written ∨ i = .looseAckTimeout now seq ∨ i = .heartbeatDue now ∨ i = .heartbeat now h ∨
      i = .drop now reason ∨ i = .config now kind data ∨ i = .handover now ho ∨ i = .taken now term ∨ i = .changeReq now ∨
      i = .watchTimeout now ∨ i = .silenceVoteElapsed now ∨ i = .helmGivesUp now ∨ i = .twinStartWaitExpiry now →
      exec i s = .next n) ∧
    (w.role ≠ .watch → manifest = .next n ∧ exec (.drop now reason) s = .next n ∧ exec (.config now kind data) s = .next n ∧
      exec (.handover now ho) s = .next n) ∧
    (w.role ≠ .helm → exec (.ack now seq written) s = .next n ∧ exec (.looseAckTimeout now seq) s = .next n ∧
      exec (.taken now term) s = .next n ∧ exec (.changeReq now) s = .next n) ∧
    (twinOn s = true →
      (was ↔ is → align = .next { n with twin := lanes }) ∧
      (¬ was → is → ∃ t, align = .next t ∧ t.twin.role = w.role ∧
        t.twin.sent = w.sent ++ [.hello (linkRole s) w.term (headSeq s)] ∧
        t.twin.pair = (if w.role = .starting ∨ w.pair = .noPartner ∨ w.pair = .isolated then .hello else w.pair)) ∧
      (was → ¬ is → ∃ t, align = .next t ∧ t.twin.role = w.role ∧ t.twin.helloDone = false ∧
        (w.role = .helm → partnerOnBus n = false → t.twin.pair = .noPartner) ∧
        (w.role = .helm → partnerOnBus n = true → w.pair = .resync → t.twin.pair = .outOfStep) ∧
        (w.role = .helm → partnerOnBus n = true → w.pair ≠ .resync → t.twin.pair = w.pair) ∧
        (w.role = .watch → t.twin.pair = (if w.pair = .inStep then .inStep else .isolated))) ∧
      (f.ok = false ∨ ¬ was → hello = .next n) ∧
      (f.ok = true → was → ownEpoch s + 1 < f.epoch ∨ f.epoch + 1 < ownEpoch s ∨ f.side = twinSide s →
        left hello .incompatible) ∧
      (partners → w.role = .helm → left hello same) ∧
      (partners → w.role = .watch → f.role = 1 → ∃ t, hello = .next t ∧ t.twin.role = .watch ∧ t.twin.pair = same ∧
        t.twin.term = max w.term f.term ∧ t.image = s.image) ∧
      (partners → w.role = .starting →
        (f.role = 1 ∨ w.term < f.term ∨ (w.term = f.term ∧ headSeq s < f.headSeq) → ∃ t, hello = .next t ∧
          t.twin.role = .watch ∧ t.twin.pair = same) ∧
        (f.role ≠ 1 → f.term < w.term ∨ (w.term = f.term ∧ f.headSeq < headSeq s) → ∃ t, hello = .next t ∧
          t.twin.role = .helm ∧ t.twin.pair = same ∧ t.twin.term = w.term + 1 ∧
          t.twin.mark = some (w.term + 1, s.ring.nextSeq, s.store.serial))) ∧
      (w.role = .watch → ¬ follows → manifest = .next (if ok then live else n)) ∧
      (w.role = .watch → follows → ok = false ∨ r.seq ≠ s.ring.nextSeq → left manifest .outOfStep) ∧
      (w.role = .watch → follows → ok = false ∨ r.seq ≠ s.ring.nextSeq → (w.lane0 && w.lane1) = true →
        ∃ t, manifest = .next t ∧ t.twin.sent = w.sent ++ [.ack r.seq false]) ∧
      (w.role = .watch → follows → ok = true → r.seq = s.ring.nextSeq → ∃ t, manifest = .next t ∧
        t.twin.role = .watch ∧ t.twin.appliedSeq = r.seq ∧ t.ring.nextSeq = r.seq + 1 ∧
        t.twin.pair = (if w.pair = .hello then .inStep else w.pair) ∧
        ((w.lane0 && w.lane1) = true → t.twin.sent = w.sent ++ [.ack r.seq true])) ∧
      (w.role = .helm → written = false → w.pair = .inStep ∨ w.pair = .resync →
        ∃ t, exec (.ack now seq written) s = .next t ∧ t.twin.pair = .outOfStep ∧ t.twin.role = .helm) ∧
      (w.role = .helm → written = true → ∃ t, exec (.ack now seq written) s = .next t ∧
        t.twin.ackedSeq = max w.ackedSeq seq ∧ t.image = s.image ∧
        (∀ sc, s.sched.running = some sc → t.sched.running = some
          (if sc.phase = .waitAck ∧ sc.sealSeq = seq then { sc with phase := .emit } else sc)) ∧
        (w.resyncStage = 6 → w.pair = .resync → w.resyncAck ≤ seq → t.twin.pair = .inStep ∧
          ∀ c, w.resyncRef = some c → endsDone n t c (le 8 n.tb)) ∧
        (w.resyncStage ≠ 6 → t.twin.pair = w.pair)) ∧
      (let late := w.role = .helm ∧ w.pair = .inStep ∧ par s 0x0603 = 0 ∧ w.ackedSeq < seq ∧ seq < s.ring.nextSeq ∧
         (seq = s.ring.lastSealSeq → s.ring.lastSealTb + watchTimeout s < n.tb)
       (¬ late → exec (.looseAckTimeout now seq) s = .next n) ∧
       (late → ∃ t, exec (.looseAckTimeout now seq) s = .next t ∧ t.twin.pair = .outOfStep ∧ t.twin.role = .helm)) ∧
      (n.tb < w.lastSent + usToTb 100 → exec (.heartbeatDue now) s = .next n) ∧
      (w.lastSent + usToTb 100 ≤ n.tb → partnerGone n = true → ∃ t, exec (.heartbeatDue now) s = .next t ∧
        t.twin.pair = .noPartner ∧ t.twin.role = .helm ∧ t.image = s.image) ∧
      (w.lastSent + usToTb 100 ≤ n.tb → partnerGone n = false → (w.lane0 || w.lane1) = true → exec (.heartbeatDue now) s =
        .next { n with twin := { w with lastSent := n.tb, sent := w.sent ++ [.heartbeat (linkRole s) (pairCode w.pair) w.term
          (headSeq s) (if w.role = .helm then pairTb n n.tb else n.tb)] } }) ∧
      (h.ok = false → exec (.heartbeat now h) s = .next n) ∧
      (h.ok = true → w.role = .watch → h.role = 1 → ∃ t, exec (.heartbeat now h) s = .next t ∧
        t.twin.lastLive = n.tb ∧ t.twin.offset = (h.senderTb : Int) + Config.twinLatency - n.tb ∧
        t.twin.term = max w.term h.term ∧ t.twin.pair = w.pair ∧ t.image = s.image) ∧
      (h.ok = true → w.role = .helm → h.pairState ≠ 4 ∨ w.handoverSent = none → exec (.heartbeat now h) s = .next live) ∧
      (w.role = .watch → left (exec (.drop now reason) s) .outOfStep) ∧
      (w.role = .watch → kind = 0 ∨ 5 < kind → exec (.config now kind data) s = .next live) ∧
      (w.role = .watch → w.pair ≠ .inStep → w.pair ≠ .resync → kind = 1 → exec (.config now kind data) s = .next live) ∧
      (w.role = .watch → kind = 5 → field data 0 1 = 1 → left (exec (.config now kind data) s) .resync) ∧
      (w.role = .watch → w.pair = .resync → kind = 5 → field data 0 1 = 6 → ∃ t, exec (.config now kind data) s = .next t ∧
        t.twin.pair = .inStep ∧ t.twin.role = .watch))

/-- The change of watch, votes and the twin's commands (R383, R390, R394-R400, R404, R406): HANDOVER makes a Watch in step Helm with
a higher term, TAKEN makes the Helm Watch, silence and its votes, TWIN.CHANGE and TWIN.RESYNC.
Where the manual leaves a point open it states the reading of log entries 65, 66 and 67. -/
def Obligations.ChangeOfWatch : Prop :=
  ∀ (s : State) (now : Tb) (c : CmdRef) (f : HandoverFrame) (term at_ : Nat),
    let n := s.at now
    let w := s.twin
    let live := { n with twin := { w with lastLive := n.tb } }
    let lane := (w.lane0 || w.lane1) = true
    let helms := fun (x : Host.Outcome State Fault Refusal) (term : Nat) => ∃ t, x = .next t ∧ t.twin.role = .helm ∧
      t.twin.term = term ∧ t.twin.changes = w.changes + 1 ∧ t.twin.changeRefs = []
    let settles := fun (x : Host.Outcome State Fault Refusal) (p : PairState) => ∃ t, x = .next t ∧ t.twin.role = .watch ∧
      t.twin.pair = p
    let silent := w.lastLive + watchTimeout s ≤ n.tb
    let votes := exec (.silenceVoteElapsed now) s
    let down := w.lane0 = false ∧ w.lane1 = false
    let late := fun (t : Option Nat) => ∃ u, t = some u ∧ w.lastLive + hbSpan s 1 < u
    let heard := late w.heardHelm.1 ∨ late w.heardHelm.2
    let starts := w.role = .starting ∨ (w.role = .watch ∧ w.startTest = true)
    let start := exec (.twinStartWaitExpiry now) s
    let tests := starts ∧ linkUp s = false ∧ msToTb (par s 0x0606) ≤ n.tb ∧ s.power.mode ≠ .halt
    let gives := w.role = .helm ∧ s.power.mode ≠ .halt ∧ silent ∧ ownAcked n 2 = false
    (twinOn s = true →
      (f.ok = false → exec (.handover now f) s = .next n) ∧
      (f.ok = true → w.role = .watch → w.pair ≠ .inStep → exec (.handover now f) s = .next live) ∧
      (f.ok = true → w.role = .watch → w.pair = .inStep → s.ring.nextSeq ≤ f.lastSeq →
        settles (exec (.handover now f) s) .outOfStep) ∧
      (f.ok = true → w.role = .watch → w.pair = .inStep → f.lastSeq < s.ring.nextSeq →
        helms (exec (.handover now f) s) (max w.term f.term + 1)) ∧
      (w.role = .helm → ∃ t, exec (.taken now term) s = .next t ∧ t.twin.role = .watch ∧ t.twin.pair = .hello ∧
        t.twin.changes = w.changes + 1 ∧ t.twin.term = max w.term term ∧ t.twin.safeAt = some (n.tb + usToTb 100) ∧
        t.sched.running = none ∧ t.sched.suspended = [] ∧ t.image = s.image ∧ t.twin.changeRefs = []) ∧
      (w.role = .helm → w.pair ≠ .inStep → ∃ t, exec (.changeReq now) s = .next t ∧
        { t with log := s.log } = live) ∧
      (w.role = .helm → w.pair = .inStep → ∃ t, exec (.changeReq now) s = .next t ∧
        t.sched.handoverReq.isSome = true ∧ t.twin.role = .helm ∧ t.image = s.image) ∧
      (w.role ≠ .watch ∨ ¬ silent → exec (.watchTimeout now) s = .next n) ∧
      (w.role = .watch → silent → w.pair ≠ .inStep → linkUp s = true → exec (.watchTimeout now) s = .next n) ∧
      (w.role = .watch → silent → w.pair ≠ .inStep → linkUp s = false → settles (exec (.watchTimeout now) s) .isolated) ∧
      (w.role = .watch → silent → w.pair = .inStep → lane → helms (exec (.watchTimeout now) s) (w.term + 1)) ∧
      (w.role ≠ .watch ∨ w.pair ≠ .inStep ∨ ¬ silent ∨ lane → votes = .next n) ∧
      (w.role = .watch → w.pair = .inStep → silent → down →
        (heard → settles votes .outOfStep) ∧
        (¬ heard → helmOnBus n = false → ownAcked n 3 = true → helms votes (w.term + 1)) ∧
        (¬ heard → helmOnBus n = true ∨ ownAcked n 3 = false → settles votes .inStep)) ∧
      (¬ gives → exec (.helmGivesUp now) s = .next n) ∧
      (gives → ∃ t, exec (.helmGivesUp now) s = .next t ∧ t.twin.role = .watch ∧ t.twin.pair = .isolated ∧
        t.pstate ≠ .running ∧ t.sched.running = none) ∧
      (¬ tests → start = .next n) ∧
      (tests →
        (helmOnBus n = true ∨ outranked n w.heardStart.1 = true ∨ outranked n w.heardStart.2 = true ∨
          ownAcked n 3 = false → settles start .isolated) ∧
        (helmOnBus n = false → outranked n w.heardStart.1 = false → outranked n w.heardStart.2 = false →
          ownAcked n 3 = true → ∃ t, start = .next t ∧ t.twin.role = .helm ∧ t.twin.pair = .noPartner ∧
            t.twin.term = w.term + 1))) ∧
    (w.safeAt = none → exec (.watchOutputsSafe now) s = .next n) ∧
    (w.safeAt = some at_ → n.tb < at_ → exec (.watchOutputsSafe now) s = .next n) ∧
    (w.safeAt = some at_ → at_ ≤ n.tb → ∃ t, exec (.watchOutputsSafe now) s = .next t ∧
      (s.field.linkAlive = false ∨ w.role ≠ .watch → t = { n with twin := { w with safeAt := none } }) ∧
      t.twin.safeAt = none) ∧
    works s now c (.twinChange now c) (fun _ b t =>
      (b.twin.role = .watch → b.twin.pair = .inStep → waits t c ∧ c ∈ t.twin.changeRefs ∧
        ((b.twin.lane0 && b.twin.lane1) = true → t.twin.sent = b.twin.sent ++ [.changeReq])) ∧
      (b.twin.role = .helm → b.twin.pair = .inStep → waits t c ∧ c ∈ t.twin.changeRefs ∧
        t.sched.handoverReq.isSome = true) ∧
      (b.twin.pair ≠ .inStep ∨ (b.twin.role ≠ .watch ∧ b.twin.role ≠ .helm) →
        refuses t c stState 0x05 ∧ sameButResults b t)) ∧
    works s now c (.twinResync now c) (fun x b t =>
      let stage := 7 - x.stages.length
      (b.twin.pair = .inStep → onlyAnswers b t c (le 8 b.tb)) ∧
      (b.twin.pair ≠ .inStep → b.twin.role ≠ .helm ∨ linkUp b = false ∨ (stage ≠ 1 ∧ b.twin.pair ≠ .resync) →
        refuses t c stState 0x05 ∧ sameButResults b t) ∧
      (b.twin.pair ≠ .inStep → b.twin.role = .helm → linkUp b = true → stage = 1 → t.twin.pair = .resync ∧
        t.twin.resyncStage = 1 ∧ t.image = b.image ∧ t.twin.role = .helm) ∧
      (b.twin.pair = .resync → b.twin.role = .helm → linkUp b = true → 1 ≤ stage →
        t.twin.resyncStage = stage ∧ t.twin.role = .helm ∧ (lastStage x = true → waits t c ∧ t.twin.resyncRef = some c)))

/-! ### Reset and the fuses -/

/-- The state after reset, as far as the spec gives it (R21, R87, R95, R203, R204, R550, R580, R606, R686): the time base at 0 and the
ports closed, the engine as EXECUTE clears it, every parameter at its default, the time register at 2000-01-01 and not valid, EN 1
with a period of 1,000 ms, sequence 0 in the logbook; no command waits (the model's own queue). -/
def Obligations.ResetState : Prop :=
  let s := State.reset
  s.pending = [] ∧ s.tb = 0 ∧ portStatus s = 0 ∧ s.host.session = none ∧ s.host.cmds = [] ∧
  (∀ r : Reg, regLoc s.eng r ≠ .nowhere → readReg s.eng r = Tagged.zero) ∧ (∀ a : BitVec 2, readAcc s.eng a = ⟨0, 0⟩) ∧
  (∀ k : BitVec 3, readPred s.eng k = ⟨decide (k = 0), qGood⟩) ∧ (∀ k : BitVec 3, readX s.eng k = ⟨0, qGood⟩) ∧
  s.eng.ctrl = 0 ∧ s.eng.status = 0 ∧ s.eng.amode = 0 ∧ s.eng.pend = none ∧ s.eng.beats = 0 ∧
  (∀ pid, par s pid = paramDefault pid) ∧ s.book.shares = (40, 30, 20, 10) ∧
  s.clock.sec = 0 ∧ s.clock.sub = 0 ∧ s.clock.valid = false ∧ calendarBytes 0 = [0xD0, 0x07, 1, 1, 0, 0, 0, 0] ∧
  s.wd.state = .running ∧ s.wd.period = 1000 ∧ s.wd.lock = false ∧ s.log.next = 0 ∧
  s.power.mode = .idle ∧ s.power.resumed = false ∧ s.sched.running = none ∧ s.forces = []

/-- Fuses are burnt once and security versions only rise (R9, R636, R643): over every step, whatever the command and the state, WDLOCKF
never clears, a programmed WDWIN keeps its value, and SVFUSE never falls. -/
def Obligations.FusesOnlyBurn : Prop :=
  ∀ s t : State, step s = .next t →
    s.store.svfuse ≤ t.store.svfuse ∧ (s.store.wdlockf = true → t.store.wdlockf = true) ∧
    (s.store.wdwinSet = true → t.store.wdwinSet = true ∧ t.store.wdwin = s.store.wdwin)
end

