-- ==== Sys2Proof/Laws/Engine.lean ====
section
/-!
SUPPORT. Laws of the logic engine: reading a home after a write, and what one executed instruction leaves.
-/
namespace Sys2Proof.Machine

open Sys2Proof

/-! ### Register files -/

theorem vget_vset {α : Type} {n : Nat} (v : Vector α n) (i j : Nat) (x d : α) :
    vget (vset v i x) j d = if i = j ∧ i < n then x else vget v j d := by
  unfold vget vset
  by_cases hi : i < n
  · by_cases hj : j < n
    · simp only [hi, hj, dif_pos, and_true, Vector.getElem_set]
    · have : i ≠ j := by omega
      simp [hi, hj, this]
  · simp [hi]

theorem vget_vmod {α : Type} {n : Nat} (v : Vector α n) (i j : Nat) (f : α → α) (d : α) :
    vget (vmod v i f) j d = if i = j ∧ i < n then f (vget v j d) else vget v j d := by
  unfold vget vmod
  by_cases hi : i < n
  · by_cases hj : j < n
    · simp only [hi, hj, dif_pos, and_true, Vector.getElem_set]
      by_cases h : i = j
      · subst h; simp
      · simp [h]
    · have : i ≠ j := by omega
      simp [hi, hj, this]
  · simp [hi]

/-- A home that exists: every register code names one, or nowhere (R205, R238). -/
def LoadDest.ok : LoadDest → Bool
  | .home i => decide (i < 8)
  | .frame w i => decide (w < 16 ∧ i < 16)
  | .pred i => decide (0 < i ∧ i < 8)
  | .nowhere => false

theorem regLoc_ok (e : Engine) (r : Reg) (h : regLoc e r ≠ .nowhere) : (regLoc e r).ok = true := by
  unfold regLoc at h ⊢
  have := r.isLt
  have := e.wpos.isLt
  simp only at h ⊢
  split
  · simp only [LoadDest.ok, decide_eq_true_eq]; assumption
  · split
    · simp only [LoadDest.ok, decide_eq_true_eq]; omega
    · split
      · simp_all
      · simp only [LoadDest.ok, decide_eq_true_eq]; omega

theorem readLoc_putLoc_ne (e : Engine) (l l' : LoadDest) (t : Tagged) (h : l' ≠ l) :
    readLoc (putLoc e l t) l' = readLoc e l' := by
  cases l with
  | nowhere => rfl
  | home i =>
    cases l' <;> try rfl
    rename_i j
    have : i ≠ j := fun x => h (by rw [x])
    simp only [putLoc, readLoc, vget_vset, this, false_and, if_false]
  | frame w i =>
    cases l' <;> try rfl
    rename_i w' j
    simp only [putLoc, readLoc, vget_vmod]
    by_cases hw : w = w'
    · subst hw
      have : i ≠ j := fun x => h (by rw [x])
      split
      · simp only [vget_vset, this, false_and, if_false]
      · rfl
    · simp [hw]
  | pred i =>
    by_cases hi : i = 0
    · simp [putLoc, hi]
    cases l' <;> simp only [putLoc, hi, if_false] <;> try rfl
    rename_i j
    have : i ≠ j := fun x => h (by rw [x])
    simp only [readLoc, vget_vset, this, false_and, if_false]

/-- A general register reads back what was put into it. -/
theorem readLoc_putLoc_reg (e : Engine) (r : Reg) (t : Tagged) (h : regLoc e r ≠ .nowhere) :
    readLoc (putLoc e (regLoc e r) t) (regLoc e r) = t := by
  have ok := regLoc_ok e r h
  cases hl : regLoc e r with
  | nowhere => exact absurd hl h
  | pred i => unfold regLoc at hl; simp only at hl; split at hl <;> (try cases hl); split at hl <;> (try cases hl); split at hl <;> cases hl
  | home i =>
    rw [hl] at ok
    simp only [LoadDest.ok, decide_eq_true_eq] at ok
    simp [putLoc, readLoc, vget_vset, ok]
  | frame w i =>
    rw [hl] at ok
    simp only [LoadDest.ok, decide_eq_true_eq] at ok
    simp [putLoc, readLoc, vget_vmod, vget_vset, ok]

/-! ### What a write to a home leaves alone -/

/-- Two engines that agree on everything but the homes, the pending load and the links of the windows agree on these. -/
def restOf (e : Engine) : Engine :=
  { e with h := Engine.reset.h, win := Engine.reset.win, p := Engine.reset.p, pend := none }

@[simp] theorem restOf_putLoc (e : Engine) (l : LoadDest) (t : Tagged) : restOf (putLoc e l t) = restOf e := by
  cases l <;> simp only [putLoc] <;> (try split) <;> rfl

@[simp] theorem restOf_dropPend (e : Engine) (l : LoadDest) : restOf (dropPend e l) = restOf e := by
  unfold dropPend; split
  · rfl
  · split <;> rfl

@[simp] theorem restOf_commitLoad (e : Engine) : restOf (commitLoad e) = restOf e := by
  unfold commitLoad; split
  · rfl
  · rw [restOf_putLoc]; rfl

theorem link_putLoc (e : Engine) (l : LoadDest) (t : Tagged) (w : Nat) :
    (vget (putLoc e l t).win w Window.reset).link = (vget e.win w Window.reset).link := by
  cases l <;> simp only [putLoc] <;> (try split) <;> (try rfl)
  rw [vget_vmod]; split <;> rfl

theorem link_dropPend (e : Engine) (l : LoadDest) : (dropPend e l).win = e.win := by
  unfold dropPend; split
  · rfl
  · split <;> rfl

theorem link_commitLoad (e : Engine) (w : Nat) :
    (vget (commitLoad e).win w Window.reset).link = (vget e.win w Window.reset).link := by
  unfold commitLoad; split
  · rfl
  · rw [link_putLoc]

theorem readLoc_dropPend (e : Engine) (l l' : LoadDest) : readLoc (dropPend e l) l' = readLoc e l' := by
  unfold dropPend; split
  · rfl
  · split <;> rfl

@[simp] theorem pend_putLoc (e : Engine) (l : LoadDest) (t : Tagged) : (putLoc e l t).pend = e.pend := by
  cases l <;> first | rfl | (simp only [putLoc]; split <;> rfl)

@[simp] theorem pend_commitLoad (e : Engine) : (commitLoad e).pend = none := by
  unfold commitLoad; split
  · assumption
  · rw [pend_putLoc]

theorem readLoc_commitLoad_of_pend_ne (e : Engine) (l : LoadDest) (h : ∀ p, e.pend = some p → p.dest ≠ l) :
    readLoc (commitLoad e) l = readLoc e l := by
  unfold commitLoad; split
  · rfl
  · rename_i p hp
    rw [readLoc_putLoc_ne _ _ _ _ (Ne.symm (h p hp))]; rfl

theorem regLoc_restOf (e : Engine) (r : Reg) : regLoc e r = regLoc (restOf e) r := rfl

theorem commitLoad_dropPend_ne (e : Engine) (l l' : LoadDest) (h : l' ≠ l) :
    readLoc (commitLoad (dropPend e l)) l' = readLoc (commitLoad e) l' := by
  unfold dropPend
  split
  · rfl
  · rename_i p hp
    split
    · rename_i hd
      simp only [commitLoad, hp]
      rw [readLoc_putLoc_ne _ _ _ _ (by rw [hd]; exact h)]
    · rfl

/-! ### One executed instruction -/

/-- What an executed instruction leaves of the engine: the body's registers, the pending load at its destination, the
destinations worsened by the guard's Q, the pc and the beats. -/
def leaves (e : Engine) (g : Guard) (cost : Nat) (dests : List Dest) (pc : CodeAddr) (body : Engine) : Engine :=
  countBeats (dests.foldl (worsenDest (guardQ e g)) { commitLoad body with pc := pc, pend := none }) cost (ctrlPmask e)

theorem canRun_some {s : State} {cost : Nat} (h : canRun s cost = true) :
    ∃ sc, s.sched.running = some sc ∧ sc.phase = .execute ∧ s.eng.beats + cost ≤ (taskDef s sc.task).p := by
  unfold canRun at h
  split at h
  · cases h
  · rename_i sc hsc
    simp only [Bool.and_eq_true, decide_eq_true_eq] at h
    exact ⟨sc, hsc, h.1, h.2⟩

/-- An instruction that works on registers alone, executed within its postage. -/
theorem engineRegs_met (s : State) (g : Guard) (cost : Nat) (dests : List Dest) (f : Engine → Engine)
    (hc : canRun s cost = true) (hg : guardMet s.eng g = true) :
    engineRegs s g cost dests f =
      .next (preemptNow (notePmovr { s with eng := leaves s.eng g cost dests (s.eng.pc + 1) (f s.eng) })) := by
  obtain ⟨sc, hsc, hp, hb⟩ := canRun_some hc
  simp only [engineRegs, engineRun, engineRunThen, hsc, hp, ne_eq, not_true_eq_false, if_false, hg, if_true,
    Nat.not_lt.mpr hb, engOut, Option.isNone_some, Bool.false_eq_true, Bool.and_false, nextPc, modEng, leaves,
    Option.map_none]

theorem logRaw_rest (s : State) (type sev src : Nat) (body : List Byte) :
    ∃ l, (logRaw s type sev src body).2 = { s with log := l } := by
  unfold logRaw
  simp only
  split
  · exact ⟨s.log, rfl⟩
  · split
    · exact ⟨_, rfl⟩
    · exact ⟨_, rfl⟩

/-- A record of the logbook changes the logbook alone. -/
theorem log_rest (s : State) (type sev src subject code : Nat) (vals : List Byte) :
    ∃ l, log s type sev src subject code vals = { s with log := l } := logRaw_rest ..

/-- The record of PMOVR leaves everything but the logbook and its own mark. -/
theorem notePmovr_only (s : State) (e : Engine) :
    engineOnly s (notePmovr { s with eng := e }) ∧ (notePmovr { s with eng := e }).eng = e := by
  unfold notePmovr
  split
  · exact ⟨⟨rfl, rfl, fun _ => rfl⟩, rfl⟩
  · rename_i sc hsc
    split
    · rename_i h
      obtain ⟨l, hl⟩ := log_rest (modRun { s with eng := e } (fun x => { x with pmovr := true })) 0x23 sevWarning 0x01
        sc.task 0 []
      rw [hl]
      refine ⟨⟨rfl, rfl, fun h3 => ?_⟩, rfl⟩
      simp only [Bool.and_eq_true] at h
      have h3 : e.status.getLsbD 3 = false := h3
      have h' : e.status.getLsbD 3 = true := h.1
      rw [h'] at h3; cases h3
    · exact ⟨⟨rfl, rfl, fun _ => rfl⟩, rfl⟩

/-- Worsening one general register. -/
theorem worsenDest_reg (q : Quality) (e : Engine) (r : Reg) :
    worsenDest q e (.reg r) = putLoc e (regLoc e r) ⟨(readReg e r).val, worsenTag (readReg e r).tag q⟩ := rfl

/-- Counting beats, field by field. -/
theorem countBeats_eq (e : Engine) (cost : Nat) (m : Bool) :
    countBeats e cost m =
      { e with
        beats := e.beats + cost, pmcount := (if m then e.pmcount + cost else e.pmcount),
        status := (if m && ctrlPmask e && decide (9600 ≤ e.pmcount + cost) then e.status ||| stPmovr else e.status),
        ctrl := (if m && ctrlPmask e && decide (9600 ≤ e.pmcount + cost) then e.ctrl &&& 0xFFFFFFFFFE else e.ctrl) } := by
  cases m
  · rfl
  · by_cases h : (ctrlPmask e && decide (9600 ≤ e.pmcount + cost)) = true
    · have h1 : (true && ctrlPmask e && decide (9600 ≤ e.pmcount + cost)) = true := by simpa using h
      simp only [h1, if_true]
      unfold countBeats
      exact if_pos h
    · have h1 : ¬ (true && ctrlPmask e && decide (9600 ≤ e.pmcount + cost)) = true := by simpa using h
      simp only [h1]
      unfold countBeats
      exact if_neg h

/-- An engine that agrees with e but for the homes, the sticky flags and SF.ERRPC, run to the end of its instruction. -/
theorem regFrame_of (e f : Engine) (cost : Nat) (pc : CodeAddr) (dest : LoadDest) (st fp : Word) (ep : CodeAddr)
    (hread : ∀ l, l ≠ dest → readLoc f l = readLoc (commitLoad e) l)
    (hlink : ∀ w, (vget f.win w Window.reset).link = (vget e.win w Window.reset).link)
    (hpend : f.pend = none)
    (hf : restOf f = restOf { e with status := st, fpstat := fp, errpc := ep, pc := pc }) :
    let e' := countBeats f cost (ctrlPmask e)
    regFrame e e' cost pc dest ∧ e'.a = e.a ∧ e'.x = e.x ∧ e'.status = st ||| pmovrBit e cost ∧ e'.fpstat = fp ∧
      e'.errpc = ep := by
  have get : ∀ {α : Type} (p : Engine → α), p (restOf f) = p (restOf { e with
    status := st, fpstat := fp, errpc := ep, pc := pc }) := fun p => by rw [hf]
  have hc : f.ctrl = e.ctrl := get Engine.ctrl
  have hk : ctrlPmask f = ctrlPmask e := by unfold ctrlPmask; rw [hc]
  have hp : f.pmcount = e.pmcount := get Engine.pmcount
  have hb : f.beats = e.beats := get Engine.beats
  have hs : f.status = st := get Engine.status
  simp only [countBeats_eq, hk, Bool.and_self, hp, hb, hc, hs]
  refine ⟨⟨fun l hl => ?_, hlink, get Engine.owner, get Engine.wpos, get Engine.depth, get Engine.amode,
    get Engine.erraddr, get Engine.m, get Engine.b, get Engine.n, get Engine.pc, rfl, hpend, rfl, rfl⟩,
    get Engine.a, get Engine.x, ?_, get Engine.fpstat, get Engine.errpc⟩
  · rw [← hread l hl]; rfl
  · unfold pmovrBit maskEnds; split <;> simp

theorem regLoc_congr (x y : Engine) (r : Reg) (h1 : x.wpos = y.wpos) (h2 : x.depth = y.depth) :
    regLoc x r = regLoc y r := by
  simp only [regLoc, h1, h2]

theorem readLoc_congr (x y : Engine) (l : LoadDest) (hh : x.h = y.h) (hw : x.win = y.win) (hp : x.p = y.p) :
    readLoc x l = readLoc y l := by
  cases l <;> simp only [readLoc, hh, hw, hp]

/-- What a home reads as after a value is put into it: predicates keep V and Q alone. -/
def shownAs : LoadDest → Tagged → Tagged
  | .pred _, t => ⟨if t.val.getLsbD 0 then 1 else 0, mkTag false false false false false (tagQ t.tag) (t.val.getLsbD 0)⟩
  | _, t => t

theorem readLoc_putLoc_same (e : Engine) (l : LoadDest) (t : Tagged) :
    readLoc (putLoc e l t) l = if l.ok then shownAs l t else readLoc e l := by
  cases l with
  | nowhere => rfl
  | home i => simp [putLoc, readLoc, vget_vset, LoadDest.ok, shownAs]
  | frame w i =>
    simp only [putLoc, readLoc, vget_vmod, LoadDest.ok, shownAs]
    by_cases hw : w < 16
    · by_cases hi : i < 16 <;> simp [hw, hi, vget_vset]
    · simp [hw]
  | pred i =>
    by_cases h0 : i = 0
    · simp [putLoc, h0, LoadDest.ok]
    · have : 0 < i := by omega
      by_cases h8 : i < 8 <;> simp [putLoc, readLoc, h0, this, h8, vget_vset, LoadDest.ok, shownAs]

theorem readLoc_putLoc_congr (x y : Engine) (l l' : LoadDest) (t : Tagged) (h : readLoc x l' = readLoc y l') :
    readLoc (putLoc x l t) l' = readLoc (putLoc y l t) l' := by
  by_cases hl : l' = l
  · subst hl; rw [readLoc_putLoc_same, readLoc_putLoc_same, h]
  · rw [readLoc_putLoc_ne _ _ _ _ hl, readLoc_putLoc_ne _ _ _ _ hl, h]

/-- A home that reads the same before the pending load reads the same after it. -/
theorem readLoc_commitLoad_congr (x y : Engine) (l : LoadDest) (h : readLoc x l = readLoc y l) (hp : x.pend = y.pend) :
    readLoc (commitLoad x) l = readLoc (commitLoad y) l := by
  unfold commitLoad
  rw [hp]
  split
  · exact h
  · exact readLoc_putLoc_congr _ _ _ _ _ h

theorem wpos_of_rest {x y : Engine} (h : restOf x = restOf y) : x.wpos = y.wpos := by
  have := congrArg (fun z : Engine => z.wpos) h
  exact this
theorem depth_of_rest {x y : Engine} (h : restOf x = restOf y) : x.depth = y.depth := by
  have := congrArg (fun z : Engine => z.depth) h
  exact this

theorem restOf_pc {x y : Engine} (h : restOf x = restOf y) (pc : CodeAddr) :
    restOf { x with pc := pc, pend := none } = restOf { y with pc := pc } :=
  congrArg (fun z : Engine => { z with pc := pc }) h

/-- The registers after a write of one general register at the end of its instruction. -/
theorem leaves_writeReg (e e0 : Engine) (g : Guard) (cost : Nat) (rd : Reg) (r : Tagged) (st fp : Word) (pc : CodeAddr)
    (h0 : e0 = { e with status := st, fpstat := fp }) :
    let e' := leaves e g cost [.reg rd] pc (writeReg e0 rd r)
    regFrame e e' cost pc (regLoc e rd) ∧ e'.a = e.a ∧ e'.x = e.x ∧
    (regLoc e rd ≠ .nowhere → readReg e' rd = ⟨r.val, worsenTag r.tag (guardQ e g)⟩) ∧
    e'.status = st ||| nowhereBit e rd ||| pmovrBit e cost ∧ e'.fpstat = fp ∧
    e'.errpc = (if regLoc e rd = .nowhere then e.pc else e.errpc) := by
  have hl0 : regLoc e0 rd = regLoc e rd := by rw [h0]; rfl
  have hr0 : ∀ l, readLoc e0 l = readLoc e l := fun l => readLoc_congr _ _ _ (by rw [h0]) (by rw [h0]) (by rw [h0])
  have hp0 : e0.pend = e.pend := by rw [h0]
  have hw0 : e0.win = e.win := by rw [h0]
  simp only [leaves, List.foldl, worsenDest_reg]
  by_cases hn : regLoc e rd = .nowhere
  · have hw : writeReg e0 rd r = setAerr e0 := by unfold writeReg; rw [hl0, hn]
    rw [hw]
    generalize hc : ({ commitLoad (setAerr e0) with pc := pc, pend := none } : Engine) = c
    have hrest : restOf c = restOf { setAerr e0 with pc := pc } := by rw [← hc]; exact restOf_pc (restOf_commitLoad _) pc
    have hx : regLoc c rd = .nowhere := by
      rw [← hn, ← hl0]
      exact (regLoc_congr c { setAerr e0 with pc := pc } rd (wpos_of_rest hrest) (depth_of_rest hrest))
    rw [hx, show ∀ x, putLoc c .nowhere x = c from fun _ => rfl]
    obtain ⟨h1, h2, h3, h4, h5, h6⟩ := regFrame_of e c cost pc .nowhere (st ||| stAerr) fp e.pc
      (fun l _ => by
        rw [← hc]
        exact readLoc_commitLoad_congr (setAerr e0) e l (hr0 l) hp0)
      (fun w => by rw [← hc]; show (vget (commitLoad (setAerr e0)).win w Window.reset).link = _
                   rw [link_commitLoad]; show (vget e0.win w Window.reset).link = _; rw [hw0])
      (by rw [← hc]) (by rw [hrest, h0]; rfl)
    exact ⟨hn ▸ h1, h2, h3, fun h => absurd hn h, by rw [h4]; simp [nowhereBit, hn],
      h5, by rw [h6]; simp [hn]⟩
  · have hw : writeReg e0 rd r = putLoc (dropPend e0 (regLoc e rd)) (regLoc e rd) r := by
      unfold writeReg; rw [hl0]; split
      · rename_i h; exact absurd h hn
      · rfl
    rw [hw]
    generalize hd : regLoc e rd = d
    rw [hd] at hn hl0
    generalize hb : putLoc (dropPend e0 d) d r = b
    have hpe : ∀ p, b.pend = some p → p.dest ≠ d := by
      intro p hp
      rw [← hb, pend_putLoc] at hp
      unfold dropPend at hp
      split at hp
      · simp_all
      · rename_i p' hp'
        split at hp
        · cases hp
        · rename_i hne
          rw [hp'] at hp
          cases hp
          exact hne
    have hrb : restOf b = restOf e0 := by rw [← hb]; simp
    have hrc : restOf (commitLoad b) = restOf e0 := by rw [restOf_commitLoad, hrb]
    have hld : regLoc (dropPend e0 d) rd = d := by
      rw [← hl0]; exact regLoc_congr _ _ _ (wpos_of_rest (by simp)) (depth_of_rest (by simp))
    have hbd : readLoc (commitLoad b) d = r := by
      rw [readLoc_commitLoad_of_pend_ne _ _ hpe, ← hb]
      have h := readLoc_putLoc_reg (dropPend e0 d) rd r (by rw [hld]; exact hn)
      rwa [hld] at h
    generalize hc : ({ commitLoad b with pc := pc, pend := none } : Engine) = c
    have hrest : restOf c = restOf { e0 with pc := pc } := by rw [← hc]; exact restOf_pc hrc pc
    have hlc : regLoc c rd = d := by
      rw [← hl0]
      exact (regLoc_congr c { e0 with pc := pc } rd (wpos_of_rest hrest) (depth_of_rest hrest))
    have hcr : readReg c rd = r := by
      unfold readReg; rw [hlc, ← hc]; exact hbd
    rw [hlc, hcr]
    obtain ⟨h1, h2, h3, h4, h5, h6⟩ := regFrame_of e (putLoc c d ⟨r.val, worsenTag r.tag (guardQ e g)⟩) cost pc d st fp e.errpc
      (fun l hl => by
        rw [readLoc_putLoc_ne _ _ _ _ hl, ← hc]
        show readLoc (commitLoad b) l = _
        rw [← commitLoad_dropPend_ne e d l hl]
        refine readLoc_commitLoad_congr b (dropPend e d) l ?_ ?_
        · rw [← hb, readLoc_putLoc_ne _ _ _ _ hl, readLoc_dropPend, readLoc_dropPend, hr0]
        · rw [← hb, pend_putLoc]
          unfold dropPend
          rw [hp0]
          split
          · exact hp0
          · split
            · rfl
            · exact hp0)
      (fun w => by
        rw [link_putLoc, ← hc]
        show (vget (commitLoad b).win w Window.reset).link = _
        rw [link_commitLoad, ← hb, link_putLoc, link_dropPend, hw0])
      (by rw [pend_putLoc, ← hc])
      (by rw [restOf_putLoc, hrest, h0])
    refine ⟨h1, h2, h3, fun _ => ?_, by rw [h4]; simp [nowhereBit, hd, hn], h5, by rw [h6]; simp [hn]⟩
    have h7 : ∀ x : Engine, readReg (countBeats x cost (ctrlPmask e)) rd = readReg x rd := by
      intro x; rw [countBeats_eq]; rfl
    rw [h7]
    have hx : regLoc (putLoc c d ⟨r.val, worsenTag r.tag (guardQ e g)⟩) rd = d := by
      rw [← hlc]; exact regLoc_congr _ _ _ (wpos_of_rest (by simp)) (depth_of_rest (by simp))
    unfold readReg
    rw [hx]
    have h := readLoc_putLoc_reg c rd ⟨r.val, worsenTag r.tag (guardQ e g)⟩ (by rw [hlc]; exact hn)
    rwa [hlc] at h

/-- An instruction whose body writes one general register over sticky flags (R201, R202, R205, R213). -/
theorem writesReg_of (s : State) (i : Instr) (g : Guard) (cost : Nat) (rd : Reg) (r : Tagged) (flags fp : Word)
    (f : Engine → Engine) (hi : exec i s = engineRegs s g cost [.reg rd] f)
    (hf : f s.eng = writeReg { s.eng with status := s.eng.status ||| flags, fpstat := s.eng.fpstat ||| fp } rd r) :
    writesReg s i g cost rd r flags fp := by
  intro hc hg
  have h := leaves_writeReg s.eng _ g cost rd r (s.eng.status ||| flags) (s.eng.fpstat ||| fp) (s.eng.pc + 1) rfl
  rw [← hf] at h
  obtain ⟨ho, he⟩ := notePmovr_only s (leaves s.eng g cost [.reg rd] (s.eng.pc + 1) (f s.eng))
  refine ⟨_, by rw [hi, engineRegs_met s g cost _ f hc hg], ho, ?_⟩
  rw [he]
  exact h

/-- A result from two registers: flags and fpflags are what the operation sets. -/
theorem writesReg_regs2 (F : Engine → Tagged → Tagged → Engine × Tagged) (s : State) (i : Instr) (g : Guard) (cost : Nat)
    (rd rs1 rs2 : Reg) (r : Tagged) (flags fp : Word) (hi : exec i s = regs2 s g cost rd rs1 rs2 F)
    (hf : F s.eng (readReg s.eng rs1) (readReg s.eng rs2)
      = ({ s.eng with status := s.eng.status ||| flags, fpstat := s.eng.fpstat ||| fp }, r)) :
    writesReg s i g cost rd r flags fp :=
  writesReg_of s i g cost rd r flags fp _ hi (by simp only [hf])

/-- A result from one register. -/
theorem writesReg_regs1 (F : Engine → Tagged → Engine × Tagged) (s : State) (i : Instr) (g : Guard) (cost : Nat)
    (rd rs : Reg) (r : Tagged) (flags fp : Word) (hi : exec i s = regs1 s g cost rd rs F)
    (hf : F s.eng (readReg s.eng rs)
      = ({ s.eng with status := s.eng.status ||| flags, fpstat := s.eng.fpstat ||| fp }, r)) :
    writesReg s i g cost rd r flags fp :=
  writesReg_of s i g cost rd r flags fp _ hi (by simp only [hf])

theorem outI40_eq (v : Int) : outI40 v = !inI40 v := by
  simp only [outI40, inI40, i40Min, i40Max]
  by_cases h : -549755813888 ≤ v <;> by_cases h2 : v ≤ 549755813887 <;> simp [h, h2] <;> omega

/-- A wrapping result as the meanings compute it. -/
theorem wrapRes_eq (e : Engine) (v : Int) (ts : List Byte) :
    wrapRes e v ts = ({ e with
        status := e.status ||| (if outI40 v then stOv else 0), fpstat := e.fpstat ||| 0 },
      ⟨BitVec.ofInt 40 v,
        if outI40 v && ctrlOvq e then worsenTag (tagWorst ts false) qBad else tagWorst ts false⟩) := by
  rw [outI40_eq]
  cases h : inI40 v <;> simp [wrapRes, wrapI40, h, ovStatus, ovTag, orStatus, badIf]

/-- A clamped value is the nearest in the I40 range, and the clamp shows when the exact one lies outside. -/
theorem clampI40_eq (v : Int) :
    clampI40 v = (BitVec.ofInt 40 (max (-549755813888) (min v 549755813887)), outI40 v) := by
  unfold clampI40 outI40 i40Max i40Min
  split
  · rename_i h
    rw [min_eq_right (le_of_lt h), max_eq_right (by norm_num)]
    simp [h]
  · rename_i h1
    have h1 := not_lt.mp h1
    split
    · rename_i h
      rw [min_eq_left h1, max_eq_left (le_of_lt h)]
      simp [h]
    · rename_i h2
      rw [min_eq_left h1, max_eq_right (not_lt.mp h2)]
      simp [h2, h1]

end Sys2Proof.Machine
end

