-- ==== Sys2Proof/Laws/Host.lean ====
section
/-!
SUPPORT. Laws of host commands: the work of a command that is ready, and the outcome that it leaves.
-/
namespace Sys2Proof.Machine

open Sys2Proof

theorem find_updFirst (c : CmdRef) (f : Cmd → Cmd) (hf : ∀ y, (f y).ref = y.ref) (l : List Cmd) :
    (updFirst c f l).find? (fun x => x.ref = c) = (l.find? (fun x => x.ref = c)).map f := by
  induction l with
  | nil => rfl
  | cons y r ih =>
    unfold updFirst
    by_cases h : y.ref = c
    · simp [h, hf]
    · simp [h, ih]

/-- Changing a pending command's record leaves it pending. -/
theorem findCmd_updCmd (s : State) (c : CmdRef) (f : Cmd → Cmd) (hf : ∀ y, (f y).ref = y.ref) :
    findCmd (updCmd s c f) c = (findCmd s c).map f := find_updFirst c f hf s.host.cmds

@[simp] theorem findResult_updCmd (s : State) (c d : CmdRef) (f : Cmd → Cmd) :
    findResult (updCmd s c f) d = findResult s d := rfl

@[simp] theorem findCmd_reserveEnergy (s : State) (n : Nat) (c : CmdRef) : findCmd (reserveEnergy s n) c = findCmd s c := rfl

@[simp] theorem findResult_reserveEnergy (s : State) (n : Nat) (c : CmdRef) :
    findResult (reserveEnergy s n) c = findResult s c := rfl

/-- A ready command is pending and begun in the state in which its work runs. -/
theorem findCmd_workState {s : State} {now : Tb} {c : CmdRef} {i : Instr} {x : Cmd} (h : ready s now c i x) :
    findCmd (workState s now c x) c = some { x with phase := .started, begun := true, worked := true } := by
  unfold workState beginWork
  rw [findCmd_reserveEnergy, findCmd_updCmd _ c (fun y => { y with worked := true }) (fun _ => rfl),
    findCmd_updCmd (s.at now) c (fun y => { y with phase := .started, begun := true }) (fun _ => rfl), h.1.1]
  rfl

/-- The work of a command begins in a state that differs from the row's in the command alone. -/
@[simp] theorem collarClosed_beginWork (s : State) (c : CmdRef) (u : Nat) :
    collarClosed (beginWork s c) u = collarClosed s u := rfl

@[simp] theorem energyFor_beginWork (s : State) (c : CmdRef) (n : Nat) : energyFor (beginWork s c) n = energyFor s n := rfl

/-- The work of a ready command runs. -/
theorem runWork_ready {s : State} {now : Tb} {c : CmdRef} {i : Instr} {x : Cmd} (h : ready s now c i x)
    (f : State → Cmd → State) : runWork now c i s f = .next (f (workState s now c x) x) := by
  obtain ⟨⟨h1, h2, h3, h4⟩, h5, h6⟩ := h
  have hf : (!mayWork (s.at now) x || x.franked && !x.frankDone) = false := by
    cases hf : x.franked <;> simp_all
  have hr : (if x.begun = true then none else recheck (beginWork (s.at now) c) c i) = none := by
    cases hb : x.begun <;> simp_all
  have hc : (cryptoStage x && collarClosed (s.at now) 8) = false := by
    cases hc : cryptoStage x <;> simp_all
  have he : ¬(stageDemand x ≠ 0 ∧ ¬energyFor (s.at now) (stageDemand x) = true) := fun ⟨a, b⟩ => b (h6 a)
  simp only [runWork, h1, hf, hr, collarClosed_beginWork, hc, energyFor_beginWork, workState, Bool.false_eq_true,
    if_false]
  exact congrArg _ (if_neg he)

/-- A row whose meaning is the work of its command. -/
theorem works_of {s : State} {now : Tb} {c : CmdRef} {i : Instr} {post : Cmd → State → State → Prop}
    {f : State → Cmd → State} (he : exec i s = runWork now c i s f)
    (h : ∀ x, ready s now c i x → post x (workState s now c x) (f (workState s now c x) x)) : works s now c i post :=
  fun x hx => ⟨_, he.trans (runWork_ready hx f), h x hx⟩

/-- The work of a ready command that acts in its last stage alone. -/
theorem runLast_ready {s : State} {now : Tb} {c : CmdRef} {i : Instr} {x : Cmd} (h : ready s now c i x)
    (f : State → State) :
    runLast now c i s f = .next (if lastStage x then f (workState s now c x) else workState s now c x) :=
  runWork_ready h _

/-- What setting an outcome leaves. -/
theorem findResult_setResult {s : State} {c : CmdRef} {x : Cmd} (h : findCmd s c = some x) (st r : BitVec 8)
    (d : BitVec 32) (p : List Byte) :
    findResult (setResult s c st r d p) c =
      some { ref := c, opcode := x.opcode, status := st, reason := r, detail := d, payload := p, time := none } := by
  unfold setResult findResult
  rw [h]
  simp only [List.find?_append]
  have : (s.host.results.filter (fun y => y.ref ≠ c)).find? (fun x => x.ref = c) = none := by
    rw [List.find?_eq_none]
    intro y hy
    have := (List.mem_filter.mp hy).2
    simp_all
  simp only [this, Option.none_or, List.find?_cons, decide_true]

/-- Other outcomes stand. -/
theorem findResult_setResult_ne (s : State) {c d : CmdRef} (hd : d ≠ c) (st r : BitVec 8) (v : BitVec 32)
    (p : List Byte) : findResult (setResult s c st r v p) d = findResult s d := by
  unfold setResult
  split
  · rfl
  · rename_i x _
    unfold findResult
    simp only [List.find?_append]
    have : (s.host.results.filter (fun y => y.ref ≠ c)).find? (fun x => x.ref = d)
        = s.host.results.find? (fun x => x.ref = d) := by
      induction s.host.results with
      | nil => rfl
      | cons y r ih =>
        by_cases h1 : y.ref = c
        · have : y.ref ≠ d := fun e => hd (e ▸ h1)
          simp_all
        · by_cases h2 : y.ref = d <;> simp_all
    rw [this]
    cases s.host.results.find? (fun x => x.ref = d) <;> simp [Ne.symm hd]

theorem setResult_same (s : State) (c : CmdRef) (st r : BitVec 8) (v : BitVec 32) (p : List Byte) :
    sameButResults s (setResult s c st r v p) := by
  unfold setResult sameButResults
  split <;> rfl

/-- A command whose work is done has answered, and nothing else has changed. -/
theorem done_onlyAnswers {s : State} {c : CmdRef} {x : Cmd} (h : findCmd s c = some x) (p : List Byte) :
    onlyAnswers s (done s c p) c p :=
  ⟨⟨_, findResult_setResult h .., rfl, rfl, rfl⟩, setResult_same .., fun _ hd => findResult_setResult_ne _ hd ..⟩

end Sys2Proof.Machine
end

