-- ==== Sys2Proof/Laws/Maps.lean ====
section
/-!
SUPPORT. Laws of the sparse maps and of the image: read after write, and the canonical form that every write keeps.
-/
namespace Sys2Proof.Machine

open Sys2Proof

/-! ### Read after write -/

theorem smGet_smErase {α : Type} (d : Nat → α) (m : SMap α) (k j : Nat) :
    smGet d (smErase m k) j = if j = k then d j else smGet d m j := by
  induction m with
  | nil => simp [smErase, smGet]
  | cons e r ih =>
    obtain ⟨a, v⟩ := e
    by_cases ha : a = k
    · rw [show smErase ((a, v) :: r) k = smErase r k by simp [smErase, ha], ih]
      by_cases hj : j = k
      · simp [hj]
      · simp [hj, smGet, ha, Ne.symm hj]
    · simp only [smErase, ha, if_false, smGet, ih]
      by_cases hj : j = k
      · subst hj; simp [ha]
      · simp [hj]

theorem smGet_smInsert {α : Type} (d : Nat → α) (m : SMap α) (k j : Nat) (v : α) :
    smGet d (smInsert m k v) j = if j = k then v else smGet d m j := by
  induction m with
  | nil => simp [smInsert, smGet, eq_comm]
  | cons e r ih =>
    obtain ⟨a, w⟩ := e
    unfold smInsert
    split
    · by_cases hj : j = k
      · simp [smGet, hj]
      · simp [smGet, hj, Ne.symm hj]
    · split
      · rename_i h
        subst h
        by_cases hj : j = k
        · simp [smGet, hj]
        · simp [smGet, hj, Ne.symm hj]
      · rename_i h1 h2
        simp only [smGet, ih]
        by_cases hj : j = k
        · subst hj; simp [Ne.symm h2]
        · simp [hj]

/-- A key reads back what was written, default or not, and every other key stands. -/
theorem smGet_smSet {α : Type} [DecidableEq α] (d : Nat → α) (m : SMap α) (k j : Nat) (v : α) :
    smGet d (smSet d m k v) j = if j = k then v else smGet d m j := by
  unfold smSet
  split
  · rename_i h
    rw [smGet_smErase]
    by_cases hj : j = k
    · simp [hj, h]
    · simp [hj]
  · exact smGet_smInsert d m k j v

@[simp] theorem smGet_smSet_same {α : Type} [DecidableEq α] (d : Nat → α) (m : SMap α) (k : Nat) (v : α) :
    smGet d (smSet d m k v) k = v := by simp [smGet_smSet]

theorem smGet_smSet_ne {α : Type} [DecidableEq α] (d : Nat → α) (m : SMap α) {k j : Nat} (v : α) (h : j ≠ k) :
    smGet d (smSet d m k v) j = smGet d m j := by simp [smGet_smSet, h]

/-! ### The canonical form -/

theorem smSortedFrom_mono {α : Type} (m : SMap α) {a b : Nat} (h : a ≤ b) (hs : smSortedFrom b m = true) :
    smSortedFrom a m = true := by
  cases m with
  | nil => rfl
  | cons e r =>
    simp only [smSortedFrom, Bool.and_eq_true, decide_eq_true_eq] at hs ⊢
    exact ⟨by omega, hs.2⟩

theorem smSortedFrom_smErase {α : Type} (m : SMap α) (k lo : Nat) (h : smSortedFrom lo m = true) :
    smSortedFrom lo (smErase m k) = true := by
  induction m generalizing lo with
  | nil => rfl
  | cons e r ih =>
    obtain ⟨a, v⟩ := e
    simp only [smSortedFrom, Bool.and_eq_true, decide_eq_true_eq] at h
    unfold smErase
    split
    · exact smSortedFrom_mono _ (by omega) (ih _ h.2)
    · simp only [smSortedFrom, Bool.and_eq_true, decide_eq_true_eq]
      exact ⟨h.1, ih _ h.2⟩

theorem smSortedFrom_smInsert {α : Type} (m : SMap α) (k lo : Nat) (v : α) (h : smSortedFrom lo m = true) (hk : lo ≤ k) :
    smSortedFrom lo (smInsert m k v) = true := by
  induction m generalizing lo with
  | nil => simp [smInsert, smSortedFrom, hk]
  | cons e r ih =>
    obtain ⟨a, w⟩ := e
    simp only [smSortedFrom, Bool.and_eq_true, decide_eq_true_eq] at h
    unfold smInsert
    split
    · simp only [smSortedFrom, Bool.and_eq_true, decide_eq_true_eq]
      exact ⟨hk, by omega, h.2⟩
    · split
      · rename_i e
        subst e
        simp only [smSortedFrom, Bool.and_eq_true, decide_eq_true_eq]
        exact ⟨hk, h.2⟩
      · simp only [smSortedFrom, Bool.and_eq_true, decide_eq_true_eq]
        exact ⟨h.1, ih _ h.2 (by omega)⟩

theorem smNoDefault_smErase {α : Type} [DecidableEq α] (d : Nat → α) (m : SMap α) (k : Nat)
    (h : smNoDefault d m = true) : smNoDefault d (smErase m k) = true := by
  induction m with
  | nil => rfl
  | cons e r ih =>
    obtain ⟨a, v⟩ := e
    simp only [smNoDefault, Bool.and_eq_true] at h
    unfold smErase
    split
    · exact ih h.2
    · simp only [smNoDefault, Bool.and_eq_true]
      exact ⟨h.1, ih h.2⟩

theorem smNoDefault_smInsert {α : Type} [DecidableEq α] (d : Nat → α) (m : SMap α) (k : Nat) (v : α)
    (h : smNoDefault d m = true) (hv : v ≠ d k) : smNoDefault d (smInsert m k v) = true := by
  induction m with
  | nil => simp [smInsert, smNoDefault, hv]
  | cons e r ih =>
    obtain ⟨a, w⟩ := e
    have h' := h
    simp only [smNoDefault, Bool.and_eq_true] at h
    unfold smInsert
    split
    · simp only [smNoDefault, Bool.and_eq_true]
      exact ⟨by simp [hv], h⟩
    · split
      · simp only [smNoDefault, Bool.and_eq_true]
        exact ⟨by simp [hv], h.2⟩
      · simp only [smNoDefault, Bool.and_eq_true]
        exact ⟨h.1, ih h.2⟩

/-- Every write keeps the canonical form. -/
theorem smWf_smSet {α : Type} [DecidableEq α] (d : Nat → α) (m : SMap α) (k : Nat) (v : α) (h : smWf d m = true) :
    smWf d (smSet d m k v) = true := by
  simp only [smWf, Bool.and_eq_true] at h ⊢
  unfold smSet
  split
  · exact ⟨smSortedFrom_smErase _ _ _ h.1, smNoDefault_smErase _ _ _ h.2⟩
  · rename_i hv
    exact ⟨smSortedFrom_smInsert _ _ _ _ h.1 (Nat.zero_le _), smNoDefault_smInsert _ _ _ _ h.2 hv⟩

/-- A key with no entry reads as its default. -/
theorem smGet_nil {α : Type} (d : Nat → α) (k : Nat) : smGet d [] k = d k := rfl

/-! ### The image -/

/-- The maps of the state that hold items are in canonical form. -/
def itemsWf (s : State) : Prop :=
  smWf itemDefault s.image = true ∧ smWf itemDefault s.sealedImg = true ∧ smWf itemDefault s.emitted = true ∧
  smWf itemDefault s.sent = true

theorem itemsWf_reset : itemsWf State.reset := by unfold itemsWf; decide

theorem itemsWf_putItem (s : State) (k : Nat) (t : Tagged) (h : itemsWf s) : itemsWf (putItem s k t) :=
  ⟨smWf_smSet _ _ _ _ h.1, h.2⟩

theorem itemsWf_storeItem (s : State) (k : Nat) (t : Tagged) (h : itemsWf s) : itemsWf (storeItem s k t) :=
  itemsWf_putItem _ _ _ h

/-- An item that is not a system input point reads back what was put into it. -/
theorem getItem_putItem (s : State) (k j : Nat) (t : Tagged) :
    getItem (putItem s k t) j = if j = k ∧ sysInPoint k = false then t else if j = k then
      (if s.sysPhase = 0 then ⟨0, 0x04⟩ else if s.sysPhase = 1 then ⟨0, setE t.tag true⟩ else t) else getItem s j := by
  unfold getItem putItem
  simp only [smGet_smSet]
  by_cases hj : j = k
  · subst hj
    by_cases hs : sysInPoint j = true
    · simp [hs]
    · simp [hs]
  · simp [hj]

theorem getItem_putItem_ne (s : State) {k j : Nat} (t : Tagged) (h : j ≠ k) : getItem (putItem s k t) j = getItem s j := by
  rw [getItem_putItem]; simp [h]

theorem getItem_putItem_same (s : State) (k : Nat) (t : Tagged) (h : sysInPoint k = false) :
    getItem (putItem s k t) k = t := by rw [getItem_putItem]; simp [h]

/-- A store changes no other item. -/
theorem getItem_storeItem_ne (s : State) {k j : Nat} (t : Tagged) (h : j ≠ k) :
    getItem (storeItem s k t) j = getItem s j := getItem_putItem_ne s _ h

/-- Items are read from image and system phase alone. -/
theorem getItem_congr {s t : State} (k : Nat) (h1 : t.image = s.image) (h2 : t.sysPhase = s.sysPhase) :
    getItem t k = getItem s k := by unfold getItem; rw [h1, h2]

/-! ### Tag bytes -/

theorem boolBit_lt (b : Bool) : boolBit b < 2 := by cases b <;> decide

@[simp] theorem tagE_mkTag (e l m s f : Bool) (q : Quality) (v : Bool) : tagE (mkTag e l m s f q v) = e := by
  revert q; cases e <;> cases l <;> cases m <;> cases s <;> cases f <;> cases v <;> decide
@[simp] theorem tagL_mkTag (e l m s f : Bool) (q : Quality) (v : Bool) : tagL (mkTag e l m s f q v) = l := by
  revert q; cases e <;> cases l <;> cases m <;> cases s <;> cases f <;> cases v <;> decide
@[simp] theorem tagM_mkTag (e l m s f : Bool) (q : Quality) (v : Bool) : tagM (mkTag e l m s f q v) = m := by
  revert q; cases e <;> cases l <;> cases m <;> cases s <;> cases f <;> cases v <;> decide
@[simp] theorem tagS_mkTag (e l m s f : Bool) (q : Quality) (v : Bool) : tagS (mkTag e l m s f q v) = s := by
  revert q; cases e <;> cases l <;> cases m <;> cases s <;> cases f <;> cases v <;> decide
@[simp] theorem tagF_mkTag (e l m s f : Bool) (q : Quality) (v : Bool) : tagF (mkTag e l m s f q v) = f := by
  revert q; cases e <;> cases l <;> cases m <;> cases s <;> cases f <;> cases v <;> decide
@[simp] theorem tagQ_mkTag (e l m s f : Bool) (q : Quality) (v : Bool) : tagQ (mkTag e l m s f q v) = q := by
  revert q; cases e <;> cases l <;> cases m <;> cases s <;> cases f <;> cases v <;> decide
@[simp] theorem tagV_mkTag (e l m s f : Bool) (q : Quality) (v : Bool) : tagV (mkTag e l m s f q v) = v := by
  revert q; cases e <;> cases l <;> cases m <;> cases s <;> cases f <;> cases v <;> decide

/-- A tag byte is its fields. -/
theorem mkTag_self (t : Byte) : mkTag (tagE t) (tagL t) (tagM t) (tagS t) (tagF t) (tagQ t) (tagV t) = t := by
  revert t; decide

/-- What worsening a tag leaves. -/
@[simp] theorem tagQ_worsenTag (t : Byte) (q : Quality) : tagQ (worsenTag t q) = worseQ (tagQ t) q := by
  simp [worsenTag, setQ]

end Sys2Proof.Machine
end

