-- ==== Sys2Proof/Laws/State.lean ====
section
/-!
SUPPORT. Laws of the state's updates: what each reads as, field by field, so that no proof unfolds a record update.
-/
namespace Sys2Proof.Machine

open Sys2Proof

/-! ### State.at -/

@[simp] theorem at_pending (s : State) (now : Tb) :
    (s.at now).pending = s.pending := rfl
@[simp] theorem at_tb (s : State) (now : Tb) :
    (s.at now).tb = Nat.max s.tb now := rfl
@[simp] theorem at_eng (s : State) (now : Tb) :
    (s.at now).eng = s.eng := rfl
@[simp] theorem at_sched (s : State) (now : Tb) :
    (s.at now).sched = s.sched := rfl
@[simp] theorem at_prog (s : State) (now : Tb) :
    (s.at now).prog = s.prog := rfl
@[simp] theorem at_pstate (s : State) (now : Tb) :
    (s.at now).pstate = s.pstate := rfl
@[simp] theorem at_tasks (s : State) (now : Tb) :
    (s.at now).tasks = s.tasks := rfl
@[simp] theorem at_code (s : State) (now : Tb) :
    (s.at now).code = s.code := rfl
@[simp] theorem at_image (s : State) (now : Tb) :
    (s.at now).image = s.image := rfl
@[simp] theorem at_sysPhase (s : State) (now : Tb) :
    (s.at now).sysPhase = s.sysPhase := rfl
@[simp] theorem at_sealedImg (s : State) (now : Tb) :
    (s.at now).sealedImg = s.sealedImg := rfl
@[simp] theorem at_emitted (s : State) (now : Tb) :
    (s.at now).emitted = s.emitted := rfl
@[simp] theorem at_held (s : State) (now : Tb) :
    (s.at now).held = s.held := rfl
@[simp] theorem at_sent (s : State) (now : Tb) :
    (s.at now).sent = s.sent := rfl
@[simp] theorem at_forces (s : State) (now : Tb) :
    (s.at now).forces = s.forces := rfl
@[simp] theorem at_charts (s : State) (now : Tb) :
    (s.at now).charts = s.charts := rfl
@[simp] theorem at_ring (s : State) (now : Tb) :
    (s.at now).ring = s.ring := rfl
@[simp] theorem at_pstore (s : State) (now : Tb) :
    (s.at now).pstore = s.pstore := rfl
@[simp] theorem at_spread (s : State) (now : Tb) :
    (s.at now).spread = s.spread := rfl
@[simp] theorem at_params (s : State) (now : Tb) :
    (s.at now).params = s.params := rfl
@[simp] theorem at_host (s : State) (now : Tb) :
    (s.at now).host = s.host := rfl
@[simp] theorem at_book (s : State) (now : Tb) :
    (s.at now).book = s.book := rfl
@[simp] theorem at_twin (s : State) (now : Tb) :
    (s.at now).twin = s.twin := rfl
@[simp] theorem at_field (s : State) (now : Tb) :
    (s.at now).field = s.field := rfl
@[simp] theorem at_ana (s : State) (now : Tb) :
    (s.at now).ana = s.ana := rfl
@[simp] theorem at_busA (s : State) (now : Tb) :
    (s.at now).busA = s.busA := rfl
@[simp] theorem at_busB (s : State) (now : Tb) :
    (s.at now).busB = s.busB := rfl
@[simp] theorem at_dsp (s : State) (now : Tb) :
    (s.at now).dsp = s.dsp := rfl
@[simp] theorem at_clock (s : State) (now : Tb) :
    (s.at now).clock = s.clock := rfl
@[simp] theorem at_log (s : State) (now : Tb) :
    (s.at now).log = s.log := rfl
@[simp] theorem at_wd (s : State) (now : Tb) :
    (s.at now).wd = s.wd := rfl
@[simp] theorem at_store (s : State) (now : Tb) :
    (s.at now).store = s.store := rfl
@[simp] theorem at_power (s : State) (now : Tb) :
    (s.at now).power = s.power := rfl
@[simp] theorem at_freeIdx (s : State) (now : Tb) :
    (s.at now).freeIdx = s.freeIdx := rfl

/-! ### State.draw -/

@[simp] theorem draw_pending (s : State) :
    s.draw.2.pending = s.pending := rfl
@[simp] theorem draw_tb (s : State) :
    s.draw.2.tb = s.tb := rfl
@[simp] theorem draw_eng (s : State) :
    s.draw.2.eng = s.eng := rfl
@[simp] theorem draw_sched (s : State) :
    s.draw.2.sched = s.sched := rfl
@[simp] theorem draw_prog (s : State) :
    s.draw.2.prog = s.prog := rfl
@[simp] theorem draw_pstate (s : State) :
    s.draw.2.pstate = s.pstate := rfl
@[simp] theorem draw_tasks (s : State) :
    s.draw.2.tasks = s.tasks := rfl
@[simp] theorem draw_code (s : State) :
    s.draw.2.code = s.code := rfl
@[simp] theorem draw_image (s : State) :
    s.draw.2.image = s.image := rfl
@[simp] theorem draw_sysPhase (s : State) :
    s.draw.2.sysPhase = s.sysPhase := rfl
@[simp] theorem draw_sealedImg (s : State) :
    s.draw.2.sealedImg = s.sealedImg := rfl
@[simp] theorem draw_emitted (s : State) :
    s.draw.2.emitted = s.emitted := rfl
@[simp] theorem draw_held (s : State) :
    s.draw.2.held = s.held := rfl
@[simp] theorem draw_sent (s : State) :
    s.draw.2.sent = s.sent := rfl
@[simp] theorem draw_forces (s : State) :
    s.draw.2.forces = s.forces := rfl
@[simp] theorem draw_charts (s : State) :
    s.draw.2.charts = s.charts := rfl
@[simp] theorem draw_ring (s : State) :
    s.draw.2.ring = s.ring := rfl
@[simp] theorem draw_pstore (s : State) :
    s.draw.2.pstore = s.pstore := rfl
@[simp] theorem draw_spread (s : State) :
    s.draw.2.spread = s.spread := rfl
@[simp] theorem draw_params (s : State) :
    s.draw.2.params = s.params := rfl
@[simp] theorem draw_host (s : State) :
    s.draw.2.host = s.host := rfl
@[simp] theorem draw_book (s : State) :
    s.draw.2.book = s.book := rfl
@[simp] theorem draw_twin (s : State) :
    s.draw.2.twin = s.twin := rfl
@[simp] theorem draw_field (s : State) :
    s.draw.2.field = s.field := rfl
@[simp] theorem draw_ana (s : State) :
    s.draw.2.ana = s.ana := rfl
@[simp] theorem draw_busA (s : State) :
    s.draw.2.busA = s.busA := rfl
@[simp] theorem draw_busB (s : State) :
    s.draw.2.busB = s.busB := rfl
@[simp] theorem draw_dsp (s : State) :
    s.draw.2.dsp = s.dsp := rfl
@[simp] theorem draw_clock (s : State) :
    s.draw.2.clock = s.clock := rfl
@[simp] theorem draw_log (s : State) :
    s.draw.2.log = s.log := rfl
@[simp] theorem draw_wd (s : State) :
    s.draw.2.wd = s.wd := rfl
@[simp] theorem draw_store (s : State) :
    s.draw.2.store = s.store := rfl
@[simp] theorem draw_power (s : State) :
    s.draw.2.power = s.power := rfl
@[simp] theorem draw_freeIdx (s : State) :
    s.draw.2.freeIdx = s.freeIdx + 1 := rfl

/-! ### modEng -/

@[simp] theorem modEng_pending (s : State) (f : Engine → Engine) :
    (modEng s f).pending = s.pending := rfl
@[simp] theorem modEng_tb (s : State) (f : Engine → Engine) :
    (modEng s f).tb = s.tb := rfl
@[simp] theorem modEng_eng (s : State) (f : Engine → Engine) :
    (modEng s f).eng = f s.eng := rfl
@[simp] theorem modEng_sched (s : State) (f : Engine → Engine) :
    (modEng s f).sched = s.sched := rfl
@[simp] theorem modEng_prog (s : State) (f : Engine → Engine) :
    (modEng s f).prog = s.prog := rfl
@[simp] theorem modEng_pstate (s : State) (f : Engine → Engine) :
    (modEng s f).pstate = s.pstate := rfl
@[simp] theorem modEng_tasks (s : State) (f : Engine → Engine) :
    (modEng s f).tasks = s.tasks := rfl
@[simp] theorem modEng_code (s : State) (f : Engine → Engine) :
    (modEng s f).code = s.code := rfl
@[simp] theorem modEng_image (s : State) (f : Engine → Engine) :
    (modEng s f).image = s.image := rfl
@[simp] theorem modEng_sysPhase (s : State) (f : Engine → Engine) :
    (modEng s f).sysPhase = s.sysPhase := rfl
@[simp] theorem modEng_sealedImg (s : State) (f : Engine → Engine) :
    (modEng s f).sealedImg = s.sealedImg := rfl
@[simp] theorem modEng_emitted (s : State) (f : Engine → Engine) :
    (modEng s f).emitted = s.emitted := rfl
@[simp] theorem modEng_held (s : State) (f : Engine → Engine) :
    (modEng s f).held = s.held := rfl
@[simp] theorem modEng_sent (s : State) (f : Engine → Engine) :
    (modEng s f).sent = s.sent := rfl
@[simp] theorem modEng_forces (s : State) (f : Engine → Engine) :
    (modEng s f).forces = s.forces := rfl
@[simp] theorem modEng_charts (s : State) (f : Engine → Engine) :
    (modEng s f).charts = s.charts := rfl
@[simp] theorem modEng_ring (s : State) (f : Engine → Engine) :
    (modEng s f).ring = s.ring := rfl
@[simp] theorem modEng_pstore (s : State) (f : Engine → Engine) :
    (modEng s f).pstore = s.pstore := rfl
@[simp] theorem modEng_spread (s : State) (f : Engine → Engine) :
    (modEng s f).spread = s.spread := rfl
@[simp] theorem modEng_params (s : State) (f : Engine → Engine) :
    (modEng s f).params = s.params := rfl
@[simp] theorem modEng_host (s : State) (f : Engine → Engine) :
    (modEng s f).host = s.host := rfl
@[simp] theorem modEng_book (s : State) (f : Engine → Engine) :
    (modEng s f).book = s.book := rfl
@[simp] theorem modEng_twin (s : State) (f : Engine → Engine) :
    (modEng s f).twin = s.twin := rfl
@[simp] theorem modEng_field (s : State) (f : Engine → Engine) :
    (modEng s f).field = s.field := rfl
@[simp] theorem modEng_ana (s : State) (f : Engine → Engine) :
    (modEng s f).ana = s.ana := rfl
@[simp] theorem modEng_busA (s : State) (f : Engine → Engine) :
    (modEng s f).busA = s.busA := rfl
@[simp] theorem modEng_busB (s : State) (f : Engine → Engine) :
    (modEng s f).busB = s.busB := rfl
@[simp] theorem modEng_dsp (s : State) (f : Engine → Engine) :
    (modEng s f).dsp = s.dsp := rfl
@[simp] theorem modEng_clock (s : State) (f : Engine → Engine) :
    (modEng s f).clock = s.clock := rfl
@[simp] theorem modEng_log (s : State) (f : Engine → Engine) :
    (modEng s f).log = s.log := rfl
@[simp] theorem modEng_wd (s : State) (f : Engine → Engine) :
    (modEng s f).wd = s.wd := rfl
@[simp] theorem modEng_store (s : State) (f : Engine → Engine) :
    (modEng s f).store = s.store := rfl
@[simp] theorem modEng_power (s : State) (f : Engine → Engine) :
    (modEng s f).power = s.power := rfl
@[simp] theorem modEng_freeIdx (s : State) (f : Engine → Engine) :
    (modEng s f).freeIdx = s.freeIdx := rfl

/-! ### modRing -/

@[simp] theorem modRing_pending (s : State) (f : Ring → Ring) :
    (modRing s f).pending = s.pending := rfl
@[simp] theorem modRing_tb (s : State) (f : Ring → Ring) :
    (modRing s f).tb = s.tb := rfl
@[simp] theorem modRing_eng (s : State) (f : Ring → Ring) :
    (modRing s f).eng = s.eng := rfl
@[simp] theorem modRing_sched (s : State) (f : Ring → Ring) :
    (modRing s f).sched = s.sched := rfl
@[simp] theorem modRing_prog (s : State) (f : Ring → Ring) :
    (modRing s f).prog = s.prog := rfl
@[simp] theorem modRing_pstate (s : State) (f : Ring → Ring) :
    (modRing s f).pstate = s.pstate := rfl
@[simp] theorem modRing_tasks (s : State) (f : Ring → Ring) :
    (modRing s f).tasks = s.tasks := rfl
@[simp] theorem modRing_code (s : State) (f : Ring → Ring) :
    (modRing s f).code = s.code := rfl
@[simp] theorem modRing_image (s : State) (f : Ring → Ring) :
    (modRing s f).image = s.image := rfl
@[simp] theorem modRing_sysPhase (s : State) (f : Ring → Ring) :
    (modRing s f).sysPhase = s.sysPhase := rfl
@[simp] theorem modRing_sealedImg (s : State) (f : Ring → Ring) :
    (modRing s f).sealedImg = s.sealedImg := rfl
@[simp] theorem modRing_emitted (s : State) (f : Ring → Ring) :
    (modRing s f).emitted = s.emitted := rfl
@[simp] theorem modRing_held (s : State) (f : Ring → Ring) :
    (modRing s f).held = s.held := rfl
@[simp] theorem modRing_sent (s : State) (f : Ring → Ring) :
    (modRing s f).sent = s.sent := rfl
@[simp] theorem modRing_forces (s : State) (f : Ring → Ring) :
    (modRing s f).forces = s.forces := rfl
@[simp] theorem modRing_charts (s : State) (f : Ring → Ring) :
    (modRing s f).charts = s.charts := rfl
@[simp] theorem modRing_ring (s : State) (f : Ring → Ring) :
    (modRing s f).ring = f s.ring := rfl
@[simp] theorem modRing_pstore (s : State) (f : Ring → Ring) :
    (modRing s f).pstore = s.pstore := rfl
@[simp] theorem modRing_spread (s : State) (f : Ring → Ring) :
    (modRing s f).spread = s.spread := rfl
@[simp] theorem modRing_params (s : State) (f : Ring → Ring) :
    (modRing s f).params = s.params := rfl
@[simp] theorem modRing_host (s : State) (f : Ring → Ring) :
    (modRing s f).host = s.host := rfl
@[simp] theorem modRing_book (s : State) (f : Ring → Ring) :
    (modRing s f).book = s.book := rfl
@[simp] theorem modRing_twin (s : State) (f : Ring → Ring) :
    (modRing s f).twin = s.twin := rfl
@[simp] theorem modRing_field (s : State) (f : Ring → Ring) :
    (modRing s f).field = s.field := rfl
@[simp] theorem modRing_ana (s : State) (f : Ring → Ring) :
    (modRing s f).ana = s.ana := rfl
@[simp] theorem modRing_busA (s : State) (f : Ring → Ring) :
    (modRing s f).busA = s.busA := rfl
@[simp] theorem modRing_busB (s : State) (f : Ring → Ring) :
    (modRing s f).busB = s.busB := rfl
@[simp] theorem modRing_dsp (s : State) (f : Ring → Ring) :
    (modRing s f).dsp = s.dsp := rfl
@[simp] theorem modRing_clock (s : State) (f : Ring → Ring) :
    (modRing s f).clock = s.clock := rfl
@[simp] theorem modRing_log (s : State) (f : Ring → Ring) :
    (modRing s f).log = s.log := rfl
@[simp] theorem modRing_wd (s : State) (f : Ring → Ring) :
    (modRing s f).wd = s.wd := rfl
@[simp] theorem modRing_store (s : State) (f : Ring → Ring) :
    (modRing s f).store = s.store := rfl
@[simp] theorem modRing_power (s : State) (f : Ring → Ring) :
    (modRing s f).power = s.power := rfl
@[simp] theorem modRing_freeIdx (s : State) (f : Ring → Ring) :
    (modRing s f).freeIdx = s.freeIdx := rfl

/-! ### modSched -/

@[simp] theorem modSched_pending (s : State) (f : Sched → Sched) :
    (modSched s f).pending = s.pending := rfl
@[simp] theorem modSched_tb (s : State) (f : Sched → Sched) :
    (modSched s f).tb = s.tb := rfl
@[simp] theorem modSched_eng (s : State) (f : Sched → Sched) :
    (modSched s f).eng = s.eng := rfl
@[simp] theorem modSched_sched (s : State) (f : Sched → Sched) :
    (modSched s f).sched = f s.sched := rfl
@[simp] theorem modSched_prog (s : State) (f : Sched → Sched) :
    (modSched s f).prog = s.prog := rfl
@[simp] theorem modSched_pstate (s : State) (f : Sched → Sched) :
    (modSched s f).pstate = s.pstate := rfl
@[simp] theorem modSched_tasks (s : State) (f : Sched → Sched) :
    (modSched s f).tasks = s.tasks := rfl
@[simp] theorem modSched_code (s : State) (f : Sched → Sched) :
    (modSched s f).code = s.code := rfl
@[simp] theorem modSched_image (s : State) (f : Sched → Sched) :
    (modSched s f).image = s.image := rfl
@[simp] theorem modSched_sysPhase (s : State) (f : Sched → Sched) :
    (modSched s f).sysPhase = s.sysPhase := rfl
@[simp] theorem modSched_sealedImg (s : State) (f : Sched → Sched) :
    (modSched s f).sealedImg = s.sealedImg := rfl
@[simp] theorem modSched_emitted (s : State) (f : Sched → Sched) :
    (modSched s f).emitted = s.emitted := rfl
@[simp] theorem modSched_held (s : State) (f : Sched → Sched) :
    (modSched s f).held = s.held := rfl
@[simp] theorem modSched_sent (s : State) (f : Sched → Sched) :
    (modSched s f).sent = s.sent := rfl
@[simp] theorem modSched_forces (s : State) (f : Sched → Sched) :
    (modSched s f).forces = s.forces := rfl
@[simp] theorem modSched_charts (s : State) (f : Sched → Sched) :
    (modSched s f).charts = s.charts := rfl
@[simp] theorem modSched_ring (s : State) (f : Sched → Sched) :
    (modSched s f).ring = s.ring := rfl
@[simp] theorem modSched_pstore (s : State) (f : Sched → Sched) :
    (modSched s f).pstore = s.pstore := rfl
@[simp] theorem modSched_spread (s : State) (f : Sched → Sched) :
    (modSched s f).spread = s.spread := rfl
@[simp] theorem modSched_params (s : State) (f : Sched → Sched) :
    (modSched s f).params = s.params := rfl
@[simp] theorem modSched_host (s : State) (f : Sched → Sched) :
    (modSched s f).host = s.host := rfl
@[simp] theorem modSched_book (s : State) (f : Sched → Sched) :
    (modSched s f).book = s.book := rfl
@[simp] theorem modSched_twin (s : State) (f : Sched → Sched) :
    (modSched s f).twin = s.twin := rfl
@[simp] theorem modSched_field (s : State) (f : Sched → Sched) :
    (modSched s f).field = s.field := rfl
@[simp] theorem modSched_ana (s : State) (f : Sched → Sched) :
    (modSched s f).ana = s.ana := rfl
@[simp] theorem modSched_busA (s : State) (f : Sched → Sched) :
    (modSched s f).busA = s.busA := rfl
@[simp] theorem modSched_busB (s : State) (f : Sched → Sched) :
    (modSched s f).busB = s.busB := rfl
@[simp] theorem modSched_dsp (s : State) (f : Sched → Sched) :
    (modSched s f).dsp = s.dsp := rfl
@[simp] theorem modSched_clock (s : State) (f : Sched → Sched) :
    (modSched s f).clock = s.clock := rfl
@[simp] theorem modSched_log (s : State) (f : Sched → Sched) :
    (modSched s f).log = s.log := rfl
@[simp] theorem modSched_wd (s : State) (f : Sched → Sched) :
    (modSched s f).wd = s.wd := rfl
@[simp] theorem modSched_store (s : State) (f : Sched → Sched) :
    (modSched s f).store = s.store := rfl
@[simp] theorem modSched_power (s : State) (f : Sched → Sched) :
    (modSched s f).power = s.power := rfl
@[simp] theorem modSched_freeIdx (s : State) (f : Sched → Sched) :
    (modSched s f).freeIdx = s.freeIdx := rfl

/-! ### modTwin -/

@[simp] theorem modTwin_pending (s : State) (f : Twin → Twin) :
    (modTwin s f).pending = s.pending := rfl
@[simp] theorem modTwin_tb (s : State) (f : Twin → Twin) :
    (modTwin s f).tb = s.tb := rfl
@[simp] theorem modTwin_eng (s : State) (f : Twin → Twin) :
    (modTwin s f).eng = s.eng := rfl
@[simp] theorem modTwin_sched (s : State) (f : Twin → Twin) :
    (modTwin s f).sched = s.sched := rfl
@[simp] theorem modTwin_prog (s : State) (f : Twin → Twin) :
    (modTwin s f).prog = s.prog := rfl
@[simp] theorem modTwin_pstate (s : State) (f : Twin → Twin) :
    (modTwin s f).pstate = s.pstate := rfl
@[simp] theorem modTwin_tasks (s : State) (f : Twin → Twin) :
    (modTwin s f).tasks = s.tasks := rfl
@[simp] theorem modTwin_code (s : State) (f : Twin → Twin) :
    (modTwin s f).code = s.code := rfl
@[simp] theorem modTwin_image (s : State) (f : Twin → Twin) :
    (modTwin s f).image = s.image := rfl
@[simp] theorem modTwin_sysPhase (s : State) (f : Twin → Twin) :
    (modTwin s f).sysPhase = s.sysPhase := rfl
@[simp] theorem modTwin_sealedImg (s : State) (f : Twin → Twin) :
    (modTwin s f).sealedImg = s.sealedImg := rfl
@[simp] theorem modTwin_emitted (s : State) (f : Twin → Twin) :
    (modTwin s f).emitted = s.emitted := rfl
@[simp] theorem modTwin_held (s : State) (f : Twin → Twin) :
    (modTwin s f).held = s.held := rfl
@[simp] theorem modTwin_sent (s : State) (f : Twin → Twin) :
    (modTwin s f).sent = s.sent := rfl
@[simp] theorem modTwin_forces (s : State) (f : Twin → Twin) :
    (modTwin s f).forces = s.forces := rfl
@[simp] theorem modTwin_charts (s : State) (f : Twin → Twin) :
    (modTwin s f).charts = s.charts := rfl
@[simp] theorem modTwin_ring (s : State) (f : Twin → Twin) :
    (modTwin s f).ring = s.ring := rfl
@[simp] theorem modTwin_pstore (s : State) (f : Twin → Twin) :
    (modTwin s f).pstore = s.pstore := rfl
@[simp] theorem modTwin_spread (s : State) (f : Twin → Twin) :
    (modTwin s f).spread = s.spread := rfl
@[simp] theorem modTwin_params (s : State) (f : Twin → Twin) :
    (modTwin s f).params = s.params := rfl
@[simp] theorem modTwin_host (s : State) (f : Twin → Twin) :
    (modTwin s f).host = s.host := rfl
@[simp] theorem modTwin_book (s : State) (f : Twin → Twin) :
    (modTwin s f).book = s.book := rfl
@[simp] theorem modTwin_twin (s : State) (f : Twin → Twin) :
    (modTwin s f).twin = f s.twin := rfl
@[simp] theorem modTwin_field (s : State) (f : Twin → Twin) :
    (modTwin s f).field = s.field := rfl
@[simp] theorem modTwin_ana (s : State) (f : Twin → Twin) :
    (modTwin s f).ana = s.ana := rfl
@[simp] theorem modTwin_busA (s : State) (f : Twin → Twin) :
    (modTwin s f).busA = s.busA := rfl
@[simp] theorem modTwin_busB (s : State) (f : Twin → Twin) :
    (modTwin s f).busB = s.busB := rfl
@[simp] theorem modTwin_dsp (s : State) (f : Twin → Twin) :
    (modTwin s f).dsp = s.dsp := rfl
@[simp] theorem modTwin_clock (s : State) (f : Twin → Twin) :
    (modTwin s f).clock = s.clock := rfl
@[simp] theorem modTwin_log (s : State) (f : Twin → Twin) :
    (modTwin s f).log = s.log := rfl
@[simp] theorem modTwin_wd (s : State) (f : Twin → Twin) :
    (modTwin s f).wd = s.wd := rfl
@[simp] theorem modTwin_store (s : State) (f : Twin → Twin) :
    (modTwin s f).store = s.store := rfl
@[simp] theorem modTwin_power (s : State) (f : Twin → Twin) :
    (modTwin s f).power = s.power := rfl
@[simp] theorem modTwin_freeIdx (s : State) (f : Twin → Twin) :
    (modTwin s f).freeIdx = s.freeIdx := rfl

/-! ### modPower -/

@[simp] theorem modPower_pending (s : State) (f : Power → Power) :
    (modPower s f).pending = s.pending := rfl
@[simp] theorem modPower_tb (s : State) (f : Power → Power) :
    (modPower s f).tb = s.tb := rfl
@[simp] theorem modPower_eng (s : State) (f : Power → Power) :
    (modPower s f).eng = s.eng := rfl
@[simp] theorem modPower_sched (s : State) (f : Power → Power) :
    (modPower s f).sched = s.sched := rfl
@[simp] theorem modPower_prog (s : State) (f : Power → Power) :
    (modPower s f).prog = s.prog := rfl
@[simp] theorem modPower_pstate (s : State) (f : Power → Power) :
    (modPower s f).pstate = s.pstate := rfl
@[simp] theorem modPower_tasks (s : State) (f : Power → Power) :
    (modPower s f).tasks = s.tasks := rfl
@[simp] theorem modPower_code (s : State) (f : Power → Power) :
    (modPower s f).code = s.code := rfl
@[simp] theorem modPower_image (s : State) (f : Power → Power) :
    (modPower s f).image = s.image := rfl
@[simp] theorem modPower_sysPhase (s : State) (f : Power → Power) :
    (modPower s f).sysPhase = s.sysPhase := rfl
@[simp] theorem modPower_sealedImg (s : State) (f : Power → Power) :
    (modPower s f).sealedImg = s.sealedImg := rfl
@[simp] theorem modPower_emitted (s : State) (f : Power → Power) :
    (modPower s f).emitted = s.emitted := rfl
@[simp] theorem modPower_held (s : State) (f : Power → Power) :
    (modPower s f).held = s.held := rfl
@[simp] theorem modPower_sent (s : State) (f : Power → Power) :
    (modPower s f).sent = s.sent := rfl
@[simp] theorem modPower_forces (s : State) (f : Power → Power) :
    (modPower s f).forces = s.forces := rfl
@[simp] theorem modPower_charts (s : State) (f : Power → Power) :
    (modPower s f).charts = s.charts := rfl
@[simp] theorem modPower_ring (s : State) (f : Power → Power) :
    (modPower s f).ring = s.ring := rfl
@[simp] theorem modPower_pstore (s : State) (f : Power → Power) :
    (modPower s f).pstore = s.pstore := rfl
@[simp] theorem modPower_spread (s : State) (f : Power → Power) :
    (modPower s f).spread = s.spread := rfl
@[simp] theorem modPower_params (s : State) (f : Power → Power) :
    (modPower s f).params = s.params := rfl
@[simp] theorem modPower_host (s : State) (f : Power → Power) :
    (modPower s f).host = s.host := rfl
@[simp] theorem modPower_book (s : State) (f : Power → Power) :
    (modPower s f).book = s.book := rfl
@[simp] theorem modPower_twin (s : State) (f : Power → Power) :
    (modPower s f).twin = s.twin := rfl
@[simp] theorem modPower_field (s : State) (f : Power → Power) :
    (modPower s f).field = s.field := rfl
@[simp] theorem modPower_ana (s : State) (f : Power → Power) :
    (modPower s f).ana = s.ana := rfl
@[simp] theorem modPower_busA (s : State) (f : Power → Power) :
    (modPower s f).busA = s.busA := rfl
@[simp] theorem modPower_busB (s : State) (f : Power → Power) :
    (modPower s f).busB = s.busB := rfl
@[simp] theorem modPower_dsp (s : State) (f : Power → Power) :
    (modPower s f).dsp = s.dsp := rfl
@[simp] theorem modPower_clock (s : State) (f : Power → Power) :
    (modPower s f).clock = s.clock := rfl
@[simp] theorem modPower_log (s : State) (f : Power → Power) :
    (modPower s f).log = s.log := rfl
@[simp] theorem modPower_wd (s : State) (f : Power → Power) :
    (modPower s f).wd = s.wd := rfl
@[simp] theorem modPower_store (s : State) (f : Power → Power) :
    (modPower s f).store = s.store := rfl
@[simp] theorem modPower_power (s : State) (f : Power → Power) :
    (modPower s f).power = f s.power := rfl
@[simp] theorem modPower_freeIdx (s : State) (f : Power → Power) :
    (modPower s f).freeIdx = s.freeIdx := rfl

/-! ### modHost -/

@[simp] theorem modHost_pending (s : State) (f : HostSt → HostSt) :
    (modHost s f).pending = s.pending := rfl
@[simp] theorem modHost_tb (s : State) (f : HostSt → HostSt) :
    (modHost s f).tb = s.tb := rfl
@[simp] theorem modHost_eng (s : State) (f : HostSt → HostSt) :
    (modHost s f).eng = s.eng := rfl
@[simp] theorem modHost_sched (s : State) (f : HostSt → HostSt) :
    (modHost s f).sched = s.sched := rfl
@[simp] theorem modHost_prog (s : State) (f : HostSt → HostSt) :
    (modHost s f).prog = s.prog := rfl
@[simp] theorem modHost_pstate (s : State) (f : HostSt → HostSt) :
    (modHost s f).pstate = s.pstate := rfl
@[simp] theorem modHost_tasks (s : State) (f : HostSt → HostSt) :
    (modHost s f).tasks = s.tasks := rfl
@[simp] theorem modHost_code (s : State) (f : HostSt → HostSt) :
    (modHost s f).code = s.code := rfl
@[simp] theorem modHost_image (s : State) (f : HostSt → HostSt) :
    (modHost s f).image = s.image := rfl
@[simp] theorem modHost_sysPhase (s : State) (f : HostSt → HostSt) :
    (modHost s f).sysPhase = s.sysPhase := rfl
@[simp] theorem modHost_sealedImg (s : State) (f : HostSt → HostSt) :
    (modHost s f).sealedImg = s.sealedImg := rfl
@[simp] theorem modHost_emitted (s : State) (f : HostSt → HostSt) :
    (modHost s f).emitted = s.emitted := rfl
@[simp] theorem modHost_held (s : State) (f : HostSt → HostSt) :
    (modHost s f).held = s.held := rfl
@[simp] theorem modHost_sent (s : State) (f : HostSt → HostSt) :
    (modHost s f).sent = s.sent := rfl
@[simp] theorem modHost_forces (s : State) (f : HostSt → HostSt) :
    (modHost s f).forces = s.forces := rfl
@[simp] theorem modHost_charts (s : State) (f : HostSt → HostSt) :
    (modHost s f).charts = s.charts := rfl
@[simp] theorem modHost_ring (s : State) (f : HostSt → HostSt) :
    (modHost s f).ring = s.ring := rfl
@[simp] theorem modHost_pstore (s : State) (f : HostSt → HostSt) :
    (modHost s f).pstore = s.pstore := rfl
@[simp] theorem modHost_spread (s : State) (f : HostSt → HostSt) :
    (modHost s f).spread = s.spread := rfl
@[simp] theorem modHost_params (s : State) (f : HostSt → HostSt) :
    (modHost s f).params = s.params := rfl
@[simp] theorem modHost_host (s : State) (f : HostSt → HostSt) :
    (modHost s f).host = f s.host := rfl
@[simp] theorem modHost_book (s : State) (f : HostSt → HostSt) :
    (modHost s f).book = s.book := rfl
@[simp] theorem modHost_twin (s : State) (f : HostSt → HostSt) :
    (modHost s f).twin = s.twin := rfl
@[simp] theorem modHost_field (s : State) (f : HostSt → HostSt) :
    (modHost s f).field = s.field := rfl
@[simp] theorem modHost_ana (s : State) (f : HostSt → HostSt) :
    (modHost s f).ana = s.ana := rfl
@[simp] theorem modHost_busA (s : State) (f : HostSt → HostSt) :
    (modHost s f).busA = s.busA := rfl
@[simp] theorem modHost_busB (s : State) (f : HostSt → HostSt) :
    (modHost s f).busB = s.busB := rfl
@[simp] theorem modHost_dsp (s : State) (f : HostSt → HostSt) :
    (modHost s f).dsp = s.dsp := rfl
@[simp] theorem modHost_clock (s : State) (f : HostSt → HostSt) :
    (modHost s f).clock = s.clock := rfl
@[simp] theorem modHost_log (s : State) (f : HostSt → HostSt) :
    (modHost s f).log = s.log := rfl
@[simp] theorem modHost_wd (s : State) (f : HostSt → HostSt) :
    (modHost s f).wd = s.wd := rfl
@[simp] theorem modHost_store (s : State) (f : HostSt → HostSt) :
    (modHost s f).store = s.store := rfl
@[simp] theorem modHost_power (s : State) (f : HostSt → HostSt) :
    (modHost s f).power = s.power := rfl
@[simp] theorem modHost_freeIdx (s : State) (f : HostSt → HostSt) :
    (modHost s f).freeIdx = s.freeIdx := rfl

/-! ### modField -/

@[simp] theorem modField_pending (s : State) (f : FieldSt → FieldSt) :
    (modField s f).pending = s.pending := rfl
@[simp] theorem modField_tb (s : State) (f : FieldSt → FieldSt) :
    (modField s f).tb = s.tb := rfl
@[simp] theorem modField_eng (s : State) (f : FieldSt → FieldSt) :
    (modField s f).eng = s.eng := rfl
@[simp] theorem modField_sched (s : State) (f : FieldSt → FieldSt) :
    (modField s f).sched = s.sched := rfl
@[simp] theorem modField_prog (s : State) (f : FieldSt → FieldSt) :
    (modField s f).prog = s.prog := rfl
@[simp] theorem modField_pstate (s : State) (f : FieldSt → FieldSt) :
    (modField s f).pstate = s.pstate := rfl
@[simp] theorem modField_tasks (s : State) (f : FieldSt → FieldSt) :
    (modField s f).tasks = s.tasks := rfl
@[simp] theorem modField_code (s : State) (f : FieldSt → FieldSt) :
    (modField s f).code = s.code := rfl
@[simp] theorem modField_image (s : State) (f : FieldSt → FieldSt) :
    (modField s f).image = s.image := rfl
@[simp] theorem modField_sysPhase (s : State) (f : FieldSt → FieldSt) :
    (modField s f).sysPhase = s.sysPhase := rfl
@[simp] theorem modField_sealedImg (s : State) (f : FieldSt → FieldSt) :
    (modField s f).sealedImg = s.sealedImg := rfl
@[simp] theorem modField_emitted (s : State) (f : FieldSt → FieldSt) :
    (modField s f).emitted = s.emitted := rfl
@[simp] theorem modField_held (s : State) (f : FieldSt → FieldSt) :
    (modField s f).held = s.held := rfl
@[simp] theorem modField_sent (s : State) (f : FieldSt → FieldSt) :
    (modField s f).sent = s.sent := rfl
@[simp] theorem modField_forces (s : State) (f : FieldSt → FieldSt) :
    (modField s f).forces = s.forces := rfl
@[simp] theorem modField_charts (s : State) (f : FieldSt → FieldSt) :
    (modField s f).charts = s.charts := rfl
@[simp] theorem modField_ring (s : State) (f : FieldSt → FieldSt) :
    (modField s f).ring = s.ring := rfl
@[simp] theorem modField_pstore (s : State) (f : FieldSt → FieldSt) :
    (modField s f).pstore = s.pstore := rfl
@[simp] theorem modField_spread (s : State) (f : FieldSt → FieldSt) :
    (modField s f).spread = s.spread := rfl
@[simp] theorem modField_params (s : State) (f : FieldSt → FieldSt) :
    (modField s f).params = s.params := rfl
@[simp] theorem modField_host (s : State) (f : FieldSt → FieldSt) :
    (modField s f).host = s.host := rfl
@[simp] theorem modField_book (s : State) (f : FieldSt → FieldSt) :
    (modField s f).book = s.book := rfl
@[simp] theorem modField_twin (s : State) (f : FieldSt → FieldSt) :
    (modField s f).twin = s.twin := rfl
@[simp] theorem modField_field (s : State) (f : FieldSt → FieldSt) :
    (modField s f).field = f s.field := rfl
@[simp] theorem modField_ana (s : State) (f : FieldSt → FieldSt) :
    (modField s f).ana = s.ana := rfl
@[simp] theorem modField_busA (s : State) (f : FieldSt → FieldSt) :
    (modField s f).busA = s.busA := rfl
@[simp] theorem modField_busB (s : State) (f : FieldSt → FieldSt) :
    (modField s f).busB = s.busB := rfl
@[simp] theorem modField_dsp (s : State) (f : FieldSt → FieldSt) :
    (modField s f).dsp = s.dsp := rfl
@[simp] theorem modField_clock (s : State) (f : FieldSt → FieldSt) :
    (modField s f).clock = s.clock := rfl
@[simp] theorem modField_log (s : State) (f : FieldSt → FieldSt) :
    (modField s f).log = s.log := rfl
@[simp] theorem modField_wd (s : State) (f : FieldSt → FieldSt) :
    (modField s f).wd = s.wd := rfl
@[simp] theorem modField_store (s : State) (f : FieldSt → FieldSt) :
    (modField s f).store = s.store := rfl
@[simp] theorem modField_power (s : State) (f : FieldSt → FieldSt) :
    (modField s f).power = s.power := rfl
@[simp] theorem modField_freeIdx (s : State) (f : FieldSt → FieldSt) :
    (modField s f).freeIdx = s.freeIdx := rfl

/-! ### modCharts -/

@[simp] theorem modCharts_pending (s : State) (f : Charts → Charts) :
    (modCharts s f).pending = s.pending := rfl
@[simp] theorem modCharts_tb (s : State) (f : Charts → Charts) :
    (modCharts s f).tb = s.tb := rfl
@[simp] theorem modCharts_eng (s : State) (f : Charts → Charts) :
    (modCharts s f).eng = s.eng := rfl
@[simp] theorem modCharts_sched (s : State) (f : Charts → Charts) :
    (modCharts s f).sched = s.sched := rfl
@[simp] theorem modCharts_prog (s : State) (f : Charts → Charts) :
    (modCharts s f).prog = s.prog := rfl
@[simp] theorem modCharts_pstate (s : State) (f : Charts → Charts) :
    (modCharts s f).pstate = s.pstate := rfl
@[simp] theorem modCharts_tasks (s : State) (f : Charts → Charts) :
    (modCharts s f).tasks = s.tasks := rfl
@[simp] theorem modCharts_code (s : State) (f : Charts → Charts) :
    (modCharts s f).code = s.code := rfl
@[simp] theorem modCharts_image (s : State) (f : Charts → Charts) :
    (modCharts s f).image = s.image := rfl
@[simp] theorem modCharts_sysPhase (s : State) (f : Charts → Charts) :
    (modCharts s f).sysPhase = s.sysPhase := rfl
@[simp] theorem modCharts_sealedImg (s : State) (f : Charts → Charts) :
    (modCharts s f).sealedImg = s.sealedImg := rfl
@[simp] theorem modCharts_emitted (s : State) (f : Charts → Charts) :
    (modCharts s f).emitted = s.emitted := rfl
@[simp] theorem modCharts_held (s : State) (f : Charts → Charts) :
    (modCharts s f).held = s.held := rfl
@[simp] theorem modCharts_sent (s : State) (f : Charts → Charts) :
    (modCharts s f).sent = s.sent := rfl
@[simp] theorem modCharts_forces (s : State) (f : Charts → Charts) :
    (modCharts s f).forces = s.forces := rfl
@[simp] theorem modCharts_charts (s : State) (f : Charts → Charts) :
    (modCharts s f).charts = f s.charts := rfl
@[simp] theorem modCharts_ring (s : State) (f : Charts → Charts) :
    (modCharts s f).ring = s.ring := rfl
@[simp] theorem modCharts_pstore (s : State) (f : Charts → Charts) :
    (modCharts s f).pstore = s.pstore := rfl
@[simp] theorem modCharts_spread (s : State) (f : Charts → Charts) :
    (modCharts s f).spread = s.spread := rfl
@[simp] theorem modCharts_params (s : State) (f : Charts → Charts) :
    (modCharts s f).params = s.params := rfl
@[simp] theorem modCharts_host (s : State) (f : Charts → Charts) :
    (modCharts s f).host = s.host := rfl
@[simp] theorem modCharts_book (s : State) (f : Charts → Charts) :
    (modCharts s f).book = s.book := rfl
@[simp] theorem modCharts_twin (s : State) (f : Charts → Charts) :
    (modCharts s f).twin = s.twin := rfl
@[simp] theorem modCharts_field (s : State) (f : Charts → Charts) :
    (modCharts s f).field = s.field := rfl
@[simp] theorem modCharts_ana (s : State) (f : Charts → Charts) :
    (modCharts s f).ana = s.ana := rfl
@[simp] theorem modCharts_busA (s : State) (f : Charts → Charts) :
    (modCharts s f).busA = s.busA := rfl
@[simp] theorem modCharts_busB (s : State) (f : Charts → Charts) :
    (modCharts s f).busB = s.busB := rfl
@[simp] theorem modCharts_dsp (s : State) (f : Charts → Charts) :
    (modCharts s f).dsp = s.dsp := rfl
@[simp] theorem modCharts_clock (s : State) (f : Charts → Charts) :
    (modCharts s f).clock = s.clock := rfl
@[simp] theorem modCharts_log (s : State) (f : Charts → Charts) :
    (modCharts s f).log = s.log := rfl
@[simp] theorem modCharts_wd (s : State) (f : Charts → Charts) :
    (modCharts s f).wd = s.wd := rfl
@[simp] theorem modCharts_store (s : State) (f : Charts → Charts) :
    (modCharts s f).store = s.store := rfl
@[simp] theorem modCharts_power (s : State) (f : Charts → Charts) :
    (modCharts s f).power = s.power := rfl
@[simp] theorem modCharts_freeIdx (s : State) (f : Charts → Charts) :
    (modCharts s f).freeIdx = s.freeIdx := rfl

/-! ### modClock -/

@[simp] theorem modClock_pending (s : State) (f : Clock → Clock) :
    (modClock s f).pending = s.pending := rfl
@[simp] theorem modClock_tb (s : State) (f : Clock → Clock) :
    (modClock s f).tb = s.tb := rfl
@[simp] theorem modClock_eng (s : State) (f : Clock → Clock) :
    (modClock s f).eng = s.eng := rfl
@[simp] theorem modClock_sched (s : State) (f : Clock → Clock) :
    (modClock s f).sched = s.sched := rfl
@[simp] theorem modClock_prog (s : State) (f : Clock → Clock) :
    (modClock s f).prog = s.prog := rfl
@[simp] theorem modClock_pstate (s : State) (f : Clock → Clock) :
    (modClock s f).pstate = s.pstate := rfl
@[simp] theorem modClock_tasks (s : State) (f : Clock → Clock) :
    (modClock s f).tasks = s.tasks := rfl
@[simp] theorem modClock_code (s : State) (f : Clock → Clock) :
    (modClock s f).code = s.code := rfl
@[simp] theorem modClock_image (s : State) (f : Clock → Clock) :
    (modClock s f).image = s.image := rfl
@[simp] theorem modClock_sysPhase (s : State) (f : Clock → Clock) :
    (modClock s f).sysPhase = s.sysPhase := rfl
@[simp] theorem modClock_sealedImg (s : State) (f : Clock → Clock) :
    (modClock s f).sealedImg = s.sealedImg := rfl
@[simp] theorem modClock_emitted (s : State) (f : Clock → Clock) :
    (modClock s f).emitted = s.emitted := rfl
@[simp] theorem modClock_held (s : State) (f : Clock → Clock) :
    (modClock s f).held = s.held := rfl
@[simp] theorem modClock_sent (s : State) (f : Clock → Clock) :
    (modClock s f).sent = s.sent := rfl
@[simp] theorem modClock_forces (s : State) (f : Clock → Clock) :
    (modClock s f).forces = s.forces := rfl
@[simp] theorem modClock_charts (s : State) (f : Clock → Clock) :
    (modClock s f).charts = s.charts := rfl
@[simp] theorem modClock_ring (s : State) (f : Clock → Clock) :
    (modClock s f).ring = s.ring := rfl
@[simp] theorem modClock_pstore (s : State) (f : Clock → Clock) :
    (modClock s f).pstore = s.pstore := rfl
@[simp] theorem modClock_spread (s : State) (f : Clock → Clock) :
    (modClock s f).spread = s.spread := rfl
@[simp] theorem modClock_params (s : State) (f : Clock → Clock) :
    (modClock s f).params = s.params := rfl
@[simp] theorem modClock_host (s : State) (f : Clock → Clock) :
    (modClock s f).host = s.host := rfl
@[simp] theorem modClock_book (s : State) (f : Clock → Clock) :
    (modClock s f).book = s.book := rfl
@[simp] theorem modClock_twin (s : State) (f : Clock → Clock) :
    (modClock s f).twin = s.twin := rfl
@[simp] theorem modClock_field (s : State) (f : Clock → Clock) :
    (modClock s f).field = s.field := rfl
@[simp] theorem modClock_ana (s : State) (f : Clock → Clock) :
    (modClock s f).ana = s.ana := rfl
@[simp] theorem modClock_busA (s : State) (f : Clock → Clock) :
    (modClock s f).busA = s.busA := rfl
@[simp] theorem modClock_busB (s : State) (f : Clock → Clock) :
    (modClock s f).busB = s.busB := rfl
@[simp] theorem modClock_dsp (s : State) (f : Clock → Clock) :
    (modClock s f).dsp = s.dsp := rfl
@[simp] theorem modClock_clock (s : State) (f : Clock → Clock) :
    (modClock s f).clock = f s.clock := rfl
@[simp] theorem modClock_log (s : State) (f : Clock → Clock) :
    (modClock s f).log = s.log := rfl
@[simp] theorem modClock_wd (s : State) (f : Clock → Clock) :
    (modClock s f).wd = s.wd := rfl
@[simp] theorem modClock_store (s : State) (f : Clock → Clock) :
    (modClock s f).store = s.store := rfl
@[simp] theorem modClock_power (s : State) (f : Clock → Clock) :
    (modClock s f).power = s.power := rfl
@[simp] theorem modClock_freeIdx (s : State) (f : Clock → Clock) :
    (modClock s f).freeIdx = s.freeIdx := rfl

/-! ### modDsp -/

@[simp] theorem modDsp_pending (s : State) (f : Display → Display) :
    (modDsp s f).pending = s.pending := rfl
@[simp] theorem modDsp_tb (s : State) (f : Display → Display) :
    (modDsp s f).tb = s.tb := rfl
@[simp] theorem modDsp_eng (s : State) (f : Display → Display) :
    (modDsp s f).eng = s.eng := rfl
@[simp] theorem modDsp_sched (s : State) (f : Display → Display) :
    (modDsp s f).sched = s.sched := rfl
@[simp] theorem modDsp_prog (s : State) (f : Display → Display) :
    (modDsp s f).prog = s.prog := rfl
@[simp] theorem modDsp_pstate (s : State) (f : Display → Display) :
    (modDsp s f).pstate = s.pstate := rfl
@[simp] theorem modDsp_tasks (s : State) (f : Display → Display) :
    (modDsp s f).tasks = s.tasks := rfl
@[simp] theorem modDsp_code (s : State) (f : Display → Display) :
    (modDsp s f).code = s.code := rfl
@[simp] theorem modDsp_image (s : State) (f : Display → Display) :
    (modDsp s f).image = s.image := rfl
@[simp] theorem modDsp_sysPhase (s : State) (f : Display → Display) :
    (modDsp s f).sysPhase = s.sysPhase := rfl
@[simp] theorem modDsp_sealedImg (s : State) (f : Display → Display) :
    (modDsp s f).sealedImg = s.sealedImg := rfl
@[simp] theorem modDsp_emitted (s : State) (f : Display → Display) :
    (modDsp s f).emitted = s.emitted := rfl
@[simp] theorem modDsp_held (s : State) (f : Display → Display) :
    (modDsp s f).held = s.held := rfl
@[simp] theorem modDsp_sent (s : State) (f : Display → Display) :
    (modDsp s f).sent = s.sent := rfl
@[simp] theorem modDsp_forces (s : State) (f : Display → Display) :
    (modDsp s f).forces = s.forces := rfl
@[simp] theorem modDsp_charts (s : State) (f : Display → Display) :
    (modDsp s f).charts = s.charts := rfl
@[simp] theorem modDsp_ring (s : State) (f : Display → Display) :
    (modDsp s f).ring = s.ring := rfl
@[simp] theorem modDsp_pstore (s : State) (f : Display → Display) :
    (modDsp s f).pstore = s.pstore := rfl
@[simp] theorem modDsp_spread (s : State) (f : Display → Display) :
    (modDsp s f).spread = s.spread := rfl
@[simp] theorem modDsp_params (s : State) (f : Display → Display) :
    (modDsp s f).params = s.params := rfl
@[simp] theorem modDsp_host (s : State) (f : Display → Display) :
    (modDsp s f).host = s.host := rfl
@[simp] theorem modDsp_book (s : State) (f : Display → Display) :
    (modDsp s f).book = s.book := rfl
@[simp] theorem modDsp_twin (s : State) (f : Display → Display) :
    (modDsp s f).twin = s.twin := rfl
@[simp] theorem modDsp_field (s : State) (f : Display → Display) :
    (modDsp s f).field = s.field := rfl
@[simp] theorem modDsp_ana (s : State) (f : Display → Display) :
    (modDsp s f).ana = s.ana := rfl
@[simp] theorem modDsp_busA (s : State) (f : Display → Display) :
    (modDsp s f).busA = s.busA := rfl
@[simp] theorem modDsp_busB (s : State) (f : Display → Display) :
    (modDsp s f).busB = s.busB := rfl
@[simp] theorem modDsp_dsp (s : State) (f : Display → Display) :
    (modDsp s f).dsp = f s.dsp := rfl
@[simp] theorem modDsp_clock (s : State) (f : Display → Display) :
    (modDsp s f).clock = s.clock := rfl
@[simp] theorem modDsp_log (s : State) (f : Display → Display) :
    (modDsp s f).log = s.log := rfl
@[simp] theorem modDsp_wd (s : State) (f : Display → Display) :
    (modDsp s f).wd = s.wd := rfl
@[simp] theorem modDsp_store (s : State) (f : Display → Display) :
    (modDsp s f).store = s.store := rfl
@[simp] theorem modDsp_power (s : State) (f : Display → Display) :
    (modDsp s f).power = s.power := rfl
@[simp] theorem modDsp_freeIdx (s : State) (f : Display → Display) :
    (modDsp s f).freeIdx = s.freeIdx := rfl

/-! ### modLog -/

@[simp] theorem modLog_pending (s : State) (f : Logbook → Logbook) :
    (modLog s f).pending = s.pending := rfl
@[simp] theorem modLog_tb (s : State) (f : Logbook → Logbook) :
    (modLog s f).tb = s.tb := rfl
@[simp] theorem modLog_eng (s : State) (f : Logbook → Logbook) :
    (modLog s f).eng = s.eng := rfl
@[simp] theorem modLog_sched (s : State) (f : Logbook → Logbook) :
    (modLog s f).sched = s.sched := rfl
@[simp] theorem modLog_prog (s : State) (f : Logbook → Logbook) :
    (modLog s f).prog = s.prog := rfl
@[simp] theorem modLog_pstate (s : State) (f : Logbook → Logbook) :
    (modLog s f).pstate = s.pstate := rfl
@[simp] theorem modLog_tasks (s : State) (f : Logbook → Logbook) :
    (modLog s f).tasks = s.tasks := rfl
@[simp] theorem modLog_code (s : State) (f : Logbook → Logbook) :
    (modLog s f).code = s.code := rfl
@[simp] theorem modLog_image (s : State) (f : Logbook → Logbook) :
    (modLog s f).image = s.image := rfl
@[simp] theorem modLog_sysPhase (s : State) (f : Logbook → Logbook) :
    (modLog s f).sysPhase = s.sysPhase := rfl
@[simp] theorem modLog_sealedImg (s : State) (f : Logbook → Logbook) :
    (modLog s f).sealedImg = s.sealedImg := rfl
@[simp] theorem modLog_emitted (s : State) (f : Logbook → Logbook) :
    (modLog s f).emitted = s.emitted := rfl
@[simp] theorem modLog_held (s : State) (f : Logbook → Logbook) :
    (modLog s f).held = s.held := rfl
@[simp] theorem modLog_sent (s : State) (f : Logbook → Logbook) :
    (modLog s f).sent = s.sent := rfl
@[simp] theorem modLog_forces (s : State) (f : Logbook → Logbook) :
    (modLog s f).forces = s.forces := rfl
@[simp] theorem modLog_charts (s : State) (f : Logbook → Logbook) :
    (modLog s f).charts = s.charts := rfl
@[simp] theorem modLog_ring (s : State) (f : Logbook → Logbook) :
    (modLog s f).ring = s.ring := rfl
@[simp] theorem modLog_pstore (s : State) (f : Logbook → Logbook) :
    (modLog s f).pstore = s.pstore := rfl
@[simp] theorem modLog_spread (s : State) (f : Logbook → Logbook) :
    (modLog s f).spread = s.spread := rfl
@[simp] theorem modLog_params (s : State) (f : Logbook → Logbook) :
    (modLog s f).params = s.params := rfl
@[simp] theorem modLog_host (s : State) (f : Logbook → Logbook) :
    (modLog s f).host = s.host := rfl
@[simp] theorem modLog_book (s : State) (f : Logbook → Logbook) :
    (modLog s f).book = s.book := rfl
@[simp] theorem modLog_twin (s : State) (f : Logbook → Logbook) :
    (modLog s f).twin = s.twin := rfl
@[simp] theorem modLog_field (s : State) (f : Logbook → Logbook) :
    (modLog s f).field = s.field := rfl
@[simp] theorem modLog_ana (s : State) (f : Logbook → Logbook) :
    (modLog s f).ana = s.ana := rfl
@[simp] theorem modLog_busA (s : State) (f : Logbook → Logbook) :
    (modLog s f).busA = s.busA := rfl
@[simp] theorem modLog_busB (s : State) (f : Logbook → Logbook) :
    (modLog s f).busB = s.busB := rfl
@[simp] theorem modLog_dsp (s : State) (f : Logbook → Logbook) :
    (modLog s f).dsp = s.dsp := rfl
@[simp] theorem modLog_clock (s : State) (f : Logbook → Logbook) :
    (modLog s f).clock = s.clock := rfl
@[simp] theorem modLog_log (s : State) (f : Logbook → Logbook) :
    (modLog s f).log = f s.log := rfl
@[simp] theorem modLog_wd (s : State) (f : Logbook → Logbook) :
    (modLog s f).wd = s.wd := rfl
@[simp] theorem modLog_store (s : State) (f : Logbook → Logbook) :
    (modLog s f).store = s.store := rfl
@[simp] theorem modLog_power (s : State) (f : Logbook → Logbook) :
    (modLog s f).power = s.power := rfl
@[simp] theorem modLog_freeIdx (s : State) (f : Logbook → Logbook) :
    (modLog s f).freeIdx = s.freeIdx := rfl

/-! ### modStore -/

@[simp] theorem modStore_pending (s : State) (f : Store → Store) :
    (modStore s f).pending = s.pending := rfl
@[simp] theorem modStore_tb (s : State) (f : Store → Store) :
    (modStore s f).tb = s.tb := rfl
@[simp] theorem modStore_eng (s : State) (f : Store → Store) :
    (modStore s f).eng = s.eng := rfl
@[simp] theorem modStore_sched (s : State) (f : Store → Store) :
    (modStore s f).sched = s.sched := rfl
@[simp] theorem modStore_prog (s : State) (f : Store → Store) :
    (modStore s f).prog = s.prog := rfl
@[simp] theorem modStore_pstate (s : State) (f : Store → Store) :
    (modStore s f).pstate = s.pstate := rfl
@[simp] theorem modStore_tasks (s : State) (f : Store → Store) :
    (modStore s f).tasks = s.tasks := rfl
@[simp] theorem modStore_code (s : State) (f : Store → Store) :
    (modStore s f).code = s.code := rfl
@[simp] theorem modStore_image (s : State) (f : Store → Store) :
    (modStore s f).image = s.image := rfl
@[simp] theorem modStore_sysPhase (s : State) (f : Store → Store) :
    (modStore s f).sysPhase = s.sysPhase := rfl
@[simp] theorem modStore_sealedImg (s : State) (f : Store → Store) :
    (modStore s f).sealedImg = s.sealedImg := rfl
@[simp] theorem modStore_emitted (s : State) (f : Store → Store) :
    (modStore s f).emitted = s.emitted := rfl
@[simp] theorem modStore_held (s : State) (f : Store → Store) :
    (modStore s f).held = s.held := rfl
@[simp] theorem modStore_sent (s : State) (f : Store → Store) :
    (modStore s f).sent = s.sent := rfl
@[simp] theorem modStore_forces (s : State) (f : Store → Store) :
    (modStore s f).forces = s.forces := rfl
@[simp] theorem modStore_charts (s : State) (f : Store → Store) :
    (modStore s f).charts = s.charts := rfl
@[simp] theorem modStore_ring (s : State) (f : Store → Store) :
    (modStore s f).ring = s.ring := rfl
@[simp] theorem modStore_pstore (s : State) (f : Store → Store) :
    (modStore s f).pstore = s.pstore := rfl
@[simp] theorem modStore_spread (s : State) (f : Store → Store) :
    (modStore s f).spread = s.spread := rfl
@[simp] theorem modStore_params (s : State) (f : Store → Store) :
    (modStore s f).params = s.params := rfl
@[simp] theorem modStore_host (s : State) (f : Store → Store) :
    (modStore s f).host = s.host := rfl
@[simp] theorem modStore_book (s : State) (f : Store → Store) :
    (modStore s f).book = s.book := rfl
@[simp] theorem modStore_twin (s : State) (f : Store → Store) :
    (modStore s f).twin = s.twin := rfl
@[simp] theorem modStore_field (s : State) (f : Store → Store) :
    (modStore s f).field = s.field := rfl
@[simp] theorem modStore_ana (s : State) (f : Store → Store) :
    (modStore s f).ana = s.ana := rfl
@[simp] theorem modStore_busA (s : State) (f : Store → Store) :
    (modStore s f).busA = s.busA := rfl
@[simp] theorem modStore_busB (s : State) (f : Store → Store) :
    (modStore s f).busB = s.busB := rfl
@[simp] theorem modStore_dsp (s : State) (f : Store → Store) :
    (modStore s f).dsp = s.dsp := rfl
@[simp] theorem modStore_clock (s : State) (f : Store → Store) :
    (modStore s f).clock = s.clock := rfl
@[simp] theorem modStore_log (s : State) (f : Store → Store) :
    (modStore s f).log = s.log := rfl
@[simp] theorem modStore_wd (s : State) (f : Store → Store) :
    (modStore s f).wd = s.wd := rfl
@[simp] theorem modStore_store (s : State) (f : Store → Store) :
    (modStore s f).store = f s.store := rfl
@[simp] theorem modStore_power (s : State) (f : Store → Store) :
    (modStore s f).power = s.power := rfl
@[simp] theorem modStore_freeIdx (s : State) (f : Store → Store) :
    (modStore s f).freeIdx = s.freeIdx := rfl

/-! ### modWd -/

@[simp] theorem modWd_pending (s : State) (f : Watchdog → Watchdog) :
    (modWd s f).pending = s.pending := rfl
@[simp] theorem modWd_tb (s : State) (f : Watchdog → Watchdog) :
    (modWd s f).tb = s.tb := rfl
@[simp] theorem modWd_eng (s : State) (f : Watchdog → Watchdog) :
    (modWd s f).eng = s.eng := rfl
@[simp] theorem modWd_sched (s : State) (f : Watchdog → Watchdog) :
    (modWd s f).sched = s.sched := rfl
@[simp] theorem modWd_prog (s : State) (f : Watchdog → Watchdog) :
    (modWd s f).prog = s.prog := rfl
@[simp] theorem modWd_pstate (s : State) (f : Watchdog → Watchdog) :
    (modWd s f).pstate = s.pstate := rfl
@[simp] theorem modWd_tasks (s : State) (f : Watchdog → Watchdog) :
    (modWd s f).tasks = s.tasks := rfl
@[simp] theorem modWd_code (s : State) (f : Watchdog → Watchdog) :
    (modWd s f).code = s.code := rfl
@[simp] theorem modWd_image (s : State) (f : Watchdog → Watchdog) :
    (modWd s f).image = s.image := rfl
@[simp] theorem modWd_sysPhase (s : State) (f : Watchdog → Watchdog) :
    (modWd s f).sysPhase = s.sysPhase := rfl
@[simp] theorem modWd_sealedImg (s : State) (f : Watchdog → Watchdog) :
    (modWd s f).sealedImg = s.sealedImg := rfl
@[simp] theorem modWd_emitted (s : State) (f : Watchdog → Watchdog) :
    (modWd s f).emitted = s.emitted := rfl
@[simp] theorem modWd_held (s : State) (f : Watchdog → Watchdog) :
    (modWd s f).held = s.held := rfl
@[simp] theorem modWd_sent (s : State) (f : Watchdog → Watchdog) :
    (modWd s f).sent = s.sent := rfl
@[simp] theorem modWd_forces (s : State) (f : Watchdog → Watchdog) :
    (modWd s f).forces = s.forces := rfl
@[simp] theorem modWd_charts (s : State) (f : Watchdog → Watchdog) :
    (modWd s f).charts = s.charts := rfl
@[simp] theorem modWd_ring (s : State) (f : Watchdog → Watchdog) :
    (modWd s f).ring = s.ring := rfl
@[simp] theorem modWd_pstore (s : State) (f : Watchdog → Watchdog) :
    (modWd s f).pstore = s.pstore := rfl
@[simp] theorem modWd_spread (s : State) (f : Watchdog → Watchdog) :
    (modWd s f).spread = s.spread := rfl
@[simp] theorem modWd_params (s : State) (f : Watchdog → Watchdog) :
    (modWd s f).params = s.params := rfl
@[simp] theorem modWd_host (s : State) (f : Watchdog → Watchdog) :
    (modWd s f).host = s.host := rfl
@[simp] theorem modWd_book (s : State) (f : Watchdog → Watchdog) :
    (modWd s f).book = s.book := rfl
@[simp] theorem modWd_twin (s : State) (f : Watchdog → Watchdog) :
    (modWd s f).twin = s.twin := rfl
@[simp] theorem modWd_field (s : State) (f : Watchdog → Watchdog) :
    (modWd s f).field = s.field := rfl
@[simp] theorem modWd_ana (s : State) (f : Watchdog → Watchdog) :
    (modWd s f).ana = s.ana := rfl
@[simp] theorem modWd_busA (s : State) (f : Watchdog → Watchdog) :
    (modWd s f).busA = s.busA := rfl
@[simp] theorem modWd_busB (s : State) (f : Watchdog → Watchdog) :
    (modWd s f).busB = s.busB := rfl
@[simp] theorem modWd_dsp (s : State) (f : Watchdog → Watchdog) :
    (modWd s f).dsp = s.dsp := rfl
@[simp] theorem modWd_clock (s : State) (f : Watchdog → Watchdog) :
    (modWd s f).clock = s.clock := rfl
@[simp] theorem modWd_log (s : State) (f : Watchdog → Watchdog) :
    (modWd s f).log = s.log := rfl
@[simp] theorem modWd_wd (s : State) (f : Watchdog → Watchdog) :
    (modWd s f).wd = f s.wd := rfl
@[simp] theorem modWd_store (s : State) (f : Watchdog → Watchdog) :
    (modWd s f).store = s.store := rfl
@[simp] theorem modWd_power (s : State) (f : Watchdog → Watchdog) :
    (modWd s f).power = s.power := rfl
@[simp] theorem modWd_freeIdx (s : State) (f : Watchdog → Watchdog) :
    (modWd s f).freeIdx = s.freeIdx := rfl

/-! ### modAna -/

@[simp] theorem modAna_pending (s : State) (c : Nat) (f : Island → Island) :
    (modAna s c f).pending = s.pending := rfl
@[simp] theorem modAna_tb (s : State) (c : Nat) (f : Island → Island) :
    (modAna s c f).tb = s.tb := rfl
@[simp] theorem modAna_eng (s : State) (c : Nat) (f : Island → Island) :
    (modAna s c f).eng = s.eng := rfl
@[simp] theorem modAna_sched (s : State) (c : Nat) (f : Island → Island) :
    (modAna s c f).sched = s.sched := rfl
@[simp] theorem modAna_prog (s : State) (c : Nat) (f : Island → Island) :
    (modAna s c f).prog = s.prog := rfl
@[simp] theorem modAna_pstate (s : State) (c : Nat) (f : Island → Island) :
    (modAna s c f).pstate = s.pstate := rfl
@[simp] theorem modAna_tasks (s : State) (c : Nat) (f : Island → Island) :
    (modAna s c f).tasks = s.tasks := rfl
@[simp] theorem modAna_code (s : State) (c : Nat) (f : Island → Island) :
    (modAna s c f).code = s.code := rfl
@[simp] theorem modAna_image (s : State) (c : Nat) (f : Island → Island) :
    (modAna s c f).image = s.image := rfl
@[simp] theorem modAna_sysPhase (s : State) (c : Nat) (f : Island → Island) :
    (modAna s c f).sysPhase = s.sysPhase := rfl
@[simp] theorem modAna_sealedImg (s : State) (c : Nat) (f : Island → Island) :
    (modAna s c f).sealedImg = s.sealedImg := rfl
@[simp] theorem modAna_emitted (s : State) (c : Nat) (f : Island → Island) :
    (modAna s c f).emitted = s.emitted := rfl
@[simp] theorem modAna_held (s : State) (c : Nat) (f : Island → Island) :
    (modAna s c f).held = s.held := rfl
@[simp] theorem modAna_sent (s : State) (c : Nat) (f : Island → Island) :
    (modAna s c f).sent = s.sent := rfl
@[simp] theorem modAna_forces (s : State) (c : Nat) (f : Island → Island) :
    (modAna s c f).forces = s.forces := rfl
@[simp] theorem modAna_charts (s : State) (c : Nat) (f : Island → Island) :
    (modAna s c f).charts = s.charts := rfl
@[simp] theorem modAna_ring (s : State) (c : Nat) (f : Island → Island) :
    (modAna s c f).ring = s.ring := rfl
@[simp] theorem modAna_pstore (s : State) (c : Nat) (f : Island → Island) :
    (modAna s c f).pstore = s.pstore := rfl
@[simp] theorem modAna_spread (s : State) (c : Nat) (f : Island → Island) :
    (modAna s c f).spread = s.spread := rfl
@[simp] theorem modAna_params (s : State) (c : Nat) (f : Island → Island) :
    (modAna s c f).params = s.params := rfl
@[simp] theorem modAna_host (s : State) (c : Nat) (f : Island → Island) :
    (modAna s c f).host = s.host := rfl
@[simp] theorem modAna_book (s : State) (c : Nat) (f : Island → Island) :
    (modAna s c f).book = s.book := rfl
@[simp] theorem modAna_twin (s : State) (c : Nat) (f : Island → Island) :
    (modAna s c f).twin = s.twin := rfl
@[simp] theorem modAna_field (s : State) (c : Nat) (f : Island → Island) :
    (modAna s c f).field = s.field := rfl
@[simp] theorem modAna_ana (s : State) (c : Nat) (f : Island → Island) :
    (modAna s c f).ana = vmod s.ana c f := rfl
@[simp] theorem modAna_busA (s : State) (c : Nat) (f : Island → Island) :
    (modAna s c f).busA = s.busA := rfl
@[simp] theorem modAna_busB (s : State) (c : Nat) (f : Island → Island) :
    (modAna s c f).busB = s.busB := rfl
@[simp] theorem modAna_dsp (s : State) (c : Nat) (f : Island → Island) :
    (modAna s c f).dsp = s.dsp := rfl
@[simp] theorem modAna_clock (s : State) (c : Nat) (f : Island → Island) :
    (modAna s c f).clock = s.clock := rfl
@[simp] theorem modAna_log (s : State) (c : Nat) (f : Island → Island) :
    (modAna s c f).log = s.log := rfl
@[simp] theorem modAna_wd (s : State) (c : Nat) (f : Island → Island) :
    (modAna s c f).wd = s.wd := rfl
@[simp] theorem modAna_store (s : State) (c : Nat) (f : Island → Island) :
    (modAna s c f).store = s.store := rfl
@[simp] theorem modAna_power (s : State) (c : Nat) (f : Island → Island) :
    (modAna s c f).power = s.power := rfl
@[simp] theorem modAna_freeIdx (s : State) (c : Nat) (f : Island → Island) :
    (modAna s c f).freeIdx = s.freeIdx := rfl

/-! ### modTask -/

@[simp] theorem modTask_pending (s : State) (t : Nat) (f : TaskRt → TaskRt) :
    (modTask s t f).pending = s.pending := rfl
@[simp] theorem modTask_tb (s : State) (t : Nat) (f : TaskRt → TaskRt) :
    (modTask s t f).tb = s.tb := rfl
@[simp] theorem modTask_eng (s : State) (t : Nat) (f : TaskRt → TaskRt) :
    (modTask s t f).eng = s.eng := rfl
@[simp] theorem modTask_sched (s : State) (t : Nat) (f : TaskRt → TaskRt) :
    (modTask s t f).sched = s.sched := rfl
@[simp] theorem modTask_prog (s : State) (t : Nat) (f : TaskRt → TaskRt) :
    (modTask s t f).prog = s.prog := rfl
@[simp] theorem modTask_pstate (s : State) (t : Nat) (f : TaskRt → TaskRt) :
    (modTask s t f).pstate = s.pstate := rfl
@[simp] theorem modTask_tasks (s : State) (t : Nat) (f : TaskRt → TaskRt) :
    (modTask s t f).tasks = vmod s.tasks t f := rfl
@[simp] theorem modTask_code (s : State) (t : Nat) (f : TaskRt → TaskRt) :
    (modTask s t f).code = s.code := rfl
@[simp] theorem modTask_image (s : State) (t : Nat) (f : TaskRt → TaskRt) :
    (modTask s t f).image = s.image := rfl
@[simp] theorem modTask_sysPhase (s : State) (t : Nat) (f : TaskRt → TaskRt) :
    (modTask s t f).sysPhase = s.sysPhase := rfl
@[simp] theorem modTask_sealedImg (s : State) (t : Nat) (f : TaskRt → TaskRt) :
    (modTask s t f).sealedImg = s.sealedImg := rfl
@[simp] theorem modTask_emitted (s : State) (t : Nat) (f : TaskRt → TaskRt) :
    (modTask s t f).emitted = s.emitted := rfl
@[simp] theorem modTask_held (s : State) (t : Nat) (f : TaskRt → TaskRt) :
    (modTask s t f).held = s.held := rfl
@[simp] theorem modTask_sent (s : State) (t : Nat) (f : TaskRt → TaskRt) :
    (modTask s t f).sent = s.sent := rfl
@[simp] theorem modTask_forces (s : State) (t : Nat) (f : TaskRt → TaskRt) :
    (modTask s t f).forces = s.forces := rfl
@[simp] theorem modTask_charts (s : State) (t : Nat) (f : TaskRt → TaskRt) :
    (modTask s t f).charts = s.charts := rfl
@[simp] theorem modTask_ring (s : State) (t : Nat) (f : TaskRt → TaskRt) :
    (modTask s t f).ring = s.ring := rfl
@[simp] theorem modTask_pstore (s : State) (t : Nat) (f : TaskRt → TaskRt) :
    (modTask s t f).pstore = s.pstore := rfl
@[simp] theorem modTask_spread (s : State) (t : Nat) (f : TaskRt → TaskRt) :
    (modTask s t f).spread = s.spread := rfl
@[simp] theorem modTask_params (s : State) (t : Nat) (f : TaskRt → TaskRt) :
    (modTask s t f).params = s.params := rfl
@[simp] theorem modTask_host (s : State) (t : Nat) (f : TaskRt → TaskRt) :
    (modTask s t f).host = s.host := rfl
@[simp] theorem modTask_book (s : State) (t : Nat) (f : TaskRt → TaskRt) :
    (modTask s t f).book = s.book := rfl
@[simp] theorem modTask_twin (s : State) (t : Nat) (f : TaskRt → TaskRt) :
    (modTask s t f).twin = s.twin := rfl
@[simp] theorem modTask_field (s : State) (t : Nat) (f : TaskRt → TaskRt) :
    (modTask s t f).field = s.field := rfl
@[simp] theorem modTask_ana (s : State) (t : Nat) (f : TaskRt → TaskRt) :
    (modTask s t f).ana = s.ana := rfl
@[simp] theorem modTask_busA (s : State) (t : Nat) (f : TaskRt → TaskRt) :
    (modTask s t f).busA = s.busA := rfl
@[simp] theorem modTask_busB (s : State) (t : Nat) (f : TaskRt → TaskRt) :
    (modTask s t f).busB = s.busB := rfl
@[simp] theorem modTask_dsp (s : State) (t : Nat) (f : TaskRt → TaskRt) :
    (modTask s t f).dsp = s.dsp := rfl
@[simp] theorem modTask_clock (s : State) (t : Nat) (f : TaskRt → TaskRt) :
    (modTask s t f).clock = s.clock := rfl
@[simp] theorem modTask_log (s : State) (t : Nat) (f : TaskRt → TaskRt) :
    (modTask s t f).log = s.log := rfl
@[simp] theorem modTask_wd (s : State) (t : Nat) (f : TaskRt → TaskRt) :
    (modTask s t f).wd = s.wd := rfl
@[simp] theorem modTask_store (s : State) (t : Nat) (f : TaskRt → TaskRt) :
    (modTask s t f).store = s.store := rfl
@[simp] theorem modTask_power (s : State) (t : Nat) (f : TaskRt → TaskRt) :
    (modTask s t f).power = s.power := rfl
@[simp] theorem modTask_freeIdx (s : State) (t : Nat) (f : TaskRt → TaskRt) :
    (modTask s t f).freeIdx = s.freeIdx := rfl

/-! ### modTasks -/

@[simp] theorem modTasks_pending (s : State) (f : TaskRt → TaskRt) :
    (modTasks s f).pending = s.pending := rfl
@[simp] theorem modTasks_tb (s : State) (f : TaskRt → TaskRt) :
    (modTasks s f).tb = s.tb := rfl
@[simp] theorem modTasks_eng (s : State) (f : TaskRt → TaskRt) :
    (modTasks s f).eng = s.eng := rfl
@[simp] theorem modTasks_sched (s : State) (f : TaskRt → TaskRt) :
    (modTasks s f).sched = s.sched := rfl
@[simp] theorem modTasks_prog (s : State) (f : TaskRt → TaskRt) :
    (modTasks s f).prog = s.prog := rfl
@[simp] theorem modTasks_pstate (s : State) (f : TaskRt → TaskRt) :
    (modTasks s f).pstate = s.pstate := rfl
@[simp] theorem modTasks_tasks (s : State) (f : TaskRt → TaskRt) :
    (modTasks s f).tasks = s.tasks.map f := rfl
@[simp] theorem modTasks_code (s : State) (f : TaskRt → TaskRt) :
    (modTasks s f).code = s.code := rfl
@[simp] theorem modTasks_image (s : State) (f : TaskRt → TaskRt) :
    (modTasks s f).image = s.image := rfl
@[simp] theorem modTasks_sysPhase (s : State) (f : TaskRt → TaskRt) :
    (modTasks s f).sysPhase = s.sysPhase := rfl
@[simp] theorem modTasks_sealedImg (s : State) (f : TaskRt → TaskRt) :
    (modTasks s f).sealedImg = s.sealedImg := rfl
@[simp] theorem modTasks_emitted (s : State) (f : TaskRt → TaskRt) :
    (modTasks s f).emitted = s.emitted := rfl
@[simp] theorem modTasks_held (s : State) (f : TaskRt → TaskRt) :
    (modTasks s f).held = s.held := rfl
@[simp] theorem modTasks_sent (s : State) (f : TaskRt → TaskRt) :
    (modTasks s f).sent = s.sent := rfl
@[simp] theorem modTasks_forces (s : State) (f : TaskRt → TaskRt) :
    (modTasks s f).forces = s.forces := rfl
@[simp] theorem modTasks_charts (s : State) (f : TaskRt → TaskRt) :
    (modTasks s f).charts = s.charts := rfl
@[simp] theorem modTasks_ring (s : State) (f : TaskRt → TaskRt) :
    (modTasks s f).ring = s.ring := rfl
@[simp] theorem modTasks_pstore (s : State) (f : TaskRt → TaskRt) :
    (modTasks s f).pstore = s.pstore := rfl
@[simp] theorem modTasks_spread (s : State) (f : TaskRt → TaskRt) :
    (modTasks s f).spread = s.spread := rfl
@[simp] theorem modTasks_params (s : State) (f : TaskRt → TaskRt) :
    (modTasks s f).params = s.params := rfl
@[simp] theorem modTasks_host (s : State) (f : TaskRt → TaskRt) :
    (modTasks s f).host = s.host := rfl
@[simp] theorem modTasks_book (s : State) (f : TaskRt → TaskRt) :
    (modTasks s f).book = s.book := rfl
@[simp] theorem modTasks_twin (s : State) (f : TaskRt → TaskRt) :
    (modTasks s f).twin = s.twin := rfl
@[simp] theorem modTasks_field (s : State) (f : TaskRt → TaskRt) :
    (modTasks s f).field = s.field := rfl
@[simp] theorem modTasks_ana (s : State) (f : TaskRt → TaskRt) :
    (modTasks s f).ana = s.ana := rfl
@[simp] theorem modTasks_busA (s : State) (f : TaskRt → TaskRt) :
    (modTasks s f).busA = s.busA := rfl
@[simp] theorem modTasks_busB (s : State) (f : TaskRt → TaskRt) :
    (modTasks s f).busB = s.busB := rfl
@[simp] theorem modTasks_dsp (s : State) (f : TaskRt → TaskRt) :
    (modTasks s f).dsp = s.dsp := rfl
@[simp] theorem modTasks_clock (s : State) (f : TaskRt → TaskRt) :
    (modTasks s f).clock = s.clock := rfl
@[simp] theorem modTasks_log (s : State) (f : TaskRt → TaskRt) :
    (modTasks s f).log = s.log := rfl
@[simp] theorem modTasks_wd (s : State) (f : TaskRt → TaskRt) :
    (modTasks s f).wd = s.wd := rfl
@[simp] theorem modTasks_store (s : State) (f : TaskRt → TaskRt) :
    (modTasks s f).store = s.store := rfl
@[simp] theorem modTasks_power (s : State) (f : TaskRt → TaskRt) :
    (modTasks s f).power = s.power := rfl
@[simp] theorem modTasks_freeIdx (s : State) (f : TaskRt → TaskRt) :
    (modTasks s f).freeIdx = s.freeIdx := rfl

/-! ### putItem -/

@[simp] theorem putItem_pending (s : State) (k : Nat) (t : Tagged) :
    (putItem s k t).pending = s.pending := rfl
@[simp] theorem putItem_tb (s : State) (k : Nat) (t : Tagged) :
    (putItem s k t).tb = s.tb := rfl
@[simp] theorem putItem_eng (s : State) (k : Nat) (t : Tagged) :
    (putItem s k t).eng = s.eng := rfl
@[simp] theorem putItem_sched (s : State) (k : Nat) (t : Tagged) :
    (putItem s k t).sched = s.sched := rfl
@[simp] theorem putItem_prog (s : State) (k : Nat) (t : Tagged) :
    (putItem s k t).prog = s.prog := rfl
@[simp] theorem putItem_pstate (s : State) (k : Nat) (t : Tagged) :
    (putItem s k t).pstate = s.pstate := rfl
@[simp] theorem putItem_tasks (s : State) (k : Nat) (t : Tagged) :
    (putItem s k t).tasks = s.tasks := rfl
@[simp] theorem putItem_code (s : State) (k : Nat) (t : Tagged) :
    (putItem s k t).code = s.code := rfl
@[simp] theorem putItem_image (s : State) (k : Nat) (t : Tagged) :
    (putItem s k t).image = smSet itemDefault s.image k t := rfl
@[simp] theorem putItem_sysPhase (s : State) (k : Nat) (t : Tagged) :
    (putItem s k t).sysPhase = s.sysPhase := rfl
@[simp] theorem putItem_sealedImg (s : State) (k : Nat) (t : Tagged) :
    (putItem s k t).sealedImg = s.sealedImg := rfl
@[simp] theorem putItem_emitted (s : State) (k : Nat) (t : Tagged) :
    (putItem s k t).emitted = s.emitted := rfl
@[simp] theorem putItem_held (s : State) (k : Nat) (t : Tagged) :
    (putItem s k t).held = s.held := rfl
@[simp] theorem putItem_sent (s : State) (k : Nat) (t : Tagged) :
    (putItem s k t).sent = s.sent := rfl
@[simp] theorem putItem_forces (s : State) (k : Nat) (t : Tagged) :
    (putItem s k t).forces = s.forces := rfl
@[simp] theorem putItem_charts (s : State) (k : Nat) (t : Tagged) :
    (putItem s k t).charts = s.charts := rfl
@[simp] theorem putItem_ring (s : State) (k : Nat) (t : Tagged) :
    (putItem s k t).ring = s.ring := rfl
@[simp] theorem putItem_pstore (s : State) (k : Nat) (t : Tagged) :
    (putItem s k t).pstore = s.pstore := rfl
@[simp] theorem putItem_spread (s : State) (k : Nat) (t : Tagged) :
    (putItem s k t).spread = s.spread := rfl
@[simp] theorem putItem_params (s : State) (k : Nat) (t : Tagged) :
    (putItem s k t).params = s.params := rfl
@[simp] theorem putItem_host (s : State) (k : Nat) (t : Tagged) :
    (putItem s k t).host = s.host := rfl
@[simp] theorem putItem_book (s : State) (k : Nat) (t : Tagged) :
    (putItem s k t).book = s.book := rfl
@[simp] theorem putItem_twin (s : State) (k : Nat) (t : Tagged) :
    (putItem s k t).twin = s.twin := rfl
@[simp] theorem putItem_field (s : State) (k : Nat) (t : Tagged) :
    (putItem s k t).field = s.field := rfl
@[simp] theorem putItem_ana (s : State) (k : Nat) (t : Tagged) :
    (putItem s k t).ana = s.ana := rfl
@[simp] theorem putItem_busA (s : State) (k : Nat) (t : Tagged) :
    (putItem s k t).busA = s.busA := rfl
@[simp] theorem putItem_busB (s : State) (k : Nat) (t : Tagged) :
    (putItem s k t).busB = s.busB := rfl
@[simp] theorem putItem_dsp (s : State) (k : Nat) (t : Tagged) :
    (putItem s k t).dsp = s.dsp := rfl
@[simp] theorem putItem_clock (s : State) (k : Nat) (t : Tagged) :
    (putItem s k t).clock = s.clock := rfl
@[simp] theorem putItem_log (s : State) (k : Nat) (t : Tagged) :
    (putItem s k t).log = s.log := rfl
@[simp] theorem putItem_wd (s : State) (k : Nat) (t : Tagged) :
    (putItem s k t).wd = s.wd := rfl
@[simp] theorem putItem_store (s : State) (k : Nat) (t : Tagged) :
    (putItem s k t).store = s.store := rfl
@[simp] theorem putItem_power (s : State) (k : Nat) (t : Tagged) :
    (putItem s k t).power = s.power := rfl
@[simp] theorem putItem_freeIdx (s : State) (k : Nat) (t : Tagged) :
    (putItem s k t).freeIdx = s.freeIdx := rfl

/-! ### setPar -/

@[simp] theorem setPar_pending (s : State) (pid v : Nat) :
    (setPar s pid v).pending = s.pending := rfl
@[simp] theorem setPar_tb (s : State) (pid v : Nat) :
    (setPar s pid v).tb = s.tb := rfl
@[simp] theorem setPar_eng (s : State) (pid v : Nat) :
    (setPar s pid v).eng = s.eng := rfl
@[simp] theorem setPar_sched (s : State) (pid v : Nat) :
    (setPar s pid v).sched = s.sched := rfl
@[simp] theorem setPar_prog (s : State) (pid v : Nat) :
    (setPar s pid v).prog = s.prog := rfl
@[simp] theorem setPar_pstate (s : State) (pid v : Nat) :
    (setPar s pid v).pstate = s.pstate := rfl
@[simp] theorem setPar_tasks (s : State) (pid v : Nat) :
    (setPar s pid v).tasks = s.tasks := rfl
@[simp] theorem setPar_code (s : State) (pid v : Nat) :
    (setPar s pid v).code = s.code := rfl
@[simp] theorem setPar_image (s : State) (pid v : Nat) :
    (setPar s pid v).image = s.image := rfl
@[simp] theorem setPar_sysPhase (s : State) (pid v : Nat) :
    (setPar s pid v).sysPhase = s.sysPhase := rfl
@[simp] theorem setPar_sealedImg (s : State) (pid v : Nat) :
    (setPar s pid v).sealedImg = s.sealedImg := rfl
@[simp] theorem setPar_emitted (s : State) (pid v : Nat) :
    (setPar s pid v).emitted = s.emitted := rfl
@[simp] theorem setPar_held (s : State) (pid v : Nat) :
    (setPar s pid v).held = s.held := rfl
@[simp] theorem setPar_sent (s : State) (pid v : Nat) :
    (setPar s pid v).sent = s.sent := rfl
@[simp] theorem setPar_forces (s : State) (pid v : Nat) :
    (setPar s pid v).forces = s.forces := rfl
@[simp] theorem setPar_charts (s : State) (pid v : Nat) :
    (setPar s pid v).charts = s.charts := rfl
@[simp] theorem setPar_ring (s : State) (pid v : Nat) :
    (setPar s pid v).ring = s.ring := rfl
@[simp] theorem setPar_pstore (s : State) (pid v : Nat) :
    (setPar s pid v).pstore = s.pstore := rfl
@[simp] theorem setPar_spread (s : State) (pid v : Nat) :
    (setPar s pid v).spread = s.spread := rfl
@[simp] theorem setPar_params (s : State) (pid v : Nat) :
    (setPar s pid v).params = { s.params with eff := smSet paramDefault s.params.eff pid v } := rfl
@[simp] theorem setPar_host (s : State) (pid v : Nat) :
    (setPar s pid v).host = s.host := rfl
@[simp] theorem setPar_book (s : State) (pid v : Nat) :
    (setPar s pid v).book = s.book := rfl
@[simp] theorem setPar_twin (s : State) (pid v : Nat) :
    (setPar s pid v).twin = s.twin := rfl
@[simp] theorem setPar_field (s : State) (pid v : Nat) :
    (setPar s pid v).field = s.field := rfl
@[simp] theorem setPar_ana (s : State) (pid v : Nat) :
    (setPar s pid v).ana = s.ana := rfl
@[simp] theorem setPar_busA (s : State) (pid v : Nat) :
    (setPar s pid v).busA = s.busA := rfl
@[simp] theorem setPar_busB (s : State) (pid v : Nat) :
    (setPar s pid v).busB = s.busB := rfl
@[simp] theorem setPar_dsp (s : State) (pid v : Nat) :
    (setPar s pid v).dsp = s.dsp := rfl
@[simp] theorem setPar_clock (s : State) (pid v : Nat) :
    (setPar s pid v).clock = s.clock := rfl
@[simp] theorem setPar_log (s : State) (pid v : Nat) :
    (setPar s pid v).log = s.log := rfl
@[simp] theorem setPar_wd (s : State) (pid v : Nat) :
    (setPar s pid v).wd = s.wd := rfl
@[simp] theorem setPar_store (s : State) (pid v : Nat) :
    (setPar s pid v).store = s.store := rfl
@[simp] theorem setPar_power (s : State) (pid v : Nat) :
    (setPar s pid v).power = s.power := rfl
@[simp] theorem setPar_freeIdx (s : State) (pid v : Nat) :
    (setPar s pid v).freeIdx = s.freeIdx := rfl

/-! ### reserveEnergy -/

@[simp] theorem reserveEnergy_pending (s : State) (n : Nat) :
    (reserveEnergy s n).pending = s.pending := rfl
@[simp] theorem reserveEnergy_tb (s : State) (n : Nat) :
    (reserveEnergy s n).tb = s.tb := rfl
@[simp] theorem reserveEnergy_eng (s : State) (n : Nat) :
    (reserveEnergy s n).eng = s.eng := rfl
@[simp] theorem reserveEnergy_sched (s : State) (n : Nat) :
    (reserveEnergy s n).sched = s.sched := rfl
@[simp] theorem reserveEnergy_prog (s : State) (n : Nat) :
    (reserveEnergy s n).prog = s.prog := rfl
@[simp] theorem reserveEnergy_pstate (s : State) (n : Nat) :
    (reserveEnergy s n).pstate = s.pstate := rfl
@[simp] theorem reserveEnergy_tasks (s : State) (n : Nat) :
    (reserveEnergy s n).tasks = s.tasks := rfl
@[simp] theorem reserveEnergy_code (s : State) (n : Nat) :
    (reserveEnergy s n).code = s.code := rfl
@[simp] theorem reserveEnergy_image (s : State) (n : Nat) :
    (reserveEnergy s n).image = s.image := rfl
@[simp] theorem reserveEnergy_sysPhase (s : State) (n : Nat) :
    (reserveEnergy s n).sysPhase = s.sysPhase := rfl
@[simp] theorem reserveEnergy_sealedImg (s : State) (n : Nat) :
    (reserveEnergy s n).sealedImg = s.sealedImg := rfl
@[simp] theorem reserveEnergy_emitted (s : State) (n : Nat) :
    (reserveEnergy s n).emitted = s.emitted := rfl
@[simp] theorem reserveEnergy_held (s : State) (n : Nat) :
    (reserveEnergy s n).held = s.held := rfl
@[simp] theorem reserveEnergy_sent (s : State) (n : Nat) :
    (reserveEnergy s n).sent = s.sent := rfl
@[simp] theorem reserveEnergy_forces (s : State) (n : Nat) :
    (reserveEnergy s n).forces = s.forces := rfl
@[simp] theorem reserveEnergy_charts (s : State) (n : Nat) :
    (reserveEnergy s n).charts = s.charts := rfl
@[simp] theorem reserveEnergy_ring (s : State) (n : Nat) :
    (reserveEnergy s n).ring = s.ring := rfl
@[simp] theorem reserveEnergy_pstore (s : State) (n : Nat) :
    (reserveEnergy s n).pstore = s.pstore := rfl
@[simp] theorem reserveEnergy_spread (s : State) (n : Nat) :
    (reserveEnergy s n).spread = s.spread := rfl
@[simp] theorem reserveEnergy_params (s : State) (n : Nat) :
    (reserveEnergy s n).params = s.params := rfl
@[simp] theorem reserveEnergy_host (s : State) (n : Nat) :
    (reserveEnergy s n).host = s.host := rfl
@[simp] theorem reserveEnergy_book (s : State) (n : Nat) :
    (reserveEnergy s n).book = s.book := rfl
@[simp] theorem reserveEnergy_twin (s : State) (n : Nat) :
    (reserveEnergy s n).twin = s.twin := rfl
@[simp] theorem reserveEnergy_field (s : State) (n : Nat) :
    (reserveEnergy s n).field = s.field := rfl
@[simp] theorem reserveEnergy_ana (s : State) (n : Nat) :
    (reserveEnergy s n).ana = s.ana := rfl
@[simp] theorem reserveEnergy_busA (s : State) (n : Nat) :
    (reserveEnergy s n).busA = s.busA := rfl
@[simp] theorem reserveEnergy_busB (s : State) (n : Nat) :
    (reserveEnergy s n).busB = s.busB := rfl
@[simp] theorem reserveEnergy_dsp (s : State) (n : Nat) :
    (reserveEnergy s n).dsp = s.dsp := rfl
@[simp] theorem reserveEnergy_clock (s : State) (n : Nat) :
    (reserveEnergy s n).clock = s.clock := rfl
@[simp] theorem reserveEnergy_log (s : State) (n : Nat) :
    (reserveEnergy s n).log = s.log := rfl
@[simp] theorem reserveEnergy_wd (s : State) (n : Nat) :
    (reserveEnergy s n).wd = s.wd := rfl
@[simp] theorem reserveEnergy_store (s : State) (n : Nat) :
    (reserveEnergy s n).store = s.store := rfl
@[simp] theorem reserveEnergy_power (s : State) (n : Nat) :
    (reserveEnergy s n).power = { s.power with reservedNj := s.power.reservedNj + n } := rfl
@[simp] theorem reserveEnergy_freeIdx (s : State) (n : Nat) :
    (reserveEnergy s n).freeIdx = s.freeIdx := rfl

/-! ### freeEnergy -/

@[simp] theorem freeEnergy_pending (s : State) (n : Nat) :
    (freeEnergy s n).pending = s.pending := rfl
@[simp] theorem freeEnergy_tb (s : State) (n : Nat) :
    (freeEnergy s n).tb = s.tb := rfl
@[simp] theorem freeEnergy_eng (s : State) (n : Nat) :
    (freeEnergy s n).eng = s.eng := rfl
@[simp] theorem freeEnergy_sched (s : State) (n : Nat) :
    (freeEnergy s n).sched = s.sched := rfl
@[simp] theorem freeEnergy_prog (s : State) (n : Nat) :
    (freeEnergy s n).prog = s.prog := rfl
@[simp] theorem freeEnergy_pstate (s : State) (n : Nat) :
    (freeEnergy s n).pstate = s.pstate := rfl
@[simp] theorem freeEnergy_tasks (s : State) (n : Nat) :
    (freeEnergy s n).tasks = s.tasks := rfl
@[simp] theorem freeEnergy_code (s : State) (n : Nat) :
    (freeEnergy s n).code = s.code := rfl
@[simp] theorem freeEnergy_image (s : State) (n : Nat) :
    (freeEnergy s n).image = s.image := rfl
@[simp] theorem freeEnergy_sysPhase (s : State) (n : Nat) :
    (freeEnergy s n).sysPhase = s.sysPhase := rfl
@[simp] theorem freeEnergy_sealedImg (s : State) (n : Nat) :
    (freeEnergy s n).sealedImg = s.sealedImg := rfl
@[simp] theorem freeEnergy_emitted (s : State) (n : Nat) :
    (freeEnergy s n).emitted = s.emitted := rfl
@[simp] theorem freeEnergy_held (s : State) (n : Nat) :
    (freeEnergy s n).held = s.held := rfl
@[simp] theorem freeEnergy_sent (s : State) (n : Nat) :
    (freeEnergy s n).sent = s.sent := rfl
@[simp] theorem freeEnergy_forces (s : State) (n : Nat) :
    (freeEnergy s n).forces = s.forces := rfl
@[simp] theorem freeEnergy_charts (s : State) (n : Nat) :
    (freeEnergy s n).charts = s.charts := rfl
@[simp] theorem freeEnergy_ring (s : State) (n : Nat) :
    (freeEnergy s n).ring = s.ring := rfl
@[simp] theorem freeEnergy_pstore (s : State) (n : Nat) :
    (freeEnergy s n).pstore = s.pstore := rfl
@[simp] theorem freeEnergy_spread (s : State) (n : Nat) :
    (freeEnergy s n).spread = s.spread := rfl
@[simp] theorem freeEnergy_params (s : State) (n : Nat) :
    (freeEnergy s n).params = s.params := rfl
@[simp] theorem freeEnergy_host (s : State) (n : Nat) :
    (freeEnergy s n).host = s.host := rfl
@[simp] theorem freeEnergy_book (s : State) (n : Nat) :
    (freeEnergy s n).book = s.book := rfl
@[simp] theorem freeEnergy_twin (s : State) (n : Nat) :
    (freeEnergy s n).twin = s.twin := rfl
@[simp] theorem freeEnergy_field (s : State) (n : Nat) :
    (freeEnergy s n).field = s.field := rfl
@[simp] theorem freeEnergy_ana (s : State) (n : Nat) :
    (freeEnergy s n).ana = s.ana := rfl
@[simp] theorem freeEnergy_busA (s : State) (n : Nat) :
    (freeEnergy s n).busA = s.busA := rfl
@[simp] theorem freeEnergy_busB (s : State) (n : Nat) :
    (freeEnergy s n).busB = s.busB := rfl
@[simp] theorem freeEnergy_dsp (s : State) (n : Nat) :
    (freeEnergy s n).dsp = s.dsp := rfl
@[simp] theorem freeEnergy_clock (s : State) (n : Nat) :
    (freeEnergy s n).clock = s.clock := rfl
@[simp] theorem freeEnergy_log (s : State) (n : Nat) :
    (freeEnergy s n).log = s.log := rfl
@[simp] theorem freeEnergy_wd (s : State) (n : Nat) :
    (freeEnergy s n).wd = s.wd := rfl
@[simp] theorem freeEnergy_store (s : State) (n : Nat) :
    (freeEnergy s n).store = s.store := rfl
@[simp] theorem freeEnergy_power (s : State) (n : Nat) :
    (freeEnergy s n).power = { s.power with reservedNj := s.power.reservedNj - n } := rfl
@[simp] theorem freeEnergy_freeIdx (s : State) (n : Nat) :
    (freeEnergy s n).freeIdx = s.freeIdx := rfl

/-! ### updCmd -/

@[simp] theorem updCmd_pending (s : State) (c : CmdRef) (f : Cmd → Cmd) :
    (updCmd s c f).pending = s.pending := rfl
@[simp] theorem updCmd_tb (s : State) (c : CmdRef) (f : Cmd → Cmd) :
    (updCmd s c f).tb = s.tb := rfl
@[simp] theorem updCmd_eng (s : State) (c : CmdRef) (f : Cmd → Cmd) :
    (updCmd s c f).eng = s.eng := rfl
@[simp] theorem updCmd_sched (s : State) (c : CmdRef) (f : Cmd → Cmd) :
    (updCmd s c f).sched = s.sched := rfl
@[simp] theorem updCmd_prog (s : State) (c : CmdRef) (f : Cmd → Cmd) :
    (updCmd s c f).prog = s.prog := rfl
@[simp] theorem updCmd_pstate (s : State) (c : CmdRef) (f : Cmd → Cmd) :
    (updCmd s c f).pstate = s.pstate := rfl
@[simp] theorem updCmd_tasks (s : State) (c : CmdRef) (f : Cmd → Cmd) :
    (updCmd s c f).tasks = s.tasks := rfl
@[simp] theorem updCmd_code (s : State) (c : CmdRef) (f : Cmd → Cmd) :
    (updCmd s c f).code = s.code := rfl
@[simp] theorem updCmd_image (s : State) (c : CmdRef) (f : Cmd → Cmd) :
    (updCmd s c f).image = s.image := rfl
@[simp] theorem updCmd_sysPhase (s : State) (c : CmdRef) (f : Cmd → Cmd) :
    (updCmd s c f).sysPhase = s.sysPhase := rfl
@[simp] theorem updCmd_sealedImg (s : State) (c : CmdRef) (f : Cmd → Cmd) :
    (updCmd s c f).sealedImg = s.sealedImg := rfl
@[simp] theorem updCmd_emitted (s : State) (c : CmdRef) (f : Cmd → Cmd) :
    (updCmd s c f).emitted = s.emitted := rfl
@[simp] theorem updCmd_held (s : State) (c : CmdRef) (f : Cmd → Cmd) :
    (updCmd s c f).held = s.held := rfl
@[simp] theorem updCmd_sent (s : State) (c : CmdRef) (f : Cmd → Cmd) :
    (updCmd s c f).sent = s.sent := rfl
@[simp] theorem updCmd_forces (s : State) (c : CmdRef) (f : Cmd → Cmd) :
    (updCmd s c f).forces = s.forces := rfl
@[simp] theorem updCmd_charts (s : State) (c : CmdRef) (f : Cmd → Cmd) :
    (updCmd s c f).charts = s.charts := rfl
@[simp] theorem updCmd_ring (s : State) (c : CmdRef) (f : Cmd → Cmd) :
    (updCmd s c f).ring = s.ring := rfl
@[simp] theorem updCmd_pstore (s : State) (c : CmdRef) (f : Cmd → Cmd) :
    (updCmd s c f).pstore = s.pstore := rfl
@[simp] theorem updCmd_spread (s : State) (c : CmdRef) (f : Cmd → Cmd) :
    (updCmd s c f).spread = s.spread := rfl
@[simp] theorem updCmd_params (s : State) (c : CmdRef) (f : Cmd → Cmd) :
    (updCmd s c f).params = s.params := rfl
@[simp] theorem updCmd_host (s : State) (c : CmdRef) (f : Cmd → Cmd) :
    (updCmd s c f).host = { s.host with cmds := updFirst c f s.host.cmds } := rfl
@[simp] theorem updCmd_book (s : State) (c : CmdRef) (f : Cmd → Cmd) :
    (updCmd s c f).book = s.book := rfl
@[simp] theorem updCmd_twin (s : State) (c : CmdRef) (f : Cmd → Cmd) :
    (updCmd s c f).twin = s.twin := rfl
@[simp] theorem updCmd_field (s : State) (c : CmdRef) (f : Cmd → Cmd) :
    (updCmd s c f).field = s.field := rfl
@[simp] theorem updCmd_ana (s : State) (c : CmdRef) (f : Cmd → Cmd) :
    (updCmd s c f).ana = s.ana := rfl
@[simp] theorem updCmd_busA (s : State) (c : CmdRef) (f : Cmd → Cmd) :
    (updCmd s c f).busA = s.busA := rfl
@[simp] theorem updCmd_busB (s : State) (c : CmdRef) (f : Cmd → Cmd) :
    (updCmd s c f).busB = s.busB := rfl
@[simp] theorem updCmd_dsp (s : State) (c : CmdRef) (f : Cmd → Cmd) :
    (updCmd s c f).dsp = s.dsp := rfl
@[simp] theorem updCmd_clock (s : State) (c : CmdRef) (f : Cmd → Cmd) :
    (updCmd s c f).clock = s.clock := rfl
@[simp] theorem updCmd_log (s : State) (c : CmdRef) (f : Cmd → Cmd) :
    (updCmd s c f).log = s.log := rfl
@[simp] theorem updCmd_wd (s : State) (c : CmdRef) (f : Cmd → Cmd) :
    (updCmd s c f).wd = s.wd := rfl
@[simp] theorem updCmd_store (s : State) (c : CmdRef) (f : Cmd → Cmd) :
    (updCmd s c f).store = s.store := rfl
@[simp] theorem updCmd_power (s : State) (c : CmdRef) (f : Cmd → Cmd) :
    (updCmd s c f).power = s.power := rfl
@[simp] theorem updCmd_freeIdx (s : State) (c : CmdRef) (f : Cmd → Cmd) :
    (updCmd s c f).freeIdx = s.freeIdx := rfl

/-! ### setPort -/

@[simp] theorem setPort_pending (s : State) (p : Port) (x : PortSt) :
    (setPort s p x).pending = s.pending := by cases p <;> rfl
@[simp] theorem setPort_tb (s : State) (p : Port) (x : PortSt) :
    (setPort s p x).tb = s.tb := by cases p <;> rfl
@[simp] theorem setPort_eng (s : State) (p : Port) (x : PortSt) :
    (setPort s p x).eng = s.eng := by cases p <;> rfl
@[simp] theorem setPort_sched (s : State) (p : Port) (x : PortSt) :
    (setPort s p x).sched = s.sched := by cases p <;> rfl
@[simp] theorem setPort_prog (s : State) (p : Port) (x : PortSt) :
    (setPort s p x).prog = s.prog := by cases p <;> rfl
@[simp] theorem setPort_pstate (s : State) (p : Port) (x : PortSt) :
    (setPort s p x).pstate = s.pstate := by cases p <;> rfl
@[simp] theorem setPort_tasks (s : State) (p : Port) (x : PortSt) :
    (setPort s p x).tasks = s.tasks := by cases p <;> rfl
@[simp] theorem setPort_code (s : State) (p : Port) (x : PortSt) :
    (setPort s p x).code = s.code := by cases p <;> rfl
@[simp] theorem setPort_image (s : State) (p : Port) (x : PortSt) :
    (setPort s p x).image = s.image := by cases p <;> rfl
@[simp] theorem setPort_sysPhase (s : State) (p : Port) (x : PortSt) :
    (setPort s p x).sysPhase = s.sysPhase := by cases p <;> rfl
@[simp] theorem setPort_sealedImg (s : State) (p : Port) (x : PortSt) :
    (setPort s p x).sealedImg = s.sealedImg := by cases p <;> rfl
@[simp] theorem setPort_emitted (s : State) (p : Port) (x : PortSt) :
    (setPort s p x).emitted = s.emitted := by cases p <;> rfl
@[simp] theorem setPort_held (s : State) (p : Port) (x : PortSt) :
    (setPort s p x).held = s.held := by cases p <;> rfl
@[simp] theorem setPort_sent (s : State) (p : Port) (x : PortSt) :
    (setPort s p x).sent = s.sent := by cases p <;> rfl
@[simp] theorem setPort_forces (s : State) (p : Port) (x : PortSt) :
    (setPort s p x).forces = s.forces := by cases p <;> rfl
@[simp] theorem setPort_charts (s : State) (p : Port) (x : PortSt) :
    (setPort s p x).charts = s.charts := by cases p <;> rfl
@[simp] theorem setPort_ring (s : State) (p : Port) (x : PortSt) :
    (setPort s p x).ring = s.ring := by cases p <;> rfl
@[simp] theorem setPort_pstore (s : State) (p : Port) (x : PortSt) :
    (setPort s p x).pstore = s.pstore := by cases p <;> rfl
@[simp] theorem setPort_spread (s : State) (p : Port) (x : PortSt) :
    (setPort s p x).spread = s.spread := by cases p <;> rfl
@[simp] theorem setPort_params (s : State) (p : Port) (x : PortSt) :
    (setPort s p x).params = s.params := by cases p <;> rfl
@[simp] theorem setPort_book (s : State) (p : Port) (x : PortSt) :
    (setPort s p x).book = s.book := by cases p <;> rfl
@[simp] theorem setPort_twin (s : State) (p : Port) (x : PortSt) :
    (setPort s p x).twin = s.twin := by cases p <;> rfl
@[simp] theorem setPort_field (s : State) (p : Port) (x : PortSt) :
    (setPort s p x).field = s.field := by cases p <;> rfl
@[simp] theorem setPort_ana (s : State) (p : Port) (x : PortSt) :
    (setPort s p x).ana = s.ana := by cases p <;> rfl
@[simp] theorem setPort_busA (s : State) (p : Port) (x : PortSt) :
    (setPort s p x).busA = s.busA := by cases p <;> rfl
@[simp] theorem setPort_busB (s : State) (p : Port) (x : PortSt) :
    (setPort s p x).busB = s.busB := by cases p <;> rfl
@[simp] theorem setPort_dsp (s : State) (p : Port) (x : PortSt) :
    (setPort s p x).dsp = s.dsp := by cases p <;> rfl
@[simp] theorem setPort_clock (s : State) (p : Port) (x : PortSt) :
    (setPort s p x).clock = s.clock := by cases p <;> rfl
@[simp] theorem setPort_log (s : State) (p : Port) (x : PortSt) :
    (setPort s p x).log = s.log := by cases p <;> rfl
@[simp] theorem setPort_wd (s : State) (p : Port) (x : PortSt) :
    (setPort s p x).wd = s.wd := by cases p <;> rfl
@[simp] theorem setPort_store (s : State) (p : Port) (x : PortSt) :
    (setPort s p x).store = s.store := by cases p <;> rfl
@[simp] theorem setPort_power (s : State) (p : Port) (x : PortSt) :
    (setPort s p x).power = s.power := by cases p <;> rfl
@[simp] theorem setPort_freeIdx (s : State) (p : Port) (x : PortSt) :
    (setPort s p x).freeIdx = s.freeIdx := by cases p <;> rfl

/-! ### modLine -/

@[simp] theorem modLine_pending (s : State) (l : Line) (f : BusLine → BusLine) :
    (modLine s l f).pending = s.pending := by cases l <;> rfl
@[simp] theorem modLine_tb (s : State) (l : Line) (f : BusLine → BusLine) :
    (modLine s l f).tb = s.tb := by cases l <;> rfl
@[simp] theorem modLine_eng (s : State) (l : Line) (f : BusLine → BusLine) :
    (modLine s l f).eng = s.eng := by cases l <;> rfl
@[simp] theorem modLine_sched (s : State) (l : Line) (f : BusLine → BusLine) :
    (modLine s l f).sched = s.sched := by cases l <;> rfl
@[simp] theorem modLine_prog (s : State) (l : Line) (f : BusLine → BusLine) :
    (modLine s l f).prog = s.prog := by cases l <;> rfl
@[simp] theorem modLine_pstate (s : State) (l : Line) (f : BusLine → BusLine) :
    (modLine s l f).pstate = s.pstate := by cases l <;> rfl
@[simp] theorem modLine_tasks (s : State) (l : Line) (f : BusLine → BusLine) :
    (modLine s l f).tasks = s.tasks := by cases l <;> rfl
@[simp] theorem modLine_code (s : State) (l : Line) (f : BusLine → BusLine) :
    (modLine s l f).code = s.code := by cases l <;> rfl
@[simp] theorem modLine_image (s : State) (l : Line) (f : BusLine → BusLine) :
    (modLine s l f).image = s.image := by cases l <;> rfl
@[simp] theorem modLine_sysPhase (s : State) (l : Line) (f : BusLine → BusLine) :
    (modLine s l f).sysPhase = s.sysPhase := by cases l <;> rfl
@[simp] theorem modLine_sealedImg (s : State) (l : Line) (f : BusLine → BusLine) :
    (modLine s l f).sealedImg = s.sealedImg := by cases l <;> rfl
@[simp] theorem modLine_emitted (s : State) (l : Line) (f : BusLine → BusLine) :
    (modLine s l f).emitted = s.emitted := by cases l <;> rfl
@[simp] theorem modLine_held (s : State) (l : Line) (f : BusLine → BusLine) :
    (modLine s l f).held = s.held := by cases l <;> rfl
@[simp] theorem modLine_sent (s : State) (l : Line) (f : BusLine → BusLine) :
    (modLine s l f).sent = s.sent := by cases l <;> rfl
@[simp] theorem modLine_forces (s : State) (l : Line) (f : BusLine → BusLine) :
    (modLine s l f).forces = s.forces := by cases l <;> rfl
@[simp] theorem modLine_charts (s : State) (l : Line) (f : BusLine → BusLine) :
    (modLine s l f).charts = s.charts := by cases l <;> rfl
@[simp] theorem modLine_ring (s : State) (l : Line) (f : BusLine → BusLine) :
    (modLine s l f).ring = s.ring := by cases l <;> rfl
@[simp] theorem modLine_pstore (s : State) (l : Line) (f : BusLine → BusLine) :
    (modLine s l f).pstore = s.pstore := by cases l <;> rfl
@[simp] theorem modLine_spread (s : State) (l : Line) (f : BusLine → BusLine) :
    (modLine s l f).spread = s.spread := by cases l <;> rfl
@[simp] theorem modLine_params (s : State) (l : Line) (f : BusLine → BusLine) :
    (modLine s l f).params = s.params := by cases l <;> rfl
@[simp] theorem modLine_host (s : State) (l : Line) (f : BusLine → BusLine) :
    (modLine s l f).host = s.host := by cases l <;> rfl
@[simp] theorem modLine_book (s : State) (l : Line) (f : BusLine → BusLine) :
    (modLine s l f).book = s.book := by cases l <;> rfl
@[simp] theorem modLine_twin (s : State) (l : Line) (f : BusLine → BusLine) :
    (modLine s l f).twin = s.twin := by cases l <;> rfl
@[simp] theorem modLine_field (s : State) (l : Line) (f : BusLine → BusLine) :
    (modLine s l f).field = s.field := by cases l <;> rfl
@[simp] theorem modLine_ana (s : State) (l : Line) (f : BusLine → BusLine) :
    (modLine s l f).ana = s.ana := by cases l <;> rfl
@[simp] theorem modLine_dsp (s : State) (l : Line) (f : BusLine → BusLine) :
    (modLine s l f).dsp = s.dsp := by cases l <;> rfl
@[simp] theorem modLine_clock (s : State) (l : Line) (f : BusLine → BusLine) :
    (modLine s l f).clock = s.clock := by cases l <;> rfl
@[simp] theorem modLine_log (s : State) (l : Line) (f : BusLine → BusLine) :
    (modLine s l f).log = s.log := by cases l <;> rfl
@[simp] theorem modLine_wd (s : State) (l : Line) (f : BusLine → BusLine) :
    (modLine s l f).wd = s.wd := by cases l <;> rfl
@[simp] theorem modLine_store (s : State) (l : Line) (f : BusLine → BusLine) :
    (modLine s l f).store = s.store := by cases l <;> rfl
@[simp] theorem modLine_power (s : State) (l : Line) (f : BusLine → BusLine) :
    (modLine s l f).power = s.power := by cases l <;> rfl
@[simp] theorem modLine_freeIdx (s : State) (l : Line) (f : BusLine → BusLine) :
    (modLine s l f).freeIdx = s.freeIdx := by cases l <;> rfl

/-! ### modRun -/

@[simp] theorem modRun_pending (s : State) (f : Scan → Scan) :
    (modRun s f).pending = s.pending := rfl
@[simp] theorem modRun_tb (s : State) (f : Scan → Scan) :
    (modRun s f).tb = s.tb := rfl
@[simp] theorem modRun_eng (s : State) (f : Scan → Scan) :
    (modRun s f).eng = s.eng := rfl
@[simp] theorem modRun_sched (s : State) (f : Scan → Scan) :
    (modRun s f).sched = { s.sched with running := s.sched.running.map f } := rfl
@[simp] theorem modRun_prog (s : State) (f : Scan → Scan) :
    (modRun s f).prog = s.prog := rfl
@[simp] theorem modRun_pstate (s : State) (f : Scan → Scan) :
    (modRun s f).pstate = s.pstate := rfl
@[simp] theorem modRun_tasks (s : State) (f : Scan → Scan) :
    (modRun s f).tasks = s.tasks := rfl
@[simp] theorem modRun_code (s : State) (f : Scan → Scan) :
    (modRun s f).code = s.code := rfl
@[simp] theorem modRun_image (s : State) (f : Scan → Scan) :
    (modRun s f).image = s.image := rfl
@[simp] theorem modRun_sysPhase (s : State) (f : Scan → Scan) :
    (modRun s f).sysPhase = s.sysPhase := rfl
@[simp] theorem modRun_sealedImg (s : State) (f : Scan → Scan) :
    (modRun s f).sealedImg = s.sealedImg := rfl
@[simp] theorem modRun_emitted (s : State) (f : Scan → Scan) :
    (modRun s f).emitted = s.emitted := rfl
@[simp] theorem modRun_held (s : State) (f : Scan → Scan) :
    (modRun s f).held = s.held := rfl
@[simp] theorem modRun_sent (s : State) (f : Scan → Scan) :
    (modRun s f).sent = s.sent := rfl
@[simp] theorem modRun_forces (s : State) (f : Scan → Scan) :
    (modRun s f).forces = s.forces := rfl
@[simp] theorem modRun_charts (s : State) (f : Scan → Scan) :
    (modRun s f).charts = s.charts := rfl
@[simp] theorem modRun_ring (s : State) (f : Scan → Scan) :
    (modRun s f).ring = s.ring := rfl
@[simp] theorem modRun_pstore (s : State) (f : Scan → Scan) :
    (modRun s f).pstore = s.pstore := rfl
@[simp] theorem modRun_spread (s : State) (f : Scan → Scan) :
    (modRun s f).spread = s.spread := rfl
@[simp] theorem modRun_params (s : State) (f : Scan → Scan) :
    (modRun s f).params = s.params := rfl
@[simp] theorem modRun_host (s : State) (f : Scan → Scan) :
    (modRun s f).host = s.host := rfl
@[simp] theorem modRun_book (s : State) (f : Scan → Scan) :
    (modRun s f).book = s.book := rfl
@[simp] theorem modRun_twin (s : State) (f : Scan → Scan) :
    (modRun s f).twin = s.twin := rfl
@[simp] theorem modRun_field (s : State) (f : Scan → Scan) :
    (modRun s f).field = s.field := rfl
@[simp] theorem modRun_ana (s : State) (f : Scan → Scan) :
    (modRun s f).ana = s.ana := rfl
@[simp] theorem modRun_busA (s : State) (f : Scan → Scan) :
    (modRun s f).busA = s.busA := rfl
@[simp] theorem modRun_busB (s : State) (f : Scan → Scan) :
    (modRun s f).busB = s.busB := rfl
@[simp] theorem modRun_dsp (s : State) (f : Scan → Scan) :
    (modRun s f).dsp = s.dsp := rfl
@[simp] theorem modRun_clock (s : State) (f : Scan → Scan) :
    (modRun s f).clock = s.clock := rfl
@[simp] theorem modRun_log (s : State) (f : Scan → Scan) :
    (modRun s f).log = s.log := rfl
@[simp] theorem modRun_wd (s : State) (f : Scan → Scan) :
    (modRun s f).wd = s.wd := rfl
@[simp] theorem modRun_store (s : State) (f : Scan → Scan) :
    (modRun s f).store = s.store := rfl
@[simp] theorem modRun_power (s : State) (f : Scan → Scan) :
    (modRun s f).power = s.power := rfl
@[simp] theorem modRun_freeIdx (s : State) (f : Scan → Scan) :
    (modRun s f).freeIdx = s.freeIdx := rfl

/-! ### setResult -/

@[simp] theorem setResult_pending (s : State) (c : CmdRef) (st r : BitVec 8) (d : BitVec 32) (p : List Byte) :
    (setResult s c st r d p).pending = s.pending := by unfold setResult; split <;> rfl
@[simp] theorem setResult_tb (s : State) (c : CmdRef) (st r : BitVec 8) (d : BitVec 32) (p : List Byte) :
    (setResult s c st r d p).tb = s.tb := by unfold setResult; split <;> rfl
@[simp] theorem setResult_eng (s : State) (c : CmdRef) (st r : BitVec 8) (d : BitVec 32) (p : List Byte) :
    (setResult s c st r d p).eng = s.eng := by unfold setResult; split <;> rfl
@[simp] theorem setResult_sched (s : State) (c : CmdRef) (st r : BitVec 8) (d : BitVec 32) (p : List Byte) :
    (setResult s c st r d p).sched = s.sched := by unfold setResult; split <;> rfl
@[simp] theorem setResult_prog (s : State) (c : CmdRef) (st r : BitVec 8) (d : BitVec 32) (p : List Byte) :
    (setResult s c st r d p).prog = s.prog := by unfold setResult; split <;> rfl
@[simp] theorem setResult_pstate (s : State) (c : CmdRef) (st r : BitVec 8) (d : BitVec 32) (p : List Byte) :
    (setResult s c st r d p).pstate = s.pstate := by unfold setResult; split <;> rfl
@[simp] theorem setResult_tasks (s : State) (c : CmdRef) (st r : BitVec 8) (d : BitVec 32) (p : List Byte) :
    (setResult s c st r d p).tasks = s.tasks := by unfold setResult; split <;> rfl
@[simp] theorem setResult_code (s : State) (c : CmdRef) (st r : BitVec 8) (d : BitVec 32) (p : List Byte) :
    (setResult s c st r d p).code = s.code := by unfold setResult; split <;> rfl
@[simp] theorem setResult_image (s : State) (c : CmdRef) (st r : BitVec 8) (d : BitVec 32) (p : List Byte) :
    (setResult s c st r d p).image = s.image := by unfold setResult; split <;> rfl
@[simp] theorem setResult_sysPhase (s : State) (c : CmdRef) (st r : BitVec 8) (d : BitVec 32) (p : List Byte) :
    (setResult s c st r d p).sysPhase = s.sysPhase := by unfold setResult; split <;> rfl
@[simp] theorem setResult_sealedImg (s : State) (c : CmdRef) (st r : BitVec 8) (d : BitVec 32) (p : List Byte) :
    (setResult s c st r d p).sealedImg = s.sealedImg := by unfold setResult; split <;> rfl
@[simp] theorem setResult_emitted (s : State) (c : CmdRef) (st r : BitVec 8) (d : BitVec 32) (p : List Byte) :
    (setResult s c st r d p).emitted = s.emitted := by unfold setResult; split <;> rfl
@[simp] theorem setResult_held (s : State) (c : CmdRef) (st r : BitVec 8) (d : BitVec 32) (p : List Byte) :
    (setResult s c st r d p).held = s.held := by unfold setResult; split <;> rfl
@[simp] theorem setResult_sent (s : State) (c : CmdRef) (st r : BitVec 8) (d : BitVec 32) (p : List Byte) :
    (setResult s c st r d p).sent = s.sent := by unfold setResult; split <;> rfl
@[simp] theorem setResult_forces (s : State) (c : CmdRef) (st r : BitVec 8) (d : BitVec 32) (p : List Byte) :
    (setResult s c st r d p).forces = s.forces := by unfold setResult; split <;> rfl
@[simp] theorem setResult_charts (s : State) (c : CmdRef) (st r : BitVec 8) (d : BitVec 32) (p : List Byte) :
    (setResult s c st r d p).charts = s.charts := by unfold setResult; split <;> rfl
@[simp] theorem setResult_ring (s : State) (c : CmdRef) (st r : BitVec 8) (d : BitVec 32) (p : List Byte) :
    (setResult s c st r d p).ring = s.ring := by unfold setResult; split <;> rfl
@[simp] theorem setResult_pstore (s : State) (c : CmdRef) (st r : BitVec 8) (d : BitVec 32) (p : List Byte) :
    (setResult s c st r d p).pstore = s.pstore := by unfold setResult; split <;> rfl
@[simp] theorem setResult_spread (s : State) (c : CmdRef) (st r : BitVec 8) (d : BitVec 32) (p : List Byte) :
    (setResult s c st r d p).spread = s.spread := by unfold setResult; split <;> rfl
@[simp] theorem setResult_params (s : State) (c : CmdRef) (st r : BitVec 8) (d : BitVec 32) (p : List Byte) :
    (setResult s c st r d p).params = s.params := by unfold setResult; split <;> rfl
@[simp] theorem setResult_book (s : State) (c : CmdRef) (st r : BitVec 8) (d : BitVec 32) (p : List Byte) :
    (setResult s c st r d p).book = s.book := by unfold setResult; split <;> rfl
@[simp] theorem setResult_twin (s : State) (c : CmdRef) (st r : BitVec 8) (d : BitVec 32) (p : List Byte) :
    (setResult s c st r d p).twin = s.twin := by unfold setResult; split <;> rfl
@[simp] theorem setResult_field (s : State) (c : CmdRef) (st r : BitVec 8) (d : BitVec 32) (p : List Byte) :
    (setResult s c st r d p).field = s.field := by unfold setResult; split <;> rfl
@[simp] theorem setResult_ana (s : State) (c : CmdRef) (st r : BitVec 8) (d : BitVec 32) (p : List Byte) :
    (setResult s c st r d p).ana = s.ana := by unfold setResult; split <;> rfl
@[simp] theorem setResult_busA (s : State) (c : CmdRef) (st r : BitVec 8) (d : BitVec 32) (p : List Byte) :
    (setResult s c st r d p).busA = s.busA := by unfold setResult; split <;> rfl
@[simp] theorem setResult_busB (s : State) (c : CmdRef) (st r : BitVec 8) (d : BitVec 32) (p : List Byte) :
    (setResult s c st r d p).busB = s.busB := by unfold setResult; split <;> rfl
@[simp] theorem setResult_dsp (s : State) (c : CmdRef) (st r : BitVec 8) (d : BitVec 32) (p : List Byte) :
    (setResult s c st r d p).dsp = s.dsp := by unfold setResult; split <;> rfl
@[simp] theorem setResult_clock (s : State) (c : CmdRef) (st r : BitVec 8) (d : BitVec 32) (p : List Byte) :
    (setResult s c st r d p).clock = s.clock := by unfold setResult; split <;> rfl
@[simp] theorem setResult_log (s : State) (c : CmdRef) (st r : BitVec 8) (d : BitVec 32) (p : List Byte) :
    (setResult s c st r d p).log = s.log := by unfold setResult; split <;> rfl
@[simp] theorem setResult_wd (s : State) (c : CmdRef) (st r : BitVec 8) (d : BitVec 32) (p : List Byte) :
    (setResult s c st r d p).wd = s.wd := by unfold setResult; split <;> rfl
@[simp] theorem setResult_store (s : State) (c : CmdRef) (st r : BitVec 8) (d : BitVec 32) (p : List Byte) :
    (setResult s c st r d p).store = s.store := by unfold setResult; split <;> rfl
@[simp] theorem setResult_power (s : State) (c : CmdRef) (st r : BitVec 8) (d : BitVec 32) (p : List Byte) :
    (setResult s c st r d p).power = s.power := by unfold setResult; split <;> rfl
@[simp] theorem setResult_freeIdx (s : State) (c : CmdRef) (st r : BitVec 8) (d : BitVec 32) (p : List Byte) :
    (setResult s c st r d p).freeIdx = s.freeIdx := by unfold setResult; split <;> rfl

/-! ### Ports and lines -/

/-- A port reads back what was put into it. -/
@[simp] theorem portSt_setPort (s : State) (p : Port) (x : PortSt) : portSt (setPort s p x) p = x := by cases p <;> rfl

/-- The other port stands. -/
theorem portSt_setPort_ne (s : State) {p q : Port} (x : PortSt) (h : q ≠ p) : portSt (setPort s p x) q = portSt s q := by
  cases p <;> cases q <;> first | rfl | exact absurd rfl h

/-- A port's registers are all that changes in the host part. -/
@[simp] theorem setPort_cmds (s : State) (p : Port) (x : PortSt) : (setPort s p x).host.cmds = s.host.cmds := by
  cases p <;> rfl
@[simp] theorem setPort_results (s : State) (p : Port) (x : PortSt) : (setPort s p x).host.results = s.host.results := by
  cases p <;> rfl
@[simp] theorem setPort_session (s : State) (p : Port) (x : PortSt) : (setPort s p x).host.session = s.host.session := by
  cases p <;> rfl

/-- A line reads back its change; the other line stands. -/
@[simp] theorem lineOfBus_modLine (s : State) (l : Line) (f : BusLine → BusLine) :
    lineOfBus (modLine s l f) l = f (lineOfBus s l) := by cases l <;> rfl
theorem lineOfBus_modLine_ne (s : State) {l j : Line} (f : BusLine → BusLine) (h : j ≠ l) :
    lineOfBus (modLine s l f) j = lineOfBus s j := by
  cases l <;> cases j <;> first | rfl | exact absurd rfl h

/-! ### The logbook -/

/-- A logbook record changes the logbook alone. -/
theorem logRaw_only (s : State) (type sev src : Nat) (body : List Byte) :
    { (logRaw s type sev src body).2 with log := s.log } = s := by
  unfold logRaw
  simp only
  split
  · rfl
  · split <;> rfl

theorem log_only (s : State) (type sev src subject code : Nat) (vals : List Byte) :
    { log s type sev src subject code vals with log := s.log } = s := logRaw_only ..

theorem of_log_only {s t : State} (h : { t with log := s.log } = s) : t = { s with log := t.log } := by
  rw [← h]

@[simp] theorem log_pending (s : State) (type sev src subject code : Nat) (vals : List Byte) :
    (log s type sev src subject code vals).pending = s.pending := by rw [of_log_only (log_only s type sev src subject code vals)]
@[simp] theorem log_tb (s : State) (type sev src subject code : Nat) (vals : List Byte) :
    (log s type sev src subject code vals).tb = s.tb := by rw [of_log_only (log_only s type sev src subject code vals)]
@[simp] theorem log_eng (s : State) (type sev src subject code : Nat) (vals : List Byte) :
    (log s type sev src subject code vals).eng = s.eng := by rw [of_log_only (log_only s type sev src subject code vals)]
@[simp] theorem log_sched (s : State) (type sev src subject code : Nat) (vals : List Byte) :
    (log s type sev src subject code vals).sched = s.sched := by rw [of_log_only (log_only s type sev src subject code vals)]
@[simp] theorem log_prog (s : State) (type sev src subject code : Nat) (vals : List Byte) :
    (log s type sev src subject code vals).prog = s.prog := by rw [of_log_only (log_only s type sev src subject code vals)]
@[simp] theorem log_pstate (s : State) (type sev src subject code : Nat) (vals : List Byte) :
    (log s type sev src subject code vals).pstate = s.pstate := by rw [of_log_only (log_only s type sev src subject code vals)]
@[simp] theorem log_tasks (s : State) (type sev src subject code : Nat) (vals : List Byte) :
    (log s type sev src subject code vals).tasks = s.tasks := by rw [of_log_only (log_only s type sev src subject code vals)]
@[simp] theorem log_code (s : State) (type sev src subject code : Nat) (vals : List Byte) :
    (log s type sev src subject code vals).code = s.code := by rw [of_log_only (log_only s type sev src subject code vals)]
@[simp] theorem log_image (s : State) (type sev src subject code : Nat) (vals : List Byte) :
    (log s type sev src subject code vals).image = s.image := by rw [of_log_only (log_only s type sev src subject code vals)]
@[simp] theorem log_sysPhase (s : State) (type sev src subject code : Nat) (vals : List Byte) :
    (log s type sev src subject code vals).sysPhase = s.sysPhase := by rw [of_log_only (log_only s type sev src subject code vals)]
@[simp] theorem log_sealedImg (s : State) (type sev src subject code : Nat) (vals : List Byte) :
    (log s type sev src subject code vals).sealedImg = s.sealedImg := by rw [of_log_only (log_only s type sev src subject code vals)]
@[simp] theorem log_emitted (s : State) (type sev src subject code : Nat) (vals : List Byte) :
    (log s type sev src subject code vals).emitted = s.emitted := by rw [of_log_only (log_only s type sev src subject code vals)]
@[simp] theorem log_held (s : State) (type sev src subject code : Nat) (vals : List Byte) :
    (log s type sev src subject code vals).held = s.held := by rw [of_log_only (log_only s type sev src subject code vals)]
@[simp] theorem log_sent (s : State) (type sev src subject code : Nat) (vals : List Byte) :
    (log s type sev src subject code vals).sent = s.sent := by rw [of_log_only (log_only s type sev src subject code vals)]
@[simp] theorem log_forces (s : State) (type sev src subject code : Nat) (vals : List Byte) :
    (log s type sev src subject code vals).forces = s.forces := by rw [of_log_only (log_only s type sev src subject code vals)]
@[simp] theorem log_charts (s : State) (type sev src subject code : Nat) (vals : List Byte) :
    (log s type sev src subject code vals).charts = s.charts := by rw [of_log_only (log_only s type sev src subject code vals)]
@[simp] theorem log_ring (s : State) (type sev src subject code : Nat) (vals : List Byte) :
    (log s type sev src subject code vals).ring = s.ring := by rw [of_log_only (log_only s type sev src subject code vals)]
@[simp] theorem log_pstore (s : State) (type sev src subject code : Nat) (vals : List Byte) :
    (log s type sev src subject code vals).pstore = s.pstore := by rw [of_log_only (log_only s type sev src subject code vals)]
@[simp] theorem log_spread (s : State) (type sev src subject code : Nat) (vals : List Byte) :
    (log s type sev src subject code vals).spread = s.spread := by rw [of_log_only (log_only s type sev src subject code vals)]
@[simp] theorem log_params (s : State) (type sev src subject code : Nat) (vals : List Byte) :
    (log s type sev src subject code vals).params = s.params := by rw [of_log_only (log_only s type sev src subject code vals)]
@[simp] theorem log_host (s : State) (type sev src subject code : Nat) (vals : List Byte) :
    (log s type sev src subject code vals).host = s.host := by rw [of_log_only (log_only s type sev src subject code vals)]
@[simp] theorem log_book (s : State) (type sev src subject code : Nat) (vals : List Byte) :
    (log s type sev src subject code vals).book = s.book := by rw [of_log_only (log_only s type sev src subject code vals)]
@[simp] theorem log_twin (s : State) (type sev src subject code : Nat) (vals : List Byte) :
    (log s type sev src subject code vals).twin = s.twin := by rw [of_log_only (log_only s type sev src subject code vals)]
@[simp] theorem log_field (s : State) (type sev src subject code : Nat) (vals : List Byte) :
    (log s type sev src subject code vals).field = s.field := by rw [of_log_only (log_only s type sev src subject code vals)]
@[simp] theorem log_ana (s : State) (type sev src subject code : Nat) (vals : List Byte) :
    (log s type sev src subject code vals).ana = s.ana := by rw [of_log_only (log_only s type sev src subject code vals)]
@[simp] theorem log_busA (s : State) (type sev src subject code : Nat) (vals : List Byte) :
    (log s type sev src subject code vals).busA = s.busA := by rw [of_log_only (log_only s type sev src subject code vals)]
@[simp] theorem log_busB (s : State) (type sev src subject code : Nat) (vals : List Byte) :
    (log s type sev src subject code vals).busB = s.busB := by rw [of_log_only (log_only s type sev src subject code vals)]
@[simp] theorem log_dsp (s : State) (type sev src subject code : Nat) (vals : List Byte) :
    (log s type sev src subject code vals).dsp = s.dsp := by rw [of_log_only (log_only s type sev src subject code vals)]
@[simp] theorem log_clock (s : State) (type sev src subject code : Nat) (vals : List Byte) :
    (log s type sev src subject code vals).clock = s.clock := by rw [of_log_only (log_only s type sev src subject code vals)]
@[simp] theorem log_wd (s : State) (type sev src subject code : Nat) (vals : List Byte) :
    (log s type sev src subject code vals).wd = s.wd := by rw [of_log_only (log_only s type sev src subject code vals)]
@[simp] theorem log_store (s : State) (type sev src subject code : Nat) (vals : List Byte) :
    (log s type sev src subject code vals).store = s.store := by rw [of_log_only (log_only s type sev src subject code vals)]
@[simp] theorem log_power (s : State) (type sev src subject code : Nat) (vals : List Byte) :
    (log s type sev src subject code vals).power = s.power := by rw [of_log_only (log_only s type sev src subject code vals)]
@[simp] theorem log_freeIdx (s : State) (type sev src subject code : Nat) (vals : List Byte) :
    (log s type sev src subject code vals).freeIdx = s.freeIdx := by rw [of_log_only (log_only s type sev src subject code vals)]

end Sys2Proof.Machine
end

