-- ==== Sys2Proof/Tests/Slice0.lean ====
section
/-!
SUPPORT. The model's own tests: ill-formed commands refused, words decoded by hand from the layouts of R200 and R238-R241, worked examples of the
spec, and for each statement a state and operands that meet its hypotheses.
-/
namespace Sys2Proof.Tests

open Sys2Proof Sys2Proof.Machine

/-! ### Ill-formed commands -/

def g0 : Guard := ⟨0, false⟩
def c0 : CmdRef := ⟨.spi, 7⟩

theorem test_wf_bit_40 : Instr.wf (.btst g0 1 2 40) = false := by decide
theorem test_wf_bset_40 : Instr.wf (.bset g0 1 2 40) = false := by decide
theorem test_wf_q_4 : Instr.wf (.qtst g0 1 2 4) = false := by decide
theorem test_wf_cc_10 : Instr.wf (.cmp g0 1 10 2 3) = false := by decide
theorem test_wf_fcc_6 : Instr.wf (.fcmp g0 1 6 2 3) = false := by decide
theorem test_wf_ld_point : Instr.wf (.ld g0 1 (.absPoint 4)) = false := by decide
theorem test_wf_region_3 : Instr.wf (.stAbs g0 ⟨3, 0⟩ 1) = false := by decide
theorem test_wf_empty_put : Instr.wf (.put 0 []) = false := by decide
theorem test_wf_short_query : Instr.wf (.admitQuery 0 c0 []) = false := by decide
theorem test_wf_share_256 : Instr.wf (.admitShares 0 c0 256 0 0 0) = false := by decide
theorem test_wf_space_256 : Instr.wf (.imageRead 0 c0 256 1 0) = false := by decide
theorem test_wf_write_address : Instr.wf (.imageWrite 0 c0 0 (2 ^ 32) []) = false := by decide
theorem test_wf_watch_timeout : Instr.wf (.imageWatch 0 c0 0 0 [] (2 ^ 32)) = false := by decide
theorem test_wf_pid : Instr.wf (.paramRead 0 c0 [65536]) = false := by decide
theorem test_wf_value : Instr.wf (.paramWrite 0 c0 [(0, 2 ^ 64)]) = false := by decide
theorem test_wf_slot : Instr.wf (.progLoad 0 c0 256) = false := by decide
theorem test_wf_segment : Instr.wf (.chartLoad 0 c0 ⟨256, 0, 0, [], false⟩) = false := by decide
theorem test_wf_stop_mode : Instr.wf (.progStop 0 c0 256) = false := by decide
theorem test_wf_force_first : Instr.wf (.forceList 0 c0 65536) = false := by decide
theorem test_wf_chart : Instr.wf (.chartSelect 0 c0 256) = false := by decide
theorem test_wf_dio : Instr.wf (.dioTest 0 c0 0 256) = false := by decide
theorem test_wf_ana : Instr.wf (.anaTrim 0 c0 256 0) = false := by decide
theorem test_wf_hart : Instr.wf (.anaHart 0 c0 256 []) = false := by decide
theorem test_wf_classical_9_bytes : Instr.wf (.busSend 0 c0 .a ⟨false, false, false, 1, [0, 0, 0, 0, 0, 0, 0, 0, 0]⟩) = false := by decide
theorem test_wf_base_id : Instr.wf (.busFrameReceived 0 .a ⟨false, false, false, 2048, []⟩) = false := by decide
theorem test_wf_sleep : Instr.wf (.busSleep 0 c0 .a 256) = false := by decide
theorem test_wf_display : Instr.wf (.dspWrite 0 c0 0 1 []) = false := by decide
theorem test_wf_mode : Instr.wf (.dspMode 0 c0 256) = false := by decide
theorem test_wf_year : Instr.wf (.timeSet 0 c0 65536 1 1 0 0 0) = false := by decide
theorem test_wf_shift : Instr.wf (.timeShift 0 c0 2147483648 64) = false := by decide
theorem test_wf_trim : Instr.wf (.timeTrim 0 c0 0 32768) = false := by decide
theorem test_wf_log_limit : Instr.wf (.logRead 0 c0 0 65536) = false := by decide
theorem test_wf_log_clear : Instr.wf (.logClear 0 c0 (2 ^ 32)) = false := by decide
theorem test_wf_mark : Instr.wf (.logMark 0 c0 65536 []) = false := by decide
theorem test_wf_hash : Instr.wf (.updBegin 0 c0 0 0 256 []) = false := by decide
theorem test_wf_chunk : Instr.wf (.updChunk 0 c0 (2 ^ 32) []) = false := by decide
theorem test_wf_nonce : Instr.wf (.secAttest 0 c0 []) = false := by decide
theorem test_wf_keys : Instr.wf (.secKeys 0 c0 256 0 []) = false := by decide
theorem test_wf_cert : Instr.wf (.secCert 0 c0 256) = false := by decide
theorem test_wf_unit : Instr.wf (.unitReset 0 c0 256) = false := by decide
theorem test_wf_reset_kind : Instr.wf (.devReset 0 c0 256) = false := by decide
theorem test_wf_config_kind : Instr.wf (.config 0 256 []) = false := by decide
theorem test_wf_config (bs : List Byte) (h : bs.length = 253) : Instr.wf (.config 0 1 bs) = false := by simp [Instr.wf, h]
theorem test_wf_tick_count : Instr.wf (.diSampleTick 0 0 []) = false := by decide

/-! ### Decoding (R200, R238-R242) -/

theorem test_decode_nop_p5_neg :
    decodeWord 0xB010000000 = some (.nop ⟨5, true⟩) := by decide
theorem test_decode_chg :
    decodeWord 0x0030000006 = some (.chg ⟨0, false⟩ 6) := by decide
theorem test_decode_chgr_h3 :
    decodeWord 0x0041800000 = some (.chgr ⟨0, false⟩ 3) := by decide
theorem test_decode_pand :
    decodeWord 0x41084A0000 = some (.pand ⟨2, false⟩ 4 ⟨1, false⟩ ⟨2, true⟩) := by decide
theorem test_decode_btst :
    decodeWord 0x016719C000 = some (.btst ⟨0, false⟩ 3 17 39) := by decide
theorem test_decode_pmovr :
    decodeWord 0x0184E80000 = some (.pmovr ⟨0, false⟩ 9 ⟨6, true⟩) := by decide
theorem test_decode_ldp_indexed :
    decodeWord 0x02023A3FFE = some (.ldp ⟨0, false⟩ 1 (.indexed 5 0x3FFE)) := by decide
theorem test_decode_stp_point :
    decodeWord 0x0219010007 = some (.stp ⟨0, false⟩ (.absPoint 0x10007) ⟨4, true⟩) := by decide
theorem test_decode_stpr_post :
    decodeWord 0x023F2E0000 = some (.stpr ⟨0, false⟩ (.indPost 7) 30) := by decide
theorem test_decode_add :
    decodeWord 0x330407E000 = some (.add ⟨1, true⟩ 8 1 31) := by decide
theorem test_decode_neg :
    decodeWord 0x03E10C0000 = some (.neg ⟨0, false⟩ 2 3) := by decide
theorem test_decode_addi_neg :
    decodeWord 0x04008BFFFF = some (.addi ⟨0, false⟩ 1 2 0x3FFFF) := by decide
theorem test_decode_bset :
    decodeWord 0x0470880027 = some (.bset ⟨0, false⟩ 1 2 39) := by decide
theorem test_decode_mov_imm :
    decodeWord 0x0512C00000 = some (.movImm ⟨0, false⟩ 5 0x400000) := by decide
theorem test_decode_movh :
    decodeWord 0x05228ABCDE = some (.movh ⟨0, false⟩ 5 0xABCDE) := by decide
theorem test_decode_sel :
    decodeWord 0x0530F88600 = some (.sel ⟨0, false⟩ 1 ⟨7, true⟩ 2 3) := by decide
theorem test_decode_setx :
    decodeWord 0x058C804002 = some (.setx ⟨0, false⟩ 6 0x804002) := by decide
theorem test_decode_movn :
    decodeWord 0x057CA80000 = some (.movn ⟨0, false⟩ 6 21) := by decide
theorem test_decode_rdx :
    decodeWord 0x05C2500000 = some (.rdx ⟨0, false⟩ 4 5) := by decide
theorem test_decode_cmp_row9 :
    decodeWord 0x06052A5800 = some (.cmp ⟨0, false⟩ 2 9 10 11) := by decide
theorem test_decode_cmpi :
    decodeWord 0x06148A8000 = some (.cmpi ⟨0, false⟩ 2 4 10 0x8000) := by decide
theorem test_decode_mul :
    decodeWord 0x0700886000 = some (.mul ⟨0, false⟩ 1 2 3) := by decide
theorem test_decode_mac :
    decodeWord 0x081CC70000 = some (.mac ⟨0, false⟩ 3 6 7) := by decide
theorem test_decode_macd :
    decodeWord 0x0835500000 = some (.macd ⟨0, false⟩ 1 2 5) := by decide
theorem test_decode_mva :
    decodeWord 0x08665F8000 = some (.mva ⟨0, false⟩ 12 2 63) := by decide
theorem test_decode_fdiv :
    decodeWord 0x0930886000 = some (.fdiv ⟨0, false⟩ 1 2 3) := by decide
theorem test_decode_ld_post :
    decodeWord 0x0A04A80000 = some (.ld ⟨0, false⟩ 9 (.indPost 4)) := by decide
theorem test_decode_ld_analogue :
    decodeWord 0x0A14A04002 = some (.ldAbs ⟨0, false⟩ 9 ⟨1, 0x4002⟩) := by decide
theorem test_decode_st_register :
    decodeWord 0x0A24C58000 = some (.st ⟨0, false⟩ (.viaReg 11) 9) := by decide
theorem test_decode_beq :
    decodeWord 0x0B160FFFFF = some (.beq ⟨0, false⟩ 3 0xFFFFF) := by decide
theorem test_decode_calli :
    decodeWord 0x0B50C00000 = some (.calli ⟨0, false⟩ 12) := by decide
theorem test_decode_ret :
    decodeWord 0xFB60000000 = some (.ret ⟨7, true⟩) := by decide
theorem test_decode_ctud :
    decodeWord 0x0C52AD37FF = some (.ctud ⟨0, false⟩ 1 ⟨2, true⟩ ⟨3, false⟩ ⟨4, true⟩ 5 1023) := by decide
theorem test_illegal_zero :
    decodeWord 0x0000000000 = none := by decide
theorem test_illegal_undefined_opcode :
    decodeWord 0x0C80000000 = none := by decide
theorem test_illegal_btst_bit_40 :
    decodeWord 0x01600A0000 = none := by decide
theorem test_illegal_qtst_q_4 :
    decodeWord 0x0170010000 = none := by decide
theorem test_illegal_mode_5 :
    decodeWord 0x0200500000 = none := by decide
theorem test_illegal_ld_point_mode :
    decodeWord 0x0A00000000 = none := by decide
theorem test_illegal_region_3 :
    decodeWord 0x0A10600000 = none := by decide
theorem test_illegal_cmp_cc_10 :
    decodeWord 0x0601400000 = none := by decide
theorem test_illegal_fcmp_cc_6 :
    decodeWord 0x0620C00000 = none := by decide
theorem test_illegal_bset_bit_40 :
    decodeWord 0x0470000028 = none := by decide

/-- The rung of the instruction reference, as the chapter writes its words. -/
theorem test_decode_rung :
    decodeWord 0x0202000004 = some (.ldp g0 1 (.absPoint 4)) ∧ decodeWord 0x0204000005 = some (.ldp g0 2 (.absPoint 5)) ∧
    decodeWord 0x0206005203 = some (.ldp g0 3 (.absPoint 0x5203)) ∧
    decodeWord 0x01084A0000 = some (.pand g0 4 ⟨1, false⟩ ⟨2, true⟩) ∧
    decodeWord 0x01090C0000 = some (.pand g0 4 ⟨4, false⟩ ⟨3, false⟩) ∧
    decodeWord 0x0218010007 = some (.stp g0 (.absPoint 0x10007) ⟨4, false⟩) := by decide

/-! ### Worked examples of the spec -/

/-- 05, after R217: modulo addressing with b1 = 0x1000, n1 = 5, m1 = 2 visits 0x1000, 0x1002, 0x1004, 0x1001, 0x1003, 0x1000. -/
def ringEngine : Engine :=
  { Engine.reset with
    b := vset Engine.reset.b 1 0x1000, n := vset Engine.reset.n 1 5, m := vset Engine.reset.m 1 2,
    x := vset Engine.reset.x 1 ⟨0x1000, 0⟩, amode := 4 }

def visits (k : BitVec 3) : Nat → Engine → List Nat
  | 0, _ => []
  | n + 1, e => (readX e k).val.toNat :: visits k n (postModify e k)

theorem test_modulo_addresses : visits 1 6 ringEngine = [0x1000, 0x1002, 0x1004, 0x1001, 0x1003, 0x1000] := by decide

/-- The same paragraph: bit-reversed mode with b2 = 0x2000, n2 = 8, m2 = 4. -/
def fftEngine : Engine :=
  { Engine.reset with
    b := vset Engine.reset.b 2 0x2000, n := vset Engine.reset.n 2 8, m := vset Engine.reset.m 2 4,
    x := vset Engine.reset.x 2 ⟨0x2000, 0⟩, amode := 0x20 }

theorem test_bit_reversed_addresses :
    visits 2 8 fftEngine = [0x2000, 0x2004, 0x2002, 0x2006, 0x2001, 0x2005, 0x2003, 0x2007] := by decide

/-- 15, the example of R592: query 0x12345678, mask 0x1000B, salt 0x5C3E19A7. -/
theorem test_watchdog_reply : wdExpected 0x12345678 0x1000B 0x5C3E19A7 = 0xFE8CD93D := by decide

/-- 14, the table of R552. -/
theorem test_calendar :
    secondsOf 2000 1 1 0 0 0 = 0 ∧ secondsOf 2000 3 1 0 0 0 = 5184000 ∧ secondsOf 2024 2 29 12 0 0 = 762523200 ∧
    secondsOf 2100 3 1 0 0 0 = 3160857600 ∧ secondsOf 2399 12 31 23 59 59 = 12622780799 := by decide

/-- 14, the example of R576: seconds 762,524,700 are 2024-02-29T12:25:00. -/
theorem test_calendar_back : calendarBytes 762524700 = [0xE8, 0x07, 2, 29, 12, 25, 0, 0] := by decide

/-- 10, the table of R413. -/
theorem test_input_thresholds :
    diCurrent 2 504 / 1000 = 1254 ∧ (diCurrent 2 288 + 500) / 1000 = 630 ∧ (diCurrent 3 770 + 500) / 1000 = 1215 ∧
    (diCurrent 3 440 + 500) / 1000 = 642 := by decide

/-- 05, the table of R223 and exact sums: 1.0 + 1.0 = 2.0, 1.0 × −2.0 = −2.0, 1.0 / 0 = +infinity and bad, 0 / 0 = NaN and bad. -/
theorem test_f40 :
    (fAdd 0x3F80000000 0x3F80000000).val = 0x4000000000 ∧ (fMul 0x3F80000000 0xC000000000).val = 0xC000000000 ∧
    (fDiv 0x3F80000000 0).val = 0x7F80000000 ∧ (fDiv 0x3F80000000 0).bad = true ∧ (fDiv 0 0).val = 0x7FC0000000 := by decide

/-! ### States that meet the hypotheses of the statements -/

def tTask : TaskDef :=
  { TaskDef.absent with present := true, entry := 0x100, p := 9600, d := 64, wstk := 4, emit := BitVec.allOnes 139 }

def tImg : ProgImage :=
  { programId := 5, hash := [], tasks := Vector.replicate 16 tTask, codeBase := 0, code := [], inits := [], dext := 0x1000,
    dspBase := none, minFw := 0 }

def tProg : Program := { slot := 0, img := tImg, tasks := tImg.tasks, edits := [], chained := [] }

def tScan : Scan :=
  { id := 1, task := 0, stamp := 0, promise := 200000, phase := .execute, dirty := [], shadowDirty := [], firstDiscard := none,
    pmovr := false, rtcAtAcquire := 0, flagsAtAcquire := 0, chgBefore := none, chgMine := none, isChange := false,
    isEdit := false, isHandover := false, sealBegun := 0, sealSeq := 0 }

def tChart : ChartImage :=
  { chart := 0, version := 1, programId := 5, taskMask := 1, params := [], treat := [], pages := [], hash := [] }

/-- A program of 16 tasks under a chart that enables task 0, running, hold-up energy at 33 V. -/
def tIdle : State :=
  let s := State.reset
  { s with
    prog := some tProg, pstate := .running,
    charts := { s.charts with slots := vset s.charts.slots 0 { ChartSlot.blank with state := .valid, image := some tChart } },
    power := { s.power with resumed := true, opened := true, mode := .run, paceGood := 1000, capMeasured := some 40000 } }

/-- A scan of task 0 in the given phase. -/
def inPhase (p : Phase) : State :=
  { tIdle with sched := { tIdle.sched with running := some { tScan with phase := p } } }

def tRun : State := inPhase .execute

def withEng (s : State) (f : Engine → Engine) : State := { s with eng := f s.eng }
def withPower (s : State) (f : Power → Power) : State := { s with power := f s.power }

def tBook : Booking :=
  { win := 0, cls := .s, sp := 0, slot := none, slice := none, mram := 0, twin := 0, bus := none, bound := 400, band := 0 }

/-- A command whose work runs, alone and unframed by any outcome. -/
def tCmd : Cmd :=
  { ref := c0, opcode := 0, cls := .s, token := 0, deadlineUs := 0, franked := false, packet := [], arrival := 0, promise := 400,
    phase := .started, stages := [stage 0], frankDone := false, bytes := 0, reservedBytes := 0, worked := false, sliced := false,
    bySession := false, begun := true, book := some tBook, later := [] }

def pend (s : State) : State := { s with host := { s.host with cmds := [tCmd], results := [] } }

/-- The state in which the work of the command runs. -/
def work (s : State) : State := workState (pend s) 0 c0 tCmd

/-- The premise of every statement of a command's work is met: the work of any row can run for the pending command. -/
theorem wit_works (s : State) (now : Tb) (i : Instr) (h : s.power.failing = false) : ready (pend s) now c0 i tCmd := by
  refine ⟨⟨rfl, ?_, by simp [tCmd], by simp [tCmd]⟩, by simp [cryptoStage, tCmd], by simp [stageDemand, tCmd, stage]⟩
  simp [mayWork, hasWork, pend, State.at, tCmd, stage, findResult, h]

/-- A stage that asks the crypto engine, and one with a flash operation. -/
def tCrypto : Cmd := { tCmd with opcode := 0x1101, stages := [stage 0, stage 0] }
def tErase : Cmd := { tCmd with opcode := 0x1003, stages := [{ stage 0 with energy := 800000 }] }
def pendOne (s : State) (x : Cmd) : State := { s with host := { s.host with cmds := [x], results := [] } }

theorem wit_cryptoAborts (i : Instr) :
    hasTurn (pendOne (withPower tIdle (fun p => { p with closed := [(8, 0, none, 0)] })) tCrypto) 0 c0 i tCrypto ∧
    cryptoStage tCrypto = true := by
  exact ⟨⟨rfl, by decide, by decide, by simp [tCrypto, tCmd]⟩, by decide⟩

theorem wit_lacksEnergy (i : Instr) :
    hasTurn (pendOne State.reset tErase) 0 c0 i tErase ∧ cryptoStage tErase = false ∧ stageDemand tErase ≠ 0 ∧
    energyFor ((pendOne State.reset tErase).at 0) (stageDemand tErase) = false := by
  exact ⟨⟨rfl, by decide, by decide, by simp [tErase, tCmd]⟩, by decide⟩

theorem wit_StepTakesFrontCommand : State.reset.pending = [] := rfl

/-- The premise of IntegerArithmeticResults, F40Results, MoveResults, AccumulatorResults and of every other statement of an
executed instruction: 24 beats fit, and the guard holds. -/
theorem wit_instruction : canRun tRun 24 = true ∧ guardMet tRun.eng g0 = true := by decide

/-- A NaN, zeros and infinities of both signs, and a value below −0. -/
theorem wit_F40Results :
    fIsNan 0x7FC0000000 = true ∧ fIsZero 0 = true ∧ fIsZero 0x8000000000 = true ∧ fSign 0x8000000000 = true ∧
    fIsInf 0x7F80000000 = true ∧ fIsInf 0xFF80000000 = true ∧ fSign 0xFF80000000 = true ∧
    (fIsZero 0xBF80000000 = false ∧ fIsInf 0xBF80000000 = false ∧ fIsNan 0xBF80000000 = false ∧ fSign 0xBF80000000 = true) := by
  decide

def r9 : State := withEng tRun (fun e => writeReg e 9 ⟨3, 0⟩)

theorem wit_MultiplyDivideResults :
    (readReg r9.eng 9).val ≠ 0 ∧ (readReg r9.eng 10).val = 0 ∧ canRun r9 24 = true ∧ guardMet r9.eng g0 = true := by decide

theorem wit_IntegerLogicAndShiftResults : (39#6 : BitVec 6) < 40#6 ∧ canRun tRun 1 = true := by decide

theorem wit_PredicateResults : (39#6 : BitVec 6) < 40#6 ∧ (3#6 : BitVec 6) < 4#6 ∧ (9#4 : BitVec 4) < 10#4 ∧
    (5#4 : BitVec 4) < 6#4 ∧ canRun tRun 4 = true := by decide

theorem wit_AddressRegisterAndDualFetchResults : tRun.sched.running = some tScan ∧ canRun tRun 3 = true := by decide

theorem wit_LoadResults :
    (Mode.ind 1).notPoint = true ∧ (⟨2, 0x1FFFFF⟩ : Abs).wf = true ∧
    reservedWord 0x80002A = true ∧ reservedWord 0x800029 = false ∧ reservedPoint 0x30 = true ∧ reservedPoint 0x2F = false ∧
    (sfRead tRun tScan 0).isSome = true ∧ sfRead tRun tScan 0xFFE = none := by decide

/-- A store of each outcome, at the limits of their ranges. -/
theorem wit_StoreResults :
    storeWordTo tRun 0 0 = .item ∧ storeWordTo tRun 0 0xFFF = .item ∧ storeWordTo tRun 0 0x1000 = .aerr ∧
    storeWordTo tRun 0 0x200000 = .aerr ∧ storeWordTo tRun 0 0x800000 = .aerr ∧ storeWordTo tRun 0 0x803FFF = .notOwned ∧ storeWordTo tRun 0 0x808000 = .aerr ∧
    storeWordTo tRun 0 0x804820 = .item ∧ storeWordTo tRun 0 0x804000 = .notOwned ∧
    storePointTo tRun 0 0 = .aerr ∧ storePointTo tRun 0 0x30 = .reservedInput ∧ storePointTo tRun 0 0xFFFF = .aerr ∧ storePointTo tRun 0 0x10000 = .item ∧ storePointTo State.reset 0 0x10000 = .notOwned ∧
    storePointTo tRun 0 0x1FFFF ≠ .aerr ∧ (taskDef tRun 0).d = 64 ∧
    storePointTo { tRun with image := [(0x10000, ⟨0, 0x08⟩)] } 0 0x10000 = .ignored := by decide

theorem wit_BranchResults : (readPred tRun.eng 0).v = true ∧ (readPred tRun.eng 1).v = false := by decide

/-- A call at depth 0 in a window whose next position is free, and one at the limit of WSTK. -/
def deep (d : Nat) : State := withEng tRun (fun e => { e with depth := d })

theorem wit_CallResults :
    tRun.sched.running = some tScan ∧ vget tRun.eng.owner 1 none = none ∧ 3 + 1 ≤ (taskDef tRun 0).wstk ∧
    (taskDef tRun 0).wstk < 4 + 1 ∧ (deep 4).eng.depth = 4 ∧
    vget (withEng tRun (fun e => { e with owner := vset e.owner 1 (some (3, 0)) })).eng.owner 1 none = some (3, 0) := by decide

theorem wit_ReturnResults :
    0 < (deep 1).eng.depth ∧ tRun.eng.depth = 0 ∧ retFills tRun 0 = false ∧
    retFills { deep 2 with tasks := vset tRun.tasks 0 { TaskRt.reset with stack := [Window.reset] } } 0 = true := by decide

theorem wit_BlockResults :
    (readX tRun.eng 1).val.toNat + 4 ≤ 0x200000 ∧
    (readX (withEng tRun (fun e => writeX e 1 ⟨0x1FFFFD, 0⟩)).eng 1).val.toNat + 4 > 0x200000 ∧
    (∀ w ∈ (evalTimer tonRule true qGood tRun tScan 0).words, storeWordTo tRun 0 (0 + w.idx) = .item) ∧
    (evalTimer tonRule true qGood tRun tScan 0).words.length ≤ (taskDef tRun 0).d := by decide

theorem wit_TimerAndCounterRules : (0 : Int) ≤ 5 ∧ (5 : Int) ≤ 5 ∧ i40Min ≤ i40Max := by decide

theorem wit_CircularStaysInBuffer : amodeOf ringEngine 1 = 1 ∧ 0 < (readN ringEngine 1).toNat ∧
    (readB ringEngine 1).toNat + (readN ringEngine 1).toNat ≤ 0x1000000 := by decide

theorem wit_SystemResults :
    tScan.phase = .execute ∧ tRun.charts.req = none ∧ (1#3 : BitVec 3).toNat ≠ tRun.charts.active ∧
    (0#3 : BitVec 3).toNat = tRun.charts.active ∧ (readReg tRun.eng 1).val.toNat ≤ 7 ∧
    (readReg (withEng tRun (fun e => writeReg e 1 ⟨7, 0⟩)).eng 1).val.toNat ≠ tRun.charts.active ∧
    7 < (readReg (withEng tRun (fun e => writeReg e 1 ⟨8, 0⟩)).eng 1).val.toNat ∧
    tagQ (readReg (withEng tRun (fun e => writeReg e 1 ⟨7, 6⟩)).eng 1).tag ≠ qGood := by decide

theorem wit_UnmetGuardOnlyWorsens : canRun tRun 1 = true ∧ guardMet tRun.eng ⟨0, true⟩ = false ∧
    regLoc tRun.eng 1 ≠ .nowhere ∧ regLoc tRun.eng 24 = .nowhere := by decide

theorem wit_OverrunRules :
    (taskDef tRun 0).p < (withEng tRun (fun e => { e with beats := 9600 })).eng.beats + 1 ∧
    (taskDef tRun 0).tolerant = false ∧ tRun.power.mode ≠ .halt ∧ tRun.sched.suspended = [] ∧ tRun.sched.waiting = [] ∧
    tRun.sched.stopping = none ∧ tRun.sched.handoverReq = none ∧ tRun.power.failing = false ∧
    tRun.power.stopping = false ∧
    (taskDef { tRun with prog := some { tProg with tasks := Vector.replicate 16 { tTask with tolerant := true } } } 0).tolerant
      = true := by decide

/-- Fixed-period tasks of 1 ms from task 1 on, and one of them released. -/
def tFixed : State :=
  { tRun with
    prog := some { tProg with tasks := vset (Vector.replicate 16 { tTask with fixed := true, periodMs := 1 }) 0 tTask },
    sched := { tRun.sched with waiting := [(1, 0, 400)] } }

theorem wit_PreemptionRules :
    tRun.sched.waiting = [] ∧ tFixed.sched.waiting = [(1, 0, 400)] ∧ tFixed.eng.ctrl.getLsbD 0 = false ∧
    (taskDef tFixed 1).fixed = true ∧ scansAllowed tFixed = true ∧ outranks tFixed 1 0 = true ∧
    outranks tFixed 2 1 = false := by decide

theorem wit_DecodeOfEncode : (Instr.nop g0).wf = true ∧ (encodeWord (.nop g0)).isSome = true ∧
    (Instr.ldAbs g0 1 ⟨1, 0x41⟩).wf = true ∧ (encodeWord (.ldAbs g0 1 ⟨1, 0x41⟩)).isSome = true := by decide

theorem wit_DecodedIsWellFormed : (decodeWord 0x10000000).isSome = true := by decide

def tSession : Session := { port := .spi, token := 9, lastPacket := 0, pending := [(0x0301, 1000)] }
def withHost (s : State) (f : HostSt → HostSt) : State := { s with host := f s.host }
def withSched (s : State) (f : Sched → Sched) : State := { s with sched := f s.sched }
def withTwin (s : State) (f : Twin → Twin) : State := { s with twin := f s.twin }
def held (s : State) : State := withHost s (fun h => { h with session := some tSession })
def closed (u : Nat) : State := withPower tIdle (fun p => { p with closed := [(u, 0, some c0, 0)] })

theorem ring_takes (n : Nat) (s : State) (h : s.ring.recs = []) : ringTakes s n := by
  intro r _
  unfold ringAppend
  simp only [h]
  split
  · rename_i x hx
    have := List.find?_some hx
    simp [liveLines] at this
  · exact ⟨_, rfl⟩

/-- The last stage of a command at every open collar, and one at a closed collar. -/
theorem wit_ReadingCommands : lastStage tCmd = true ∧ closingEntry (work tIdle) 7 = none ∧
    closingEntry (work tIdle) 8 = none := by decide

theorem wit_StatusBlocks : ∀ i, (chartSlot tIdle 0).image = some i → i.hash.length ≤ 64 := by
  intro i h
  have : i = tChart := by
    have e : (chartSlot tIdle 0).image = some tChart := by decide
    rw [e] at h; exact (Option.some.inj h).symm
  subst this; decide

def idleLimit : State := setPar (held State.reset) 0x0111 60

theorem wit_SessionCommands :
    (work State.reset).host.session = none ∧ (work idleLimit).host.session ≠ none ∧ (work idleLimit).host.closing = none ∧
    par idleLimit 0x0111 ≠ 0 ∧ sessionCmds idleLimit = [] ∧
    tSession.lastPacket + msToTb (1000 * par idleLimit 0x0111) ≤ 12000000000 ∧
    11999999999 < tSession.lastPacket + msToTb (1000 * par idleLimit 0x0111) ∧
    (withHost State.reset (fun h => { h with transfer := some ⟨0x0402, 0, 4, [], 0⟩ })).host.transfer.isSome = true := by decide

def ended (status : BitVec 8) (op : BitVec 16) : State :=
  withHost (pend State.reset) (fun h => { h with
    cmds := [{ tCmd with opcode := op }], results := [⟨c0, op, status, 0, 0, [], none⟩] })

theorem wit_CommandStageCompletes :
    (findCmd (ended stDone 0x0301) c0).isSome = true ∧ (findResult (ended stDone 0x0301) c0).isSome = true ∧
    (0x0301#16 : BitVec 16) ∉ [0x0001#16, 0x0002#16, 0x0004#16, 0x0303#16] ∧
    (findResult (ended stState 0x0301) c0).map (·.status) ≠ some stDone ∧ (ended stDone 1).host.session = none ∧
    tCmd.phase ≠ .waiting ∧ tCmd.phase ≠ .held ∧ tCmd.book ≠ none ∧ tCmd.promise < 401 ∧ 400 ≤ tCmd.promise ∧
    1 < { tCmd with stages := [stage 0, stage 0], later := [tBook] }.stages.length := by decide

/-- A whole packet whose CRC is right: version 1, 20 bytes, opcode 0x0101. -/
def rawPacket : List Byte := [0x5E, 0x10] ++ le 2 20 ++ le 2 0x0101 ++ le 2 1 ++ le 2 0 ++ le 2 0 ++ le 4 0
def goodPacket : List Byte := rawPacket ++ le 4 (crc32c rawPacket).toNat
def arrived (bs : List Byte) : State := withHost tIdle (fun h => { h with spi := { h.spi with rx := bs } })
def shown (bs : List Byte) : Packet := packetOf (bs.take (frameLen bs)) 4

theorem wit_PacketArrivals :
    portOpen (arrived goodPacket) = true ∧ portOpen State.reset = false ∧ 56 ≤ txFree (arrived goodPacket) .spi ∧
    txFree (withHost tIdle (fun h => { h with spi := { h.spi with reserved := 131072 } })) .spi < 56 ∧
    field goodPacket 0 1 = 0x5E ∧ field (goodPacket.set 0 0) 0 1 ≠ 0x5E ∧ frontWhole goodPacket = true ∧ frontWhole (goodPacket.take 19) = false ∧
    (shown goodPacket).length = goodPacket.length ∧ (shown goodPacket).version = 1 ∧
    field goodPacket 16 4 = (crc32c rawPacket).toNat ∧ (shown (goodPacket.set 1 0x20)).version ≠ 1 ∧
    (shown (goodPacket.set 2 19)).length ≠ ((goodPacket.set 2 19).take (frameLen (goodPacket.set 2 19))).length ∧
    field (goodPacket.set 19 (~~~ goodPacket.getD 19 0)) 16 4 ≠ (crc32c rawPacket).toNat := by decide +kernel

theorem wit_AdmissionCommands :
    findCmd (work tIdle) ⟨.spi, 8⟩ = none ∧ (findCmd (work tIdle) c0).any (·.begun) = true ∧
    energyFor (work tIdle) (eGroup 1) = true ∧
    { tCmd with phase := .held }.arrival + horizonTb ≤ 400000000 ∧ (∀ x ∈ (pend tIdle).host.cmds, x.phase ≠ .held ∧ (x.phase = .started → x.book ≠ none)) ∧
    tCmd.begun = true ∧ { tCmd with begun := false }.begun = false := by decide

theorem wit_PortTransactions :
    portOpen State.reset = false ∧ portOpen tIdle = true ∧ tIdle.host.spi.rx = [] ∧ goodPacket.take 15 ≠ [] ∧
    (goodPacket.take 15).head? = some 0x5E ∧ (goodPacket.take 15).length < 16 ∧ frontWhole tIdle.host.spi.rx = false := by decide

def tMaint (f : PortSt → PortSt) : State := withHost tIdle (fun h => { h with maint := f h.maint, baudNext := some 1 })
def baudReceipt : List Byte := mkReceipt 0 0x0303 stDone 0 7 0 0 0 []

theorem wit_MaintPort :
    20000000 ≤ 1000 * baudRate tIdle.host.baud ∧ 20 * baudRate tIdle.host.baud < 20000000 ∧
    frontWhole (tMaint id).host.maint.rx = false ∧ (tMaint (fun x => { x with discarding := true })).host.maint.discarding = true ∧
    field baudReceipt 4 2 = 0x0303 ∧ field baudReceipt 6 1 = 0 ∧ (tMaint id).host.baudNext = some 1 ∧
    field (mkReceipt 0 0x0301 stDone 0 7 0 0 0 []) 4 2 ≠ 0x0303 ∧
    (tMaint id).host.maint.lastByteAt + msToTb 10 ≤ 2000000 ∧ 1999999 < (tMaint id).host.maint.lastByteAt + msToTb 10 ∧
    frontWhole (goodPacket.take 16) = false ∧ 16 ≤ (goodPacket.take 16).length ∧ 28 ≤ txFree (tMaint id) .maint := by decide

theorem wit_ImageAccessQueued :
    (∀ w ∈ (work tIdle).sched.slotWork, slotRef w ≠ c0) ∧
    energyFor (work tIdle) (eGroup (groupPages [forceWrite ⟨0, 1, false⟩])) = true ∧
    energyFor (work State.reset) (eGroup (groupPages [forceWrite ⟨0, 1, false⟩])) = false := by decide

theorem wit_ImageSlotPerforms :
    tRun.sched.running ≠ none ∧ (slotIdle tIdle ∧ ringTakes tIdle 4) ∧ heldByForce tIdle 0x10000 = false ∧
    heldByForce { tIdle with image := [(0x10000, ⟨0, 0x08⟩)] } 0x10000 = true ∧
    (findCmd ((pend tIdle).at 0) c0).isSome = true ∧ forceActs tIdle 0 = true ∧ forceActs tIdle (wKey 0x800820) = false :=
  ⟨by decide, ⟨by unfold slotIdle; decide, ring_takes _ _ rfl⟩, by decide, by decide, by decide, by decide, by decide⟩

/-- A scan in EMIT whose end lets a SEAL value take effect. -/
def sealingScan : State :=
  { inPhase .emitting with params := { (inPhase .emitting).params with sealing := [(0x0301, some 600)] } }

theorem wit_WatchAndParameters :
    (work (held tIdle)).host.session = some tSession ∧ lastStage tCmd = true ∧
    (0x0301 : Nat) ∉ [0x0110, 0x1F01, 0x1F02] ∧ State.reset.pstate ≠ .running ∧
    (∀ p ∈ 0x0301 :: (sealingScan.params.sealing ++ sealingScan.params.sealWait).map (·.1), p ∉ [0x0110, 0x1F01, 0x1F02]) ∧
    (inPhase .seal).twin.role ≠ .watch ∧ sealingScan.params.sealing = [(0x0301, some 600)] ∧
    sealingScan.sched.running = some { tScan with phase := .emitting } ∧
    (inPhase .seal).pstate = .running ∧ (inPhase .seal).sched.running = some { tScan with phase := .seal } ∧
    (∀ x ∈ (pend tIdle).host.cmds, x.opcode ≠ 0x0303) ∧ (100 : Nat) ≤ 100 ∧ par tIdle 0x2010 ≠ 7 ∧ tCmd.franked = false := by decide

def slotOf (img : ProgImage) : State :=
  { tIdle with store := { tIdle.store with prog := vset tIdle.store.prog 0 { ProgSlot.blank with image := some img } } }
/-- An image that matches its hash; `tImg` does not. -/
def goodImg : ProgImage := { tImg with hash := imageHash [] }
def loadedSlot : State := slotOf goodImg

theorem wit_ProgramCommands :
    (progSlot (work tIdle) 0).image = none ∧ (progSlot (work loadedSlot) 0).image = some goodImg ∧
    imageHash (progSlot (work loadedSlot) 0).bytes = goodImg.hash ∧ (progSlot (work (slotOf tImg)) 0).image = some tImg ∧
    imageHash (progSlot (work (slotOf tImg)) 0).bytes ≠ tImg.hash ∧
    (work loadedSlot).forces.map (fun f => forceDelete (forceAddr f.addr)) = [] ∧ enabledTasks (work tIdle) ≠ [] ∧
    (work State.reset).pstate = .notLoaded ∧ (work { tIdle with pstate := .stopped }).pstate = .stopped ∧
    (work tIdle).field.safe = none ∧ (work tIdle).sched.stopMode ≠ .safe ∧ (work tIdle).field.lockout = false ∧
    noScan (work tRun) = false ∧ (work tRun).sched.stopping = none ∧ (work tIdle).charts.req = none := by decide +kernel

theorem wit_ProgramCommands_ring : ringTakes (work tIdle) (clearedLines (work tIdle)).length := ring_takes _ _ rfl

def tReq (k : Nat) : ChgReq := ⟨k, .chg, none, 0, true, false⟩
def asked (k : Nat) : State := { tIdle with charts := { tIdle.charts with req := some (tReq k) } }

theorem wit_ChartCommands :
    (work tIdle).charts.committed = none ∧ (work tIdle).charts.req = none ∧ 1 ≠ (work tIdle).charts.active ∧
    chartUsable (asked 0) 0 = true ∧ chartUsable (asked 1) 1 = false ∧ chartValuesPending (asked 1) = false ∧
    enabledTasks (asked 0) ≠ [] ∧ tCmd.stages.length = 1 ∧ (work tIdle).forces = [] ∧
    chartDeletes (work tIdle) 7 = [] ∧ (7 : Nat) < 8 ∧ (targetCopy (chartSlot (work tIdle) 7)).data = [] ∧
    chartSeq (chartSlot (work tIdle) 7) + 1 < 2 ^ 32 := by decide

theorem wit_ScanStarts :
    noScan tIdle = true ∧ tIdle.sched.waiting = [] ∧ scansAllowed tIdle = true ∧ noScan tRun = false ∧
    scansAllowed State.reset = false ∧ tIdle.sched.roundOpen = false ∧ tIdle.sched.roundReady ≤ 0 ∧ enabledFree tIdle ≠ [] ∧
    (withSched tIdle (fun x => { x with roundOpen := true, roundLeft := [0] })).sched.roundLeft = [0] ∧
    (taskRt tIdle 0).skipNext = false ∧
    (taskRt { tIdle with tasks := vset tIdle.tasks 0 { TaskRt.reset with skipNext := true } } 0).skipNext = true ∧
    enabledFree State.reset = [] := by decide

def tFixed0 : State := { tIdle with prog := some { tProg with tasks := Vector.replicate 16 { tTask with fixed := true, periodMs := 1 } } }

theorem wit_ScanStarts_fixed :
    (taskDef tFixed0 0).fixed = true ∧ 0 ∈ enabledTasks tFixed0 ∧ scansAllowed tFixed0 = true ∧ noScan tFixed0 = true ∧
    tFixed0.sched.waiting = [] ∧ 15 ∉ enabledTasks tFixed0 ∧ isRelease (tFixed0.at 0) 0 = true ∧
    isRelease ((withSched tFixed0 (fun x => { x with trun := some 0 })).at 200000) 0 = true ∧
    isRelease ((withSched tFixed0 (fun x => { x with trun := some 0 })).at 199999) 0 = false := by decide

theorem wit_ScanSealsAndEmits :
    (inPhase .seal).sched.running = some { tScan with phase := .seal } ∧
    (inPhase .waitAck).sched.running = some { tScan with phase := .waitAck } ∧
    (inPhase .waitAck).ring.lastSealTb + usToTb 3 ≤ 600 ∧ 599 < (inPhase .waitAck).ring.lastSealTb + usToTb 3 ∧
    (inPhase .emit).sched.running = some { tScan with phase := .emit } ∧ dspBase (inPhase .emit) = none ∧
    (inPhase .emitting).sched.suspended = [] ∧ (inPhase .emitting).sched.waiting = [] ∧
    (inPhase .emitting).sched.stopping = none ∧ (inPhase .emitting).pstate = .running ∧
    enabledTasks (inPhase .emitting) ≠ [] ∧ (inPhase .emitting).charts.req = none ∧
    (inPhase .emitting).sched.editPending = none ∧ (inPhase .emitting).power.stopping = false ∧
    ((inPhase .emitting).at 200000).tb ≤ tScan.promise ∧ tScan.promise < ((inPhase .emitting).at 200001).tb ∧
    (inPhase .emitting).ring.carryOwed < 4 * (390786 - retainedLines (inPhase .emitting)) := by decide

/-- A record of the given sequence in the ring. -/
def tRec (seq pos : Nat) (lines : List (Nat × RingLine)) : RingRec :=
  { recHeader tIdle .seal .none lines with seq, pos }

def tCarry : State :=
  { tIdle with ring := { tIdle.ring with
      recs := [tRec 0 1 [(0, .points 0 [])]], head := 1030, nextSeq := 1, tailLine := 1 } }

theorem wit_RingFaultsAndResume :
    carryDue tIdle = false ∧ carryDue tCarry = true ∧ energyFor tCarry 0 = true ∧ tCarry.sched.running = none ∧
    tIdle.power.mode ≠ .halt ∧ noScan tIdle = true ∧ twinOn tIdle = false ∧ State.reset.power.mode = .idle ∧
    State.reset.power.resumed = false ∧ eUse State.reset < eSeal ∧
    eSeal ≤ eUse (withPower State.reset (fun p => { p with capMeasured := some 40000 })) ∧
    par tIdle 0x0207 ≠ 0 ∧ par (setPar tIdle 0x0207 0) 0x0207 = 0 ∧ scansFollow tIdle = true ∧ scansFollow State.reset = false ∧
    tIdle.sched.sliceDone = false ∧ (pend tIdle).host.cmds.find? wantsSlice = none ∧
    wantsSlice { tCmd with stages := [{ stage 0 with slice := 1 }] } = true ∧
    (withPower tIdle (fun p => { p with mode := .halt, lastFault := 6 })).power.lastFault = 6 ∧
    (inPhase .seal).sched.running = some { tScan with phase := .seal } := by decide

def withField (s : State) (f : FieldSt → FieldSt) : State := { s with field := f s.field }
def latchedOut (d : DoCh) : State := withField tIdle (fun f => { f with do_ := vset f.do_ 0 d })

theorem wit_FieldInputsAndTests :
    tIdle.field.lockout = false ∧ condNow (doAt (latchedOut { DoCh.reset with on := true }) 0) .limit = false ∧
    condLooked (latchedOut { DoCh.reset with on := true }) 0 .limit = true ∧ gangLead tIdle 23 = 23 ∧
    (doAt (latchedOut { DoCh.reset with limit := true }) 0).limit = true ∧
    (doAt (latchedOut { DoCh.reset with openLoad := true }) 0).openLoad = true ∧
    closingEntry (work tIdle) 6 = none ∧ closingEntry (work (closed 6)) 6 = some (6, 0, some c0, 0) ∧
    (work tIdle).field.test = none ∧ latched (doAt (work tIdle) 0) = false ∧
    latched (doAt (work (latchedOut { DoCh.reset with limit := true })) 0) = true ∧ (work tIdle).field.cut = false ∧
    (47 : Nat) < 48 ∧ (withField tIdle (fun f => { f with test := some ⟨c0, 1, 47⟩ })).field.test = some ⟨c0, 1, 47⟩ ∧
    onGrid (tIdle.at (usToTb (par tIdle 0x1180))) 0 = true ∧ onGrid (tIdle.at 1) 0 = false := by decide

theorem wit_FieldSupplyAndSafeState :
    let cut := withField tIdle (fun f => { f with cut := true, cutSince := some 0, warnSince := some 0 })
    let turn := withField (latchedOut { DoCh.reset with cmd := true }) (fun f => { f with safeTurns := [0], turns := [0] })
    tIdle.field.lockout = false ∧ tIdle.field.warn = false ∧ tIdle.field.cut = false ∧ 0 + msToTb 1 ≤ 200000 ∧
    39999 < 0 + usToTb 200 ∧ 0 + usToTb 200 ≤ 40000 ∧ cut.field.cut = true ∧ cut.field.cutSince = some 0 ∧
    cut.field.warnSince = some 0 ∧ 0 + msToTb 10 ≤ 2000000 ∧ cut.field.safe = none ∧
    (withField tIdle (fun f => { f with lockout := true, vfld := 8501 })).field.vfld = 8501 ∧
    tIdle.field.linkAlive = true ∧ fieldLinkDown tIdle = false ∧ fieldLinkDown (closed 6) = true ∧
    (withField tIdle (fun f => { f with linkAlive := false })).field.linkAlive = false ∧
    (doAt turn 0).cmd = true ∧ latched (doAt turn 0) = false ∧ turn.field.safeTurns = [0] ∧ turn.field.turns = [0] ∧
    silencePaused tIdle = false ∧ silencePaused (withField tIdle (fun f => { f with pauseAt := some 0 })) = true := by decide

def withIsland (s : State) (f : Island → Island) : State := modAna s 0 f

theorem wit_AnalogueIsland :
    let out := withIsland (setPar tIdle (anaPid 0 0xC) 100) (fun a => { a with mode := .source, setPoint := 20000000, current := 4000000 })
    anaOn tIdle 0 = true ∧ anaOn (closed 0x10) 0 = false ∧ (island out 0).mode = .source ∧ (island out 0).pass = false ∧
    (island out 0).blendLeft = 0 ∧ anaP out 0 0xB = 0 ∧
    (0 : Int) < anaP out 0 0xC * updPeriod out 0 ∧
    (island out 0).current + anaP out 0 0xC * updPeriod out 0 < (island out 0).setPoint ∧
    bandStep (anaBounds tIdle) 2 250 = 2 ∧ bandStep (anaBounds tIdle) 2 1100 ≠ 2 ∧ (island tIdle 0).step = none ∧
    (island tIdle 0).open_ ≠ true ∧ isOutputMode (island out 0).mode = true ∧ (island out 0).comply = false ∧
    (island (withIsland tIdle (fun a => { a with mode := .changing })) 0).mode = .changing ∧
    stageFault (island out 0) (!(island out 0).stageB) = false ∧ (island out 0).trimRef = none ∧
    relayBlocked (island out 0) = false ∧ relayBlocked (island (withIsland out (fun a => { a with hartBusy := true })) 0) = true ∧
    latched { DoCh.reset with limit := true } = true ∧ latched DoCh.reset = false ∧
    stageFault (island (withIsland out (fun a => { a with faultB := true })) 0) true = true ∧
    anaP (setPar tIdle (anaPid 0 0xB) 1) 0 0xB ≠ 0 := by decide

theorem wit_RelayCalibration :
    calDue tIdle 0 = true ∧ calDue tIdle 7 = false ∧ (island tIdle 0).trimRef = none ∧ (island tIdle 0).relayRef = none ∧
    (island tIdle 0).band < 8 ∧ trimOk ⟨120000, 5000⟩ = true ∧ trimOk ⟨120001, 0⟩ = false ∧
    trimOk { Trim.zero with g := gainOf 0 20000000 } = true ∧ trimOk { Trim.zero with g := gainOf 0 19000000 } = false ∧
    (island tIdle 0).hartQueue = [] ∧ (island tIdle 0).aborts = 0 ∧ (island tIdle 0).failOver = false ∧
    closingEntry (work tIdle) 0x10 = none ∧ (island (work tIdle) 7).mode ≠ .changing ∧ (0x80#8 : BitVec 8).getLsbD 7 = true ∧
    (∀ j < 8, (island (work tIdle) j).relayRef = none) := by decide

/-- A frame with its check byte. -/
def framed (bs : List Byte) : List Byte := bs ++ [hartCheck bs]
def master : State :=
  withIsland (setPar tIdle (anaPid 0 0x14) 2) (fun a => { a with mode := .source, hartBusy := true, hartSent := framed [2, 0x80, 0, 0] })
def device : State := withIsland (setPar tIdle (anaPid 0 0x14) 1) (fun a => { a with mode := .sink })

theorem wit_HartTransactions :
    let a := island master 0
    let b := { a with hartSent := framed [2, 0x80, 3, 0] }
    hartMaster master 0 = true ∧ hartMaster tIdle 0 = false ∧ a.hartBusy = true ∧ a.hartTries < 2 ∧ a.step ≠ some 5 ∧
    replyValid a (framed [6, 0x80, 0, 2, 0, 0]) = true ∧ hartCmd (framed [6, 0x80, 0, 2, 0, 0]) = 0 ∧
    replyValid b (framed [6, 0x80, 3, 2, 0, 0]) = true ∧ (hartData (framed [6, 0x80, 3, 2, 0, 0])).getD 0 0 = 0 ∧
    hartOkFrame (framed [6, 0x80, 3, 2, 0, 0]) = true ∧ hartCount (framed [6, 0x80, 3, 2, 0, 0]) ≤ 32 ∧
    hartDeviceRole device 0 = true ∧ hartDeviceRole tIdle 0 = false ∧ addressed device 0 (framed [2, 0x81, 0, 0]) = true ∧
    (deviceReply device 0 (framed [2, 0x81, 0, 0])).isSome = true ∧ hartOkFrame [2, 0x80, 0, 0, 0] = false := by decide

def withLine (s : State) (f : BusLine → BusLine) : State := { s with busA := f s.busA }
/-- Line A as the Helm of an exchange with station 1 and a cycle under way. -/
def onBus : State :=
  withLine (setPar (setPar (setPar tIdle (busPid .a 0) 2) (stPid .a 1 0) 1) (stPid .a 1 1) 1)
    (fun b => { b with started := true, cycleRunning := true, cycle := 1 })
def tFrame (id : Nat) (data : List Byte) : CanFrame := ⟨false, true, true, id, data⟩
def tTx (ref : Option CmdRef) : TxFrame := ⟨tFrame 5 [], ref, false, false, false, 0, false, false⟩

theorem wit_BusCycleAndTransmission :
    lineUp onBus .a = true ∧ lineUp onBus .b = false ∧ drives onBus = true ∧ (lineOfBus onBus .a).sleepReq = none ∧
    lineReceives onBus .a = true ∧ busP onBus .a 0 = 2 ∧ vget (lineOfBus onBus .a).txb 0 none = none ∧
    (lineOfBus onBus .a).tec + 8 ≤ 255 ∧ 255 < 248 + 8 ∧ onBus.busA.tk ≤ onBus.busA.tk + psToTb (windows onBus .a).slot ∧
    vget (withLine onBus (fun b => { b with txb := vset b.txb 2 (some (tTx (some c0))) })).busA.txb 2 none = some (tTx (some c0)) ∧
    busP (setPar onBus (busPid .a 0xF) 1) .a 0xF = 1 ∧ busP (setPar onBus (busPid .a 0) 1) .a 0 ≠ 2 ∧
    cycleDue (onBus.at (usToTb (busP onBus .a 7))) .a = true ∧ cycleDue onBus .a = false ∧
    offered (withLine onBus (fun b => { b with txb := vset b.txb 2 (some (tTx (some c0))) })) .a = some 2 ∧
    offered onBus .a = none := by decide

theorem wit_BusCycle_slot :
    let s := setPar (withLine onBus (fun b => { b with outQueue := [tTx (some c0)] })) (busPid .a 0xB) 1
    let s := { s with book := { s.book with bus := [(.a, slotId 1 0, c0)] } }
    0 < (windows s .a).slots ∧ slotFrame s .a 0 = some (tTx (some c0)) ∧ slotFrame onBus .a 0 = none := by decide

theorem wit_BusReceptionAndStations :
    1 ∈ exchangeStations onBus .a ∧ inFrames (stMap onBus .a 1) ≠ [] ∧
    isExchange onBus .a 1 = true ∧ (List.range 32).find? (fun k => filterMatches onBus .a k (tFrame 5 [])) = none ∧
    (List.range 32).find? (fun k => filterMatches (setPar onBus (busPid .a 0x22) 2) .a k (tFrame 0 [])) = some 0 ∧
    field [(1 : Byte), 0, 0, 0] 0 1 % 16 = (lineOfBus onBus .a).cycle % 16 ∧
    (station onBus .a 1).publishedNow = false ∧ 0 ≤ (lineOfBus onBus .a).tk + psToTb (inputEnd onBus .a 1) ∧
    busP onBus .a 9 ≥ 1 ∧ busP (setPar onBus (busPid .a 0x23) 100) .a 0x23 ≠ 0 ∧ busP onBus .a 0x22 % 4 ≠ 1 ∧
    busP (setPar onBus (busPid .a 0x22) 1) .a 0x22 % 4 = 1 := by decide

theorem wit_BusServiceCommands :
    closingEntry (work onBus) (busUnit .a) = none ∧ (lineOfBus (work onBus) .a).busOff = false ∧
    (lineOfBus (work onBus) .a).asleep = false ∧ busP (work onBus) .a 0 = 2 ∧ drives (work onBus) = true ∧
    slotId (lineOfBus onBus .a).cycle 0 ≤ slotId 1 0 ∧
    (withLine onBus (fun b => { b with asleep := true })).busA.asleep = true ∧ dieRuns onBus = true ∧
    paired onBus = false ∧ paired (withTwin onBus (fun t => { t with role := .watch })) = true ∧
    heartbeatLine onBus .a = true ∧ heartbeatLine onBus .b = false ∧ twinSide onBus ≠ 1 := by decide

def withDsp (s : State) (f : Display → Display) : State := { s with dsp := f s.dsp }
def lcd : State := setPar tIdle 0x1C00 1
def bistable : State := setPar tIdle 0x1C00 2

theorem wit_DisplayRules :
    dspP lcd 0 = 1 ∧ dspAlive lcd = true ∧ lcd.power.mode ≠ .dormant ∧ updatesPossible bistable = true ∧
    updatesPossible lcd = false ∧ checksCrc (setPar lcd 0x1C03 0) = false ∧ checksCrc (setPar lcd 0x1C03 1) = true ∧
    updatePhases blankFrame (List.replicate 144 (1 : Byte)) (dspP bistable 1) ≠ [] ∧
    updatePhases blankFrame blankFrame (dspP bistable 1) = [] ∧ bistable.dsp.rewrite = none ∧
    energyFor bistable (updateNj (phasesMs bistable 2 (rewritePhases (dspP bistable 1)))) = true ∧
    checksCrack (setPar lcd 0x1C03 2) = true ∧ checksCrack (setPar lcd 0x1C03 1) = false ∧ lcd.dsp.crackBad < 2 ∧
    lcd.field.lockout = false ∧ lcd.dsp.crcBad = 0 := by decide

def withClock (s : State) (f : Clock → Clock) : State := { s with clock := f s.clock }

theorem wit_ClockTicksAndCommands :
    State.reset.clock.setPend = none ∧ State.reset.clock.shiftPend = none ∧ State.reset.clock.shiftLeft = 0 ∧
    State.reset.clock.corr = 0 ∧ State.reset.clock.sub < 32767 ∧ State.reset.clock.sec < lastSecond ∧
    State.reset.clock.shiftDiv ≤ 63 + 1 ∧ dieRuns State.reset = true ∧
    (findCmd ((pend tIdle).at 0) c0).isSome = true ∧
    energyFor (work tIdle) (eGroup (groupPages [])) = true ∧ energyFor (work State.reset) (eGroup (groupPages [])) = false ∧
    0 + par tIdle 0x1E00 ≤ 3600 ∧ State.reset.clock.shiftDone = false ∧ State.reset.clock.secondDue = false := by decide

theorem wit_TimeReferencesAndServo :
    let s := setPar (setPar onBus 0x1D00 2) (busPid .a 0xE) 1
    let ok := withLine s (fun b => { b with timeRefOk := true })
    busP s .a 0xE = 1 ∧ lineReceives s .a = true ∧ sourceLine s = some .a ∧ par (setPar s 0x1D04 1) 0x1D04 = 1 ∧
    refPresentNow s = false ∧ refPresentNow ok = true ∧ msToTb 2000 ≤ 400000000 ∧ 399999999 < msToTb 2000 ∧
    s.clock.winAt + s.clock.winLen ≤ 204800000000 ∧
    windowError (withClock ok (fun c => { c with winFirst := some (0, 0), winLast := some (32768, 32769) })) = some 488 ∧
    windowError ok = none := by decide

theorem wit_LogbookCommands :
    (work tIdle).log.next < 2 ^ 32 ∧ 0 < (work tIdle).log.credits ∧ tIdle.log.overwrite = none ∧
    tIdle.log.suppressed = [] ∧ dieRuns tIdle = true := by decide

def tUpdate : Update :=
  { firmware := false, delta := false, length := 4, hash := [], slot := 1, staged := [], applying := false, applied := false }

theorem wit_UpdatesAndKeys :
    let s := { tIdle with store := { tIdle.store with update := some tUpdate } }
    (work s).store.update = some tUpdate ∧ tUpdate.slot < 2 ∧ (stagedFail (work s) tUpdate).isSome = true ∧
    (work tIdle).store.update = none ∧ tIdle.store.runFw < 2 ∧ inTrial tIdle = false ∧
    inTrial { tIdle with store := { tIdle.store with trial := true, fw := vset tIdle.store.fw 0 { FwSlot.blank with desc := some (1, 0, []), builtWord := markerSet, trialWord := markerSet } } } = true ∧
    certAccepted (work tIdle) [] 4 = false ∧ field [(1 : Byte), 1] 0 1 = 1 ∧ field [(1 : Byte), 1] 1 1 = 1 ∧
    (∀ j ∈ testedUnits 3, closingEntry (work tIdle) j = none) := by decide +kernel

def withWd (s : State) (f : Watchdog → Watchdog) : State := { s with wd := f s.wd }

theorem wit_WatchdogRules :
    let e := withWd tRun (fun w => { w with engineMode := true })
    dieRuns e = true ∧ e.wd.state = .running ∧ e.wd.engineMode = true ∧ e.sched.running = some tScan ∧
    511999 < wdW e ∧ wdW e ≤ 512000 ∧ 1023999 < 1024 * e.wd.period ∧ ¬ (1024000 < 1024 * e.wd.period) ∧
    (withWd e (fun w => { w with mask := 65536 })).wd.mask.getLsbD 16 = true ∧ e.wd.lock = false ∧
    e.store.wdlockf = false ∧ (0x103E8#32 : BitVec 32).getLsbD 16 = true ∧ (0x103E8#32 : BitVec 32).toNat % 8192 = e.wd.period ∧
    (0x6D41#32 : BitVec 32).toNat % 65536 = 0x6D41 ∧ e.power.powerCycles ≠ 0 ∧
    (withWd e (fun w => { w with state := .disabled, lock := true })).wd.lock = true := by decide

theorem wit_PowerAndFaults :
    dieRuns tIdle = true ∧ dieRuns (withPower tIdle (fun p => { p with mode := .backup })) = false ∧
    100 * cAdm tIdle < 106 * (2 * cAdm tIdle) ∧ ¬ (100 * cAdm tIdle < 106 * (cAdm tIdle / 2)) ∧
    breached (inPhase .seal) = none ∧ breached ((inPhase .seal).at 200000) = some 0xFFFF0000 ∧
    tIdle.power.resumed = true ∧ tIdle.power.capMeasured.isSome = true ∧ State.reset.power.capMeasured = none ∧
    eSeal ≤ eUse tIdle ∧ eUse State.reset < eSeal ∧ usToTb 100 ≤ 20000 ∧ 19999 < usToTb 100 ∧
    energyFor tIdle 120000 = true ∧ freePages tIdle.pstore 0 ≥ par tIdle 0x0503 ∧
    tIdle.power.opened = true ∧ State.reset.power.opened = false ∧ State.reset.power.tbLocked = true ∧
    restartCondition tIdle = true ∧
    restartCondition (withPower tIdle (fun p => { p with mode := .halt, lastFault := 2, junction := 1201 })) = false ∧
    (tIdle.power.haltRestarts.filter (fun t => decide (tIdle.power.opsec < t + 3600))).length < par tIdle 0x0121 := by decide

theorem wit_StartsAndStops :
    let d := withPower State.reset (fun p => { p with mode := .dormant, wakeMask := 1 })
    d.power.wakeMask.getLsbD (wakeBit .wake) = true ∧ d.power.wakeMask.getLsbD (wakeBit .lineA) = false ∧
    (inPhase .seal).dsp.update = none ∧ (inPhase .seal).power.failing = false ∧
    (inPhase .seal).sched.running = some { tScan with phase := .seal } ∧
    (∀ x ∈ (pend tIdle).host.cmds, (x.opcode = 0x1301 ∨ x.opcode = 0x1303) → findResult (pend tIdle) x.ref = none) ∧
    (withHost tIdle (fun h => { h with resetWait := some 0 })).host.resetWait = some 0 ∧
    (withHost tIdle (fun h => { h with dormantWait := some 1 })).host.dormantWait = some 1 ∧
    { tIdle with pstate := .stopped }.pstate ≠ .running ∧ tIdle.sched.stopping = none ∧ tIdle.sched.handoverReq = none := by decide

theorem wit_UnitCollars :
    closingEntry (work (closed 3)) 3 = some (3, 0, some c0, 0) ∧ closingEntry (work tIdle) 3 = none ∧
    (work tIdle).twin.resyncRef ≠ some c0 ∧ resetUnit 3 = true ∧ resetUnit 8 = true ∧ resetUnit 9 = false ∧
    resetUnit 0x17 = true ∧ resetUnit 0x18 = false ∧
    ((withPower tIdle (fun p => { p with unitResets := [(3, 0), (3, 0)] })).power.unitResets.filter
      (fun x => decide (x.1 = 3 ∧ 0 < x.2 + msToTb 60000))).length = 2 ∧
    (findCmd ((pend (closed 3)).at 0) c0).isSome = true := by decide

def twin (role : Role) (p : PairState) (up : Bool) : State :=
  withTwin tIdle (fun t => { t with role, pair := p, lane0 := up, lane1 := up, helloDone := up })
def tHello (role term head : Nat) : HelloFrame := ⟨true, [], ownEpoch tIdle, 1, role, term, head, [], 0⟩

theorem wit_TwinLinkFrames :
    twinOn (twin .helm .inStep true) = true ∧ twinOn tIdle = false ∧ partnerOnBus (twin .helm .inStep true) = false ∧
    (tHello 1 0 0).ok = true ∧ (tHello 1 0 0).epoch ≤ ownEpoch (twin .watch .hello true) + 1 ∧
    ownEpoch (twin .watch .hello true) ≤ (tHello 1 0 0).epoch + 1 ∧ (tHello 1 0 0).side ≠ twinSide (twin .watch .hello true) ∧
    partnerOnBus (withTwin (twin .helm .inStep true) (fun t => { t with heardAny := (some 0, none) })) = true ∧
    (tRec 0 1 []).seq = (twin .watch .inStep true).ring.nextSeq ∧
    par (setPar (twin .helm .inStep true) 0x0603 0) 0x0603 = 0 ∧ (twin .helm .inStep true).twin.ackedSeq < 1 ∧
    1 < ({ twin .helm .inStep true with ring := { Ring.reset with nextSeq := 2 } } : State).ring.nextSeq ∧
    partnerGone (twin .helm .inStep false) = true ∧ partnerGone (twin .helm .inStep true) = false ∧
    (twin .helm .inStep true).twin.lastSent + usToTb 100 ≤ 20000 ∧ 19999 < (twin .helm .inStep true).twin.lastSent + usToTb 100 ∧
    field [(6 : Byte)] 0 1 = 6 := by decide

theorem wit_ChangeOfWatch :
    let acked := fun (s : State) => withTwin s (fun t => { t with hbAcked := (some 0, none) })
    let w := twin .watch .inStep false
    twinOn w = true ∧ w.twin.lastLive + watchTimeout w ≤ 300000 ∧ 299999 < w.twin.lastLive + watchTimeout w ∧
    linkUp (twin .watch .outOfStep true) = true ∧ linkUp w = false ∧ helmOnBus w = false ∧ ownAcked (acked w) 3 = true ∧
    ownAcked w 3 = false ∧ helmOnBus (withTwin w (fun t => { t with heardHelm := (some 0, none) })) = true ∧
    (twin .watch .inStep true).ring.nextSeq ≤ 0 ∧ msToTb (par w 0x0606) ≤ 100000000000 ∧
    (twin .starting .hello false).twin.role = .starting ∧ outranked w w.twin.heardStart.1 = false ∧
    (withTwin w (fun t => { t with safeAt := some 5 })).twin.safeAt = some 5 ∧ linkUp (work (twin .helm .outOfStep true)) = true ∧
    7 - { tCmd with stages := List.replicate 6 (stage 0) }.stages.length = 1 := by decide

theorem wit_FusesOnlyBurn : step { State.reset with pending := [.status 0] } = .next { State.reset with host := { State.reset.host with out := [0, 0, 0, 0] } } := by rfl

/-- A program container of 528 bytes: task 0, one word of code, a layout of 4,096 words. The owner key of slot 0 is chosen so that
both halves of the signature are the digest. -/
def tBody : List Byte :=
  le 32 0x20000000000000000000000030000021001025e1a ++
  List.replicate 224 0 ++
  le 48 0xa7ebfc140000000800000180000002049badd208000000100000017000000202bce76b05000000400000013000000201 ++
  le 24 0x400000040000025800000010000000100 ++
  List.replicate 40 0 ++
  le 24 0xffffffff0000100000000000100000000000000100000100

def tDigest : Nat := 0xd0758a2c31f5a1ede87515667278fe03844eb3d95ead6903729458f42a63455ccb14355550ee020dbca16f893b677a89ecd7c77d5a1bb1dfb429269267bcf779
def tImage : List Byte := tBody ++ [0, 0, 0, 0] ++ le 66 tDigest ++ le 66 tDigest

def tOwner : OwnerSlot :=
  ⟨1, List.replicate 28 0 ++ le 4 2 ++
    le 66 0x30e0376844caf01f9f7d6caf7d58ea2512303808d9067c6e45b17e00055ea614edb2bfde46fa84269185af7588efd03c1a9354c636833b74a9426b0990e9bb006b ++
    le 66 0xa898cef75c4b7333b43a07747727dced8f65cdb89aa532b444d1a428e1b9fede4fa92a93f29ea4f0ada1614f25baa0780dfd6453a4c8b50931732eff614e16d448⟩

def tStaged : Update := { tUpdate with length := 528, hash := sha512 tBody, staged := tImage }

def applying : State :=
  { tIdle with store := { tIdle.store with update := some tStaged, owners := vset tIdle.store.owners 0 tOwner } }

/-- The end of the last stage of each command of an update. -/
def ending (op : BitVec 16) : State :=
  { pendOne tIdle { tCmd with opcode := op } with
    store := { tIdle.store with update := some tUpdate },
    host := { tIdle.host with cmds := [{ tCmd with opcode := op }], results := [⟨c0, op, stDone, 0, 0, [], none⟩] } }

theorem wit_UpdatesAndKeys_ends :
    ∀ op ∈ [0x1003#16, 0x1004#16, 0x1005#16],
      endsStage (ending op) 400 c0 { tCmd with opcode := op } ⟨c0, op, stDone, 0, 0, [], none⟩ := by
  intro op h
  simp only [List.mem_cons, List.not_mem_nil, or_false] at h
  rcases h with rfl | rfl | rfl <;> exact ⟨rfl, by decide, by decide, by decide, by decide, by decide, rfl, rfl, rfl, rfl⟩

theorem wit_UpdatesAndKeys_apply :
    applyFail (work applying) tStaged true = none ∧ lastStage tCmd = true ∧ builtImage (work applying) tStaged = some tImage ∧
    (parseContainer tImage).isSome = true := by decide +kernel

end Sys2Proof.Tests
end

section
/-!
PROOFS. Accumulators: reading one after a write, what an instruction with an accumulator as its only destination leaves,
and the sum that a multiply-accumulate forms (R229, R230, R260).
-/
namespace Sys2Proof.Machine

open Sys2Proof

/-! ### One accumulator -/

@[simp] theorem readAcc_writeAcc_same (e : Engine) (a : BitVec 2) (r : Accum) : readAcc (writeAcc e a r) a = r := by
  have ha : a.toNat < 4 := a.isLt
  simp [readAcc, writeAcc, vget_vset, ha]

theorem readAcc_writeAcc_ne (e : Engine) {a b : BitVec 2} (r : Accum) (h : b ≠ a) :
    readAcc (writeAcc e a r) b = readAcc e b := by
  have hn : a.toNat ≠ b.toNat := fun hab => h (BitVec.eq_of_toNat_eq hab.symm)
  simp [readAcc, writeAcc, vget_vset, hn]

theorem writeAcc_writeAcc (e : Engine) (a : BitVec 2) (r r' : Accum) :
    writeAcc (writeAcc e a r) a r' = writeAcc e a r' := by
  have ha : a.toNat < 4 := a.isLt
  simp [writeAcc, vset, ha]

theorem readAcc_congr {x y : Engine} (h : x.a = y.a) (b : BitVec 2) : readAcc x b = readAcc y b := by
  simp only [readAcc, h]

/-- The pending load goes to a register or a predicate, so it commutes with a write of an accumulator. -/
theorem commitLoad_writeAcc (e : Engine) (a : BitVec 2) (r : Accum) :
    commitLoad (writeAcc e a r) = writeAcc (commitLoad e) a r := by
  have ha : (commitLoad e).a = e.a := by simpa only [restOf] using congrArg Engine.a (restOf_commitLoad e)
  unfold writeAcc
  rw [ha]
  cases hp : e.pend with
  | none => simp only [commitLoad, hp]
  | some p =>
    simp only [commitLoad, hp]
    cases p.dest with
    | home i => rfl
    | frame w i => rfl
    | pred i => simp only [putLoc]; split <;> rfl
    | nowhere => rfl

/-! ### An instruction whose destination is an accumulator -/

/-- The engine as it begins the instruction, with r in accumulator a, worsened by the guard's Q (R202). -/
def withAcc (e : Engine) (g : Guard) (a : BitVec 2) (r : Accum) : Engine :=
  writeAcc e a ⟨r.val, worsenTag r.tag (guardQ e g)⟩

theorem worsenDest_acc_writeAcc (q : Quality) (e : Engine) (a : BitVec 2) (r : Accum) :
    worsenDest q (writeAcc e a r) (.acc a) = writeAcc e a ⟨r.val, worsenTag r.tag q⟩ := by
  simp only [worsenDest, readAcc_writeAcc_same, writeAcc_writeAcc]

/-- The frame of a written accumulator: no home is a destination, and the rest of the engine is that of `withAcc`. -/
theorem leaves_writeAcc (e : Engine) (g : Guard) (cost : Nat) (a : BitVec 2) (r : Accum) (pc : CodeAddr) :
    let e' := leaves e g cost [.acc a] pc (writeAcc e a r)
    regFrame (withAcc e g a r) e' cost pc .nowhere ∧ e'.a = (withAcc e g a r).a ∧ e'.x = e.x ∧
      e'.status = e.status ||| pmovrBit e cost ∧ e'.fpstat = e.fpstat ∧ e'.errpc = e.errpc := by
  have hbody : [Dest.acc a].foldl (worsenDest (guardQ e g)) { commitLoad (writeAcc e a r) with pc := pc, pend := none } =
      { commitLoad (withAcc e g a r) with pc := pc, pend := none } := by
    rw [withAcc, commitLoad_writeAcc, commitLoad_writeAcc]
    exact worsenDest_acc_writeAcc (guardQ e g) { commitLoad e with pc := pc, pend := none } a r
  simp only [leaves, hbody]
  exact regFrame_of (withAcc e g a r) { commitLoad (withAcc e g a r) with pc := pc, pend := none } cost pc .nowhere
    e.status e.fpstat e.errpc (fun _ _ => rfl) (link_commitLoad _) rfl (restOf_pc (restOf_commitLoad _) pc)

/-- What an instruction that writes r to accumulator a leaves outside the registers and predicates. -/
def accWritten (e : Engine) (g : Guard) (a : BitVec 2) (cost : Nat) (r : Accum) (t : State) : Prop :=
  t.eng.x = e.x ∧ t.eng.m = e.m ∧ t.eng.b = e.b ∧ t.eng.n = e.n ∧
  t.eng.status = e.status ||| pmovrBit e cost ∧ t.eng.errpc = e.errpc ∧
  readAcc t.eng a = ⟨r.val, worsenTag r.tag (guardQ e g)⟩ ∧ ∀ b, b ≠ a → readAcc t.eng b = readAcc e b

/-- An instruction whose body writes one accumulator (R201, R202, R212). -/
theorem writesNone_of_writeAcc (s : State) (i : Instr) (g : Guard) (cost : Nat) (a : BitVec 2) (r : Engine → Accum)
    (hi : exec i s = engineRegs s g cost [.acc a] (fun e => writeAcc e a (r e))) :
    writesNone s i g cost (accWritten s.eng g a cost (r s.eng)) := by
  intro hc hg
  have hrun := hi.trans (engineRegs_met s g cost _ _ hc hg)
  obtain ⟨honly, heng⟩ :=
    notePmovr_only s (leaves s.eng g cost [.acc a] (s.eng.pc + 1) (writeAcc s.eng a (r s.eng)))
  refine ⟨_, hrun, honly, ?_⟩
  simp only [accWritten, heng]
  obtain ⟨hframe, hacc, hx, hstatus, hfpstat, herrpc⟩ := leaves_writeAcc s.eng g cost a (r s.eng) (s.eng.pc + 1)
  obtain ⟨hread, -, howner, hwpos, hdepth, hamode, -, hm, hb, hn, hpc, hbeats, hpend, -, -⟩ := hframe
  refine ⟨fun l => ?_, hpc, hbeats, hpend, hwpos, hdepth, howner, hamode, hfpstat, hx, hm, hb, hn, hstatus, herrpc, ?_,
    fun b hne => ?_⟩
  · by_cases hl : l = .nowhere
    · subst hl; rfl
    · rw [hread l hl]
      exact readLoc_commitLoad_congr _ s.eng l (readLoc_congr _ s.eng l rfl rfl rfl) rfl
  · exact (readAcc_congr hacc a).trans (readAcc_writeAcc_same ..)
  · exact (readAcc_congr hacc b).trans (readAcc_writeAcc_ne _ _ hne)

/-! ### The sum of a multiply-accumulate -/

/-- The nearest 88-bit value, and whether it is not the exact one (R260). -/
theorem clampAcc_eq (v : Int) :
    clampAcc v = (BitVec.ofInt 88 (max accMin (min v accMax)), decide (v < accMin ∨ accMax < v)) := by
  have hle : accMin ≤ accMax := by decide
  unfold clampAcc
  split
  next hhigh => simp [min_eq_right hhigh.le, max_eq_right hle, hhigh]
  next hhigh =>
    have hhigh := not_lt.mp hhigh
    split
    next hlow => simp [min_eq_left hhigh, max_eq_left hlow.le, hlow]
    next hlow => simp [max_eq_right (not_lt.mp hlow), hlow, hhigh]

/-- A start value with the product of two words added (sign 1) or subtracted (sign −1), unless a good 0 decides it. -/
def accSum (start : Accum) (x y : Tagged) (sign : Int) : Accum :=
  let v := start.val.toInt + sign * (x.val.toInt * y.val.toInt)
  if (tagQ x.tag = qGood ∧ x.val = 0) ∨ (tagQ y.tag = qGood ∧ y.val = 0) then start
  else ⟨BitVec.ofInt 88 (max accMin (min v accMax)),
    tagWorst [start.tag, tagWorst [x.tag, y.tag] false] (decide (v < accMin ∨ accMax < v))⟩

theorem decides_zero_iff (x : Tagged) : decides x.tag (decide (x.val = 0)) = true ↔ tagQ x.tag = qGood ∧ x.val = 0 := by
  simp [decides, and_comm]

theorem accStep_eq_accSum (start : Accum) (x y : Tagged) (neg : Bool) :
    accStep start x y neg = accSum start x y (if neg then -1 else 1) := by
  have hv : (if neg then start.val.toInt - x.val.toInt * y.val.toInt else start.val.toInt + x.val.toInt * y.val.toInt) =
      start.val.toInt + (if neg then -1 else 1) * (x.val.toInt * y.val.toInt) := by
    cases neg
    · simp
    · simp [sub_eq_add_neg]
  simp only [accStep, accSum, hv, clampAcc_eq, Bool.or_eq_true, decides_zero_iff]

/-- An instruction whose body adds a product to, or subtracts it from, a start value. -/
theorem writesNone_of_accStep (s : State) (i : Instr) (g : Guard) (cost : Nat) (a : BitVec 2) (rs1 rs2 : Reg)
    (start : Engine → Accum) (neg : Bool)
    (hi : exec i s = engineRegs s g cost [.acc a]
      (fun e => writeAcc e a (accStep (start e) (readReg e rs1) (readReg e rs2) neg))) :
    writesNone s i g cost (accWritten s.eng g a cost
      (accSum (start s.eng) (readReg s.eng rs1) (readReg s.eng rs2) (if neg then -1 else 1))) := by
  rw [← accStep_eq_accSum]
  exact writesNone_of_writeAcc s i g cost a _ hi

/-- Settles O9: each accumulator instruction is one write of its accumulator, with the sum that `accStep` forms, with 0, or
with the sign-extended word. -/
theorem accumulatorResults : Obligations.AccumulatorResults := by
  intro s g a rs1 rs2
  exact ⟨writesNone_of_accStep s _ g 3 a rs1 rs2 (fun _ => ⟨0, 0⟩) false rfl,
    writesNone_of_accStep s _ g 3 a rs1 rs2 (fun e => readAcc e a) false rfl,
    writesNone_of_accStep s _ g 3 a rs1 rs2 (fun e => readAcc e a) true rfl,
    writesNone_of_writeAcc s _ g 1 a (fun _ => ⟨0, 0⟩) rfl,
    writesNone_of_writeAcc s _ g 1 a (fun e => ⟨(readReg e rs1).val.signExtend 88, tagMove (readReg e rs1).tag⟩) rfl⟩

end Sys2Proof.Machine
end

section
/-!
PROOFS. Predicates: reading one after a write, what an instruction with a predicate as its only destination leaves, and the
qualities of predicate logic and compares (R203, R213, R224, R228, R229, R267).
-/
namespace Sys2Proof.Machine

open Sys2Proof

/-! ### One predicate -/

/-- V and Q put into a predicate's home. -/
def putPred (e : Engine) (pd : BitVec 3) (x : Pred) : Engine :=
  putLoc e (.pred pd.toNat) ⟨if x.v then 1 else 0, qTag x.q⟩

theorem pred_toNat_ne_zero {pd : BitVec 3} (h : pd ≠ 0) : pd.toNat ≠ 0 := fun h0 => h (BitVec.eq_of_toNat_eq h0)

theorem putPred_of_ne_zero (e : Engine) {pd : BitVec 3} (x : Pred) (h : pd ≠ 0) :
    putPred e pd x = { e with p := vset e.p pd.toNat x } := by
  have hv : (if x.v then (1 : Word) else 0).getLsbD 0 = x.v := by cases x.v <;> rfl
  simp only [putPred, putLoc, pred_toNat_ne_zero h, if_false, hv, qTag, tagQ_mkTag]

theorem writePred_of_ne_zero (e : Engine) {pd : BitVec 3} (v : Bool) (q : Quality) (h : pd ≠ 0) :
    writePred e pd v q = putPred (dropPend e (.pred pd.toNat)) pd ⟨v, q⟩ := by
  rw [putPred_of_ne_zero _ _ h]
  exact if_neg h

theorem worsenDest_pred (q : Quality) (e : Engine) (pd : BitVec 3) :
    worsenDest q e (.pred pd) = putPred e pd ⟨(readPred e pd).v, worseQ (readPred e pd).q q⟩ := by
  by_cases h : pd = 0
  · subst h; rfl
  · rw [putPred_of_ne_zero _ _ h]
    exact if_neg h

theorem readPred_congr {x y : Engine} (h : x.p = y.p) (pd : BitVec 3) : readPred x pd = readPred y pd := by
  simp only [readPred, h]

/-- p0 reads 1 with Q good (R203). -/
theorem readPred_zero (e : Engine) : readPred e 0 = ⟨true, qGood⟩ := rfl

theorem readPred_putPred_same (e : Engine) {pd : BitVec 3} (x : Pred) (h : pd ≠ 0) : readPred (putPred e pd x) pd = x := by
  have hpd : pd.toNat < 8 := pd.isLt
  rw [putPred_of_ne_zero _ _ h, readPred, if_neg h, vget_vset, if_pos ⟨rfl, hpd⟩]

theorem readPred_putLoc_ne (e : Engine) (l : LoadDest) (t : Tagged) (pd : BitVec 3) (h : l ≠ .pred pd.toNat) :
    readPred (putLoc e l t) pd = readPred e pd := by
  cases l with
  | home i => rfl
  | frame w i => rfl
  | nowhere => rfl
  | pred i =>
    have hi : i ≠ pd.toNat := fun hi => h (congrArg LoadDest.pred hi)
    simp only [putLoc]
    split
    · rfl
    · simp only [readPred, vget_vset, hi, false_and, if_false]

/-! ### A written predicate and the pending load (R212, R213) -/

/-- No load into a home that a result has displaced is pending any more. -/
theorem dest_ne_of_pend_dropPend (e : Engine) (l : LoadDest) (p) (h : (dropPend e l).pend = some p) : p.dest ≠ l := by
  unfold dropPend at h
  split at h
  next hnone => simp [hnone] at h
  next p' hsome =>
    split at h
    next => cases h
    next hne =>
      obtain rfl : p' = p := Option.some.inj (hsome.symm.trans h)
      exact hne

theorem readPred_commitLoad_of_pend_ne (e : Engine) (pd : BitVec 3) (h : ∀ p, e.pend = some p → p.dest ≠ .pred pd.toNat) :
    readPred (commitLoad e) pd = readPred e pd := by
  unfold commitLoad
  split
  next => rfl
  next p hp => rw [readPred_putLoc_ne _ _ _ _ (h p hp)]; rfl

theorem restOf_writePred (e : Engine) (pd : BitVec 3) (v : Bool) (q : Quality) : restOf (writePred e pd v q) = restOf e := by
  by_cases h : pd = 0
  · subst h; rfl
  · rw [writePred_of_ne_zero _ _ _ h, putPred, restOf_putLoc, restOf_dropPend]

theorem win_writePred (e : Engine) (pd : BitVec 3) (v : Bool) (q : Quality) : (writePred e pd v q).win = e.win := by
  by_cases h : pd = 0
  · subst h; rfl
  · rw [writePred_of_ne_zero _ _ _ h, putPred_of_ne_zero _ _ h]
    exact link_dropPend e _

theorem readLoc_commitLoad_writePred_ne (e : Engine) (pd : BitVec 3) (v : Bool) (q : Quality) (l : LoadDest)
    (hl : l ≠ .pred pd.toNat) : readLoc (commitLoad (writePred e pd v q)) l = readLoc (commitLoad e) l := by
  by_cases h : pd = 0
  · subst h; rfl
  · rw [writePred_of_ne_zero _ _ _ h, ← commitLoad_dropPend_ne e _ l hl]
    exact readLoc_commitLoad_congr _ _ l (readLoc_putLoc_ne _ _ _ _ hl) (pend_putLoc _ _ _)

/-- The instruction's own result stands, whatever load was pending into the predicate (R213). -/
theorem readPred_commitLoad_writePred (e : Engine) {pd : BitVec 3} (v : Bool) (q : Quality) (h : pd ≠ 0) :
    readPred (commitLoad (writePred e pd v q)) pd = ⟨v, q⟩ := by
  rw [writePred_of_ne_zero _ _ _ h, readPred_commitLoad_of_pend_ne, readPred_putPred_same _ _ h]
  intro p hp
  rw [putPred, pend_putLoc] at hp
  exact dest_ne_of_pend_dropPend e _ p hp

/-! ### An instruction whose destination is a predicate -/

/-- The engine after an instruction that writes one predicate: the frame, and the predicate worsened by the guard's Q. -/
theorem leaves_writePred (e : Engine) (g : Guard) (cost : Nat) (pd : BitVec 3) (v : Bool) (q : Quality) (pc : CodeAddr) :
    let e' := leaves e g cost [.pred pd] pc (writePred e pd v q)
    regFrame e e' cost pc (.pred pd.toNat) ∧ e'.a = e.a ∧ e'.x = e.x ∧
      readPred e' pd = (if pd = 0 then ⟨true, qGood⟩ else ⟨v, worseQ q (guardQ e g)⟩) ∧
      e'.status = e.status ||| pmovrBit e cost ∧ e'.fpstat = e.fpstat ∧ e'.errpc = e.errpc := by
  simp only [leaves, List.foldl, worsenDest_pred]
  generalize hc : ({ commitLoad (writePred e pd v q) with pc := pc, pend := none } : Engine) = c
  have hloc : ∀ l, readLoc c l = readLoc (commitLoad (writePred e pd v q)) l := fun l => by rw [← hc]; rfl
  have hpred : readPred c pd = readPred (commitLoad (writePred e pd v q)) pd := by rw [← hc]; rfl
  have hlink : ∀ w, (vget c.win w Window.reset).link = (vget e.win w Window.reset).link := fun w => by
    rw [← hc, ← win_writePred e pd v q]
    exact link_commitLoad _ w
  have hrest : restOf c = restOf { e with pc := pc } := by
    rw [← hc]
    exact restOf_pc ((restOf_commitLoad _).trans (restOf_writePred e pd v q)) pc
  generalize hx : (⟨(readPred c pd).v, worseQ (readPred c pd).q (guardQ e g)⟩ : Pred) = x
  obtain ⟨hframe, ha, hxreg, hstatus, hfpstat, herrpc⟩ :=
    regFrame_of e (putPred c pd x) cost pc (.pred pd.toNat) e.status e.fpstat e.errpc
      (fun l hl => by rw [putPred, readLoc_putLoc_ne _ _ _ _ hl, hloc, readLoc_commitLoad_writePred_ne _ _ _ _ _ hl])
      (fun w => by rw [putPred, link_putLoc, hlink])
      (by rw [putPred, pend_putLoc, ← hc])
      (by rw [putPred, restOf_putLoc, hrest])
  refine ⟨hframe, ha, hxreg, ?_, hstatus, hfpstat, herrpc⟩
  rw [readPred_congr (y := putPred c pd x) (by rw [countBeats_eq])]
  split
  next h0 => subst h0; exact readPred_zero _
  next h0 => rw [readPred_putPred_same _ _ h0, ← hx, hpred, readPred_commitLoad_writePred _ _ _ h0]

/-- An instruction whose body writes one predicate (R201, R202, R203, R213). -/
theorem writesPred_of (s : State) (i : Instr) (g : Guard) (cost : Nat) (pd : BitVec 3) (v : Bool) (q : Quality)
    (f : Engine → Engine) (hi : exec i s = engineRegs s g cost [.pred pd] f) (hf : f s.eng = writePred s.eng pd v q) :
    writesPred s i g cost pd v q := by
  intro hc hg
  have hleaves := leaves_writePred s.eng g cost pd v q (s.eng.pc + 1)
  rw [← hf] at hleaves
  obtain ⟨honly, heng⟩ := notePmovr_only s (leaves s.eng g cost [.pred pd] (s.eng.pc + 1) (f s.eng))
  refine ⟨_, hi.trans (engineRegs_met s g cost _ f hc hg), honly, ?_⟩
  rw [heng]
  exact hleaves

/-! ### Qualities under WORST and DOM -/

@[simp] theorem worseQ_good_left (q : Quality) : worseQ qGood q = q := by
  unfold worseQ qGood
  split
  next => rfl
  next h => exact BitVec.eq_of_toNat_eq (Nat.eq_zero_of_not_pos h).symm

@[simp] theorem worseQ_good_right (q : Quality) : worseQ q qGood = q := by simp [worseQ, qGood]

theorem tagQ_tagWorst_pair (a b : Byte) (l : Bool) : tagQ (tagWorst [a, b] l) = worseQ (tagQ a) (tagQ b) := by
  simp [tagWorst]

@[simp] theorem tagQ_tagDecided (ts : List Byte) : tagQ (tagDecided ts) = qGood := tagQ_mkTag ..

@[simp] theorem tagQ_srcTag (e : Engine) (p : PSrc) : tagQ (srcTag e p) = srcQ e p := tagQ_mkTag ..

/-- The quality of predicate logic (R229): good when a good source with the deciding value d decides, else the worse. -/
def domQ (e : Engine) (p1 p2 : PSrc) (d : Bool) : Quality :=
  if (srcVal e p1 = d ∧ srcQ e p1 = qGood) ∨ (srcVal e p2 = d ∧ srcQ e p2 = qGood) then qGood
  else worseQ (srcQ e p1) (srcQ e p2)

theorem predDomQ_eq_domQ (e : Engine) (p1 p2 : PSrc) (d : Bool) : predDomQ e p1 p2 d = domQ e p1 p2 d := by
  by_cases h1 : srcVal e p1 = d ∧ srcQ e p1 = qGood
  · simp [predDomQ, domQ, tagDom, h1]
  · by_cases h2 : srcVal e p2 = d ∧ srcQ e p2 = qGood
    · simp [predDomQ, domQ, tagDom, h2]
    · simp [predDomQ, domQ, tagDom, h1, h2, tagQ_tagWorst_pair]

/-- Predicate logic that one of its sources can decide. -/
theorem writesPred_dom (s : State) (i : Instr) (g : Guard) (pd : BitVec 3) (p1 p2 : PSrc) (v : Engine → Bool) (d : Bool)
    (hi : exec i s = engineRegs s g 1 [.pred pd] (fun e => writePred e pd (v e) (predDomQ e p1 p2 d))) :
    writesPred s i g 1 pd (v s.eng) (domQ s.eng p1 p2 d) :=
  writesPred_of s i g 1 pd _ _ _ hi (by rw [predDomQ_eq_domQ])

/-! ### Bit and quality tests, compares -/

theorem writesPred_btst (s : State) (g : Guard) (pd : BitVec 3) (rs : Reg) (f : BitVec 6) (hf : f < 40#6) :
    writesPred s (.btst g pd rs f) g 1 pd ((readReg s.eng rs).val.getLsbD f.toNat) (tagQ (readReg s.eng rs).tag) := by
  have hlegal : ¬ 39 < f.toNat := by bv_omega
  exact writesPred_of s _ g 1 pd _ _ _ (if_neg hlegal) rfl

theorem writesPred_qtst (s : State) (g : Guard) (pd : BitVec 3) (rs : Reg) (f : BitVec 6) (hf : f < 4#6) :
    writesPred s (.qtst g pd rs f) g 1 pd (decide (f.toNat ≤ (tagQ (readReg s.eng rs).tag).toNat)) qGood := by
  have hlegal : ¬ 3 < f.toNat := by bv_omega
  exact writesPred_of s _ g 1 pd _ _ _ (if_neg hlegal) rfl

theorem compare_eq (e : Engine) (pd : BitVec 3) (cc : BitVec 4) (x y : Tagged) :
    compare e pd cc x y = writePred e pd (ccHolds cc.toNat x.val y.val) (worseQ (tagQ x.tag) (tagQ y.tag)) := by
  rw [compare, tagQ_tagWorst_pair]

theorem writesPred_cmp (s : State) (g : Guard) (pd : BitVec 3) (cc : BitVec 4) (rs1 rs2 : Reg) (hcc : cc < 10#4) :
    writesPred s (.cmp g pd cc rs1 rs2) g 1 pd (ccHolds cc.toNat (readReg s.eng rs1).val (readReg s.eng rs2).val)
      (worseQ (tagQ (readReg s.eng rs1).tag) (tagQ (readReg s.eng rs2).tag)) := by
  have hlegal : ¬ 9 < cc.toNat := by bv_omega
  exact writesPred_of s _ g 1 pd _ _ _ (if_neg hlegal) (compare_eq ..)

/-- The immediate of a compare is good, so the register alone gives the quality. -/
theorem writesPred_cmpi (s : State) (g : Guard) (pd : BitVec 3) (cc : BitVec 4) (rs1 : Reg) (imm : BitVec 16)
    (hcc : cc < 10#4) :
    writesPred s (.cmpi g pd cc rs1 imm) g 1 pd (ccHolds cc.toNat (readReg s.eng rs1).val (imm.signExtend 40))
      (tagQ (readReg s.eng rs1).tag) := by
  have hlegal : ¬ 9 < cc.toNat := by bv_omega
  have hgood : worseQ (tagQ (readReg s.eng rs1).tag) (tagQ 0) = tagQ (readReg s.eng rs1).tag := worseQ_good_right _
  exact writesPred_of s _ g 1 pd _ _ _ (if_neg hlegal) (by rw [compare_eq, hgood])

/-- An F40 comparison has no answer exactly when a NaN is involved (R224). -/
theorem isNone_fCmp (cc : Nat) (a b : Word) : (fCmp cc a b).isNone = (fIsNan a || fIsNan b) := by
  unfold fCmp
  split
  next hnan => simp [hnan]
  next hnan =>
    rw [Bool.not_eq_true] at hnan
    rw [hnan]
    dsimp only
    split <;> rfl

theorem writesPred_fcmp (s : State) (g : Guard) (pd : BitVec 3) (cc : BitVec 4) (rs1 rs2 : Reg) (hcc : cc < 6#4) :
    writesPred s (.fcmp g pd cc rs1 rs2) g 4 pd
      ((fCmp cc.toNat (readReg s.eng rs1).val (readReg s.eng rs2).val).getD false)
      (if fIsNan (readReg s.eng rs1).val || fIsNan (readReg s.eng rs2).val then qBad
        else worseQ (tagQ (readReg s.eng rs1).tag) (tagQ (readReg s.eng rs2).tag)) := by
  have hlegal : ¬ 5 < cc.toNat := by bv_omega
  refine writesPred_of s _ g 4 pd _ _ _ (if_neg hlegal) ?_
  rw [← isNone_fCmp cc.toNat, ← tagQ_tagWorst_pair _ _ false]
  cases hcmp : fCmp cc.toNat (readReg s.eng rs1).val (readReg s.eng rs2).val with
  | none => simp [hcmp]
  | some v => simp [hcmp]

/-- The condition codes of integer compares: equality, the signed and the unsigned orders (R267). -/
theorem ccHolds_orders (a b : Word) :
    [ccHolds 0 a b, ccHolds 1 a b, ccHolds 2 a b, ccHolds 3 a b, ccHolds 4 a b, ccHolds 5 a b, ccHolds 6 a b, ccHolds 7 a b,
      ccHolds 8 a b, ccHolds 9 a b] =
    [a == b, a != b, a.slt b, a.sle b, b.slt a, b.sle a, a.ult b, a.ule b, b.ult a, b.ule a] := by
  have hne : ccHolds 1 a b = (a != b) := decide_not
  rw [hne]
  rfl

/-- Settles O7: each of these instructions is one write of its predicate, with the value and the quality that its body
computes; the condition codes are the orders of bit vectors. -/
theorem predicateResults : Obligations.PredicateResults := by
  refine ⟨?_, ccHolds_orders⟩
  intro s g pd p1 p2 rs1 rs2 f cc imm
  exact ⟨writesPred_dom s _ g pd p1 p2 (fun e => srcVal e p1 && srcVal e p2) false rfl,
    writesPred_dom s _ g pd p1 p2 (fun e => !(srcVal e p1 && srcVal e p2)) false rfl,
    writesPred_dom s _ g pd p1 p2 (fun e => srcVal e p1 || srcVal e p2) true rfl,
    writesPred_dom s _ g pd p1 p2 (fun e => !(srcVal e p1 || srcVal e p2)) true rfl,
    writesPred_of s _ g 1 pd _ _ (fun e => writePred e pd (srcVal e p1 ^^ srcVal e p2) (worseQ (srcQ e p1) (srcQ e p2))) rfl rfl,
    writesPred_of s _ g 1 pd _ _ (fun e => writePred e pd (srcVal e p1) (srcQ e p1)) rfl rfl,
    writesPred_btst s g pd rs1 f,
    writesPred_qtst s g pd rs1 f,
    fun hcc => ⟨writesPred_cmp s g pd cc rs1 rs2 hcc, writesPred_cmpi s g pd cc rs1 imm hcc⟩,
    writesPred_fcmp s g pd cc rs1 rs2⟩

end Sys2Proof.Machine
end

section
/-!
PROOFS. The start of the logic die after a watchdog reset: which steps keep what R602 and R603 leave behind (R340, R602, R603).
-/
namespace Sys2Proof.Machine

open Sys2Proof

/-- What each step of a fold keeps, the fold keeps. -/
theorem foldl_keeps {α β : Type} (view : State → β) (f : State → α → State) (h : ∀ s a, view (f s a) = view s) (l : List α)
    (s : State) : view (l.foldl f s) = view s := by
  induction l generalizing s with
  | nil => rfl
  | cons a l ih => exact (ih (f s a)).trans (h s a)

/-! ### What a start after a watchdog reset keeps -/

/-- The instant, the reset kind, that the state is not yet resumed, the watchdog's count and last record, and the safe state of
the field sequencer: what a watchdog reset leaves. -/
def resetView (s : State) : Tb × Nat × Bool × (Nat × Nat × BitVec 17) × Option (Nat × Nat) :=
  (s.tb, s.power.resetKind, s.power.resumed, (s.wd.count, s.wd.lastRes, s.wd.observed), s.field.safe)

theorem resetView_foldl {α : Type} (f : State → α → State) (h : ∀ s a, resetView (f s a) = resetView s) (l : List α)
    (s : State) : resetView (l.foldl f s) = resetView s := foldl_keeps resetView f h l s

@[simp] theorem resetView_log (s : State) (type sev src subject code : Nat) (vals : List Byte) :
    resetView (log s type sev src subject code vals) = resetView s := by simp [resetView]

theorem resetView_setDsp (s : State) (d : Display) : resetView { s with dsp := d } = resetView s := rfl
theorem resetView_setBook (s : State) (b : Bookings) : resetView { s with book := b } = resetView s := rfl
theorem resetView_setOpsec (s : State) (f : Power → Nat) :
    resetView (modPower s (fun q => { q with opsec := f q })) = resetView s := rfl
@[simp] theorem resetView_modStore (s : State) (f : Store → Store) : resetView (modStore s f) = resetView s := rfl
@[simp] theorem resetView_modClock (s : State) (f : Clock → Clock) : resetView (modClock s f) = resetView s := rfl

/-! ### Firmware, updates and keys -/

@[simp] theorem resetView_rejectSlot (s : State) (i : Nat) : resetView (rejectSlot s i) = resetView s := resetView_log ..

@[simp] theorem resetView_rejectTrial (s : State) (i : Nat) : resetView (rejectTrial s i) = resetView s := by
  unfold rejectTrial
  split
  · exact resetView_log ..
  · rfl

@[simp] theorem resetView_restoreSnapshot (s : State) : resetView (restoreSnapshot s) = resetView s := by
  unfold restoreSnapshot
  split <;> rfl

@[simp] theorem resetView_chooseFirmware (n : Nat) (s : State) : resetView (chooseFirmware n s).2 = resetView s := by
  induction n generalizing s with
  | zero => rfl
  | succ n ih =>
    unfold chooseFirmware
    split
    next => rfl
    next i _ =>
      split
      next => rfl
      next => rw [ih, resetView_rejectSlot]

@[simp] theorem resetView_bootFirmware (s : State) : resetView (bootFirmware s) = resetView s := by
  have hchoose := resetView_chooseFirmware 2 (restoreSnapshot (rejectTrial (rejectTrial s 0) 1))
  simp only [resetView_restoreSnapshot, resetView_rejectTrial] at hchoose
  unfold bootFirmware
  split
  next i t h =>
    rw [h] at hchoose
    split <;> exact hchoose
  next t h =>
    rw [h] at hchoose
    split
    · exact hchoose
    · exact (resetView_log ..).trans hchoose

@[simp] theorem resetView_unbuilt (s : State) (w : BitVec 32) : resetView (unbuilt s w).2 = resetView s := by
  unfold unbuilt
  split <;> rfl

@[simp] theorem resetView_closeUpdates (s : State) : resetView (closeUpdates s) = resetView s := by
  unfold closeUpdates
  split
  next => rfl
  next u _ =>
    extract_lets discarded closed
    have hdiscarded : resetView discarded = resetView s := by
      unfold discarded
      split <;> exact resetView_unbuilt ..
    have hclosed : resetView closed = resetView s := by
      unfold closed
      split
      · exact (resetView_log ..).trans hdiscarded
      · rfl
    split <;> exact hclosed

@[simp] theorem resetView_readKeys (s : State) : resetView (readKeys s) = resetView s := by
  unfold readKeys
  dsimp only
  split
  · simp
  · split <;> simp

/-! ### Charts -/

@[simp] theorem resetView_loadChartParams (s : State) (c : Nat) : resetView (loadChartParams s c) = resetView s := rfl

@[simp] theorem resetView_readChart (s : State) (c : Nat) : resetView (readChart s c) = resetView s := by
  unfold readChart
  extract_lets x put r vals
  split
  next => exact resetView_log ..
  next _ k0 _ k1 t _ =>
    have ht : resetView t = resetView s := by
      unfold t
      split
      · exact resetView_log ..
      · rfl
    split
    next => exact ht
    next =>
      split
      · exact ht
      · exact (resetView_log ..).trans ht

@[simp] theorem resetView_readCharts (s : State) : resetView (readCharts s) = resetView s :=
  resetView_foldl _ resetView_readChart _ _

/-! ### Parameter store, spread counters and marks -/

@[simp] theorem resetView_recoverPStore (s : State) : resetView (recoverPStore s) = resetView s := by
  refine resetView_foldl _ (fun t gc => ?_) _ _
  dsimp only
  split
  · rfl
  · exact resetView_log ..

@[simp] theorem resetView_readKey (s : State) (key : PKind × Nat × Nat) : resetView (readKey s key) = resetView s := by
  unfold readKey
  dsimp only
  split
  · exact resetView_log ..
  · exact resetView_foldl _ (fun t r => resetView_log ..) _ _

@[simp] theorem resetView_readPStore (s : State) : resetView (readPStore s) = resetView s := by
  unfold readPStore
  rw [resetView_foldl _ resetView_readKey]
  exact resetView_recoverPStore s

@[simp] theorem resetView_loadGlobals (s : State) : resetView (loadGlobals s) = resetView s := rfl
@[simp] theorem resetView_startTwin (s : State) : resetView (startTwin s) = resetView s := rfl
@[simp] theorem resetView_countPowerCycle (s : State) : resetView (countPowerCycle s) = resetView s := rfl

@[simp] theorem resetView_loadTrims (s : State) : resetView (loadTrims s) = resetView s :=
  resetView_foldl loadTrim (fun _ _ => rfl) _ _

@[simp] theorem resetView_loadMarks (s : State) : resetView (loadMarks s) = resetView s := by
  unfold loadMarks
  extract_lets helm learned _ base trims _
  have hhelm : resetView helm = resetView s := by unfold helm; split <;> rfl
  have hlearned : resetView learned = resetView helm := by unfold learned; split <;> rfl
  have hbase : resetView base = resetView learned := by unfold base; split <;> rfl
  have htrims : resetView trims = resetView base := resetView_loadTrims base
  exact (resetView_setDsp trims _).trans (htrims.trans (hbase.trans (hlearned.trans hhelm)))

/-! ### The ring and the program -/

@[simp] theorem resetView_rebuildProgram (s : State) (p : Program) : resetView (rebuildProgram s p) = resetView s := by
  unfold rebuildProgram
  dsimp only
  split
  · exact resetView_log ..
  · split <;> rfl

@[simp] theorem resetView_rebuild (s : State) : resetView (rebuild s) = resetView s := by
  unfold rebuild
  dsimp only
  split
  · rfl
  · split
    · exact resetView_rebuildProgram ..
    · rfl

/-! ### Forces, outputs, panel and clock -/

@[simp] theorem resetView_applyForce (s : State) (f : Force) : resetView (applyForce s f) = resetView s := by
  unfold applyForce
  split
  · rfl
  · unfold setItem keepFrozen
    split <;> rfl

@[simp] theorem resetView_applyForces (s : State) : resetView (applyForces s) = resetView s :=
  resetView_foldl _ resetView_applyForce _ _

@[simp] theorem resetView_loadForces (s : State) : resetView (loadForces s) = resetView s := rfl
@[simp] theorem resetView_markFieldSafe (s : State) : resetView (markFieldSafe s) = resetView s := rfl
@[simp] theorem resetView_loadSafeVals (s : State) : resetView (loadSafeVals s) = resetView s := rfl

@[simp] theorem resetView_startPanel (s : State) (cut : Bool) : resetView (startPanel s cut) = resetView s := by
  unfold startPanel
  split <;> rfl

@[simp] theorem resetView_refSync (s : State) : resetView (refSync s) = resetView s := rfl
@[simp] theorem resetView_newWindow (s : State) : resetView (newWindow s) = resetView s := rfl

@[simp] theorem resetView_anchor (s : State) (cause : Nat) : resetView (anchor s cause) = resetView s := by
  unfold anchor
  dsimp only
  rw [resetView_modClock, of_log_only (logRaw_only ..)]
  rfl

/-- A start after a watchdog reset keeps the watchdog's last record (R603). -/
@[simp] theorem resetView_startWatchdog (s : State) : resetView (startWatchdog s 3) = resetView s := by
  unfold startWatchdog
  dsimp only
  split
  · exact resetView_log ..
  · rfl

/-! ### The start itself -/

theorem checkBackup_of_ne_zero (s : State) (h : s.power.powerCycles ≠ 0) : checkBackup s = s := if_neg h

/-- A cut-short update of the display changes the display, and in the power domain the energy it had reserved. -/
theorem cutUpdate_only (s : State) :
    cutUpdate s = { s with
      dsp := (cutUpdate s).dsp, power := { s.power with reservedNj := (cutUpdate s).power.reservedNj } } := by
  unfold cutUpdate pulseDone
  split
  next => rfl
  next u hu =>
    rw [hu]
    dsimp only
    split <;> rfl

@[simp] theorem cutUpdate_wd (s : State) : (cutUpdate s).wd = s.wd := by rw [cutUpdate_only]
@[simp] theorem cutUpdate_field (s : State) : (cutUpdate s).field = s.field := by rw [cutUpdate_only]
@[simp] theorem cutUpdate_powerCycles (s : State) : (cutUpdate s).power.powerCycles = s.power.powerCycles := by
  rw [cutUpdate_only]

/-- A start with kind 0x03 whose backup registers stand: tb at 0, not yet resumed, with what the reset left (R340, R603). -/
theorem resetView_dieStart (s : State) (h : s.power.powerCycles ≠ 0) :
    resetView (dieStart s 3) = (0, 3, false, (s.wd.count, s.wd.lastRes, s.wd.observed), s.field.safe) := by
  unfold dieStart
  extract_lets _ _ _ cut cleared _ _ _ _ _ _ _ started checked updated loaded counted opsec _ booked marked rebuilt forced
    watched shown timed
  have hstarted : resetView started = (0, 3, false, (s.wd.count, s.wd.lastRes, s.wd.observed), s.field.safe) := by
    rw [← cutUpdate_wd s, ← cutUpdate_field s]
    rfl
  have hchecked : checked = started := checkBackup_of_ne_zero _ ((cutUpdate_powerCycles s).trans_ne h)
  have hloaded : resetView loaded = resetView started := by
    simp only [loaded, updated, hchecked, resetView_loadGlobals, resetView_readPStore, resetView_closeUpdates,
      resetView_bootFirmware]
  have hbooked : resetView booked = resetView loaded :=
    (resetView_setBook opsec _).trans ((resetView_setOpsec counted _).trans (resetView_countPowerCycle loaded))
  have hmarked : resetView marked = resetView booked := (resetView_startTwin _).trans (resetView_loadMarks booked)
  have hrebuilt : resetView rebuilt = resetView marked :=
    (resetView_rebuild _).trans ((resetView_readCharts _).trans (resetView_readKeys marked))
  have hforced : resetView forced = resetView rebuilt :=
    (resetView_applyForces _).trans ((resetView_loadForces _).trans (resetView_loadChartParams rebuilt _))
  have hwatched : resetView watched = resetView forced := by
    simp only [watched, resetView_loadSafeVals, resetView_startWatchdog]
  have hshown : resetView shown = resetView watched := by
    unfold shown
    split
    · exact resetView_markFieldSafe watched
    · rfl
  have htimed : resetView timed = resetView shown := by
    simp only [timed, resetView_newWindow, resetView_refSync, resetView_modClock, resetView_startPanel]
  rw [resetView_anchor, resetView_log, htimed, hshown, hwatched, hforced, hrebuilt, hmarked, hbooked, hloaded, hstarted]

/-! ### The steps before the start -/

/-- The power domain, the watchdog and the field die, which neither a channel's safe action nor the stop of the die touches. -/
def powerWdField (s : State) : Power × Watchdog × FieldSt := (s.power, s.wd, s.field)

@[simp] theorem powerWdField_anaSafeAll (s : State) : powerWdField (anaSafeAll s) = powerWdField s := by
  refine foldl_keeps powerWdField anaSafe (fun t c => ?_) _ s
  unfold anaSafe
  dsimp only
  split
  · rfl
  · split <;> rfl

@[simp] theorem powerWdField_dspSafe (s : State) (logic : Bool) : powerWdField (dspSafe s logic) = powerWdField s := by
  unfold dspSafe
  split <;> rfl

theorem powerWdField_modField (s : State) (f : FieldSt → FieldSt) :
    powerWdField (modField s f) = (s.power, s.wd, f s.field) := rfl

@[simp] theorem powerWdField_markFieldSafe (s : State) : powerWdField (markFieldSafe s) = powerWdField s := rfl

@[simp] theorem powerWdField_log (s : State) (type sev src subject code : Nat) (vals : List Byte) :
    powerWdField (log s type sev src subject code vals) = powerWdField s := by simp [powerWdField]

/-- Setting outputs changes the field die alone. -/
theorem foldl_setDo_power_wd (f : Nat → DoCh → DoCh) (l : List Nat) (s : State) :
    (l.foldl (fun s n => setDo s n (f n)) s).power = s.power ∧ (l.foldl (fun s n => setDo s n (f n)) s).wd = s.wd :=
  ⟨foldl_keeps State.power (fun s n => setDo s n (f n)) (fun _ _ => rfl) l s,
    foldl_keeps State.wd (fun s n => setDo s n (f n)) (fun _ _ => rfl) l s⟩

/-- The safe state leaves the power domain and the watchdog alone, and unless the field die is locked out it stands
afterwards (R426, R427). -/
theorem applySafe_view (s : State) (cause : Nat) : ∃ field : FieldSt,
    powerWdField (applySafe s cause) = (s.power, s.wd, field) ∧
    (s.field.lockout = false → field.safe.isSome = true) := by
  unfold applySafe
  extract_lets areas want turns off safe
  split
  next h =>
    refine ⟨s.field, rfl, fun hlock => ?_⟩
    rw [show areas.field = s.field from rfl, hlock] at h
    exact h
  next =>
    obtain ⟨hpower, hwd⟩ : off.power = s.power ∧ off.wd = s.wd :=
      foldl_setDo_power_wd (fun n d => { d with cmd := want n, on := d.on && want n }) (List.range 24) areas
    clear_value off
    refine ⟨safe.field, ?_, fun _ => rfl⟩
    rw [powerWdField_log, powerWdField_markFieldSafe, powerWdField_dspSafe, powerWdField_anaSafeAll, ← hpower, ← hwd]
    exact powerWdField_modField off _

@[simp] theorem powerWdField_tearMarkers (s : State) : powerWdField (tearMarkers s) = powerWdField s := by
  have hkeys : powerWdField (tearKeys s) = powerWdField s := by
    unfold tearKeys
    split <;> rfl
  unfold tearMarkers
  extract_lets torn confirmed
  have hconfirmed : powerWdField confirmed = powerWdField torn := by
    unfold confirmed
    split <;> rfl
  rw [← hkeys, ← hconfirmed]
  split
  · split <;> rfl
  · rfl

/-! ### The watchdog reset (R602) -/

theorem powerWdField_watchdogReset_steps (s : State) : ∃ field : FieldSt,
    powerWdField (dieStop (tearMarkers (wdResetSteps s))) =
      (s.power, { s.wd with count := (s.wd.count + 1) % 2 ^ 32, resetRecord := true, faultN := true }, field) ∧
    (s.field.lockout = false → field.safe.isSome = true) := by
  have hstop : ∀ t, powerWdField (dieStop (tearMarkers t)) = powerWdField t := powerWdField_tearMarkers
  rw [hstop]
  exact applySafe_view _ 2

/-- A watchdog reset starts the logic die with kind 0x03; it counts itself, keeps the last record and applies the safe state
(R602, R603). -/
theorem resetView_watchdogReset (s : State) (h : s.power.powerCycles ≠ 0) : ∃ safe : Option (Nat × Nat),
    resetView (watchdogReset s) = (0, 3, false, ((s.wd.count + 1) % 2 ^ 32, s.wd.lastRes, s.wd.observed), safe) ∧
    (s.field.lockout = false → safe.isSome = true) := by
  obtain ⟨field, hsteps, hsafe⟩ := powerWdField_watchdogReset_steps s
  simp only [powerWdField, Prod.mk.injEq] at hsteps
  obtain ⟨hpower, hwd, hfield⟩ := hsteps
  refine ⟨field.safe, ?_, hsafe⟩
  rw [watchdogReset, resetView_dieStart _ (by rw [hpower]; exact h), hwd, hfield]

end Sys2Proof.Machine
end

section
/-!
PROOFS. The watchdog: its challenge, what a good and a bad service leave, and the classes of a reply (R588-R603).
-/
namespace Sys2Proof.Machine

open Sys2Proof

/-! ### The instant of an event -/

@[simp] theorem dieAt_wd (s : State) (now : Tb) : (dieAt s now).wd = s.wd := by unfold dieAt; split <;> rfl
@[simp] theorem dieAt_store (s : State) (now : Tb) : (dieAt s now).store = s.store := by unfold dieAt; split <;> rfl
@[simp] theorem dieAt_power (s : State) (now : Tb) : (dieAt s now).power = s.power := by unfold dieAt; split <;> rfl
@[simp] theorem dieAt_sched (s : State) (now : Tb) : (dieAt s now).sched = s.sched := by unfold dieAt; split <;> rfl
@[simp] theorem dieAt_log (s : State) (now : Tb) : (dieAt s now).log = s.log := by unfold dieAt; split <;> rfl
@[simp] theorem dieAt_field (s : State) (now : Tb) : (dieAt s now).field = s.field := by unfold dieAt; split <;> rfl

@[simp] theorem dieRuns_dieAt (s : State) (now : Tb) : dieRuns (dieAt s now) = dieRuns s := by simp [dieRuns]

@[simp] theorem wdW_dieAt (s : State) (now : Tb) : wdW (dieAt s now) = wdW s := by simp [wdW]

theorem dieAt_of_not_dieRuns (s : State) (now : Tb) (h : dieRuns s = false) : dieAt s now = s := by simp [dieAt, h]

theorem wdCounts_iff (s : State) : wdCounts s = true ↔ dieRuns s = true ∧ s.wd.state ≠ .disabled := by simp [wdCounts]

@[simp] theorem wdCounts_dieAt (s : State) (now : Tb) : wdCounts (dieAt s now) = wdCounts s := by simp [wdCounts]

theorem wdOpen_iff (s : State) (tick : Nat) : wdOpen s tick = true ↔ wdW s ≤ tick ∧ tick < 1024 * s.wd.period :=
  decide_eq_true_iff

/-! ### The challenge (R593) -/

/-- A step shifts every bit up, and the taps decide the lowest one; a zero result leaves no bit that was set. -/
theorem lfsrStep_ne_zero (u : BitVec 32) (h : u ≠ 0) : lfsrStep u ≠ 0 := by
  intro hzero
  obtain ⟨hshift, hfeed⟩ := BitVec.or_eq_zero_iff.mp hzero
  have hlow : ∀ i < 31, u.getLsbD i = false := by
    intro i hi
    have hbit : (u <<< 1).getLsbD (i + 1) = u.getLsbD i := by
      rw [BitVec.getLsbD_shiftLeft, decide_eq_true (Nat.succ_lt_succ hi)]
      simp
    rw [← hbit, hshift]
    exact BitVec.getLsbD_zero
  have htap : ((u.getLsbD 31 ^^ u.getLsbD 21) ^^ (u.getLsbD 1 ^^ u.getLsbD 0)) = false := by
    split at hfeed
    next => exact absurd hfeed (by decide)
    next hf => exact Bool.eq_false_iff.mpr hf
  have htop : u.getLsbD 31 = false := by
    simpa only [hlow 21 (by decide), hlow 1 (by decide), hlow 0 (by decide), Bool.xor_false] using htap
  refine h (BitVec.eq_of_getLsbD_eq fun i hi => ?_)
  refine Eq.trans ?_ BitVec.getLsbD_zero.symm
  rcases Nat.lt_succ_iff_lt_or_eq.mp hi with hlt | rfl
  · exact hlow i hlt
  · exact htop

theorem lfsrSteps_ne_zero (n : Nat) (u : BitVec 32) (h : u ≠ 0) : lfsrSteps n u ≠ 0 := by
  induction n generalizing u with
  | zero => exact h
  | succ n ih => exact ih _ (lfsrStep_ne_zero u h)

/-! ### Good and bad services -/

@[simp] theorem wdAfter_true (s : State) : wdAfter (s, true) = watchdogReset s := if_pos rfl
@[simp] theorem wdAfter_false (s : State) : wdAfter (s, false) = s := if_neg Bool.false_ne_true

/-- The registers as a period starts (R589). -/
def freshPeriod (w : Watchdog) : Watchdog :=
  { w with mask := 0, dbl := false, dtask := none, tick := 0, period := w.periodNext.getD w.period, periodNext := none }

theorem wdPeriodStart_eq (s : State) : wdPeriodStart s = { s with wd := freshPeriod s.wd } := rfl

/-- The watchdog with its tick counter at a reply. -/
def atTick (s : State) (tick : Nat) : State := modWd s (fun w => { w with tick })

/-- What a good service leaves (R589, R593, R600): a new challenge and period; only the end of WARNED writes a record. -/
def servedWell (s n : State) (x : Host.Outcome State Fault Refusal) : Prop :=
  ∃ t, x = .next t ∧
    t.wd = { freshPeriod s.wd with state := .running, lfsr := lfsrDraw s.wd.lfsr, keyerr := false, faultN := false } ∧
    { t with wd := s.wd, log := s.log } = n ∧ (s.wd.state = .running → t.log = s.log)

theorem servedWell_dieAt (s : State) (now : Tb) (x : Host.Outcome State Fault Refusal) :
    servedWell s (dieAt s now) x ↔ servedWell (dieAt s now) (dieAt s now) x := by
  simp [servedWell]

theorem wdActs_dieAt (s : State) (now : Tb) (x : Host.Outcome State Fault Refusal) (code : Nat) :
    wdActs s (dieAt s now) x code ↔ wdActs (dieAt s now) (dieAt s now) x code := by
  simp [wdActs]

/-- A good service changes the watchdog, and the logbook alone beside it (R600). -/
theorem servedWell_wdGood (n : State) (tick agent : Nat) :
    servedWell n n (.next (wdAfter (wdGood (atTick n tick) agent, false))) := by
  refine ⟨wdGood (atTick n tick) agent, rfl, ?_⟩
  unfold wdGood
  extract_lets warned renewed logged
  have hlogged : logged = { renewed with log := logged.log } := by
    unfold logged
    split
    · exact of_log_only (log_only ..)
    · rfl
  have hsame : n.wd.state = .running → logged.log = n.log := by
    intro hrunning
    have hwarned : warned = false := by simp [warned, atTick, modWd, hrunning]
    unfold logged
    rw [hwarned]
    rfl
  generalize logged.log = l at hlogged hsame
  rw [hlogged]
  dsimp only [wdPeriodStart_eq, renewed, atTick, modWd]
  exact ⟨rfl, rfl, hsame⟩

/-- From RUNNING a bad service or an expiry takes the first-expiry actions. -/
theorem wdBad_of_running {s : State} (h : s.wd.state = .running) (c : WdClass) (agent : Nat) (value : Option (BitVec 32)) :
    wdBad s c agent value = (wdFirst (wdRecord s c agent value), false) := by
  simp only [wdBad, h]

/-- From WARNED a bad service or an expiry resets the logic die. -/
theorem wdBad_of_warned {s : State} (h : s.wd.state = .warned) (c : WdClass) (agent : Nat) (value : Option (BitVec 32)) :
    wdBad s c agent value = (wdRecord s c agent value, true) := by
  simp only [wdBad, h]

/-- A bad service or an expiry acts as R600 says, with the record of R596 and the class's result code. -/
theorem wdActs_wdBad (n : State) (tick : Nat) (c : WdClass) (agent : Nat) (value : Option (BitVec 32)) :
    wdActs n n (.next (wdAfter (wdBad (atTick n tick) c agent value))) c.code := by
  constructor
  · intro hrunning
    rw [wdBad_of_running (s := atTick n tick) hrunning]
    refine ⟨wdFirst (wdRecord (atTick n tick) c agent value), rfl, ?_⟩
    unfold wdFirst
    extract_lets warned p event
    rw [of_log_only (log_only event ..)]
    generalize (log event _ _ _ _ _ _).log = l
    dsimp only [wdPeriodStart_eq, event, p, warned, wdRecord, atTick, modWd]
    exact ⟨rfl, rfl, rfl, rfl, rfl, rfl, rfl, rfl, rfl⟩
  · intro hwarned hcycles
    rw [wdBad_of_warned (s := atTick n tick) hwarned, wdAfter_true]
    obtain ⟨safe, hview, hsafe⟩ := resetView_watchdogReset (wdRecord (atTick n tick) c agent value) hcycles
    refine ⟨watchdogReset (wdRecord (atTick n tick) c agent value), rfl, ?_⟩
    generalize watchdogReset (wdRecord (atTick n tick) c agent value) = t at hview
    simp only [resetView, wdRecord, atTick, modWd, Prod.mk.injEq] at hview
    obtain ⟨htb, hkind, hresumed, ⟨hcount, hres, hobserved⟩, hfield⟩ := hview
    exact ⟨hkind, hresumed, htb, hcount, hres, hobserved, fun hlock => by rw [hfield]; exact hsafe hlock⟩

/-! ### The classes of a reply (R595) -/

theorem wdClassify_early {s : State} (v : BitVec 32) {tick : Nat} (h : tick < wdW s) : wdClassify s v tick = .early := if_pos h

theorem wdClassify_double {s : State} (v : BitVec 32) {tick : Nat} (h : wdW s ≤ tick) (hd : s.wd.dbl = true) :
    wdClassify s v tick = .dbl := by
  simp [wdClassify, not_lt.mpr h, hd]

theorem wdClassify_wrong {s : State} {v : BitVec 32} {tick : Nat} (h : wdW s ≤ tick) (hd : s.wd.dbl = false)
    (hv : v ≠ wdExpected s.wd.lfsr s.wd.mask s.store.wdsalt) : wdClassify s v tick = .wrong := by
  simp [wdClassify, not_lt.mpr h, hd, hv]

theorem wdClassify_good {s : State} {v : BitVec 32} {tick : Nat} (h : wdW s ≤ tick) (hd : s.wd.dbl = false)
    (hv : v = wdExpected s.wd.lfsr s.wd.mask s.store.wdsalt) : wdClassify s v tick = .good := by
  simp [wdClassify, not_lt.mpr h, hd, hv]

@[simp] theorem wdClassify_dieAt (s : State) (now : Tb) (v : BitVec 32) (tick : Nat) :
    wdClassify (dieAt s now) v tick = wdClassify s v tick := by
  simp [wdClassify]

theorem servedWell_wdReplyAt (s : State) (now : Tb) (agent : Nat) (v : BitVec 32) (tick : Nat) (hon : s.wd.state ≠ .disabled)
    (hc : wdClassify s v tick = .good) :
    servedWell s (dieAt s now) (.next (wdAfter (wdReplyAt (dieAt s now) agent v tick))) := by
  have hreply : wdReplyAt (dieAt s now) agent v tick =
      (wdGood (atTick (dieAt s now) (Nat.max s.wd.tick tick)) agent, false) := by
    simp [wdReplyAt, hon, hc, atTick, modWd]
  rw [hreply]
  exact (servedWell_dieAt ..).mpr (servedWell_wdGood _ _ agent)

theorem wdActs_wdReplyAt (s : State) (now : Tb) (agent : Nat) (v : BitVec 32) (tick : Nat) (hon : s.wd.state ≠ .disabled)
    {c : WdClass} (hc : wdClassify s v tick = c) (hbad : c ≠ .good) :
    wdActs s (dieAt s now) (.next (wdAfter (wdReplyAt (dieAt s now) agent v tick))) c.code := by
  have hreply : wdReplyAt (dieAt s now) agent v tick =
      wdBad (atTick (dieAt s now) (Nat.max s.wd.tick tick)) c agent (some v) := by
    simp [wdReplyAt, hon, hc, hbad, atTick, modWd]
  rw [hreply]
  exact (wdActs_dieAt ..).mpr (wdActs_wdBad _ _ c agent _)

end Sys2Proof.Machine
end

section
/-!
PROOFS. The registers of the watchdog: the writes of WD_CTRL and WD_KEY (R600, R604, R605).
-/
namespace Sys2Proof.Machine

open Sys2Proof

/-- LOCK of WD_CTRL or the fuse WDLOCKF is set (R605). -/
def lockSet (s : State) : Prop := s.wd.lock = true ∨ s.store.wdlockf = true

theorem wdLocked_iff (s : State) : wdLocked s = true ↔ lockSet s := Bool.or_eq_true_iff

/-! ### EN -/

theorem wdEnable_of_disabled {s : State} (h : s.wd.state = .disabled) :
    wdEnable s = modWd s (fun w => freshPeriod { w with state := .running }) := if_pos h

theorem wdEnable_of_on {s : State} (h : s.wd.state ≠ .disabled) : wdEnable s = s := if_neg h

theorem wdDisable_of_disabled {s : State} (tick : Nat) (h : s.wd.state = .disabled) : wdDisable s tick = s := if_pos h

/-- The third write of the sequence, in time, stops the counting (R605). -/
theorem wdDisable_completes {s : State} {tick : Nat} (hon : s.wd.state ≠ .disabled)
    (hlock : ¬ lockSet s) (hstep : s.wd.keyStep = 2) (hfrom : s.wd.keyTick ≤ tick)
    (hto : tick ≤ s.wd.keyTick + 16) :
    wdDisable s tick = modWd s (fun w => { w with state := .disabled, keyStep := 0 }) := by
  have hunlocked : wdLocked s = false := Bool.eq_false_iff.mpr (mt (wdLocked_iff s).mp hlock)
  simp [wdDisable, hon, hunlocked, hstep, hfrom, hto]

/-- EN written 0 without a completed sequence sets KEYERR (R605). -/
theorem wdDisable_refused {s : State} {tick : Nat} (hon : s.wd.state ≠ .disabled)
    (h : lockSet s ∨ s.wd.keyStep ≠ 2 ∨ tick < s.wd.keyTick ∨ s.wd.keyTick + 16 < tick) :
    wdDisable s tick = modWd s (fun w => { w with keyerr := true, keyStep := 0 }) := by
  unfold wdDisable
  rw [if_neg hon]
  split
  next => rfl
  next hlock =>
    have hbroken := h.resolve_left fun hl => hlock ((wdLocked_iff s).mpr hl)
    refine if_neg fun hseq => ?_
    simp only [Bool.and_eq_true, decide_eq_true_eq] at hseq
    omega

/-! ### PERIOD -/

/-- PERIOD written in the open window waits for the next period (R604). -/
theorem wdWritePeriod_open {s : State} {per tick : Nat} (hon : s.wd.state ≠ .disabled) (hW : wdW s ≤ tick)
    (hP : tick < 1024 * s.wd.period) (hlo : 1 ≤ per) (hhi : per ≤ 4096) :
    wdWritePeriod s per tick = modWd s (fun w => { w with periodNext := some per, pwign := false }) := by
  have hopen : wdOpen s tick = true := (wdOpen_iff s tick).mpr ⟨hW, hP⟩
  simp [wdWritePeriod, hopen, hlo, hhi, hon]

/-- PERIOD written outside the open window or out of its range is ignored (R604). -/
theorem wdWritePeriod_ignored {s : State} {per tick : Nat}
    (h : tick < wdW s ∨ 1024 * s.wd.period ≤ tick ∨ per = 0 ∨ 4096 < per) :
    wdWritePeriod s per tick = modWd s (fun w => { w with pwign := true }) := by
  refine if_neg fun hwrite => ?_
  simp only [Bool.and_eq_true, decide_eq_true_eq, wdOpen_iff] at hwrite
  omega

/-! ### WD_CTRL -/

/-- What the bits EN and LOCK of a write to WD_CTRL do. -/
def enAndLock (s : State) (v : BitVec 32) (tick : Nat) : State :=
  wdSetLock (if v.getLsbD 16 then (if wdLocked s then s else wdEnable s) else wdDisable s tick) (v.getLsbD 17)

theorem enAndLock_en {s : State} {v : BitVec 32} (tick : Nat) (hv : v.getLsbD 17 = false) (hen : v.getLsbD 16 = true)
    (hlock : ¬ lockSet s) : enAndLock s v tick = wdEnable s := by
  rw [enAndLock, if_pos hen, if_neg (mt (wdLocked_iff s).mp hlock), hv]
  rfl

/-- EN written 1 does nothing where the watchdog counts. -/
theorem enAndLock_on {s : State} {v : BitVec 32} (tick : Nat) (hen : v.getLsbD 16 = true) (hon : s.wd.state ≠ .disabled) :
    enAndLock s v tick = wdSetLock s (v.getLsbD 17) := by
  rw [enAndLock, if_pos hen, wdEnable_of_on hon, ite_self]

theorem enAndLock_disable {s : State} {v : BitVec 32} (tick : Nat) (hv : v.getLsbD 17 = false) (hen : v.getLsbD 16 = false) :
    enAndLock s v tick = wdDisable s tick := by
  rw [enAndLock, hen, hv]
  rfl

/-- A disabled watchdog stays so when EN is written 0, and when EN is locked (R9). Log entry 54 (DEDUCED). -/
theorem enAndLock_stays_disabled {s : State} {v : BitVec 32} (tick : Nat) (hv : v.getLsbD 17 = false)
    (hoff : s.wd.state = .disabled) (h : v.getLsbD 16 = false ∨ lockSet s) :
    enAndLock s v tick = s := by
  by_cases hen : v.getLsbD 16 = true
  · have hlock := (wdLocked_iff s).mpr (h.resolve_left (by simp [hen]))
    rw [enAndLock, if_pos hen, if_pos hlock, hv]
    rfl
  · rw [enAndLock_disable tick hv (Bool.eq_false_iff.mpr hen), wdDisable_of_disabled tick hoff]

/-- The state that a register write at a tick finds. -/
def atWrite (s : State) (now : Tb) (tick : Nat) : State := { dieAt s now with wd := { s.wd with tick := max s.wd.tick tick } }

@[simp] theorem atWrite_wd (s : State) (now : Tb) (tick : Nat) :
    (atWrite s now tick).wd = { s.wd with tick := max s.wd.tick tick } := rfl
@[simp] theorem atWrite_store (s : State) (now : Tb) (tick : Nat) : (atWrite s now tick).store = s.store := dieAt_store s now
@[simp] theorem wdW_atWrite (s : State) (now : Tb) (tick : Nat) : wdW (atWrite s now tick) = wdW s := by
  simp only [wdW, wdP, atWrite_wd, atWrite_store]

theorem lockSet_atWrite (s : State) (now : Tb) (tick : Nat) : lockSet (atWrite s now tick) ↔ lockSet s := by simp [lockSet]

theorem modWd_dieAt_eq_atWrite (s : State) (now : Tb) (tick : Nat) :
    modWd (dieAt s now) (fun w => { w with tick := Nat.max w.tick tick }) = atWrite s now tick := by
  rw [modWd, dieAt_wd]
  rfl

/-- A write of WD_CTRL: EN and LOCK first, then PERIOD (R604, R605). -/
theorem exec_wdCtrlWrite {s : State} (now : Tb) (v : BitVec 32) (tick : Nat) (h : dieRuns s = true) :
    exec (.wdCtrlWrite now v tick) s = .next (
      let t := enAndLock (atWrite s now tick) v tick
      if t.wd.state = .disabled ∨ v.toNat % 8192 = t.wd.period then t else wdWritePeriod t (v.toNat % 8192) tick) := by
  have hop : exec (.wdCtrlWrite now v tick) s =
      .next (if dieRuns (dieAt s now) then wdCtrlOp (dieAt s now) v tick else dieAt s now) := rfl
  rw [hop, dieRuns_dieAt, if_pos h, wdCtrlOp, modWd_dieAt_eq_atWrite]
  rfl

theorem exec_wdCtrlWrite_off {s : State} {now : Tb} {v : BitVec 32} {tick : Nat} (h : dieRuns s = false) :
    exec (.wdCtrlWrite now v tick) s = .next s := by
  have hop : exec (.wdCtrlWrite now v tick) s =
      .next (if dieRuns (dieAt s now) then wdCtrlOp (dieAt s now) v tick else dieAt s now) := rfl
  rw [hop, dieAt_of_not_dieRuns s now h, h]
  rfl

/-- A write of WD_CTRL that leaves the watchdog disabled, or names the period in effect, writes no period. -/
theorem exec_wdCtrlWrite_keeps_period {s : State} {now : Tb} {v : BitVec 32} {tick : Nat} (h : dieRuns s = true) {t : State}
    (ht : enAndLock (atWrite s now tick) v tick = t) (hper : t.wd.state = .disabled ∨ v.toNat % 8192 = t.wd.period) :
    exec (.wdCtrlWrite now v tick) s = .next t := by
  rw [exec_wdCtrlWrite now v tick h, ht]
  exact congrArg _ (if_pos hper)

/-- A write of WD_CTRL with EN 1 to a counting watchdog writes another period. -/
theorem exec_wdCtrlWrite_period {s : State} {now : Tb} {v : BitVec 32} {tick : Nat} (h : dieRuns s = true)
    (hv : v.getLsbD 17 = false) (hen : v.getLsbD 16 = true) (hon : s.wd.state ≠ .disabled)
    (hper : v.toNat % 8192 ≠ s.wd.period) :
    exec (.wdCtrlWrite now v tick) s = .next (wdWritePeriod (atWrite s now tick) (v.toNat % 8192) tick) := by
  rw [exec_wdCtrlWrite now v tick h, enAndLock_on tick hen (by exact hon), hv]
  exact congrArg _ (if_neg (not_or.mpr ⟨hon, hper⟩))

/-! ### WD_KEY -/

theorem wdKey_locked {s : State} (v : BitVec 32) (tick : Nat) (h : lockSet s) :
    wdKey s v tick = modWd s (fun w => { w with keyerr := true, keyStep := 0 }) := if_pos ((wdLocked_iff s).mpr h)

/-- A key that the lock does not refuse: the first, the second in time, or any other, which cancels the sequence (R605). -/
theorem wdKey_unlocked {s : State} (v : BitVec 32) (tick : Nat) (h : ¬ lockSet s) :
    wdKey s v tick =
      if v.toNat % 65536 = 0x6D41 then modWd s (fun w => { w with keyStep := 1, keyTick := tick })
      else if v.toNat % 65536 = 0x92BE ∧ s.wd.keyStep = 1 ∧ s.wd.keyTick ≤ tick ∧ tick ≤ s.wd.keyTick + 16 then
        modWd s (fun w => { w with keyStep := 2, keyTick := tick })
      else modWd s (fun w => { w with keyStep := 0 }) := by
  have hunlocked : ¬ wdLocked s = true := mt (wdLocked_iff s).mp h
  simp only [wdKey, if_neg hunlocked, Bool.and_eq_true, decide_eq_true_eq, and_assoc]

theorem exec_wdKeyWrite {s : State} (now : Tb) (v : BitVec 32) (tick : Nat) (h : dieRuns s = true) :
    exec (.wdKeyWrite now v tick) s = .next (wdKey (atWrite s now tick) v tick) := by
  have hop : exec (.wdKeyWrite now v tick) s =
      .next (if dieRuns (dieAt s now) then
        wdKey (modWd (dieAt s now) (fun w => { w with tick := Nat.max w.tick tick })) v tick else dieAt s now) := rfl
  rw [hop, dieRuns_dieAt, if_pos h, modWd_dieAt_eq_atWrite]

theorem exec_wdKeyWrite_off {s : State} {now : Tb} {v : BitVec 32} {tick : Nat} (h : dieRuns s = false) :
    exec (.wdKeyWrite now v tick) s = .next s := by
  have hop : exec (.wdKeyWrite now v tick) s =
      .next (if dieRuns (dieAt s now) then
        wdKey (modWd (dieAt s now) (fun w => { w with tick := Nat.max w.tick tick })) v tick else dieAt s now) := rfl
  rw [hop, dieAt_of_not_dieRuns s now h, h]
  rfl

/-! ### What each write leaves -/

/-- An instruction that leaves the watchdog as given, and changes nothing else but the instant. -/
def leavesWd (s : State) (now : Tb) (i : Instr) (w : Watchdog) : Prop := exec i s = .next { dieAt s now with wd := w }

section
variable {s : State} {now : Tb} {v : BitVec 32} {tick : Nat}

theorem wdCtrlWrite_enables (hdie : dieRuns s = true) (hv : v.getLsbD 17 = false) (hoff : s.wd.state = .disabled)
    (hen : v.getLsbD 16 = true) (hlock : ¬ lockSet s) (hper : v.toNat % 8192 = s.wd.periodNext.getD s.wd.period) :
    leavesWd s now (.wdCtrlWrite now v tick) { freshPeriod s.wd with state := .running } := by
  have hfree := (lockSet_atWrite s now tick).not.mpr hlock
  exact exec_wdCtrlWrite_keeps_period hdie ((enAndLock_en tick hv hen hfree).trans (wdEnable_of_disabled hoff)) (.inr hper)

theorem wdCtrlWrite_stays_disabled (hdie : dieRuns s = true) (hv : v.getLsbD 17 = false) (hoff : s.wd.state = .disabled)
    (h : v.getLsbD 16 = false ∨ lockSet s) :
    leavesWd s now (.wdCtrlWrite now v tick) { s.wd with tick := max s.wd.tick tick } := by
  have hkept := h.imp_right (lockSet_atWrite s now tick).mpr
  exact exec_wdCtrlWrite_keeps_period hdie (enAndLock_stays_disabled tick hv hoff hkept) (.inl hoff)

theorem wdCtrlWrite_disables (hdie : dieRuns s = true) (hv : v.getLsbD 17 = false) (hon : s.wd.state ≠ .disabled)
    (hen : v.getLsbD 16 = false) (hlock : ¬ lockSet s) (hstep : s.wd.keyStep = 2) (hfrom : s.wd.keyTick ≤ tick)
    (hto : tick ≤ s.wd.keyTick + 16) :
    leavesWd s now (.wdCtrlWrite now v tick) { s.wd with tick := max s.wd.tick tick, state := .disabled, keyStep := 0 } := by
  have hfree := (lockSet_atWrite s now tick).not.mpr hlock
  have hdisable := wdDisable_completes (s := atWrite s now tick) hon hfree hstep hfrom hto
  exact exec_wdCtrlWrite_keeps_period hdie ((enAndLock_disable tick hv hen).trans hdisable) (.inl rfl)

theorem wdCtrlWrite_refused (hdie : dieRuns s = true) (hv : v.getLsbD 17 = false) (hon : s.wd.state ≠ .disabled)
    (hen : v.getLsbD 16 = false)
    (h : lockSet s ∨ s.wd.keyStep ≠ 2 ∨ tick < s.wd.keyTick ∨ s.wd.keyTick + 16 < tick)
    (hper : v.toNat % 8192 = s.wd.period) :
    leavesWd s now (.wdCtrlWrite now v tick) { s.wd with tick := max s.wd.tick tick, keyerr := true, keyStep := 0 } := by
  have hrefused := wdDisable_refused (s := atWrite s now tick) hon (h.imp_left (lockSet_atWrite s now tick).mpr)
  exact exec_wdCtrlWrite_keeps_period hdie ((enAndLock_disable tick hv hen).trans hrefused) (.inr hper)

theorem wdCtrlWrite_period_taken (hdie : dieRuns s = true) (hv : v.getLsbD 17 = false) (hon : s.wd.state ≠ .disabled)
    (hen : v.getLsbD 16 = true) (hper : v.toNat % 8192 ≠ s.wd.period) (hW : wdW s ≤ tick) (hP : tick < 1024 * s.wd.period)
    (hlo : 1 ≤ v.toNat % 8192) (hhi : v.toNat % 8192 ≤ 4096) :
    leavesWd s now (.wdCtrlWrite now v tick)
      { s.wd with tick := max s.wd.tick tick, periodNext := some (v.toNat % 8192), pwign := false } := by
  have htaken := wdWritePeriod_open (s := atWrite s now tick) hon ((wdW_atWrite ..).trans_le hW) hP hlo hhi
  exact (exec_wdCtrlWrite_period hdie hv hen hon hper).trans (congrArg _ htaken)

theorem wdCtrlWrite_period_ignored (hdie : dieRuns s = true) (hv : v.getLsbD 17 = false) (hon : s.wd.state ≠ .disabled)
    (hen : v.getLsbD 16 = true) (hper : v.toNat % 8192 ≠ s.wd.period)
    (h : tick < wdW s ∨ 1024 * s.wd.period ≤ tick ∨ v.toNat % 8192 = 0 ∨ 4096 < v.toNat % 8192) :
    leavesWd s now (.wdCtrlWrite now v tick) { s.wd with tick := max s.wd.tick tick, pwign := true } := by
  rw [← wdW_atWrite s now tick] at h
  exact (exec_wdCtrlWrite_period hdie hv hen hon hper).trans (congrArg _ (wdWritePeriod_ignored h))

theorem wdCtrlWrite_locks (hdie : dieRuns s = true) (hv : v.getLsbD 17 = true) (hon : s.wd.state ≠ .disabled)
    (hen : v.getLsbD 16 = true) (hper : v.toNat % 8192 = s.wd.period) :
    leavesWd s now (.wdCtrlWrite now v tick) { s.wd with tick := max s.wd.tick tick, lock := true } := by
  have hlocks := enAndLock_on (s := atWrite s now tick) tick hen hon
  rw [hv] at hlocks
  exact exec_wdCtrlWrite_keeps_period hdie hlocks (.inr hper)

theorem wdKeyWrite_locked (hdie : dieRuns s = true) (h : lockSet s) :
    leavesWd s now (.wdKeyWrite now v tick) { s.wd with tick := max s.wd.tick tick, keyerr := true, keyStep := 0 } :=
  (exec_wdKeyWrite now v tick hdie).trans (congrArg _ (wdKey_locked v tick ((lockSet_atWrite s now tick).mpr h)))

theorem wdKeyWrite_first (hdie : dieRuns s = true) (h : ¬ lockSet s) (hkey : v.toNat % 65536 = 0x6D41) :
    leavesWd s now (.wdKeyWrite now v tick) { s.wd with tick := max s.wd.tick tick, keyStep := 1, keyTick := tick } := by
  refine (exec_wdKeyWrite now v tick hdie).trans (congrArg _ ?_)
  rw [wdKey_unlocked v tick ((lockSet_atWrite s now tick).not.mpr h), if_pos hkey]
  rfl

theorem wdKeyWrite_second (hdie : dieRuns s = true) (h : ¬ lockSet s) (hkey : v.toNat % 65536 = 0x92BE)
    (hstep : s.wd.keyStep = 1) (hfrom : s.wd.keyTick ≤ tick) (hto : tick ≤ s.wd.keyTick + 16) :
    leavesWd s now (.wdKeyWrite now v tick) { s.wd with tick := max s.wd.tick tick, keyStep := 2, keyTick := tick } := by
  refine (exec_wdKeyWrite now v tick hdie).trans (congrArg _ ?_)
  have hnotfirst : v.toNat % 65536 ≠ 0x6D41 := by omega
  have hsecond := wdKey_unlocked v tick ((lockSet_atWrite s now tick).not.mpr h)
  exact hsecond.trans ((if_neg hnotfirst).trans (if_pos ⟨hkey, hstep, hfrom, hto⟩))

theorem wdKeyWrite_cancels (hdie : dieRuns s = true) (h : ¬ lockSet s) (hfirst : v.toNat % 65536 ≠ 0x6D41)
    (hother : v.toNat % 65536 ≠ 0x92BE ∨ s.wd.keyStep ≠ 1) :
    leavesWd s now (.wdKeyWrite now v tick) { s.wd with tick := max s.wd.tick tick, keyStep := 0 } := by
  refine (exec_wdKeyWrite now v tick hdie).trans (congrArg _ ?_)
  have hnotsecond : ¬ (v.toNat % 65536 = 0x92BE ∧ s.wd.keyStep = 1 ∧ s.wd.keyTick ≤ tick ∧ tick ≤ s.wd.keyTick + 16) :=
    fun ⟨hkey, hstep, _⟩ => hother.elim (absurd hkey) (absurd hstep)
  have hunlocked := wdKey_unlocked v tick ((lockSet_atWrite s now tick).not.mpr h)
  exact hunlocked.trans ((if_neg hfirst).trans (if_neg hnotsecond))

end

end Sys2Proof.Machine
end

section
/-!
PROOFS. The watchdog's events: expiry, check-in and reply, and its rules taken together (R588-R605).
-/
namespace Sys2Proof.Machine

open Sys2Proof

/-! ### Expiry and check-in -/

section
variable {s : State} {now : Tb} {tick : Nat}

/-- While the die is off or EN is 0 the watchdog does not count, and no event of its period acts (R586). -/
theorem wdCounts_dieAt_eq_false (h : ¬ (dieRuns s = true ∧ s.wd.state ≠ .disabled)) : wdCounts (dieAt s now) = false := by
  rw [wdCounts_dieAt, Bool.eq_false_iff]
  exact mt (wdCounts_iff s).mp h

theorem exec_wdPeriodExpiry_off (h : ¬ (dieRuns s = true ∧ s.wd.state ≠ .disabled)) :
    exec (.wdPeriodExpiry now) s = .next (dieAt s now) :=
  congrArg Host.Outcome.next (if_neg (by simp [wdCounts_dieAt_eq_false h]))

/-- An expiry is a class of its own, with code 5 (R588, R595). -/
theorem wdActs_wdPeriodExpiry (h : dieRuns s = true ∧ s.wd.state ≠ .disabled) :
    wdActs s (dieAt s now) (exec (.wdPeriodExpiry now) s) 5 := by
  have hexec : exec (.wdPeriodExpiry now) s = .next (wdAfter (wdBad (dieAt s now) .expiry 0xFFFF none)) :=
    congrArg Host.Outcome.next (if_pos ((wdCounts_dieAt s now).trans ((wdCounts_iff s).mpr h)))
  rw [hexec, wdActs_dieAt]
  exact wdActs_wdBad (dieAt s now) (dieAt s now).wd.tick .expiry 0xFFFF none

theorem exec_serviceProcessorCheckIn_off (h : ¬ (dieRuns s = true ∧ s.wd.state ≠ .disabled)) :
    exec (.serviceProcessorCheckIn now) s = .next (dieAt s now) :=
  congrArg Host.Outcome.next (if_neg (by simp [wdCounts_dieAt_eq_false h]))

theorem exec_serviceProcessorCheckIn (h : dieRuns s = true ∧ s.wd.state ≠ .disabled) :
    exec (.serviceProcessorCheckIn now) s = .next (if s.wd.mask.getLsbD 16 then dieAt s now
      else { dieAt s now with wd := { s.wd with mask := s.wd.mask ||| 65536#17 } }) := by
  have hexec : exec (.serviceProcessorCheckIn now) s = .next
      (if wdCounts (dieAt s now) && !(dieAt s now).wd.mask.getLsbD 16 then wdCheckIn (dieAt s now) 16 else dieAt s now) := rfl
  rw [hexec, wdCounts_dieAt, (wdCounts_iff s).mpr h, dieAt_wd]
  cases hbit : s.wd.mask.getLsbD 16 with
  | true => rfl
  | false =>
    have hfirst : ¬ (s.wd.mask.getLsbD 16 = true ∧ s.wd.state ≠ .disabled) := fun ⟨hset, _⟩ =>
      Bool.false_ne_true (hbit.symm.trans hset)
    simp only [wdCheckIn, modWd, dieAt_wd, if_neg hfirst]
    rfl

/-! ### Replies -/

/-- When the service processor replies: in SERVICE mode, once it has checked in, in the open window (R597). -/
def serviceReplies (s : State) (tick : Nat) : Prop :=
  (dieRuns s = true ∧ s.wd.state ≠ .disabled) ∧ s.wd.engineMode = false ∧ s.wd.mask.getLsbD 16 = true ∧ wdW s ≤ tick ∧
    tick < 1024 * s.wd.period

theorem serviceReplies_iff : (wdCounts (dieAt s now) && !(dieAt s now).wd.engineMode && (dieAt s now).wd.mask.getLsbD 16 &&
    wdOpen (dieAt s now) tick) = true ↔ serviceReplies s tick := by
  simp only [Bool.and_eq_true, wdCounts_dieAt, wdCounts_iff, wdOpen_iff, wdW_dieAt, dieAt_wd, Bool.not_eq_true', and_assoc,
    serviceReplies]

theorem exec_serviceProcessorReply_ignored (h : ¬ serviceReplies s tick) :
    exec (.serviceProcessorReply now tick) s = .next (dieAt s now) :=
  congrArg Host.Outcome.next (if_neg (mt serviceReplies_iff.mp h))

theorem exec_serviceProcessorReply (h : serviceReplies s tick) :
    exec (.serviceProcessorReply now tick) s = .next (wdAfter
      (wdReplyAt (dieAt s now) 16 (wdExpected s.wd.lfsr s.wd.mask s.store.wdsalt) tick)) := by
  rw [← dieAt_wd s now, ← dieAt_store s now]
  exact congrArg Host.Outcome.next (if_pos (serviceReplies_iff.mpr h))

/-- The service processor replies with the mask it observes, so only a double check-in makes its service bad (R597). -/
theorem serviceProcessorReply_good (h : serviceReplies s tick) (hd : s.wd.dbl = false) :
    servedWell s (dieAt s now) (exec (.serviceProcessorReply now tick) s) := by
  obtain ⟨⟨_, hon⟩, _, _, hW, _⟩ := id h
  rw [exec_serviceProcessorReply h]
  exact servedWell_wdReplyAt s now _ _ tick hon (wdClassify_good hW hd rfl)

theorem serviceProcessorReply_double (h : serviceReplies s tick) (hd : s.wd.dbl = true) :
    wdActs s (dieAt s now) (exec (.serviceProcessorReply now tick) s) 4 := by
  obtain ⟨⟨_, hon⟩, _, _, hW, _⟩ := id h
  rw [exec_serviceProcessorReply h]
  exact wdActs_wdReplyAt s now _ _ tick hon (wdClassify_double _ hW hd) (by decide)

/-- A store to SF.WDREPLY counts in ENGINE mode, at a tick of the present period, by the running task (R597, R598). -/
theorem exec_wdReply_of_running {sc : Scan} (w : Word) (hrun : s.sched.running = some sc) :
    exec (.wdReply now w tick) s = .next (
      if dieRuns s && s.wd.engineMode && decide (tick < 1024 * s.wd.period) then
        wdAfter (wdReplyAt (dieAt s now) sc.task (w.setWidth 32) tick)
      else dieAt s now) := by
  have hexec : exec (.wdReply now w tick) s = execWdReply now w tick s := rfl
  rw [hexec, execWdReply]
  simp only [dieAt_sched, hrun, dieRuns_dieAt, dieAt_wd, wdP]

theorem exec_wdReply_of_idle (w : Word) (hrun : s.sched.running = none) :
    exec (.wdReply now w tick) s = .next (dieAt s now) := by
  have hexec : exec (.wdReply now w tick) s = execWdReply now w tick s := rfl
  rw [hexec, execWdReply]
  simp only [dieAt_sched, hrun]

theorem exec_wdReply_served {sc : Scan} (w : Word) (hdie : dieRuns s = true) (hmode : s.wd.engineMode = true)
    (hP : tick < 1024 * s.wd.period) (hrun : s.sched.running = some sc) :
    exec (.wdReply now w tick) s = .next (wdAfter (wdReplyAt (dieAt s now) sc.task (w.setWidth 32) tick)) := by
  rw [exec_wdReply_of_running w hrun, if_pos (by simp [hdie, hmode, hP])]

theorem exec_wdReply_ignored (w : Word)
    (h : s.sched.running = none ∨ s.wd.engineMode = false ∨ 1024 * s.wd.period ≤ tick ∨ dieRuns s = false ∨
      s.wd.state = .disabled) :
    exec (.wdReply now w tick) s = .next (dieAt s now) := by
  cases hrun : s.sched.running with
  | none => exact exec_wdReply_of_idle w hrun
  | some sc =>
    rw [exec_wdReply_of_running w hrun]
    split
    next hserved =>
      simp only [Bool.and_eq_true, decide_eq_true_eq] at hserved
      obtain ⟨⟨hdie, hmode⟩, hP⟩ := hserved
      have hoff : (dieAt s now).wd.state = .disabled := by simpa [hrun, hdie, hmode, not_le.mpr hP] using h
      rw [wdReplyAt, if_pos hoff, wdAfter_false]
    next => rfl

theorem wdReply_bad {sc : Scan} {w : Word} {c : WdClass} (hdie : dieRuns s = true) (hmode : s.wd.engineMode = true)
    (hP : tick < 1024 * s.wd.period) (hrun : s.sched.running = some sc) (hon : s.wd.state ≠ .disabled)
    (hc : wdClassify s (w.setWidth 32) tick = c) (hbad : c ≠ .good) :
    wdActs s (dieAt s now) (exec (.wdReply now w tick) s) c.code := by
  rw [exec_wdReply_served w hdie hmode hP hrun]
  exact wdActs_wdReplyAt s now _ _ tick hon hc hbad

theorem wdReply_good {sc : Scan} {w : Word} (hdie : dieRuns s = true) (hmode : s.wd.engineMode = true)
    (hP : tick < 1024 * s.wd.period) (hrun : s.sched.running = some sc) (hon : s.wd.state ≠ .disabled)
    (hc : wdClassify s (w.setWidth 32) tick = .good) :
    servedWell s (dieAt s now) (exec (.wdReply now w tick) s) := by
  rw [exec_wdReply_served w hdie hmode hP hrun]
  exact servedWell_wdReplyAt s now _ _ tick hon hc

end

/-- Settles O53: each event of the watchdog runs to one of its services, whose class R595 gives; a bad one acts by R600, up to
the start that a watchdog reset makes; each register write ends in the row of R604 or R605 that its bits name; no step of
the LFSR takes a register that is not 0 to 0. -/
theorem watchdogRules : Obligations.WatchdogRules := by
  intro s now tick v w sc n k on p served right reply fresh good locked en per left ctrl k' key
  refine ⟨?off, wdActs_wdPeriodExpiry, exec_serviceProcessorCheckIn, ?notServed, ?service, exec_wdReply_ignored w, ?classes,
    ?dieOff, ?control, ?lock, ?keys, lfsrSteps_ne_zero 32⟩
  case off =>
    intro h
    exact ⟨exec_wdPeriodExpiry_off h, exec_serviceProcessorCheckIn_off h,
      exec_serviceProcessorReply_ignored fun hs => h hs.1⟩
  case notServed =>
    intro _ h
    refine exec_serviceProcessorReply_ignored fun ⟨_, hmode, hbit, hW, hP⟩ => ?_
    rcases h with hengine | hclear | hearly | hlate
    · exact Bool.false_ne_true (hmode.symm.trans hengine)
    · exact Bool.false_ne_true (hclear.symm.trans hbit)
    · exact absurd hW (not_le.mpr hearly)
    · exact absurd hP (not_lt.mpr hlate)
  case service =>
    intro hon hmode hbit hW hP
    have hreplies : serviceReplies s tick := ⟨hon, hmode, hbit, hW, hP⟩
    exact ⟨serviceProcessorReply_good hreplies, serviceProcessorReply_double hreplies⟩
  case classes =>
    intro ⟨hdie, hmode, hP, hrun⟩ hon
    exact ⟨fun hearly => wdReply_bad hdie hmode hP hrun hon (wdClassify_early _ hearly) (by decide),
      fun hW hd => wdReply_bad hdie hmode hP hrun hon (wdClassify_double _ hW hd) (by decide),
      fun hW hd hv => wdReply_bad hdie hmode hP hrun hon (wdClassify_wrong hW hd hv) (by decide),
      fun hW hd hv => wdReply_good hdie hmode hP hrun hon (wdClassify_good hW hd hv)⟩
  case dieOff =>
    intro hdie
    exact ⟨exec_wdCtrlWrite_off hdie, exec_wdKeyWrite_off hdie⟩
  case control =>
    intro hdie hv
    exact ⟨wdCtrlWrite_enables hdie hv, wdCtrlWrite_stays_disabled hdie hv, wdCtrlWrite_disables hdie hv,
      wdCtrlWrite_refused hdie hv, fun hon hen hper =>
        ⟨wdCtrlWrite_period_taken hdie hv hon hen hper, wdCtrlWrite_period_ignored hdie hv hon hen hper⟩⟩
  case lock => exact wdCtrlWrite_locks
  case keys =>
    intro hdie
    exact ⟨wdKeyWrite_locked hdie, wdKeyWrite_first hdie, wdKeyWrite_second hdie, wdKeyWrite_cancels hdie⟩

end Sys2Proof.Machine
end

section
/-!
PROOFS. The words of the logic engine: each format of the encoder read back by the decoder (R200, R238-R242).
-/
namespace Sys2Proof

/-! ### Parts of an encoded word -/

/-- An operand field: no bit at or above the opcode (R200). -/
def inBody (b : Word) : Prop := fld b 28 12 = 0

@[simp] theorem inBody_zero : inBody 0 := fld_zero ..

@[simp] theorem inBody_or (a b : Word) : inBody (a ||| b) ↔ inBody a ∧ inBody b := by
  rw [inBody, fld_or]
  exact BitVec.or_eq_zero_iff

theorem inBody_put {n : Nat} (i : Nat) (x : BitVec n) (h : i + n ≤ 28) : inBody (put i x) := fld_put_ne _ _ _ _ (.inl h)

theorem inBody_encSrc (i : Nat) (p : PSrc) (h : i + 3 ≤ 28) : inBody (encSrc i p) :=
  (inBody_or ..).mpr ⟨inBody_put _ _ h, inBody_put _ _ (by omega)⟩

@[simp] theorem inBody_encMode (m : Mode) : inBody (encMode m) := fld_encMode_high _ _ _ (by omega)

@[simp] theorem inBody_encAbs (a : Abs) : inBody (encAbs a) :=
  (inBody_or ..).mpr ⟨inBody_put _ _ (by omega), inBody_put _ _ (by omega)⟩

theorem fld_of_inBody {b : Word} (hb : inBody b) (i n : Nat) (hi : 28 ≤ i) : fld b i n = 0 := by
  apply BitVec.eq_of_getLsbD_eq
  intro j hj
  by_cases h40 : i + j < 40
  · have h := congrArg (fun x => x.getLsbD (i + j - 28)) hb
    simpa [fld, -BitVec.getLsbD_eq_getElem, hj, show i + j - 28 < 12 by omega, show 28 + (i + j - 28) = i + j by omega] using h
  · simp [fld, -BitVec.getLsbD_eq_getElem, BitVec.getLsbD_of_ge b (i + j) (by omega)]

theorem opcode_encWord (g : Guard) (op : BitVec 8) {body : Word} (hb : inBody body) : fld (encWord g op body) 28 8 = op := by
  simp (disch := omega) [encWord, fld_or, fld_put_same, fld_put_ne, fld_of_inBody hb]

theorem decGuard_encWord (g : Guard) (op : BitVec 8) {body : Word} (hb : inBody body) : decGuard (encWord g op body) = g := by
  simp (disch := omega) [decGuard, encWord, fld_or, fld_put_same, fld_put_ne, fld_of_inBody hb,
    -BitVec.getLsbD_eq_getElem]

/-- A field of the operands is read from the operand field. -/
theorem fld_encWord (g : Guard) (op : BitVec 8) (body : Word) (i n : Nat) (h : i + n ≤ 28) :
    fld (encWord g op body) i n = fld body i n := by
  simp (disch := omega) [encWord, fld_or, fld_put_ne]

theorem getLsbD_encWord (g : Guard) (op : BitVec 8) (body : Word) (i : Nat) (h : i < 28) :
    (encWord g op body).getLsbD i = body.getLsbD i := by
  simp (disch := omega) [encWord, getLsbD_put_ne, -BitVec.getLsbD_eq_getElem]

theorem fld_encSrc_ne (i j n : Nat) (p : PSrc) (h : i + 3 ≤ j ∨ j + n ≤ i - 1) : fld (encSrc i p) j n = 0 := by
  rw [encSrc, fld_or, fld_put_ne _ _ _ _ (by omega), fld_put_ne _ _ _ _ (by omega)]
  simp

theorem getLsbD_encSrc_ne (i j : Nat) (p : PSrc) (h : i + 3 ≤ j ∨ j < i - 1) : (encSrc i p).getLsbD j = false := by
  rw [encSrc, BitVec.getLsbD_or, getLsbD_put_ne _ _ _ (by omega), getLsbD_put_ne _ _ _ (by omega)]
  rfl

theorem fld_encSrc (i : Nat) (p : PSrc) (h : 0 < i ∧ i + 3 ≤ 40) : fld (encSrc i p) i 3 = p.p := by
  rw [encSrc, fld_or, fld_put_same _ _ h.2, fld_put_ne _ _ _ _ (by omega)]
  simp

theorem getLsbD_encSrc (i j : Nat) (p : PSrc) (h : 0 < i ∧ i ≤ 40 ∧ j = i - 1) : (encSrc i p).getLsbD j = p.inv := by
  obtain ⟨h0, h40, rfl⟩ := h
  rw [encSrc, BitVec.getLsbD_or, getLsbD_put_ne _ _ _ (by omega), getLsbD_put_same _ _ (by omega), BitVec.getLsbD_ofBool]
  rfl

/-! ### Words of one opcode -/

/-- The instruction of a word with a given opcode. -/
def decodeAs (op : Nat) (w : Word) : Option Instr :=
  if op < 0x30 then decLow w op
  else if op < 0x50 then decInt w op
  else if op < 0x70 then decMove w op
  else if op < 0xA0 then decArith w op
  else decHigh w op

theorem decodeWord_eq_decodeAs (w : Word) : decodeWord w = decodeAs (fld w 28 8).toNat w := rfl

theorem decodeWord_encWord (g : Guard) (op : BitVec 8) (body : Word) (hb : inBody body) :
    decodeWord (encWord g op body) = decodeAs op.toNat (encWord g op body) := by
  rw [decodeWord_eq_decodeAs, opcode_encWord g op hb]

/-- The decoder on the fields of a word, given where its operand field puts them. -/
theorem decodeWord_encWord_some (g : Guard) (op : BitVec 8) (body : Word) (i : Instr) (hb : inBody body)
    (h : decGuard (encWord g op body) = g → decodeAs op.toNat (encWord g op body) = some i) :
    decodeWord (encWord g op body) = some i :=
  (decodeWord_encWord g op body hb).trans (h (decGuard_encWord g op hb))

/-! ### The formats -/

section
variable (op : BitVec 8) (g : Guard)

theorem decodeWord_encR3 (f : Guard → Reg → Reg → Reg → Instr) (rd rs1 rs2 : Reg) (h : decodeAs op.toNat = (decR3 · f)) :
    decodeWord (encR3 op g rd rs1 rs2) = some (f g rd rs1 rs2) := by
  refine decodeWord_encWord_some g op _ _ (by simp (disch := omega) [inBody_put]) fun hg => ?_
  simp (disch := omega) [h, decR3, hg, fld_encWord, fld_or, fld_put_same, fld_put_ne]

theorem decodeWord_encR2 (f : Guard → Reg → Reg → Instr) (rd rs1 : Reg) (h : decodeAs op.toNat = (decR2 · f)) :
    decodeWord (encR2 op g rd rs1) = some (f g rd rs1) := by
  refine decodeWord_encWord_some g op _ _ (by simp (disch := omega) [inBody_put]) fun hg => ?_
  simp (disch := omega) [h, decR2, hg, fld_encWord, fld_or, fld_put_same, fld_put_ne]

theorem decodeWord_encRI (f : Guard → Reg → Reg → BitVec 18 → Instr) (rd rs1 : Reg) (imm : BitVec 18)
    (h : decodeAs op.toNat = (decRI · f)) : decodeWord (encRI op g rd rs1 imm) = some (f g rd rs1 imm) := by
  refine decodeWord_encWord_some g op _ _ (by simp (disch := omega) [inBody_put]) fun hg => ?_
  simp (disch := omega) [h, decRI, hg, fld_encWord, fld_or, fld_put_same, fld_put_ne]

theorem decodeWord_encRC (f : Guard → Reg → Reg → BitVec 6 → Instr) (rd rs1 : Reg) (c : BitVec 6)
    (h : decodeAs op.toNat = (decRC · f) ∨
      c < 40#6 ∧ decodeAs op.toNat = fun w => if fld w 0 6 < 40#6 then decRC w f else none) :
    decodeWord (encRC op g rd rs1 c) = some (f g rd rs1 c) := by
  refine decodeWord_encWord_some g op _ _ (by simp (disch := omega) [inBody_put]) fun hg => ?_
  rcases h with h | ⟨hc, h⟩
  · simp (disch := omega) [h, decRC, hg, fld_encWord, fld_or, fld_put_same, fld_put_ne]
  · simp (disch := omega) [h, decRC, hg, hc, fld_encWord, fld_or, fld_put_same, fld_put_ne]

theorem decodeWord_encP (f : Guard → BitVec 3 → PSrc → PSrc → Instr) (pd : BitVec 3) (s1 s2 : PSrc)
    (h : decodeAs op.toNat = (decP · f)) : decodeWord (encP op g pd s1 s2) = some (f g pd s1 s2) := by
  refine decodeWord_encWord_some g op _ _ (by simp (disch := omega) [inBody_put, inBody_encSrc]) fun hg => ?_
  simp (disch := omega) [h, decP, decSrc, hg, fld_encWord, fld_or, fld_put_same, fld_put_ne, fld_encSrc, fld_encSrc_ne,
    getLsbD_encWord, getLsbD_put_ne, getLsbD_encSrc, getLsbD_encSrc_ne, -BitVec.getLsbD_eq_getElem]

theorem decodeWord_encAC (f : Guard → BitVec 2 → Reg → Reg → Instr) (a : BitVec 2) (rs1 rs2 : Reg)
    (h : decodeAs op.toNat = (decAC · f)) : decodeWord (encAC op g a rs1 rs2) = some (f g a rs1 rs2) := by
  refine decodeWord_encWord_some g op _ _ (by simp (disch := omega) [inBody_put]) fun hg => ?_
  simp (disch := omega) [h, decAC, hg, fld_encWord, fld_or, fld_put_same, fld_put_ne]

theorem decodeWord_encAX (f : Guard → BitVec 3 → BitVec 24 → Instr) (k : BitVec 3) (imm : BitVec 24)
    (h : decodeAs op.toNat = (decAX · f)) : decodeWord (encAX op g k imm) = some (f g k imm) := by
  refine decodeWord_encWord_some g op _ _ (by simp (disch := omega) [inBody_put]) fun hg => ?_
  simp (disch := omega) [h, decAX, hg, fld_encWord, fld_or, fld_put_same, fld_put_ne]

theorem decodeWord_encAXr (f : Guard → BitVec 3 → Reg → Instr) (k : BitVec 3) (rs : Reg)
    (h : decodeAs op.toNat = (decAXr · f)) : decodeWord (encAXr op g k rs) = some (f g k rs) := by
  refine decodeWord_encWord_some g op _ _ (by simp (disch := omega) [inBody_put]) fun hg => ?_
  simp (disch := omega) [h, decAXr, hg, fld_encWord, fld_or, fld_put_same, fld_put_ne]

/-- The fields of a word of format T. -/
theorem decodeWord_encT (pd : BitVec 3) (s1 s2 s3 : PSrc) (x : BitVec 3) (k : BitVec 10) (i : Instr)
    (h : ∀ w, decGuard w = g → fld w 25 3 = pd → decSrc w 22 = s1 → decSrc w 18 = s2 → decSrc w 14 = s3 → fld w 10 3 = x →
      fld w 0 10 = k → decodeAs op.toNat w = some i) : decodeWord (encT op g pd s1 s2 s3 x k) = some i := by
  refine decodeWord_encWord_some g op _ _ (by simp (disch := omega) [inBody_put, inBody_encSrc]) fun hg =>
    h _ hg ?_ ?_ ?_ ?_ ?_ ?_
  all_goals simp (disch := omega) [decSrc, fld_encWord, fld_or, fld_put_same, fld_put_ne, fld_encSrc, fld_encSrc_ne,
    getLsbD_encWord, getLsbD_put_ne, getLsbD_encSrc, getLsbD_encSrc_ne, -BitVec.getLsbD_eq_getElem]

theorem decodeWord_encT1 (f : Guard → BitVec 3 → PSrc → BitVec 3 → BitVec 10 → Instr) (pd : BitVec 3) (s1 : PSrc)
    (x : BitVec 3) (k : BitVec 10) (h : decodeAs op.toNat = (decT1 · f)) :
    decodeWord (encT op g pd s1 noSrc noSrc x k) = some (f g pd s1 x k) :=
  decodeWord_encT op g pd s1 _ _ x k _ fun w hg h1 h2 _ _ h5 h6 => by simp only [h, decT1, hg, h1, h2, h5, h6]

theorem decodeWord_encT2 (f : Guard → BitVec 3 → PSrc → PSrc → BitVec 3 → BitVec 10 → Instr) (pd : BitVec 3)
    (s1 s2 : PSrc) (x : BitVec 3) (k : BitVec 10) (h : decodeAs op.toNat = (decT2 · f)) :
    decodeWord (encT op g pd s1 s2 noSrc x k) = some (f g pd s1 s2 x k) :=
  decodeWord_encT op g pd s1 s2 _ x k _ fun w hg h1 h2 h3 _ h5 h6 => by simp only [h, decT2, hg, h1, h2, h3, h5, h6]

theorem decodeWord_encB (pk : BitVec 3) (t : CodeAddr) (i : Instr)
    (h : ∀ w, decGuard w = g → fld w 25 3 = pk → fld w 0 20 = t → decodeAs op.toNat w = some i) :
    decodeWord (encB op g pk t) = some i := by
  refine decodeWord_encWord_some g op _ _ (by simp (disch := omega) [inBody_put]) fun hg => h _ hg ?_ ?_
  all_goals simp (disch := omega) [fld_encWord, fld_or, fld_put_same, fld_put_ne]

/-- Format C, whose last field is a register or an immediate below bit 16. -/
theorem decodeWord_encC (pd : BitVec 3) (cc : BitVec 4) (rs1 : Reg) {j n : Nat} (y : BitVec n) (i : Instr) (hn : j + n ≤ 16)
    (h : ∀ w, decGuard w = g → fld w 25 3 = pd → fld w 21 4 = cc → fld w 16 5 = rs1 → fld w j n = y →
      decodeAs op.toNat w = some i) : decodeWord (encC op g pd cc rs1 (put j y)) = some i := by
  refine decodeWord_encWord_some g op _ _ (by simp (disch := omega) [inBody_put]) fun hg => h _ hg ?_ ?_ ?_ ?_
  all_goals simp (disch := omega) [fld_encWord, fld_or, fld_put_same, fld_put_ne]

theorem decodeWord_encPR (pd : BitVec 3) (rs : Reg) (f : BitVec 6) (i : Instr)
    (h : ∀ w, decGuard w = g → fld w 25 3 = pd → fld w 20 5 = rs → fld w 14 6 = f → decodeAs op.toNat w = some i) :
    decodeWord (encPR op g pd rs f) = some i := by
  refine decodeWord_encWord_some g op _ _ (by simp (disch := omega) [inBody_put]) fun hg => h _ hg ?_ ?_ ?_
  all_goals simp (disch := omega) [fld_encWord, fld_or, fld_put_same, fld_put_ne]

/-- Format M with a register or predicate field above the mode: the mode reads back where it is permitted. -/
theorem decodeWord_encMode {j n : Nat} (y : BitVec n) (m : Mode) (point : Bool) (i : Instr) (hj : 23 ≤ j) (hn : j + n ≤ 28)
    (hm : point = true ∨ m.notPoint = true)
    (h : ∀ w, decGuard w = g → fld w j n = y → decMode w point = some m → decodeAs op.toNat w = some i) :
    decodeWord (encWord g op (put j y ||| encMode m)) = some i := by
  refine decodeWord_encWord_some g op _ _ (by simp (disch := omega) [inBody_put]) fun hg => h _ hg ?_ ?_
  · simp (disch := omega) [fld_encWord, fld_or, fld_put_same, fld_encMode_high]
  · apply decMode_of_fields _ m point _ _ _ _ _ hm
    all_goals simp (disch := omega) [fld_encWord, fld_or, fld_put_ne]

theorem decodeWord_encAbs (r : Reg) (a : Abs) (i : Instr) (ha : a.wf = true)
    (h : ∀ w, decGuard w = g → fld w 23 5 = r → decAbs w = some a → decodeAs op.toNat w = some i) :
    decodeWord (encWord g op (put 23 r ||| encAbs a)) = some i := by
  have hr : a.region ≠ 3#2 := by simpa [Abs.wf] using ha
  refine decodeWord_encWord_some g op _ _ (by simp (disch := omega) [inBody_put]) fun hg => h _ hg ?_ ?_
  all_goals simp (disch := omega) [decAbs, encAbs, hr, fld_encWord, fld_or, fld_put_same, fld_put_ne]

end

/-- Settles O22: by the formats, each of which reads back every field that its encoder puts. -/
theorem decodeOfEncode : Obligations.DecodeOfEncode := by
  intro i w hwf hw
  cases i <;> simp only [encodeWord, Option.some.injEq, reduceCtorEq] at hw
  all_goals subst hw
  case add | sub | and | or | xor | adds | subs | min | max | minu | maxu | shl | shr | sar | mul | muls | div | divu | rem
      | fadd | fsub | fmul | fdiv | fmin | fmax => exact decodeWord_encR3 _ _ _ _ _ _ rfl
  case neg | abs | mov | tagr | fsqrt | fneg | fabs | itof | ftoi | ftrunc => exact decodeWord_encR2 _ _ _ _ _ rfl
  case addi | andi | ori | xori => exact decodeWord_encRI _ _ _ _ _ _ rfl
  case shli | shri | sari => exact decodeWord_encRC _ _ _ _ _ _ (.inl rfl)
  case bset | bclr => exact decodeWord_encRC _ _ _ _ _ _ (.inr ⟨of_decide_eq_true hwf, rfl⟩)
  case pand | pnand | por | pnor | pxor => exact decodeWord_encP _ _ _ _ _ _ rfl
  case pmov g pd s1 => exact decodeWord_encP _ g (fun g pd s1 _ => .pmov g pd s1) pd s1 noSrc rfl
  case mpy | mac | msu => exact decodeWord_encAC _ _ _ _ _ _ rfl
  case clra g a => exact decodeWord_encAC _ g (fun g a _ _ => .clra g a) a 0 0 rfl
  case mvra g a rs => exact decodeWord_encAC _ g (fun g a rs _ => .mvra g a rs) a rs 0 rfl
  case setx | setm | setb | setn => exact decodeWord_encAX _ _ _ _ _ rfl
  case movx | movm | movb | movn => exact decodeWord_encAXr _ _ _ _ _ rfl
  case ton | tof | tp | rtrig | ftrig => exact decodeWord_encT1 _ _ _ _ _ _ _ rfl
  case ctu | ctd => exact decodeWord_encT2 _ _ _ _ _ _ _ _ rfl
  case ctud g pd s1 s2 s3 x k =>
    exact decodeWord_encT _ g pd s1 s2 s3 x k _ fun w => by rintro rfl rfl rfl rfl rfl rfl rfl; rfl
  case cmp g pd cc a b =>
    exact decodeWord_encC _ g pd cc a b _ (by omega) fun w => by
      rintro rfl rfl rfl rfl rfl; exact if_pos (of_decide_eq_true hwf)
  case cmpi g pd cc a k =>
    exact decodeWord_encC _ g pd cc a k _ (by omega) fun w => by
      rintro rfl rfl rfl rfl rfl; exact if_pos (of_decide_eq_true hwf)
  case fcmp g pd cc a b =>
    exact decodeWord_encC _ g pd cc a b _ (by omega) fun w => by
      rintro rfl rfl rfl rfl rfl; exact if_pos (of_decide_eq_true hwf)
  case btst g pd rs b =>
    exact decodeWord_encPR _ g pd rs b _ fun w => by rintro rfl rfl rfl rfl; exact if_pos (of_decide_eq_true hwf)
  case qtst g pd rs q =>
    exact decodeWord_encPR _ g pd rs q _ fun w => by rintro rfl rfl rfl rfl; exact if_pos (of_decide_eq_true hwf)
  case br | call => exact decodeWord_encB _ _ _ _ _ fun w => by rintro rfl _ rfl; rfl
  case beq | bne => exact decodeWord_encB _ _ _ _ _ fun w => by rintro rfl rfl rfl; rfl
  case ldp g pd m => 
    exact decodeWord_encMode _ g pd m true _ (by omega) (by omega) (.inl rfl) fun w => by
      rintro rfl rfl hm; exact congrArg (Option.map _) hm
  case ldpr g rd m => 
    exact decodeWord_encMode _ g rd m true _ (by omega) (by omega) (.inl rfl) fun w => by
      rintro rfl rfl hm; exact congrArg (Option.map _) hm
  case stpr g m rs => 
    exact decodeWord_encMode _ g rs m true _ (by omega) (by omega) (.inl rfl) fun w => by
      rintro rfl rfl hm; exact congrArg (Option.map _) hm
  case ld g rd m => 
    exact decodeWord_encMode _ g rd m false _ (by omega) (by omega) (.inr hwf) fun w => by
      rintro rfl rfl hm; exact congrArg (Option.map _) hm
  case st g m rs => 
    exact decodeWord_encMode _ g rs m false _ (by omega) (by omega) (.inr hwf) fun w => by
      rintro rfl rfl hm; exact congrArg (Option.map _) hm
  case ldAbs g rd a => 
    exact decodeWord_encAbs _ g rd a _ hwf fun w => by rintro rfl rfl ha; exact congrArg (Option.map _) ha
  case stAbs g a rs => 
    exact decodeWord_encAbs _ g rs a _ hwf fun w => by rintro rfl rfl ha; exact congrArg (Option.map _) ha
  case stp g m s =>
    refine decodeWord_encWord_some g _ _ _ (by simp (disch := omega) [inBody_encSrc]) fun hg => ?_
    have hm : decMode (encWord g 0x21 (encSrc 25 s ||| encMode m)) true = some m := by
      apply decMode_of_fields _ m true _ _ _ _ _ (.inl rfl)
      all_goals simp (disch := omega) [fld_encWord, fld_or, fld_encSrc_ne]
    refine (congrArg (Option.map _) hm).trans ?_
    simp (disch := omega) [fld_encWord, fld_or, fld_encSrc, fld_encMode_high, getLsbD_encWord, getLsbD_encSrc,
      getLsbD_encMode_high, -BitVec.getLsbD_eq_getElem]
    exact hg
  case nop => exact decodeWord_encWord_some _ _ _ _ inBody_zero (congrArg fun g => some (Instr.nop g))
  case eos => exact decodeWord_encWord_some _ _ _ _ inBody_zero (congrArg fun g => some (Instr.eos g))
  case wdci => exact decodeWord_encWord_some _ _ _ _ inBody_zero (congrArg fun g => some (Instr.wdci g))
  case ret => exact decodeWord_encWord_some _ _ _ _ inBody_zero (congrArg fun g => some (Instr.ret g))
  case macd | msud =>
    refine decodeWord_encWord_some _ _ _ _ (by simp (disch := omega) [inBody_put]) fun hg => ?_
    simp (disch := omega) [decodeAs, decArith, fld_encWord, fld_or, fld_put_same, fld_put_ne]
    exact hg
  case chg | chgr | pmovr | mva | movImm | movh | sel | rdx | qmax | jmp | calli =>
    refine decodeWord_encWord_some _ _ _ _ (by simp (disch := omega) [inBody_put, inBody_encSrc]) fun hg => ?_
    simp (disch := omega) [decodeAs, decLow, decMove, decArith, decHigh, decSrc, fld_encWord, fld_or, fld_put_same,
      fld_put_ne, fld_encSrc, fld_encSrc_ne, getLsbD_encWord, getLsbD_put_ne, getLsbD_put_same, getLsbD_encSrc,
      -BitVec.getLsbD_eq_getElem]
    exact hg

/-! ### What decodes is well formed (R242) -/

/-- A well-formed instruction that the encoder has a word for. -/
def soundInstr (i : Instr) : Prop := i.wf = true ∧ (encodeWord i).isSome = true

/-- The decoder's answer is no instruction or a sound one. -/
def soundAnswer (o : Option Instr) : Prop := ∀ i, o = some i → soundInstr i

theorem soundAnswer_none : soundAnswer none := fun _ h => by cases h

theorem soundAnswer_some {i : Instr} (h : soundInstr i) : soundAnswer (some i) := fun _ hi => Option.some.inj hi ▸ h

theorem soundAnswer_ite {c : Prop} [Decidable c] {o o' : Option Instr} (h : c → soundAnswer o) (h' : soundAnswer o') :
    soundAnswer (if c then o else o') := by
  split
  next hc => exact h hc
  next => exact h'

theorem soundAnswer_map {α : Type} {o : Option α} {f : α → Instr} (h : ∀ a, o = some a → soundInstr (f a)) :
    soundAnswer (o.map f) := by
  rintro i hi
  obtain ⟨a, ha, rfl⟩ := Option.map_eq_some_iff.mp hi
  exact h a ha

theorem notPoint_of_decMode {w : Word} {m : Mode} (h : decMode w false = some m) : m.notPoint = true := by
  unfold decMode at h
  split at h
  case h_1 => cases h
  case h_6 => cases h
  all_goals cases h; rfl

theorem wf_of_decAbs {w : Word} {a : Abs} (h : decAbs w = some a) : a.wf = true := by
  unfold decAbs at h
  split at h
  next => cases h
  next hr => cases h; simpa [Abs.wf] using hr

theorem soundAnswer_decLow (w : Word) (op : Nat) : soundAnswer (decLow w op) := by
  unfold decLow
  dsimp only
  split
  case h_12 | h_13 => exact soundAnswer_ite (fun h => soundAnswer_some ⟨decide_eq_true h, rfl⟩) soundAnswer_none
  case h_15 | h_16 | h_17 | h_18 => exact soundAnswer_map fun _ _ => ⟨rfl, rfl⟩
  case h_19 => exact soundAnswer_none
  all_goals exact soundAnswer_some ⟨rfl, rfl⟩

theorem soundAnswer_decInt (w : Word) (op : Nat) : soundAnswer (decInt w op) := by
  unfold decInt
  split
  case h_24 | h_25 => exact soundAnswer_ite (fun h => soundAnswer_some ⟨decide_eq_true h, rfl⟩) soundAnswer_none
  case h_26 => exact soundAnswer_none
  all_goals exact soundAnswer_some ⟨rfl, rfl⟩

theorem soundAnswer_decMove (w : Word) (op : Nat) : soundAnswer (decMove w op) := by
  unfold decMove
  dsimp only
  split
  case h_16 | h_17 | h_18 => exact soundAnswer_ite (fun h => soundAnswer_some ⟨decide_eq_true h, rfl⟩) soundAnswer_none
  case h_19 => exact soundAnswer_none
  all_goals exact soundAnswer_some ⟨rfl, rfl⟩

theorem soundAnswer_decArith (w : Word) (op : Nat) : soundAnswer (decArith w op) := by
  unfold decArith
  dsimp only
  split
  case h_26 => exact soundAnswer_none
  all_goals exact soundAnswer_some ⟨rfl, rfl⟩

theorem soundAnswer_decHigh (w : Word) (op : Nat) : soundAnswer (decHigh w op) := by
  unfold decHigh
  dsimp only
  split
  case h_1 | h_3 => exact soundAnswer_map fun _ hm => ⟨notPoint_of_decMode hm, rfl⟩
  case h_2 | h_4 => exact soundAnswer_map fun _ ha => ⟨wf_of_decAbs ha, rfl⟩
  case h_20 => exact soundAnswer_none
  all_goals exact soundAnswer_some ⟨rfl, rfl⟩

/-- Settles O23: every branch of the decoder answers nothing or a sound instruction; a range check stands before each
operand that not every value fits. -/
theorem decodedIsWellFormed : Obligations.DecodedIsWellFormed := by
  intro w
  exact soundAnswer_ite (fun _ => soundAnswer_decLow _ _) <| soundAnswer_ite (fun _ => soundAnswer_decInt _ _) <|
    soundAnswer_ite (fun _ => soundAnswer_decMove _ _) <| soundAnswer_ite (fun _ => soundAnswer_decArith _ _) <|
      soundAnswer_decHigh _ _

end Sys2Proof
end

section
/-!
PROOFS. Instructions whose destination is one general register: integer arithmetic, logic and shifts, multiply and divide
(R222, R225, R229, R255-R259).
-/
namespace Sys2Proof.Machine

open Sys2Proof

/-! ### Wrapping, clamping and plain results -/

section
variable {s : State} {i : Instr} {g : Guard} {cost : Nat} {rd rs1 rs2 : Reg}

/-- An instruction on two registers whose result is r, with no flag. -/
theorem writesReg_plain2 (F : Engine → Tagged → Tagged → Engine × Tagged) (r : Tagged)
    (hi : exec i s = regs2 s g cost rd rs1 rs2 F) (hf : F s.eng (readReg s.eng rs1) (readReg s.eng rs2) = (s.eng, r)) :
    writesReg s i g cost rd r 0 0 :=
  writesReg_regs2 F s i g cost rd rs1 rs2 r 0 0 hi (by simpa using hf)

/-- An instruction on one register whose result is r, with no flag. -/
theorem writesReg_plain1 (F : Engine → Tagged → Engine × Tagged) (r : Tagged) (hi : exec i s = regs1 s g cost rd rs1 F)
    (hf : F s.eng (readReg s.eng rs1) = (s.eng, r)) : writesReg s i g cost rd r 0 0 :=
  writesReg_regs1 F s i g cost rd rs1 r 0 0 hi (by simpa using hf)

/-- A wrapping result of two registers under any tag (R222). -/
theorem writesWrapped_regs2 (F : Engine → Tagged → Tagged → Engine × Tagged) (v : Word) (exact : Int) (tag : Byte)
    (hi : exec i s = regs2 s g cost rd rs1 rs2 F)
    (hf : F s.eng (readReg s.eng rs1) (readReg s.eng rs2) =
      (ovStatus s.eng (outI40 exact), ⟨v, ovTag s.eng tag (outI40 exact)⟩)) :
    writesWrapped s i g cost rd v exact tag :=
  writesReg_regs2 F s i g cost rd rs1 rs2 _ _ 0 hi (by rw [hf]; cases outI40 exact <;> simp [ovStatus, ovTag, orStatus, badIf])

/-- A wrapping result of one register under any tag (R222). -/
theorem writesWrapped_regs1 (F : Engine → Tagged → Engine × Tagged) (v : Word) (exact : Int) (tag : Byte)
    (hi : exec i s = regs1 s g cost rd rs1 F)
    (hf : F s.eng (readReg s.eng rs1) = (ovStatus s.eng (outI40 exact), ⟨v, ovTag s.eng tag (outI40 exact)⟩)) :
    writesWrapped s i g cost rd v exact tag :=
  writesReg_regs1 F s i g cost rd rs1 _ _ 0 hi (by rw [hf]; cases outI40 exact <;> simp [ovStatus, ovTag, orStatus, badIf])

/-- A clamped result of two registers (R257). -/
theorem writesClamped_regs2 (F : Engine → Tagged → Tagged → Engine × Tagged) (exact : Int) (tag : Bool → Byte)
    (hi : exec i s = regs2 s g cost rd rs1 rs2 F)
    (hf : F s.eng (readReg s.eng rs1) (readReg s.eng rs2) = (s.eng, ⟨(clampI40 exact).1, tag (clampI40 exact).2⟩)) :
    writesClamped s i g cost rd exact tag :=
  writesReg_plain2 F _ hi (by rw [hf, clampI40_eq])

end

theorem wrapRes_eq_wrapped (e : Engine) (exact : Int) (v : Word) (ts : List Byte) (hv : BitVec.ofInt 40 exact = v) :
    wrapRes e exact ts = (ovStatus e (outI40 exact), ⟨v, ovTag e (tagWorst ts false) (outI40 exact)⟩) := by
  rw [outI40_eq, ← hv]
  rfl

theorem clampRes_eq (e : Engine) (exact : Int) (ts : List Byte) :
    clampRes e exact ts = (e, ⟨(clampI40 exact).1, tagWorst ts (clampI40 exact).2⟩) := rfl

/-! ### Integer arithmetic (R255-R257) -/

theorem ofInt_abs (x : Word) : BitVec.ofInt 40 |x.toInt| = if x.msb then -x else x := by
  cases h : x.msb
  · rw [abs_of_nonneg (by rw [BitVec.toInt_eq_msb_cond, h]; simp)]
    simp
  · rw [abs_of_neg (BitVec.toInt_neg_of_msb_true h), BitVec.ofInt_neg, BitVec.ofInt_toInt, if_pos rfl]

theorem ite_lt_eq_ofInt_min (x y : Word) : (if y.toInt < x.toInt then y else x) = BitVec.ofInt 40 (min x.toInt y.toInt) := by
  split
  next h => simp [min_eq_right h.le]
  next h => simp [min_eq_left (not_lt.mp h)]

theorem ite_lt_eq_ofInt_max (x y : Word) : (if x.toInt < y.toInt then y else x) = BitVec.ofInt 40 (max x.toInt y.toInt) := by
  split
  next h => simp [max_eq_right h.le]
  next h => simp [max_eq_left (not_lt.mp h)]

theorem ite_lt_eq_ofNat_min (x y : Word) : (if y.toNat < x.toNat then y else x) = BitVec.ofNat 40 (min x.toNat y.toNat) := by
  split
  next h => simp [min_eq_right h.le]
  next h => simp [min_eq_left (not_lt.mp h)]

theorem ite_lt_eq_ofNat_max (x y : Word) : (if x.toNat < y.toNat then y else x) = BitVec.ofNat 40 (max x.toNat y.toNat) := by
  split
  next h => simp [max_eq_right h.le]
  next h => simp [max_eq_left (not_lt.mp h)]

theorem toInt_immTagged (imm : BitVec 18) : (immTagged imm).val.toInt = imm.toInt :=
  BitVec.toInt_signExtend_of_le (by omega)

theorem ofInt_sub (x y : Word) : BitVec.ofInt 40 (x.toInt - y.toInt) = x - y := by
  rw [Int.sub_eq_add_neg, BitVec.ofInt_add, BitVec.ofInt_neg, BitVec.ofInt_toInt, BitVec.ofInt_toInt, BitVec.sub_eq_add_neg]

theorem ite_neg_eq_abs (v : Int) : (if v < 0 then -v else v) = |v| := by
  split
  next h => exact (abs_of_neg h).symm
  next h => exact (abs_of_nonneg (not_lt.mp h)).symm

/-- Settles O2: each instruction is one write of its register, with the exact result wrapped or clamped. -/
theorem integerArithmeticResults : Obligations.IntegerArithmeticResults := by
  refine ⟨fun s g rd rs1 rs2 imm => ⟨?_, ?_, ?_, ?_, ?_⟩, fun s g rd rs1 rs2 => ⟨?_, ?_, ?_, ?_, ?_, ?_⟩⟩
  · refine writesWrapped_regs2 addRes _ _ _ rfl (wrapRes_eq_wrapped _ _ _ _ ?_)
    rw [BitVec.ofInt_add, BitVec.ofInt_toInt, BitVec.ofInt_toInt]
  · exact writesWrapped_regs2 subRes _ _ _ rfl (wrapRes_eq_wrapped _ _ _ _ (ofInt_sub _ _))
  · refine writesWrapped_regs1 (fun e x => wrapRes e (-x.val.toInt) [x.tag]) _ _ _ rfl (wrapRes_eq_wrapped _ _ _ _ ?_)
    rw [BitVec.ofInt_neg, BitVec.ofInt_toInt]
  · refine writesWrapped_regs1 (fun e x => wrapRes e (if x.val.toInt < 0 then -x.val.toInt else x.val.toInt) [x.tag]) _ _ _ rfl ?_
    rw [ite_neg_eq_abs]
    exact wrapRes_eq_wrapped _ _ _ _ (ofInt_abs _)
  · refine writesWrapped_regs1 (fun e x => addRes e x (immTagged imm)) _ _ _ rfl ?_
    rw [addRes, toInt_immTagged]
    refine wrapRes_eq_wrapped _ _ _ _ ?_
    rw [← toInt_immTagged, BitVec.ofInt_add, BitVec.ofInt_toInt, BitVec.ofInt_toInt]
    rfl
  · exact writesClamped_regs2 (fun e x y => clampRes e (x.val.toInt + y.val.toInt) [x.tag, y.tag]) _ _ rfl (clampRes_eq _ _ _)
  · exact writesClamped_regs2 (fun e x y => clampRes e (x.val.toInt - y.val.toInt) [x.tag, y.tag]) _ _ rfl (clampRes_eq _ _ _)
  · exact writesReg_plain2 (fun e x y => worstRes e (if y.val.toInt < x.val.toInt then y.val else x.val) [x.tag, y.tag]) _ rfl
      (by rw [ite_lt_eq_ofInt_min]; rfl)
  · exact writesReg_plain2 (fun e x y => worstRes e (if x.val.toInt < y.val.toInt then y.val else x.val) [x.tag, y.tag]) _ rfl
      (by rw [ite_lt_eq_ofInt_max]; rfl)
  · exact writesReg_plain2 (fun e x y => worstRes e (if y.val.toNat < x.val.toNat then y.val else x.val) [x.tag, y.tag]) _ rfl
      (by rw [ite_lt_eq_ofNat_min]; rfl)
  · exact writesReg_plain2 (fun e x y => worstRes e (if x.val.toNat < y.val.toNat then y.val else x.val) [x.tag, y.tag]) _ rfl
      (by rw [ite_lt_eq_ofNat_max]; rfl)

/-! ### Logic and shifts (R255-R257) -/

/-- A value lies outside the I40 range exactly when its word does not read back as it (R222). -/
theorem outI40_eq_toInt_ofInt_ne (v : Int) : outI40 v = decide ((BitVec.ofInt 40 v).toInt ≠ v) := by
  rw [outI40, decide_eq_decide, BitVec.toInt_ofInt, ne_eq, Int.bmod_eq_iff (by norm_num)]
  omega

theorem ofInt_mul_two_pow (x : Word) (c : Nat) : BitVec.ofInt 40 (x.toInt * 2 ^ c) = x <<< c := by
  have h : (2 : Int) ^ c = ((2 ^ c : Nat) : Int) := by push_cast; rfl
  rw [BitVec.ofInt_mul, BitVec.ofInt_toInt, h, BitVec.ofInt_natCast, ← BitVec.mul_twoPow_eq_shiftLeft]
  congr 1
  apply BitVec.eq_of_toNat_eq
  simp [BitVec.toNat_twoPow]

theorem shiftLeft_eq (x : Word) (c : Nat) :
    shiftLeft x c = (x <<< c, outI40 (if c < 40 then x.toInt * 2 ^ c else 0)) := by
  unfold shiftLeft
  split
  next h =>
    rw [if_neg (by omega), BitVec.shiftLeft_eq_zero h]
    rfl
  next h => rw [if_pos (by omega), outI40_eq_toInt_ofInt_ne, ofInt_mul_two_pow]

theorem shiftRight_eq (x : Word) (c : Nat) : shiftRight x c = x >>> c := by
  unfold shiftRight
  split
  next h => rw [BitVec.ushiftRight_eq_zero h]; rfl
  next => rfl

theorem shiftArith_eq (x : Word) (c : Nat) : shiftArith x c = BitVec.ofInt 40 (x.toInt / 2 ^ c) := by
  have h40 : x.sshiftRight (if 40 ≤ c then 40 else c) = x.sshiftRight c := by
    split
    next h =>
      apply BitVec.eq_of_getLsbD_eq
      intro i _
      simp [BitVec.getLsbD_sshiftRight, -BitVec.getLsbD_eq_getElem, show ¬ c + i < 40 by omega]
    next => rfl
  rw [shiftArith, h40, ← BitVec.ofInt_toInt (x := x.sshiftRight c), BitVec.toInt_sshiftRight, Int.shiftRight_eq_div_pow]
  norm_cast

theorem shlRes_eq (e : Engine) (x y : Tagged) :
    shlRes e x y = (ovStatus e (outI40 (if y.val.toNat < 40 then x.val.toInt * 2 ^ y.val.toNat else 0)),
      ⟨x.val <<< y.val.toNat, ovTag e (tagDom [(x.tag, false), (y.tag, decide (40 ≤ y.val.toNat))] false)
        (outI40 (if y.val.toNat < 40 then x.val.toInt * 2 ^ y.val.toNat else 0))⟩) := by
  rw [shlRes, shiftLeft_eq]

theorem shrRes_eq (e : Engine) (x y : Tagged) :
    shrRes e x y =
      (e, ⟨x.val >>> y.val.toNat, tagDom [(x.tag, false), (y.tag, decide (40 ≤ y.val.toNat))] false⟩) := by
  rw [shrRes, shiftRight_eq]

theorem sarRes_eq (e : Engine) (x y : Tagged) :
    sarRes e x y = (e, ⟨BitVec.ofInt 40 (x.val.toInt / 2 ^ y.val.toNat), tagWorst [x.tag, y.tag] false⟩) := by
  rw [sarRes, shiftArith_eq]
  rfl

theorem exec_bset {s : State} {g : Guard} {rd rs1 : Reg} {b : BitVec 6} (h : b < 40#6) :
    exec (.bset g rd rs1 b) s = regs1 s g 1 rd rs1 (fun e x => worstRes e (x.val ||| (1#40 <<< b.toNat)) [x.tag]) :=
  if_neg (by bv_omega)

theorem exec_bclr {s : State} {g : Guard} {rd rs1 : Reg} {b : BitVec 6} (h : b < 40#6) :
    exec (.bclr g rd rs1 b) s = regs1 s g 1 rd rs1 (fun e x => worstRes e (x.val &&& ~~~(1#40 <<< b.toNat)) [x.tag]) :=
  if_neg (by bv_omega)

/-- Settles O3: the bitwise instructions compute their own tags; the shifts agree with multiplication, division and the
shifts of bit vectors for every count. -/
theorem integerLogicAndShiftResults : Obligations.IntegerLogicAndShiftResults := by
  refine ⟨fun s g rd rs1 rs2 imm b => ⟨?_, ?_, ?_, ?_, ?_, ?_, fun hb => ⟨?_, ?_⟩⟩,
    fun s g rd rs1 rs2 c => ⟨?_, ?_, ?_, ?_, ?_, ?_⟩⟩
  · exact writesReg_plain2 andRes _ rfl rfl
  · exact writesReg_plain2 orRes _ rfl rfl
  · exact writesReg_plain2 xorRes _ rfl rfl
  · exact writesReg_plain1 (fun e x => andRes e x (immTagged imm)) _ rfl rfl
  · exact writesReg_plain1 (fun e x => orRes e x (immTagged imm)) _ rfl rfl
  · exact writesReg_plain1 (fun e x => xorRes e x (immTagged imm)) _ rfl rfl
  · exact writesReg_plain1 _ _ (exec_bset hb) rfl
  · exact writesReg_plain1 _ _ (exec_bclr hb) rfl
  · exact writesWrapped_regs2 shlRes _ _ _ rfl (shlRes_eq ..)
  · exact writesReg_plain2 shrRes _ rfl (shrRes_eq ..)
  · exact writesReg_plain2 sarRes _ rfl (sarRes_eq ..)
  · exact writesWrapped_regs1 (fun e x => shlRes e x (countTagged c)) _ _ _ rfl (shlRes_eq ..)
  · exact writesReg_plain1 (fun e x => shrRes e x (countTagged c)) _ rfl (shrRes_eq ..)
  · exact writesReg_plain1 (fun e x => sarRes e x (countTagged c)) _ rfl (sarRes_eq ..)

/-! ### Multiply and divide (R225, R258, R259) -/

theorem ofInt_tdiv (x y : Word) : BitVec.ofInt 40 (x.toInt.tdiv y.toInt) = x.sdiv y :=
  BitVec.eq_of_toInt_eq (by rw [BitVec.toInt_ofInt, BitVec.toInt_sdiv])

theorem ofInt_tmod (x y : Word) : BitVec.ofInt 40 (x.toInt.tmod y.toInt) = x.srem y := by
  rw [← BitVec.toInt_srem, BitVec.ofInt_toInt]

theorem ofNat_div (x y : Word) : BitVec.ofNat 40 (x.toNat / y.toNat) = x / y :=
  BitVec.eq_of_toNat_eq (by
    rw [BitVec.toNat_ofNat, BitVec.toNat_udiv, Nat.mod_eq_of_lt ((Nat.div_le_self _ _).trans_lt x.isLt)])

/-- An instruction that divides by zero (R225). -/
theorem writesReg_divZero {s : State} {i : Instr} {g : Guard} {rd rs1 rs2 : Reg}
    (F : Engine → Tagged → Tagged → Engine × Tagged) (hy : (readReg s.eng rs2).val = 0)
    (hi : exec i s = regs2 s g 24 rd rs1 rs2 (fun e x y => if y.val = 0 then divZero e x y else F e x y)) :
    writesReg s i g 24 rd
      ⟨0, worsenTag (tagWorst [(readReg s.eng rs1).tag, (readReg s.eng rs2).tag] false) qBad⟩ stDiv0 0 :=
  writesReg_regs2 _ s i g 24 rd rs1 rs2 _ stDiv0 0 hi (by simp [hy, divZero, orStatus])

/-- Settles O4: products and quotients of the exact integers, wrapped or clamped, and the case of a zero divisor. -/
theorem multiplyDivideResults : Obligations.MultiplyDivideResults := by
  refine fun s g rd rs1 rs2 => ⟨?_, ?_, fun hy => ⟨?_, ?_, ?_⟩, fun hy i hi => ?_⟩
  · refine writesWrapped_regs2 (fun e x y => (ovStatus e (wrapI40 (x.val.toInt * y.val.toInt)).2,
      ⟨(wrapI40 (x.val.toInt * y.val.toInt)).1, ovTag e (mulTag x y false) (wrapI40 (x.val.toInt * y.val.toInt)).2⟩))
      _ _ _ rfl ?_
    rw [outI40_eq]
    simp only [wrapI40, BitVec.ofInt_mul, BitVec.ofInt_toInt, mulTag]
  · exact writesClamped_regs2 (fun e x y => (e, ⟨(clampI40 (x.val.toInt * y.val.toInt)).1,
      mulTag x y (clampI40 (x.val.toInt * y.val.toInt)).2⟩)) _ _ rfl rfl
  · exact writesWrapped_regs2 (fun e x y =>
      if y.val = 0 then divZero e x y else wrapRes e (Int.tdiv x.val.toInt y.val.toInt) [x.tag, y.tag]) _ _ _ rfl
      ((if_neg hy).trans (wrapRes_eq_wrapped _ _ _ _ (ofInt_tdiv _ _)))
  · exact writesReg_plain2 (fun e x y =>
      if y.val = 0 then divZero e x y else worstRes e (BitVec.ofNat 40 (x.val.toNat / y.val.toNat)) [x.tag, y.tag]) _ rfl
      ((if_neg hy).trans (by rw [ofNat_div]; rfl))
  · exact writesReg_plain2 (fun e x y =>
      if y.val = 0 then divZero e x y else worstRes e (BitVec.ofInt 40 (Int.tmod x.val.toInt y.val.toInt)) [x.tag, y.tag]) _ rfl
      ((if_neg hy).trans (by rw [ofInt_tmod]; rfl))
  · rcases hi with rfl | rfl | rfl
    · exact writesReg_divZero (fun e x y => wrapRes e (Int.tdiv x.val.toInt y.val.toInt) [x.tag, y.tag]) hy rfl
    · exact writesReg_divZero (fun e x y => worstRes e (BitVec.ofNat 40 (x.val.toNat / y.val.toNat)) [x.tag, y.tag]) hy rfl
    · exact writesReg_divZero (fun e x y => worstRes e (BitVec.ofInt 40 (Int.tmod x.val.toInt y.val.toInt)) [x.tag, y.tag]) hy rfl

/-! ### F40 results (R223-R225, R262, R263) -/

section
variable {s : State} {i : Instr} {g : Guard} {cost : Nat} {rd rs1 rs2 : Reg}

theorem writesF40_regs2 (F : Engine → Tagged → Tagged → Engine × Tagged) (r : FRes) (tag : Byte)
    (hi : exec i s = regs2 s g cost rd rs1 rs2 F)
    (hf : F s.eng (readReg s.eng rs1) (readReg s.eng rs2) = fpRes s.eng r tag) : writesF40 s i g cost rd r tag :=
  writesReg_regs2 F s i g cost rd rs1 rs2 _ 0 _ hi (by rw [hf]; simp [fpRes, orFpstat, badIf])

theorem writesF40_regs1 (F : Engine → Tagged → Engine × Tagged) (r : FRes) (tag : Byte)
    (hi : exec i s = regs1 s g cost rd rs1 F) (hf : F s.eng (readReg s.eng rs1) = fpRes s.eng r tag) :
    writesF40 s i g cost rd r tag :=
  writesReg_regs1 F s i g cost rd rs1 _ 0 _ hi (by rw [hf]; simp [fpRes, orFpstat, badIf])

theorem writesI40_of_toI40 (f : Word → Word × Bool × Bool) (hi : exec i s = regs1 s g 4 rd rs1 (toI40 f)) :
    writesI40 s i g rd (f (readReg s.eng rs1).val) (tagWorst [(readReg s.eng rs1).tag]) :=
  writesReg_plain1 (toI40 f) _ hi rfl

end

/-! ### The special cases of F40 (R224, R225, R263) -/

theorem fFlip_eq (a : Word) : fFlip a = a ^^^ BitVec.twoPow 40 39 := rfl

theorem extractLsb'_fFlip (a : Word) (i n : Nat) (h : i + n ≤ 39) : (fFlip a).extractLsb' i n = a.extractLsb' i n := by
  apply BitVec.eq_of_getLsbD_eq
  intro j hj
  simp [fFlip_eq, BitVec.getLsbD_twoPow, -BitVec.getLsbD_eq_getElem, hj, show ¬ 39 = i + j by omega]

theorem fExp_fFlip (a : Word) : fExp (fFlip a) = fExp a :=
  congrArg BitVec.toNat (extractLsb'_fFlip a 31 8 (by omega))

theorem fFrac_fFlip (a : Word) : fFrac (fFlip a) = fFrac a :=
  congrArg BitVec.toNat (extractLsb'_fFlip a 0 31 (by omega))

theorem fIsInf_fFlip (a : Word) : fIsInf (fFlip a) = fIsInf a := by simp [fIsInf, fExp_fFlip, fFrac_fFlip]

theorem fIsNan_fFlip (a : Word) : fIsNan (fFlip a) = fIsNan a := by simp [fIsNan, fExp_fFlip, fFrac_fFlip]

theorem fSign_fFlip (a : Word) : fSign (fFlip a) = !fSign a := by
  simp [fSign, fFlip_eq, BitVec.getLsbD_twoPow, -BitVec.getLsbD_eq_getElem]

theorem fIsNan_of_fIsInf {a : Word} (h : fIsInf a = true) : fIsNan a = false := by
  simp_all [fIsInf, fIsNan]

theorem fIsNan_of_fIsZero {a : Word} (h : fIsZero a = true) : fIsNan a = false := by
  simp_all [fIsZero, fIsNan]

theorem fIsInf_of_fIsZero {a : Word} (h : fIsZero a = true) : fIsInf a = false := by
  simp_all [fIsZero, fIsInf]

/-- A NaN operand gives a NaN, bad. -/
theorem f40_nan {a b : Word} (h : fIsNan a = true ∨ fIsNan b = true) :
    ∀ r ∈ [fAdd a b, fSub a b, fMul a b, fDiv a b, fMin a b, fMax a b], r.val = fNan ∧ r.bad = true := by
  have h' : (fIsNan a || fIsNan b) = true := by simpa using h
  have hsub : fSub a b = fNanRes fpNone := by
    unfold fSub
    split
    next => rfl
    next hb => exact if_pos (by rw [fIsNan_fFlip]; exact h')
  simp [hsub, fAdd, fMul, fDiv, fMin, fMax, h', fNanRes]

/-- The order of the zeros: −0 stands below +0 (R263). -/
theorem f40_zeros {a b : Word} (ha : fIsZero a = true) (hb : fIsZero b = true) (hs : fSign a = true) :
    (fMin a b).val = fZero true ∧ (fMin b a).val = fZero true ∧ (fMax a b).val = fZero (fSign b) := by
  cases hsb : fSign b <;>
    simp [fMin, fMax, fOrd, fCanon, fExact, ha, hb, hs, hsb, fIsNan_of_fIsZero ha, fIsNan_of_fIsZero hb]

/-- An infinity converts to the nearest I40 value, with L (R225). -/
theorem ftoi_inf {a : Word} (h : fIsInf a = true) (round : Nat → Nat → Nat) :
    ftoiWith round a = (if fSign a then BitVec.ofInt 40 i40Min else BitVec.ofInt 40 i40Max, true, false) := by
  rw [ftoiWith, fIsNan_of_fIsInf h, h]
  cases fSign a <;> rfl

/-- Settles O5: the results are those of the F40 operations, whose special cases are their first branches. -/
theorem f40Results : Obligations.F40Results := by
  refine ⟨fun s g rd rs1 rs2 => ⟨?_, ?_, ?_, ?_, ?_, ?_, ?_, ?_, ?_, ?_, ?_, ?_⟩,
    fun a b => ⟨f40_nan, fun ha hb => ?_, fun ha hb => ?_, fun ha0 hai han hb => ?_, fun ha hb => ?_, fun ha hb hs => ?_,
      fun ha hb hs => ?_, fun ha => ?_, fun hs hz hn => ?_, f40_zeros, fun ha => ?_, fun ha => ⟨ftoi_inf ha _, ?_⟩⟩⟩
  · exact writesF40_regs2 (fp2 fAdd) _ _ rfl rfl
  · exact writesF40_regs2 (fp2 fSub) _ _ rfl rfl
  · exact writesF40_regs2 fmulRes _ _ rfl rfl
  · exact writesF40_regs2 (fp2 fDiv) _ _ rfl rfl
  · exact writesF40_regs1 (fp1 fSqrt) _ _ rfl rfl
  · exact writesF40_regs1 (fp1 fNeg) _ _ rfl rfl
  · exact writesF40_regs1 (fp1 fAbs) _ _ rfl rfl
  · exact writesF40_regs2 (fp2 fMin) _ _ rfl rfl
  · exact writesF40_regs2 (fp2 fMax) _ _ rfl rfl
  · exact writesF40_regs1 (fp1 itof) _ _ rfl rfl
  · exact writesI40_of_toI40 ftoi rfl
  · exact writesI40_of_toI40 ftrunc rfl
  · simp [fDiv, fIsNan_of_fIsZero ha, fIsNan_of_fIsZero hb, ha, hb, fNanRes, fNan]
  · simp [fDiv, fIsNan_of_fIsInf ha, fIsNan_of_fIsInf hb, ha, hb, fNanRes, fNan]
  · simp [fDiv, han, ha0, hai, hb, fIsNan_of_fIsZero hb, fIsInf_of_fIsZero hb]
  · simp [fMul, fIsNan_of_fIsInf ha, fIsNan_of_fIsZero hb, ha, hb, fNanRes, fNan]
  · simp [fAdd, fIsNan_of_fIsInf ha, fIsNan_of_fIsInf hb, ha, hb, hs, fNanRes, fNan]
  · simp [fSub, fAdd, fIsNan_fFlip, fIsInf_fFlip, fSign_fFlip, fIsNan_of_fIsInf ha, fIsNan_of_fIsInf hb, ha, hb, hs, fNanRes,
      fNan]
  · simp [fSqrt, fIsNan_of_fIsZero ha, ha, fExact]
  · simp [fSqrt, hn, hz, hs, fNanRes, fNan]
  · simp [ftoi, ftrunc, ftoiWith, ha]
  · exact (ftoi_inf ha _).trans (ftoi_inf ha _).symm

/-! ### Moves to a general register (R227, R228, R251, R260, R264, R266) -/

/-- The high 20 bits replaced over the low ones. -/
theorem append_low (i : BitVec 20) (x : Word) :
    (i.setWidth 40 <<< (20 : Nat)) ||| (x.extractLsb' 0 20).setWidth 40 = i ++ x.extractLsb' 0 20 := by
  apply BitVec.eq_of_getLsbD_eq
  intro j hj
  simp only [BitVec.getLsbD_or, BitVec.getLsbD_shiftLeft, BitVec.getLsbD_setWidth, BitVec.getLsbD_append,
    BitVec.getLsbD_extractLsb']
  by_cases h : j < 20
  · simp [h, hj]
  · simp [h, hj, show j - 20 < 40 by omega]

/-- A move from an accumulator (R227), for the shifted value v. -/
theorem accMove_eq (a : BitVec 88) (sh : Nat) (sat : Bool) :
    accMove a sh sat =
      (BitVec.ofInt 40 (if sat then max (-549755813888) (min (a.toInt / 2 ^ sh) 549755813887) else a.toInt / 2 ^ sh),
        sat && outI40 (a.toInt / 2 ^ sh), outI40 (a.toInt / 2 ^ sh) && !sat) := by
  have hv : (a.sshiftRight sh).toInt = a.toInt / 2 ^ sh := by
    rw [BitVec.toInt_sshiftRight, Int.shiftRight_eq_div_pow]
    norm_cast
  rw [accMove, hv, outI40_eq]
  cases hin : inI40 (a.toInt / 2 ^ sh) with
  | true =>
    have hle : -549755813888 ≤ a.toInt / 2 ^ sh ∧ a.toInt / 2 ^ sh ≤ 549755813887 := by
      simp only [inI40, Bool.and_eq_true, decide_eq_true_eq] at hin
      exact hin
    simp [min_eq_left hle.2, max_eq_right hle.1]
  | false => cases sat <;> simp [clampI40_eq]

/-- Settles O6: each instruction is one write of its register; the value moved from an accumulator is shifted, then clamped or
wrapped. -/
theorem moveResults : Obligations.MoveResults := by
  refine fun s g rd rs rs2 p k i23 i20 q l a sh => ⟨?_, ?_, ?_, ?_, ?_, ?_, ?_, ?_, ?_⟩
  · exact writesReg_plain1 (fun e x => (e, ⟨x.val, tagMove x.tag⟩)) _ rfl rfl
  · exact writesReg_of s _ g 1 rd _ 0 0 (fun e => writeReg e rd ⟨i23.signExtend 40, 0⟩) rfl (by simp)
  · refine writesReg_plain1 (fun e x => worstRes e ((i20.setWidth 40 <<< (20 : Nat)) ||| (x.val.extractLsb' 0 20).setWidth 40) [x.tag])
      _ rfl ?_
    rw [append_low]
    rfl
  · refine writesReg_of s _ g 1 rd _ 0 0 (fun e => writeReg e rd
      ⟨(if srcVal e p then readReg e rs else readReg e rs2).val,
        tagSel (if srcVal e p then readReg e rs else readReg e rs2).tag (srcQ e p)⟩) rfl ?_
    cases srcVal s.eng p <;> simp [tagSel]
  · exact writesReg_of s _ g 1 rd _ 0 0 (fun e => writeReg e rd ⟨(readX e k).val.setWidth 40, qTag (readX e k).q⟩) rfl (by simp)
  · exact writesReg_plain1 (fun e x => worstRes e x.val [x.tag, mkTag false l false false false q false]) _ rfl rfl
  · exact writesReg_plain1 (fun e x => (e, ⟨x.tag.setWidth 40, 0⟩)) _ rfl rfl
  · exact writesReg_of s _ g 1 rd _ 0 0 (fun e => writeReg e rd ⟨if srcVal e p then 1 else 0, srcTag e p⟩) rfl (by simp [srcTag])
  · refine writesReg_of s _ g 1 rd _ _ 0 (fun e =>
      writeReg (ovStatus e (accMove (readAcc e a).val sh.toNat (ctrlAccsat e)).2.2) rd
        ⟨(accMove (readAcc e a).val sh.toNat (ctrlAccsat e)).1, setL (tagMove (readAcc e a).tag)
          (tagL (readAcc e a).tag || (accMove (readAcc e a).val sh.toNat (ctrlAccsat e)).2.1)⟩) rfl ?_
    simp only [accMove_eq]
    cases outI40 ((readAcc s.eng a).val.toInt / 2 ^ sh.toNat) && !ctrlAccsat s.eng <;> simp [ovStatus, orStatus]

end Sys2Proof.Machine
end

section
/-!
PROOFS. The run of one instruction: what it leaves under its guard, without it, and when it overruns; instructions that
leave general registers and predicates alone (R47, R200-R202, R212, R215, R218).
-/
namespace Sys2Proof.Machine

open Sys2Proof

/-! ### The three ends of an instruction -/

/-- The engine at the end of an instruction whose body left e: the pending load at its destination, the pc, the load left
pending, the destinations worsened by the guard's Q, the beats. -/
def endInstr (e0 : Engine) (g : Guard) (cost : Nat) (dests : List Dest) (isLoad : Bool) (pc : CodeAddr)
    (load : Option PendLoad) (e : Engine) : Engine :=
  let e1 := { commitLoad e with
    pc := pc, pend := load.map (fun p => { p with val := { p.val with tag := worsenTag p.val.tag (guardQ e0 g) } }) }
  countBeats (if isLoad then e1 else dests.foldl (worsenDest (guardQ e0 g)) e1) cost (ctrlPmask e0)

section
variable {s : State} {g : Guard} {cost : Nat} {dests : List Dest} {isLoad : Bool}
  {body : State → Except OverrunCause EngOut} {after : Bool → State → State}

theorem engineRunThen_met {o : EngOut} (hc : canRun s cost = true) (hg : guardMet s.eng g = true) (hb : body s = .ok o)
    (hr : o.st.sched.running.isSome = true) :
    engineRunThen s g cost dests isLoad body after =
      after true (notePmovr (modEng o.st (endInstr s.eng g cost dests isLoad o.pc o.load))) := by
  obtain ⟨sc, hsc, hp, hle⟩ := canRun_some hc
  have hnone : o.st.sched.running.isNone = false := by simpa using hr
  simp only [engineRunThen, hsc, hp, ne_eq, not_true_eq_false, if_false, hg, if_true, Nat.not_lt.mpr hle, hb, hnone,
    Bool.false_eq_true, Bool.true_and]
  rfl

theorem engineRunThen_unmet (hc : canRun s 1 = true) (hg : guardMet s.eng g = false) :
    engineRunThen s g cost dests isLoad body after =
      after false (notePmovr (modEng s (endInstr s.eng g 1 dests false (s.eng.pc + 1) none))) := by
  obtain ⟨sc, hsc, hp, hle⟩ := canRun_some hc
  simp only [engineRunThen, hsc, hp, ne_eq, not_true_eq_false, if_false, hg, Bool.false_eq_true, Nat.not_lt.mpr hle,
    engOut, Option.isNone_some, Bool.false_and, endInstr, nextPc, Option.map_none, modEng]

theorem engineRunThen_postage {sc : Scan} (hsc : s.sched.running = some sc) (hp : sc.phase = .execute)
    (hg : guardMet s.eng g = true) (hlt : (taskDef s sc.task).p < s.eng.beats + cost) :
    engineRunThen s g cost dests isLoad body after = overrunOp s .postage := by
  simp only [engineRunThen, hsc, hp, ne_eq, not_true_eq_false, if_false, hg, if_true, hlt]

theorem engineRunThen_error {c : OverrunCause} (hc : canRun s cost = true) (hg : guardMet s.eng g = true)
    (hb : body s = .error c) : engineRunThen s g cost dests isLoad body after = overrunOp s c := by
  obtain ⟨sc, hsc, hp, hle⟩ := canRun_some hc
  simp only [engineRunThen, hsc, hp, ne_eq, not_true_eq_false, if_false, hg, if_true, Nat.not_lt.mpr hle, hb]

end

/-! ### Instructions that leave homes alone -/

/-- src agrees with e but for accumulators, address registers and the record of an access error. -/
def keepsHomes (e src : Engine) : Prop :=
  src = { e with
    a := src.a, x := src.x, m := src.m, b := src.b, n := src.n, status := src.status, errpc := src.errpc,
    erraddr := src.erraddr }

theorem keepsHomes.get {α : Type} {e src : Engine} (h : keepsHomes e src) (f : Engine → α) :
    f src = f { e with
      a := src.a, x := src.x, m := src.m, b := src.b, n := src.n, status := src.status, errpc := src.errpc,
      erraddr := src.erraddr } := congrArg f h

/-- The engine after an instruction that leaves the homes of e alone and the rest as in src. -/
def afterInstr (e src : Engine) (cost : Nat) (pc : CodeAddr) (pend : Option PendLoad) : Engine :=
  { src with
    h := (commitLoad e).h, win := (commitLoad e).win, p := (commitLoad e).p, pc := pc, pend := pend,
    beats := e.beats + cost, pmcount := (if ctrlPmask e then e.pmcount + cost else e.pmcount),
    status := src.status ||| pmovrBit e cost,
    ctrl := (if maskEnds e cost then e.ctrl &&& 0xFFFFFFFFFE else e.ctrl) }

/-- The pending load changes homes only. -/
theorem commitLoad_keepsHomes {e src : Engine} (h : keepsHomes e src) :
    commitLoad src =
      { src with h := (commitLoad e).h, win := (commitLoad e).win, p := (commitLoad e).p, pend := none } := by
  have hpend : src.pend = e.pend := h.get Engine.pend
  rw [h]
  unfold commitLoad
  dsimp only
  cases hp : e.pend with
  | none => rfl
  | some p =>
    dsimp only
    cases p.dest with
    | home i => rfl
    | frame w i => rfl
    | pred i => simp only [putLoc]; split <;> rfl
    | nowhere => rfl

theorem readLoc_afterInstr (e src : Engine) (cost : Nat) (pc : CodeAddr) (pend : Option PendLoad) (l : LoadDest) :
    readLoc (afterInstr e src cost pc pend) l = readLoc (commitLoad e) l := readLoc_congr _ _ l rfl rfl rfl

/-- Counting the beats of an instruction that neither ends the mask nor counts by itself. -/
theorem countBeats_begun (e f : Engine) (cost : Nat) (hctrl : f.ctrl = e.ctrl) (hpm : f.pmcount = e.pmcount)
    (hbeats : f.beats = e.beats) :
    countBeats f cost (ctrlPmask e) = { f with
      beats := e.beats + cost, pmcount := (if ctrlPmask e then e.pmcount + cost else e.pmcount),
      status := f.status ||| pmovrBit e cost,
      ctrl := (if maskEnds e cost then e.ctrl &&& 0xFFFFFFFFFE else e.ctrl) } := by
  have hk : ctrlPmask f = ctrlPmask e := by unfold ctrlPmask; rw [hctrl]
  have hcond : (ctrlPmask e && ctrlPmask f && decide (9600 ≤ f.pmcount + cost)) = maskEnds e cost := by
    rw [hk, hpm, Bool.and_self]; rfl
  rw [countBeats_eq, hcond, hpm, hbeats, hctrl, pmovrBit]
  cases maskEnds e cost <;> simp

/-- The worsening of the destinations takes src to src', if they are no homes. -/
theorem endInstr_keepsHomes {e src src' : Engine} {g : Guard} {cost : Nat} {dests : List Dest} {isLoad : Bool}
    {pc : CodeAddr} {load : Option PendLoad} (h : keepsHomes e src') (hs : keepsHomes e src)
    (hd : ∀ h win p pend, (if isLoad then { src with h := h, win := win, p := p, pc := pc, pend := pend } else
      dests.foldl (worsenDest (guardQ e g)) { src with h := h, win := win, p := p, pc := pc, pend := pend }) =
      { src' with h := h, win := win, p := p, pc := pc, pend := pend }) :
    endInstr e g cost dests isLoad pc load src = afterInstr e src' cost pc
      (load.map (fun p => { p with val := { p.val with tag := worsenTag p.val.tag (guardQ e g) } })) := by
  simp only [endInstr, commitLoad_keepsHomes hs, hd]
  rw [countBeats_begun]
  · rfl
  · exact h.get Engine.ctrl
  · exact h.get Engine.pmcount
  · exact h.get Engine.beats

/-- An instruction under its guard that leaves the homes alone. -/
theorem engineRun_keepsHomes {s : State} {g : Guard} {cost : Nat} {dests : List Dest} {isLoad : Bool}
    {body : State → Except OverrunCause EngOut} {src src' : Engine} {pc : CodeAddr} {load : Option PendLoad}
    (hc : canRun s cost = true) (hg : guardMet s.eng g = true) (hb : body s = .ok ⟨{ s with eng := src }, pc, load⟩)
    (hs : keepsHomes s.eng src) (h : keepsHomes s.eng src')
    (hd : ∀ h win p pend, (if isLoad then { src with h := h, win := win, p := p, pc := pc, pend := pend } else
      dests.foldl (worsenDest (guardQ s.eng g)) { src with h := h, win := win, p := p, pc := pc, pend := pend }) =
      { src' with h := h, win := win, p := p, pc := pc, pend := pend }) :
    ∃ t, engineRun s g cost dests isLoad body = preemptNow t ∧ engineOnly s t ∧
      t.eng = afterInstr s.eng src' cost pc
        (load.map (fun p => { p with val := { p.val with tag := worsenTag p.val.tag (guardQ s.eng g) } })) := by
  obtain ⟨sc, hsc, -, -⟩ := canRun_some hc
  obtain ⟨honly, heng⟩ := notePmovr_only s (endInstr s.eng g cost dests isLoad pc load src)
  refine ⟨_, engineRunThen_met hc hg hb (by simp [hsc]), honly, ?_⟩
  rw [← endInstr_keepsHomes h hs hd]
  exact heng

end Sys2Proof.Machine
end

section
/-!
PROOFS. Address registers: what a post-modification does, the moves to them, and the dual-fetch forms (R202, R215-R218, R221,
R261, R264, R265).
-/
namespace Sys2Proof.Machine

open Sys2Proof

/-! ### Register files -/

theorem vset_vget_self {α : Type} {n : Nat} (v : Vector α n) (i : Nat) (d : α) : vset v i (vget v i d) = v := by
  unfold vset vget
  split
  next h => simp
  next => rfl

theorem vset_vset_same {α : Type} {n : Nat} (v : Vector α n) (i : Nat) (x y : α) : vset (vset v i x) i y = vset v i y := by
  unfold vset
  split
  next h => simp
  next => rfl

theorem toNat_ne_of_ne {n : Nat} {j k : BitVec n} (h : j ≠ k) : k.toNat ≠ j.toNat := fun h' => h (BitVec.eq_of_toNat_eq h'.symm)

@[simp] theorem readX_writeX_same (e : Engine) (k : BitVec 3) (x : XReg) : readX (writeX e k x) k = x := by
  have hk : k.toNat < 8 := k.isLt
  simp [readX, writeX, vget_vset, hk]

theorem readX_writeX_ne (e : Engine) {j k : BitVec 3} (x : XReg) (h : j ≠ k) : readX (writeX e k x) j = readX e j := by
  simp [readX, writeX, vget_vset, toNat_ne_of_ne h]

theorem readX_congr {e f : Engine} (h : f.x = e.x) (k : BitVec 3) : readX f k = readX e k := by simp only [readX, h]

/-! ### What keeps the homes -/

theorem keepsHomes_refl (e : Engine) : keepsHomes e e := rfl

theorem keepsHomes_trans {e f h : Engine} (h1 : keepsHomes e f) (h2 : keepsHomes f h) : keepsHomes e h :=
  h2.trans (congrArg (fun z : Engine => { z with
    a := h.a, x := h.x, m := h.m, b := h.b, n := h.n, status := h.status, errpc := h.errpc, erraddr := h.erraddr }) h1)

theorem keepsHomes_writeX (e : Engine) (k : BitVec 3) (x : XReg) : keepsHomes e (writeX e k x) := rfl
theorem keepsHomes_writeAcc (e : Engine) (a : BitVec 2) (r : Accum) : keepsHomes e (writeAcc e a r) := rfl
theorem keepsHomes_setAerrAt (e : Engine) (a : BitVec 24) : keepsHomes e (setAerrAt e a) := rfl

/-- A post-modification gives the register a value, keeps its Q, and may record an illegal length (R215, R216). -/
theorem postModify_eq (e : Engine) (k : BitVec 3) : ∃ v, postModify e k = writeX e k ⟨v, (readX e k).q⟩ ∨
    postModify e k = setAerrAt (writeX e k ⟨v, (readX e k).q⟩) (readX e k).val := by
  unfold postModify
  dsimp only
  split
  · split
    · exact ⟨_, .inl rfl⟩
    · exact ⟨_, .inl rfl⟩
  · split
    · exact ⟨_, .inl rfl⟩
    · exact ⟨_, .inr rfl⟩
  · exact ⟨_, .inl rfl⟩

theorem keepsHomes_postModify (e : Engine) (k : BitVec 3) : keepsHomes e (postModify e k) := by
  obtain ⟨v, h | h⟩ := postModify_eq e k <;> rw [h] <;> rfl

theorem readX_postModify_ne (e : Engine) {j k : BitVec 3} (h : j ≠ k) : readX (postModify e k) j = readX e j := by
  obtain ⟨v, hv | hv⟩ := postModify_eq e k
  · rw [hv, readX_writeX_ne _ _ h]
  · rw [hv]
    exact readX_writeX_ne _ _ h

/-- What a post-modification leaves beside its register and the record of an access error. -/
theorem postModify_rest (e : Engine) (k : BitVec 3) : (postModify e k).a = e.a ∧ (postModify e k).m = e.m ∧
    (postModify e k).b = e.b ∧ (postModify e k).n = e.n := by
  obtain ⟨v, h | h⟩ := postModify_eq e k <;> rw [h] <;> exact ⟨rfl, rfl, rfl, rfl⟩

/-- A post-modified register depends on the address registers, their modes, modifiers, bases and lengths alone. -/
theorem readX_postModify_congr {e f : Engine} (k : BitVec 3) (hx : readX f k = readX e k) (ha : f.amode = e.amode)
    (hm : f.m = e.m) (hb : f.b = e.b) (hn : f.n = e.n) : readX (postModify f k) k = readX (postModify e k) k := by
  have hmode : amodeOf f k = amodeOf e k := by unfold amodeOf; rw [ha]
  have hM : readM f k = readM e k := by unfold readM; rw [hm]
  have hB : readB f k = readB e k := by unfold readB; rw [hb]
  have hN : readN f k = readN e k := by unfold readN; rw [hn]
  have hget : ∀ (z : Engine) (a : BitVec 24), readX (setAerrAt z a) k = readX z k := fun _ _ => rfl
  unfold postModify
  simp only [hmode, hM, hB, hN, hx]
  split
  · split <;> simp
  · split
    · simp
    · simp [hget]
  · simp

/-! ### Instructions without a home among their destinations -/

theorem writesNone_mono {s : State} {i : Instr} {g : Guard} {cost : Nat} {post post' : State → Prop}
    (h : writesNone s i g cost post) (hp : ∀ t, post t → post' t) : writesNone s i g cost post' := by
  intro hc hg
  obtain ⟨t, hexec, honly, hloc, hpc, hbeats, hpend, hwpos, hdepth, howner, hamode, hfp, ht⟩ := h hc hg
  exact ⟨t, hexec, honly, hloc, hpc, hbeats, hpend, hwpos, hdepth, howner, hamode, hfp, hp t ht⟩

/-- An instruction that leaves the homes alone, in terms of the engine that it leaves. -/
theorem writesNone_of_keepsHomes {s : State} {i : Instr} {g : Guard} {cost : Nat} {dests : List Dest}
    {body : State → Except OverrunCause EngOut} {src src' : Engine}
    (hi : exec i s = .next (engineRun s g cost dests false body)) (hb : body s = .ok (engOut s src))
    (hs : keepsHomes s.eng src) (h : keepsHomes s.eng src')
    (hd : ∀ h win p pc pend, dests.foldl (worsenDest (guardQ s.eng g))
      { src with h := h, win := win, p := p, pc := pc, pend := pend } =
        { src' with h := h, win := win, p := p, pc := pc, pend := pend }) :
    writesNone s i g cost (fun t => t.eng = afterInstr s.eng src' cost (s.eng.pc + 1) none) := by
  intro hc hg
  obtain ⟨t, hrun, honly, heng⟩ := engineRun_keepsHomes (isLoad := false) (load := none) hc hg hb hs h
    (fun h win p pend => hd h win p (nextPc s) pend)
  refine ⟨t, by rw [hi, hrun], honly, ?_⟩
  rw [heng]
  exact ⟨readLoc_afterInstr _ _ _ _ _, rfl, rfl, rfl, h.get Engine.wpos, h.get Engine.depth, h.get Engine.owner,
    h.get Engine.amode, h.get Engine.fpstat, heng⟩

/-! ### Moves to an address register, modifier, base or length (R264, R265) -/

/-- The register, modifier, base and length of index k replaced. -/
def setAddr (e : Engine) (k : BitVec 3) (x : XReg) (m b n : BitVec 24) : Engine :=
  { e with x := vset e.x k.toNat x, m := vset e.m k.toNat m, b := vset e.b k.toNat b, n := vset e.n k.toNat n }

theorem keepsHomes_setAddr (e : Engine) (k : BitVec 3) (x : XReg) (m b n : BitVec 24) :
    keepsHomes e (setAddr e k x m b n) := rfl

/-- f holds x, m, b and n at index k, and at every other what e holds. -/
def addrWritten (e : Engine) (k : BitVec 3) (x : XReg) (m b n : BitVec 24) (f : Engine) : Prop :=
  (f.a = e.a ∧ f.status = e.status ||| pmovrBit e 1 ∧ f.errpc = e.errpc) ∧
  (∀ j, j ≠ k → readX f j = readX e j ∧ readM f j = readM e j ∧ readB f j = readB e j ∧ readN f j = readN e j) ∧
  readX f k = x ∧ readM f k = m ∧ readB f k = b ∧ readN f k = n

theorem addrWritten_afterInstr (e : Engine) (k : BitVec 3) (x : XReg) (m b n : BitVec 24) (pc : CodeAddr) :
    addrWritten e k x m b n (afterInstr e (setAddr e k x m b n) 1 pc none) := by
  have hk : k.toNat < 8 := k.isLt
  refine ⟨⟨rfl, rfl, rfl⟩, fun j hj => ?_, ?_⟩
  · simp [afterInstr, setAddr, readX, readM, readB, readN, vget_vset, toNat_ne_of_ne hj]
  · simp [afterInstr, setAddr, readX, readM, readB, readN, vget_vset, hk]

/-- An instruction whose destination is the address register of index k (R265). -/
theorem writesNone_of_writeX {s : State} {i : Instr} {g : Guard} {k : BitVec 3} (x : Engine → XReg)
    (hi : exec i s = engineRegs s g 1 [.xreg k] (fun e => writeX e k (x e))) :
    writesNone s i g 1 (fun t => addrWritten s.eng k ⟨(x s.eng).val, worseQ (x s.eng).q (guardQ s.eng g)⟩ (readM s.eng k)
      (readB s.eng k) (readN s.eng k) t.eng) := by
  have hset : worsenX (writeX s.eng k (x s.eng)) k (guardQ s.eng g) =
      setAddr s.eng k ⟨(x s.eng).val, worseQ (x s.eng).q (guardQ s.eng g)⟩ (readM s.eng k) (readB s.eng k) (readN s.eng k) := by
    rw [worsenX, readX_writeX_same]
    simp only [writeX, setAddr, vset_vset_same, readM, readB, readN, vset_vget_self]
  refine writesNone_mono (writesNone_of_keepsHomes hi rfl (keepsHomes_writeX ..) (keepsHomes_writeX ..)
    (src' := worsenX (writeX s.eng k (x s.eng)) k (guardQ s.eng g)) fun _ _ _ _ _ => rfl) fun t ht => ?_
  rw [ht, hset]
  exact addrWritten_afterInstr ..

/-- An instruction without destination that replaces what stands at index k. -/
theorem writesNone_of_setAddr {s : State} {i : Instr} {g : Guard} {k : BitVec 3} (f : Engine → Engine) (x : XReg)
    (m b n : BitVec 24) (hi : exec i s = engineRegs s g 1 [] f) (hf : f s.eng = setAddr s.eng k x m b n) :
    writesNone s i g 1 (fun t => addrWritten s.eng k x m b n t.eng) := by
  refine writesNone_mono (writesNone_of_keepsHomes hi (congrArg (fun e => Except.ok (engOut s e)) hf)
    (keepsHomes_setAddr ..) (keepsHomes_setAddr ..) fun _ _ _ _ _ => rfl) fun t ht => ?_
  rw [ht]
  exact addrWritten_afterInstr ..

/-! ### Dual fetch (R221, R261) -/

/-- The access error of a factor leaves everything but its record. -/
theorem factorErr_eq (s : State) (sc : Scan) (e : Engine) (k : BitVec 3) :
    factorErr s sc e k = e ∨ factorErr s sc e k = setAerrAt e (readX s.eng k).val := by
  unfold factorErr
  split
  · exact .inr rfl
  · exact .inl rfl

theorem keepsHomes_factorErr (s : State) (sc : Scan) (e : Engine) (k : BitVec 3) : keepsHomes e (factorErr s sc e k) := by
  obtain h | h := factorErr_eq s sc e k <;> rw [h] <;> rfl

theorem factorErr_rest (s : State) (sc : Scan) (e : Engine) (k : BitVec 3) : (factorErr s sc e k).a = e.a ∧
    (factorErr s sc e k).x = e.x ∧ (factorErr s sc e k).m = e.m ∧ (factorErr s sc e k).b = e.b ∧
    (factorErr s sc e k).n = e.n := by
  obtain h | h := factorErr_eq s sc e k <;> rw [h] <;> exact ⟨rfl, rfl, rfl, rfl, rfl⟩

/-- What a dual fetch leaves: the sum in its accumulator and the post-modified registers. -/
structure DualFetched (s : State) (sc : Scan) (a : BitVec 2) (xi xj : BitVec 3) (neg : Bool) (f : Engine) : Prop where
  keeps : keepsHomes s.eng f
  m : f.m = s.eng.m
  b : f.b = s.eng.b
  n : f.n = s.eng.n
  acc : f.a = (writeAcc s.eng a (accStep (readAcc s.eng a) (fetchFactor s sc xi) (fetchFactor s sc xj) neg)).a
  first : readX f xi = readX (postModify s.eng xi) xi
  second : readX f xj = readX (postModify s.eng xj) xj
  other : ∀ k, k ≠ xi → k ≠ xj → readX f k = readX s.eng k

theorem dualFetch_fetched (s : State) (sc : Scan) (a : BitVec 2) (xi xj : BitVec 3) (neg : Bool) :
    DualFetched s sc a xi xj neg (dualFetch s sc a xi xj neg) := by
  unfold dualFetch
  extract_lets r f
  have hf : keepsHomes s.eng f := keepsHomes_trans (keepsHomes_writeAcc ..) (keepsHomes_factorErr ..)
  obtain ⟨hfa, hfx, hfm, hfb, hfn⟩ := factorErr_rest s sc (writeAcc s.eng a r) xi
  split
  next hij =>
    subst hij
    obtain ⟨ha, hm, hb, hn⟩ := postModify_rest f xi
    have hread : readX (postModify f xi) xi = readX (postModify s.eng xi) xi :=
      readX_postModify_congr xi (readX_congr hfx xi) (hf.get Engine.amode) hfm hfb hfn
    exact ⟨keepsHomes_trans hf (keepsHomes_postModify ..), hm.trans hfm, hb.trans hfb, hn.trans hfn, ha.trans hfa, hread, hread,
      fun k hk _ => (readX_postModify_ne f hk).trans (readX_congr hfx k)⟩
  next hij =>
    set h := factorErr s sc f xj with hh
    have hkh : keepsHomes s.eng h := keepsHomes_trans hf (keepsHomes_factorErr ..)
    obtain ⟨hha, hhx, hhm, hhb, hhn⟩ := factorErr_rest s sc f xj
    have hxs : h.x = s.eng.x := hhx.trans hfx
    obtain ⟨ha, hm, hb, hn⟩ := postModify_rest h xi
    obtain ⟨ha2, hm2, hb2, hn2⟩ := postModify_rest (postModify h xi) xj
    have hk1 : keepsHomes s.eng (postModify h xi) := keepsHomes_trans hkh (keepsHomes_postModify ..)
    refine ⟨keepsHomes_trans hk1 (keepsHomes_postModify ..), ?_, ?_, ?_, ?_, ?_, ?_, fun k hi hj => ?_⟩
    · rw [hm2, hm, hhm, hfm]; rfl
    · rw [hb2, hb, hhb, hfb]; rfl
    · rw [hn2, hn, hhn, hfn]; rfl
    · rw [ha2, ha, hha, hfa]
    · rw [readX_postModify_ne _ hij]
      exact readX_postModify_congr xi (readX_congr hxs xi) (hkh.get Engine.amode) (hhm.trans hfm) (hhb.trans hfb) (hhn.trans hfn)
    · exact readX_postModify_congr xj ((readX_postModify_ne h (Ne.symm hij)).trans (readX_congr hxs xj)) (hk1.get Engine.amode)
        (hm.trans (hhm.trans hfm)) (hb.trans (hhb.trans hfb)) (hn.trans (hhn.trans hfn))
    · rw [readX_postModify_ne _ hj, readX_postModify_ne _ hi, readX_congr hxs]

theorem writesNone_of_dualFetch {s : State} {sc : Scan} {i : Instr} {g : Guard} {a : BitVec 2} {xi xj : BitVec 3} {neg : Bool}
    (hsc : s.sched.running = some sc)
    (hi : exec i s = .next (engineRun s g 3 [.acc a] false (fun s => withScan s (fun sc =>
      .ok (engOut s (dualFetch s sc a xi xj neg)))))) :
    writesNone s i g 3 (fun t => t.eng =
      afterInstr s.eng (worsenDest (guardQ s.eng g) (dualFetch s sc a xi xj neg) (.acc a)) 3 (s.eng.pc + 1) none) :=
  writesNone_of_keepsHomes hi (by simp only [withScan, hsc]) (dualFetch_fetched ..).keeps
    (keepsHomes_trans (dualFetch_fetched ..).keeps (keepsHomes_writeAcc ..)) fun _ _ _ _ _ => rfl

/-- Settles O8: the moves replace what stands at one index; a dual fetch forms its sum and post-modifies its registers. -/
theorem addressRegisterAndDualFetchResults : Obligations.AddressRegisterAndDualFetchResults := by
  refine ⟨fun s g k rs imm => ⟨?_, ?_, ?_, ?_, ?_, ?_, ?_, ?_⟩, fun s sc g a xi xj sub hsc => ?_⟩
  · exact writesNone_of_writeX (fun e => ⟨(readReg e rs).val.setWidth 24, tagQ (readReg e rs).tag⟩) rfl
  · have h := writesNone_of_writeX (s := s) (i := .setx g k imm) (g := g) (k := k) (fun _ => ⟨imm, qGood⟩) rfl
    rw [worseQ_good_left] at h
    exact h
  · exact writesNone_of_setAddr (fun e => worsenX { e with m := vset e.m k.toNat ((readReg e rs).val.setWidth 24) } k
      (tagQ (readReg e rs).tag)) _ _ _ _ rfl (by simp only [worsenX, writeX, setAddr, readX, readB, readN, vset_vget_self])
  · exact writesNone_of_setAddr (fun e => worsenX { e with b := vset e.b k.toNat ((readReg e rs).val.setWidth 24) } k
      (tagQ (readReg e rs).tag)) _ _ _ _ rfl (by simp only [worsenX, writeX, setAddr, readX, readM, readN, vset_vget_self])
  · exact writesNone_of_setAddr (fun e => worsenX { e with n := vset e.n k.toNat ((readReg e rs).val.setWidth 24) } k
      (tagQ (readReg e rs).tag)) _ _ _ _ rfl (by simp only [worsenX, writeX, setAddr, readX, readM, readB, vset_vget_self])
  · exact writesNone_of_setAddr (fun e => { e with m := vset e.m k.toNat imm }) _ _ _ _ rfl
      (by simp only [setAddr, readX, readB, readN, vset_vget_self])
  · exact writesNone_of_setAddr (fun e => { e with b := vset e.b k.toNat imm }) _ _ _ _ rfl
      (by simp only [setAddr, readX, readM, readN, vset_vget_self])
  · exact writesNone_of_setAddr (fun e => { e with n := vset e.n k.toNat imm }) _ _ _ _ rfl
      (by simp only [setAddr, readX, readM, readB, vset_vget_self])
  · refine writesNone_mono (writesNone_of_dualFetch (neg := sub) hsc (by cases sub <;> rfl)) fun t ht => ?_
    obtain ⟨-, hm, hb, hn, hacc, hxi, hxj, hother⟩ := dualFetch_fetched s sc a xi xj sub
    rw [ht]
    have hread : ∀ b, readAcc (dualFetch s sc a xi xj sub) b = _ := readAcc_congr hacc
    refine ⟨hm, hb, hn, ?_, fun b hne => ?_, hxi, hxj, hother⟩
    · refine (readAcc_writeAcc_same ..).trans ?_
      rw [hread, readAcc_writeAcc_same]
      rfl
    · exact (readAcc_writeAcc_ne _ _ hne).trans ((hread b).trans (readAcc_writeAcc_ne _ _ hne))

/-! ### Circular addressing (R215, R217) -/

/-- Settles O17: the offset from the base is the old one plus the modifier, modulo the length, and b + n stays below 2^24. -/
theorem circularStaysInBuffer : Obligations.CircularStaysInBuffer := by
  intro e k hmode b n hn hfit a a'
  obtain ⟨v, hv⟩ : ∃ v : Int, v = ((a : Int) - b + (readM e k).toInt) % n := ⟨_, rfl⟩
  have hpost : postModify e k = writeX e k ⟨readB e k + BitVec.ofInt 24 v, (readX e k).q⟩ := by
    rw [postModify, hmode, hv]
    exact if_neg (Nat.pos_iff_ne_zero.mp hn)
  have h0 : 0 ≤ v := hv ▸ Int.emod_nonneg _ (by omega)
  have hlt : v < n := hv ▸ Int.emod_lt_of_pos _ (by omega)
  have ha' : a' = b + v.toNat := by
    show (readX (postModify e k) k).val.toNat = _
    rw [hpost, readX_writeX_same]
    obtain ⟨w, rfl⟩ := Int.eq_ofNat_of_zero_le h0
    rw [BitVec.ofInt_natCast, BitVec.toNat_add, BitVec.toNat_ofNat, Int.toNat_natCast]
    show (b + w % 2 ^ 24) % 2 ^ 24 = b + w
    omega
  rw [← hv]
  refine ⟨by omega, by omega, ?_, by rw [hpost, readX_writeX_same]⟩
  rw [show (a' : Int) - b = v by omega]
  exact Int.emod_eq_of_lt h0 hlt

end Sys2Proof.Machine
end

section
/-!
PROOFS. Loads: the load left pending, and what a data address or a point reads (R191, R193, R212, R218, R220, R221).
Branches and jumps (R219, R270).
-/
namespace Sys2Proof.Machine

open Sys2Proof

/-! ### What a data address reads -/

theorem loadWord_dataSram (s : State) (sc : Scan) {a : Nat} (h : a < 0x200000) :
    loadWord s sc a = getItem s (wKey a) ∧ loadErr s sc a = false := by
  have h1 : inDataSram a = true := decide_eq_true h
  have h2 : inSf a = false := decide_eq_false (by omega)
  simp [loadWord, loadErr, unmapped, h1, h2]

/-- An analogue address (R192, R193). -/
theorem loadWord_analogue (s : State) (sc : Scan) {a : Nat} (hlo : 0x800000 ≤ a) (hhi : a < 0x808000) :
    loadWord s sc a = (if reservedWord a then zeroBad else getItem s (wKey a)) ∧ loadErr s sc a = false := by
  have h1 : inDataSram a = false := decide_eq_false (by omega)
  have h2 : inSf a = false := decide_eq_false (by omega)
  have h3 : (inAnaIn a || inAnaOut a) = true := by
    simp only [inAnaIn, inAnaOut, Bool.or_eq_true, decide_eq_true_eq]
    omega
  simp [loadWord, loadErr, unmapped, h1, h2, h3]

theorem loadWord_unmapped (s : State) (sc : Scan) {a : Nat} (h : unmapped a = true) :
    loadWord s sc a = zeroBad ∧ loadErr s sc a = true := by
  have h' : (((inDataSram a || inAnaIn a) || inAnaOut a) || inSf a) = false := by simpa [unmapped] using h
  simp only [Bool.or_eq_false_iff] at h'
  obtain ⟨⟨⟨h1, h2⟩, h3⟩, h4⟩ := h'
  simp [loadWord, loadErr, h, h1, h2, h3, h4]

theorem loadWord_sf (s : State) (sc : Scan) {n : Nat} (h : n < 0x1000) :
    loadWord s sc (0xFFF000 + n) = (match sfRead s sc n with | some w => ⟨w, 0⟩ | none => zeroBad) ∧
      loadErr s sc (0xFFF000 + n) = (sfRead s sc n).isNone := by
  have h1 : inDataSram (0xFFF000 + n) = false := decide_eq_false (by omega)
  have h2 : (inAnaIn (0xFFF000 + n) || inAnaOut (0xFFF000 + n)) = false := by
    simp only [inAnaIn, inAnaOut, Bool.or_eq_false_iff, decide_eq_false_iff_not]
    omega
  have h3 : inSf (0xFFF000 + n) = true := decide_eq_true (by omega)
  cases hr : sfRead s sc n <;> simp [loadWord, loadErr, unmapped, h1, h2, h3, hr]

/-! ### Loads -/

theorem keepsHomes_postOf (e : Engine) (x : Ea) : keepsHomes e (postOf e x) := by
  unfold postOf
  split
  · exact keepsHomes_refl e
  · exact keepsHomes_postModify ..

theorem postOf_a (e : Engine) (x : Ea) : (postOf e x).a = e.a := by
  unfold postOf
  split
  · rfl
  · exact (postModify_rest ..).1

/-- A load into a destination, with what the statement says of its end. -/
theorem leavesLoad {s : State} {i : Instr} {g : Guard} {dests : List Dest} {body : State → Except OverrunCause EngOut}
    {e1 : Engine} {x : Ea} {dest : LoadDest} {r : Tagged} (hi : exec i s = .next (engineRun s g 2 dests true body))
    (hb : body s = .ok { engOut s (postOf e1 x) with load := some ⟨dest, r⟩ }) (hk : keepsHomes s.eng e1) (ha : e1.a = s.eng.a)
    (hc : canRun s 2 = true) (hg : guardMet s.eng g = true) :
    ∃ t, exec i s = .next (preemptNow t) ∧ engineOnly s t ∧ (∀ l, readLoc t.eng l = readLoc (commitLoad s.eng) l) ∧
      t.eng.pend = some ⟨dest, ⟨r.val, worsenTag r.tag (guardQ s.eng g)⟩⟩ ∧ t.eng.pc = s.eng.pc + 1 ∧
      t.eng.beats = s.eng.beats + 2 ∧ t.eng.a = s.eng.a := by
  have hsrc := keepsHomes_trans hk (keepsHomes_postOf e1 x)
  obtain ⟨t, hrun, honly, heng⟩ := engineRun_keepsHomes (isLoad := true) (dests := dests) hc hg hb hsrc hsrc
    (fun _ _ _ _ => rfl)
  refine ⟨t, by rw [hi, hrun], honly, ?_⟩
  rw [heng]
  exact ⟨readLoc_afterInstr _ _ _ _ _, rfl, rfl, rfl, (postOf_a e1 x).trans ha⟩

/-- The engine in which a word is loaded: with the access errors of its address and of its destination (R205, R221). -/
def wordLoadErr (s : State) (sc : Scan) (rd : Reg) (x : Ea) : Engine :=
  let e := if loadErr s sc x.addr.toNat then setAerrAt s.eng x.addr else s.eng
  if regLoc s.eng rd = .nowhere then setAerr e else e

theorem wordLoad_eq {s : State} {sc : Scan} (hsc : s.sched.running = some sc) (rd : Reg) (x : Ea) :
    wordLoad s rd x = .ok { engOut s (postOf (wordLoadErr s sc rd x) x) with
      load := some ⟨regLoc s.eng rd, ⟨(loadWord s sc x.addr.toNat).val, worsenTag (loadWord s sc x.addr.toNat).tag x.q⟩⟩ } := by
  simp only [wordLoad, withScan, hsc]
  rfl

theorem keepsHomes_ite_setAerr (e : Engine) (c : Prop) [Decidable c] :
    keepsHomes e (if c then setAerr e else e) ∧ (if c then setAerr e else e).a = e.a := by
  split <;> exact ⟨rfl, rfl⟩

theorem wordLoadErr_rest (s : State) (sc : Scan) (rd : Reg) (x : Ea) :
    keepsHomes s.eng (wordLoadErr s sc rd x) ∧ (wordLoadErr s sc rd x).a = s.eng.a := by
  have haddr : keepsHomes s.eng (if loadErr s sc x.addr.toNat then setAerrAt s.eng x.addr else s.eng) ∧
      (if loadErr s sc x.addr.toNat then setAerrAt s.eng x.addr else s.eng).a = s.eng.a := by
    cases loadErr s sc x.addr.toNat
    · exact ⟨keepsHomes_refl _, rfl⟩
    · exact ⟨keepsHomes_setAerrAt .., rfl⟩
  obtain ⟨hk, ha⟩ := keepsHomes_ite_setAerr (if loadErr s sc x.addr.toNat then setAerrAt s.eng x.addr else s.eng)
    (regLoc s.eng rd = .nowhere)
  exact ⟨keepsHomes_trans haddr.1 hk, ha.trans haddr.2⟩

theorem pointMode_of_notPoint {m : Mode} (h : m.notPoint = true) : pointMode m = false := by
  cases m with
  | absPoint => cases h
  | _ => rfl

theorem region_ne_of_wf {a : Abs} (h : a.wf = true) : a.region ≠ 3 := by simpa [Abs.wf] using h

/-- Settles O10: each load leaves its value pending; what it reads is decided by the region of its address. -/
theorem loadResults : Obligations.LoadResults := by
  refine ⟨fun s sc g rd pd m addr hsc => ⟨?_, ?_, fun hm => ?_, fun ha => ?_⟩, fun s sc a p => ⟨?_, ?_, ?_, ?_, ?_, ?_, ?_, ?_, ?_⟩⟩
  · exact leavesLoad (e1 := s.eng) rfl rfl (keepsHomes_refl _) rfl
  · obtain ⟨hk, ha⟩ := keepsHomes_ite_setAerr s.eng (regLoc s.eng rd = .nowhere)
    exact leavesLoad rfl rfl hk ha
  · obtain ⟨hk, ha⟩ := wordLoadErr_rest s sc rd (eaOf s.eng m)
    exact leavesLoad (if_neg (by simp [pointMode_of_notPoint hm])) (wordLoad_eq hsc rd _) hk ha
  · obtain ⟨hk, he⟩ := wordLoadErr_rest s sc rd ⟨absAddr addr, qGood, none⟩
    exact leavesLoad (if_neg (region_ne_of_wf ha)) (wordLoad_eq hsc rd _) hk he
  · exact loadWord_dataSram s sc
  · intro hlo hhi hr
    simpa [hr] using loadWord_analogue s sc hlo hhi
  · intro hlo hhi hr
    simpa [hr] using loadWord_analogue s sc hlo hhi
  · intro hlo hhi
    exact loadWord_unmapped s sc (by simp [unmapped, inDataSram, inAnaIn, inAnaOut, inSf]; omega)
  · intro hlo hhi
    exact loadWord_unmapped s sc (by simp [unmapped, inDataSram, inAnaIn, inAnaOut, inSf]; omega)
  · intro n w hn hw
    simpa [hw] using loadWord_sf s sc hn
  · intro n hn hw
    simpa [hw] using loadWord_sf s sc hn
  · intro hr
    exact if_pos hr
  · intro hr
    exact if_neg (by simp [hr])

/-! ### Branches and jumps (R219, R270) -/

/-- An instruction that does nothing but go to a target. -/
theorem goes_of_jumpTo {s : State} {i : Instr} {g : Guard} {cost : Nat} {body : State → Except OverrunCause EngOut} {pc : CodeAddr}
    (hi : exec i s = .next (engineRun s g cost [] false body)) (hb : body s = jumpTo s pc) :
    canRun s cost = true → guardMet s.eng g = true →
      ∃ t, exec i s = .next (preemptNow t) ∧ engineOnly s t ∧ (∀ l, readLoc t.eng l = readLoc (commitLoad s.eng) l) ∧
        t.eng.pc = pc ∧ t.eng.beats = s.eng.beats + cost ∧ t.eng.pend = none ∧ t.eng.wpos = s.eng.wpos ∧
        t.eng.depth = s.eng.depth ∧ t.eng.owner = s.eng.owner ∧ t.eng.a = s.eng.a ∧ t.eng.x = s.eng.x ∧ t.eng.m = s.eng.m ∧
        t.eng.b = s.eng.b ∧ t.eng.n = s.eng.n ∧ t.eng.status = s.eng.status ||| pmovrBit s.eng cost ∧
        t.eng.fpstat = s.eng.fpstat := by
  intro hc hg
  obtain ⟨t, hrun, honly, heng⟩ := engineRun_keepsHomes (isLoad := false) (dests := []) (load := none) hc hg hb
    (keepsHomes_refl s.eng) (keepsHomes_refl s.eng) (fun _ _ _ _ => rfl)
  refine ⟨t, by rw [hi, hrun], honly, ?_⟩
  rw [heng]
  exact ⟨readLoc_afterInstr _ _ _ _ _, rfl, rfl, rfl, rfl, rfl, rfl, rfl, rfl, rfl, rfl, rfl, rfl, rfl⟩

/-- Settles O12: branches and jumps go to their target, or on in code order when not taken. -/
theorem branchResults : Obligations.BranchResults := by
  refine fun s g pk rs target => ⟨goes_of_jumpTo rfl rfl, goes_of_jumpTo rfl rfl, fun hp => ⟨?_, ?_⟩, fun hp => ⟨?_, ?_⟩⟩
  · exact goes_of_jumpTo (by show Host.Outcome.next (branchOn s g _ target) = _; rw [hp]; rfl) rfl
  · exact goes_of_jumpTo (by show Host.Outcome.next (branchOn s g _ target) = _; rw [hp]; rfl) rfl
  · exact goes_of_jumpTo (by show Host.Outcome.next (branchOn s g _ target) = _; rw [hp]; rfl) rfl
  · exact goes_of_jumpTo (by show Host.Outcome.next (branchOn s g _ target) = _; rw [hp]; rfl) rfl

end Sys2Proof.Machine
end

section
/-!
PROOFS. The rules of timers and counters (R187, R188, R276).
-/
namespace Sys2Proof.Machine

open Sys2Proof

/-! ### Timers -/

theorem tonRule_spec (inp prev q : Bool) {et add pt : Int} (h0 : 0 ≤ et) (hle : et ≤ pt) (hadd : 0 ≤ add) :
    let r := tonRule inp prev q et add pt
    0 ≤ r.1 ∧ r.1 ≤ pt ∧ (r.2.1 = true ↔ inp = true ∧ r.1 = pt) ∧
      (inp = true → prev = true → r.1 = min (et + add) pt) ∧ (inp = true → prev = false → r.1 = 0 ∧ r.2.2 = true) := by
  cases inp
  · simp [tonRule]; omega
  · cases prev
    · simp [tonRule]; omega
    · simp [tonRule, addEt]; omega

theorem tofRule_spec (inp prev q : Bool) {et add pt : Int} (h0 : 0 ≤ et) (hle : et ≤ pt) (hadd : 0 ≤ add) :
    let r := tofRule inp prev q et add pt
    0 ≤ r.1 ∧ r.1 ≤ pt ∧ (inp = true → r.1 = 0 ∧ r.2.1 = true) ∧ (inp = false → r.2.1 = true → r.1 < pt) ∧
      (inp = false → prev = false → q = false → r.2.1 = false ∧ r.1 = et) := by
  cases inp
  · cases prev
    · cases q
      · simp [tofRule]; omega
      · simp [tofRule, addEt]; omega
    · simp [tofRule]; omega
  · simp [tofRule]; omega

theorem tpRule_spec (inp prev q : Bool) {et add pt : Int} (h0 : 0 ≤ et) (hle : et ≤ pt) (hadd : 0 ≤ add) :
    let r := tpRule inp prev q et add pt
    0 ≤ r.1 ∧ r.1 ≤ pt ∧ (q = true → (r.2.1 = true ↔ et + add < pt)) ∧
      (q = false → (r.2.1 = true ↔ inp = true ∧ prev = false)) := by
  cases q
  · cases inp
    · simp [tpRule]; omega
    · cases prev <;> simp [tpRule] <;> omega
  · cases inp
    · simp [tpRule, addEt]
      split <;> omega
    · simp [tpRule, addEt]; omega

/-! ### Counters -/

theorem satCount_eq (v : Int) : satCount v = (max i40Min (min v i40Max), outI40 v) := by
  have hrange : (BitVec.ofInt 40 (max (-549755813888) (min v 549755813887))).toInt =
      max (-549755813888) (min v 549755813887) := by
    rw [BitVec.toInt_ofInt, Int.bmod_eq_iff (by norm_num)]
    omega
  simp only [satCount, clampI40_eq, hrange]
  rfl

/-- One step past a value in the I40 range leaves the range only at its end. -/
theorem outI40_succ {v : Int} (hlo : i40Min ≤ v) (hhi : v ≤ i40Max) : outI40 (v + 1) = true ↔ v = i40Max := by
  simp only [outI40, decide_eq_true_eq]
  unfold i40Min at hlo
  unfold i40Max at hhi ⊢
  omega

theorem outI40_pred {v : Int} (hlo : i40Min ≤ v) (hhi : v ≤ i40Max) : outI40 (v - 1) = true ↔ v = i40Min := by
  simp only [outI40, decide_eq_true_eq]
  unfold i40Max at hhi
  unfold i40Min at hlo ⊢
  omega

/-- Settles O16: by the branches of each rule. -/
theorem timerAndCounterRules : Obligations.TimerAndCounterRules := by
  refine ⟨fun inp prev q et add pt h0 hle hadd => ⟨tonRule_spec inp prev q h0 hle hadd, tofRule_spec inp prev q h0 hle hadd,
    tpRule_spec inp prev q h0 hle hadd⟩, fun reset up down pv cv hlo hhi _ _ => ⟨?_, ?_, ?_⟩⟩
  · cases reset
    · cases up
      · simp [ctuRule]
      · simp [ctuRule, satCount_eq, outI40_succ hlo hhi]
    · simp [ctuRule]
  · cases reset
    · cases up
      · simp [ctdRule]
      · simp [ctdRule, satCount_eq, outI40_pred hlo hhi]
    · simp [ctdRule]
  · cases reset
    · cases up <;> cases down <;> simp [ctudRule, satCount_eq]
    · simp [ctudRule]

end Sys2Proof.Machine
end

section
/-!
PROOFS. An instruction whose condition is not met (R201, R202, R246).
-/
namespace Sys2Proof.Machine

open Sys2Proof

/-! ### What worsening one home leaves -/

/-- The engine once the pending load has reached its destination, at the next pc. -/
def loaded (e : Engine) (pc : CodeAddr) : Engine := { commitLoad e with pc := pc, pend := none }

theorem restOf_loaded (e : Engine) (pc : CodeAddr) : restOf (loaded e pc) = restOf { e with pc := pc } :=
  restOf_pc (restOf_commitLoad e) pc

theorem regLoc_loaded (e : Engine) (pc : CodeAddr) (r : Reg) : regLoc (loaded e pc) r = regLoc e r :=
  regLoc_congr (loaded e pc) { e with pc := pc } r (wpos_of_rest (restOf_loaded e pc)) (depth_of_rest (restOf_loaded e pc))

theorem regLoc_commitLoad (e : Engine) (r : Reg) : regLoc (commitLoad e) r = regLoc e r :=
  regLoc_congr _ _ r (wpos_of_rest (restOf_commitLoad e)) (depth_of_rest (restOf_commitLoad e))

/-- What stands after an instruction that only puts t into home l. -/
theorem regFrame_putLoc_loaded (e : Engine) (pc : CodeAddr) (l : LoadDest) (t : Tagged) :
    let e' := countBeats (putLoc (loaded e pc) l t) 1 (ctrlPmask e)
    regFrame e e' 1 pc l ∧ e'.a = e.a ∧ e'.x = e.x := by
  obtain ⟨hframe, ha, hx, -⟩ := regFrame_of e (putLoc (loaded e pc) l t) 1 pc l e.status e.fpstat e.errpc
    (fun l' hl' => readLoc_putLoc_ne _ _ _ _ hl') (fun w => (link_putLoc ..).trans (link_commitLoad ..))
    (pend_putLoc ..) ((restOf_putLoc ..).trans (restOf_loaded ..))
  exact ⟨hframe, ha, hx⟩

/-! ### The end of an instruction whose condition is not met -/

/-- One beat, the next word in code order, the pending load completed, and of the engine what `post` says. -/
def passesBy (s : State) (i : Instr) (post : Engine → Prop) : Prop :=
  ∃ t, exec i s = .next (preemptNow t) ∧ engineOnly s t ∧
    t.eng.pc = s.eng.pc + 1 ∧ t.eng.beats = s.eng.beats + 1 ∧ t.eng.pend = none ∧ t.eng.wpos = s.eng.wpos ∧
    t.eng.depth = s.eng.depth ∧ t.eng.m = s.eng.m ∧ t.eng.b = s.eng.b ∧ t.eng.n = s.eng.n ∧ post t.eng

section
variable {s : State} {i : Instr} {g : Guard} {cost : Nat} {dests : List Dest} {isLoad : Bool}
  {body : State → Except OverrunCause EngOut} {after : Bool → State → State}

theorem exec_unmet (hc : canRun s 1 = true) (hg : guardMet s.eng g = false)
    (hi : exec i s = .next (engineRunThen s g cost dests isLoad body after)) (ha : after false = preemptNow) :
    ∃ t, exec i s = .next (preemptNow t) ∧ engineOnly s t ∧
      t.eng = countBeats (dests.foldl (worsenDest (guardQ s.eng g)) (loaded s.eng (s.eng.pc + 1))) 1 (ctrlPmask s.eng) := by
  obtain ⟨honly, heng⟩ := notePmovr_only s (endInstr s.eng g 1 dests false (s.eng.pc + 1) none s.eng)
  exact ⟨_, by rw [hi, engineRunThen_unmet hc hg, ha]; rfl, honly, heng⟩

theorem passesBy_of_frame {post : Engine → Prop} {l : LoadDest} {t : Tagged} (hc : canRun s 1 = true)
    (hg : guardMet s.eng g = false) (hi : exec i s = .next (engineRunThen s g cost dests isLoad body after))
    (ha : after false = preemptNow)
    (hd : dests.foldl (worsenDest (guardQ s.eng g)) (loaded s.eng (s.eng.pc + 1)) =
      putLoc (loaded s.eng (s.eng.pc + 1)) l t)
    (hp : ∀ e', regFrame s.eng e' 1 (s.eng.pc + 1) l → e'.a = s.eng.a → e'.x = s.eng.x →
      e' = countBeats (putLoc (loaded s.eng (s.eng.pc + 1)) l t) 1 (ctrlPmask s.eng) → post e') : passesBy s i post := by
  obtain ⟨u, hexec, honly, heng⟩ := exec_unmet hc hg hi ha
  rw [hd] at heng
  obtain ⟨hframe, hacc, hx⟩ := regFrame_putLoc_loaded s.eng (s.eng.pc + 1) l t
  rw [← heng] at hframe hacc hx
  have hpost := hp _ hframe hacc hx heng
  obtain ⟨-, -, -, hwpos, hdepth, -, -, hm, hb, hn, hpc, hbeats, hpend, -, -⟩ := hframe
  exact ⟨u, hexec, honly, hpc, hbeats, hpend, hwpos, hdepth, hm, hb, hn, hpost⟩

/-- A general register is worsened, whatever stands in it once a pending load has arrived (R202, R212). -/
theorem passesBy_reg {rd : Reg} (hc : canRun s 1 = true) (hg : guardMet s.eng g = false)
    (hi : exec i s = .next (engineRunThen s g cost [.reg rd] isLoad body after)) (ha : after false = preemptNow) :
    passesBy s i (fun e' => (∀ l, l ≠ regLoc s.eng rd → readLoc e' l = readLoc (commitLoad s.eng) l) ∧
      (regLoc s.eng rd ≠ .nowhere → readReg e' rd =
        ⟨(readReg (commitLoad s.eng) rd).val, worsenTag (readReg (commitLoad s.eng) rd).tag (guardQ s.eng g)⟩) ∧
      e'.a = s.eng.a ∧ e'.x = s.eng.x) := by
  have hread : readReg (loaded s.eng (s.eng.pc + 1)) rd = readReg (commitLoad s.eng) rd := by
    rw [readReg, readReg, regLoc_loaded, regLoc_commitLoad]
    rfl
  refine passesBy_of_frame hc hg hi ha (l := regLoc s.eng rd)
    (by rw [List.foldl, List.foldl, worsenDest_reg, regLoc_loaded, hread]) fun e' hframe hacc hx he => ?_
  obtain ⟨hread', -, -, hwpos, hdepth, -⟩ := hframe
  refine ⟨hread', fun hn => ?_, hacc, hx⟩
  have hloc := regLoc_loaded s.eng (s.eng.pc + 1) rd
  rw [readReg, regLoc_congr e' s.eng rd hwpos hdepth, he, countBeats_eq, ← hloc]
  exact readLoc_putLoc_reg _ rd _ (by rw [hloc]; exact hn)

/-- A predicate is worsened; p0 is not (R202, R203). -/
theorem passesBy_pred {pd : BitVec 3} (hc : canRun s 1 = true) (hg : guardMet s.eng g = false)
    (hi : exec i s = .next (engineRunThen s g cost [.pred pd] isLoad body after)) (ha : after false = preemptNow) :
    passesBy s i (fun e' => (∀ l, l ≠ .pred pd.toNat → readLoc e' l = readLoc (commitLoad s.eng) l) ∧
      (pd ≠ 0 → readPred e' pd =
        ⟨(readPred (commitLoad s.eng) pd).v, worseQ (readPred (commitLoad s.eng) pd).q (guardQ s.eng g)⟩) ∧
      e'.a = s.eng.a ∧ e'.x = s.eng.x) := by
  have hread : readPred (loaded s.eng (s.eng.pc + 1)) pd = readPred (commitLoad s.eng) pd := rfl
  refine passesBy_of_frame hc hg hi ha (worsenDest_pred ..) fun e' hframe hacc hx he => ?_
  refine ⟨hframe.1, fun h0 => ?_, hacc, hx⟩
  rw [he, ← hread, readPred_congr (by rw [countBeats_eq])]
  exact readPred_putPred_same _ _ h0

/-- No home is a destination. -/
theorem passesBy_keepsHomes {src : Engine} {post : Engine → Prop} (hc : canRun s 1 = true) (hg : guardMet s.eng g = false)
    (hi : exec i s = .next (engineRunThen s g cost dests isLoad body after)) (ha : after false = preemptNow)
    (hk : keepsHomes s.eng src) (hm : src.m = s.eng.m) (hb : src.b = s.eng.b) (hn : src.n = s.eng.n)
    (hd : ∀ h win p pc pend, dests.foldl (worsenDest (guardQ s.eng g))
      { s.eng with h := h, win := win, p := p, pc := pc, pend := pend } =
        { src with h := h, win := win, p := p, pc := pc, pend := pend })
    (hp : post (afterInstr s.eng src 1 (s.eng.pc + 1) none)) : passesBy s i post := by
  have hend : endInstr s.eng g 1 dests false (s.eng.pc + 1) none s.eng = afterInstr s.eng src 1 (s.eng.pc + 1) none :=
    endInstr_keepsHomes (load := none) hk (keepsHomes_refl _) (fun h win p pend => hd h win p _ pend)
  obtain ⟨honly, heng⟩ := notePmovr_only s (afterInstr s.eng src 1 (s.eng.pc + 1) none)
  refine ⟨_, by rw [hi, engineRunThen_unmet hc hg, ha, modEng, hend], honly, ?_⟩
  rw [heng]
  exact ⟨rfl, rfl, rfl, hk.get Engine.wpos, hk.get Engine.depth, hm, hb, hn, hp⟩

theorem passesBy_none (hc : canRun s 1 = true) (hg : guardMet s.eng g = false)
    (hi : exec i s = .next (engineRunThen s g cost [] isLoad body after)) (ha : after false = preemptNow) :
    passesBy s i (fun e' => (∀ l, readLoc e' l = readLoc (commitLoad s.eng) l) ∧ e'.a = s.eng.a ∧ e'.x = s.eng.x) :=
  passesBy_keepsHomes hc hg hi ha (keepsHomes_refl _) rfl rfl rfl (fun _ _ _ _ _ => rfl)
    ⟨readLoc_afterInstr _ _ _ _ _, rfl, rfl⟩

theorem passesBy_acc {a : BitVec 2} (hc : canRun s 1 = true) (hg : guardMet s.eng g = false)
    (hi : exec i s = .next (engineRunThen s g cost [.acc a] isLoad body after)) (ha : after false = preemptNow) :
    passesBy s i (fun e' =>
      readAcc e' a = ⟨(readAcc s.eng a).val, worsenTag (readAcc s.eng a).tag (guardQ s.eng g)⟩ ∧ e'.x = s.eng.x) :=
  passesBy_keepsHomes hc hg (src := worsenDest (guardQ s.eng g) s.eng (.acc a)) hi ha (keepsHomes_writeAcc ..) rfl rfl rfl
    (fun _ _ _ _ _ => rfl) ⟨readAcc_writeAcc_same .., rfl⟩

theorem passesBy_xreg {k : BitVec 3} (hc : canRun s 1 = true) (hg : guardMet s.eng g = false)
    (hi : exec i s = .next (engineRunThen s g cost [.xreg k] isLoad body after)) (ha : after false = preemptNow) :
    passesBy s i (fun e' =>
      readX e' k = ⟨(readX s.eng k).val, worseQ (readX s.eng k).q (guardQ s.eng g)⟩ ∧ e'.a = s.eng.a) :=
  passesBy_keepsHomes hc hg (src := worsenX s.eng k (guardQ s.eng g)) hi ha (keepsHomes_writeX ..) rfl rfl rfl
    (fun _ _ _ _ _ => rfl) ⟨readX_writeX_same .., rfl⟩

end

/-- Settles O19: by the kind of destination that each instruction names. -/
theorem unmetGuardOnlyWorsens : Obligations.UnmetGuardOnlyWorsens := by
  intro s g rd rs1 rs2 pd k p1 p2 m a t20 k10 hc hg
  exact ⟨passesBy_reg hc hg rfl rfl, passesBy_reg hc hg rfl rfl, passesBy_reg hc hg rfl rfl, passesBy_reg hc hg rfl rfl,
    passesBy_pred hc hg rfl rfl, passesBy_pred hc hg rfl rfl, passesBy_pred hc hg rfl rfl, passesBy_acc hc hg rfl rfl,
    passesBy_xreg hc hg rfl rfl, passesBy_none hc hg rfl rfl, passesBy_none hc hg rfl rfl, passesBy_none hc hg rfl rfl,
    passesBy_none hc hg rfl rfl, passesBy_none hc hg rfl rfl, passesBy_none hc hg rfl rfl, passesBy_none hc hg rfl rfl⟩

end Sys2Proof.Machine
end

section
/-!
PROOFS. The step of the block and the reset state (R21, R87, R95, R203, R204, R550, R580, R606, R686).
-/
namespace Sys2Proof.Machine

open Sys2Proof

/-- Settles O1: a step is the meaning of the front command on the state with the rest of the queue. -/
theorem stepTakesFrontCommand : Obligations.StepTakesFrontCommand :=
  ⟨fun _ _ _ => rfl, fun s h => by simp only [step, h]⟩

/-- Settles O59, field by field of the reset state; the register files by their indices. -/
theorem resetState : Obligations.ResetState := by
  unfold Obligations.ResetState
  dsimp only
  refine ⟨rfl, rfl, by decide, rfl, rfl, by decide, by decide, by decide, by decide, ?_⟩
  exact ⟨rfl, rfl, rfl, rfl, rfl, fun pid => rfl, rfl, rfl, rfl, rfl, by decide, rfl, rfl, rfl, rfl, rfl, rfl, rfl, rfl⟩

end Sys2Proof.Machine
end

section
/-!
PROOFS. What a fault halt leaves: no scan, no command, the field link silent, the image as it was (R674, R675).
-/
namespace Sys2Proof.Machine

open Sys2Proof

/-! ### What the safe state, a HANDOVER and the watchdog's mode leave alone -/

/-- The state but for what the safe state, a HANDOVER, the watchdog's mode and the logbook may change. -/
def haltRest (s : State) : State :=
  { s with
    wd := Watchdog.reset, twin := Twin.reset, log := Logbook.reset, ana := State.reset.ana, dsp := Display.reset,
    tasks := State.reset.tasks, sched := { s.sched with safeAreas := [] },
    field := { FieldSt.reset with linkAlive := s.field.linkAlive } }

@[simp] theorem haltRest_log (s : State) (type sev src subject code : Nat) (vals : List Byte) :
    haltRest (log s type sev src subject code vals) = haltRest s := by
  obtain ⟨l, hl⟩ := log_rest s type sev src subject code vals
  rw [hl]
  rfl

@[simp] theorem haltRest_modField (s : State) (f : FieldSt → FieldSt) (h : (f s.field).linkAlive = s.field.linkAlive) :
    haltRest (modField s f) = haltRest s := by
  simp only [haltRest, modField, h]

theorem haltRest_setDo (s : State) (n : Nat) (f : DoCh → DoCh) : haltRest (setDo s n f) = haltRest s :=
  haltRest_modField s _ rfl

@[simp] theorem haltRest_wdSyncMode (s : State) : haltRest (wdSyncMode s) = haltRest s := by
  unfold wdSyncMode
  dsimp only
  split
  · rfl
  · split <;> rfl

@[simp] theorem haltRest_sendHandover (s : State) (cause : Nat) : haltRest (sendHandover s cause) = haltRest s := by
  unfold sendHandover twinSend
  dsimp only
  split
  · split <;> rfl
  · rfl

theorem haltRest_anaSafe (s : State) (c : Nat) : haltRest (anaSafe s c) = haltRest s := by
  unfold anaSafe
  dsimp only
  split
  · rfl
  · split <;> rfl

@[simp] theorem haltRest_dspSafe (s : State) (logic : Bool) : haltRest (dspSafe s logic) = haltRest s := by
  unfold dspSafe
  split <;> rfl

@[simp] theorem haltRest_applySafe (s : State) (cause : Nat) : haltRest (applySafe s cause) = haltRest s := by
  unfold applySafe
  extract_lets areas want turns off safe
  have hareas : haltRest areas = haltRest s := rfl
  split
  · exact hareas
  · have hoff : haltRest off = haltRest areas :=
      foldl_keeps haltRest (fun t n => setDo t n (fun d => { d with cmd := want n, on := d.on && want n }))
        (fun t n => haltRest_setDo t n _) (List.range 24) areas
    clear_value off
    have hsafe : haltRest safe = haltRest off := haltRest_modField off _ rfl
    have hana : haltRest (anaSafeAll safe) = haltRest safe := foldl_keeps haltRest _ haltRest_anaSafe _ safe
    have hmark : ∀ t, haltRest (markFieldSafe t) = haltRest t := fun _ => rfl
    rw [haltRest_log, hmark, haltRest_dspSafe, hana, hsafe, hoff, hareas]

/-! ### What the end of a command leaves alone -/

/-- The state but for the host link, the bookings and the energy that commands hold. -/
def hostRest (s : State) : State :=
  { s with host := HostSt.reset, book := Bookings.reset, power := { s.power with reservedNj := 0 } }

theorem hostOnly_iff (b t : State) : hostOnly b t ↔ hostRest t = hostRest b := by
  constructor
  · intro h
    have := congrArg hostRest h
    exact this
  · intro h
    have h' := congrArg (fun u : State => 
      ({ u with host := b.host, book := b.book, power := { u.power with reservedNj := b.power.reservedNj } } : State)) h
    exact h'

@[simp] theorem hostRest_setPort (s : State) (p : Port) (x : PortSt) : hostRest (setPort s p x) = hostRest s := by
  cases p <;> rfl

@[simp] theorem hostRest_setHost (s : State) (h : HostSt) : hostRest { s with host := h } = hostRest s := rfl

@[simp] theorem hostRest_touchSession (s : State) (x : Cmd) : hostRest (touchSession s x) = hostRest s := by
  unfold touchSession
  split <;> rfl

@[simp] theorem hostRest_removeCmd (s : State) (c : CmdRef) : hostRest (removeCmd s c) = hostRest s := by
  unfold removeCmd
  split
  · rfl
  · rw [hostRest_touchSession]
    exact hostRest_setPort ..

@[simp] theorem hostRest_place (s : State) (p : Port) (r : List Byte) : hostRest (place s p r) = hostRest s :=
  hostRest_setPort ..

@[simp] theorem hostRest_dropTransfer (s : State) (x : Cmd) : hostRest (dropTransfer s x) = hostRest s := rfl

@[simp] theorem hostRest_finishNow (s : State) (c : CmdRef) (status reason : BitVec 8) (detail : Nat) (payload : List Byte) :
    hostRest (finishNow s c status reason detail payload) = hostRest s := by
  unfold finishNow
  split
  · rfl
  · split
    · rfl
    · rw [hostRest_removeCmd, hostRest_place]
      split
      · rfl
      · rfl

@[simp] theorem hostRest_discardCommands (s : State) (reason : BitVec 8) (detail : Nat) :
    hostRest (discardCommands s reason detail) = hostRest s :=
  foldl_keeps hostRest _ (fun _ _ => hostRest_finishNow ..) _ s

/-! ### Every command discarded -/

theorem cmds_touchSession (s : State) (x : Cmd) : (touchSession s x).host.cmds = s.host.cmds := by
  unfold touchSession
  split <;> rfl

theorem cmds_removeCmd {s : State} {x : Cmd} (h : findCmd s x.ref = some x) :
    (removeCmd s x.ref).host.cmds = s.host.cmds.eraseP (fun y => decide (y.ref = x.ref)) := by
  unfold removeCmd
  rw [h]
  dsimp only
  rw [cmds_touchSession]
  exact setPort_cmds ..

theorem finishNow_fault_cmds {s : State} {x : Cmd} {l : List Cmd} (h : s.host.cmds = x :: l) (reason : BitVec 8)
    (detail : Nat) (payload : List Byte) : (finishNow s x.ref stFault reason detail payload).host.cmds = l := by
  have hf : findCmd s x.ref = some x := by simp [findCmd, h]
  have hst : ¬(stFault = stDone) := by decide
  have hcmds : ∀ r, (place (dropTransfer s x) x.ref.port r).host.cmds = x :: l := fun r =>
    (setPort_cmds ..).trans h
  have hg : ∀ r, findCmd (place (dropTransfer s x) x.ref.port r) x.ref = some x := by simp [findCmd, hcmds]
  simp only [finishNow, hf, hst, false_and, if_false]
  rw [cmds_removeCmd (hg _), hcmds]
  simp

theorem discardCommands_cmds (s : State) (reason : BitVec 8) (detail : Nat) :
    (discardCommands s reason detail).host.cmds = [] := by
  unfold discardCommands
  generalize hl : s.host.cmds = l
  induction l generalizing s with
  | nil => exact hl
  | cons x l ih => exact ih _ (finishNow_fault_cmds hl reason detail [])

/-! ### Fault halt -/

/-- The state of a fault halt, once scans and commands are gone (R674). -/
theorem clearWaits_discarded (s : State) (reason : BitVec 8) (detail : Nat) :
    let t := clearWaits (discardCommands (stopEngine s) reason detail)
    t.sched.running = none ∧ t.sched.suspended = [] ∧ t.host.cmds = [] ∧ t.image = s.image := by
  have h := hostRest_discardCommands (stopEngine s) reason detail
  refine ⟨congrArg (·.sched.running) h, congrArg (·.sched.suspended) h, discardCommands_cmds .., congrArg (·.image) h⟩

/-- What a fault that is raised outside HALT leaves (R674, R675). -/
theorem enterHalt_view (s : State) (code detail : Nat) (atOnce : Bool) (cause : Nat) (h : s.power.mode ≠ .halt) :
    let t := enterHalt s code detail atOnce cause
    t.power.mode = .halt ∧ t.power.lastFault = code - 0x7F ∧ t.sched.running = none ∧ t.sched.suspended = [] ∧
      t.host.cmds = [] ∧ t.image = s.image ∧ t.field.linkAlive = false := by
  obtain ⟨hrun, hsusp, hcmds, himage⟩ := clearWaits_discarded s (BitVec.ofNat 8 code) detail
  simp only [enterHalt, h, decide_false, Bool.false_and, Bool.false_eq_true, if_false]
  generalize clearWaits (discardCommands (stopEngine s) (BitVec.ofNat 8 code) detail) = cleared at *
  generalize hl : log cleared 0xD1 sevFault 0x1A code 0 (le 4 detail) = logged
  generalize hm : modPower logged _ = halted
  generalize hf : modField (sendHandover halted cause) _ = silent
  have hsafe : haltRest (if atOnce = true then applySafe silent 2 else silent) = haltRest silent := by
    split
    · exact haltRest_applySafe ..
    · rfl
  have hend := (haltRest_wdSyncMode _).trans hsafe
  have hsent := haltRest_sendHandover halted cause
  have hlog : haltRest logged = haltRest cleared := hl ▸ haltRest_log ..
  subst hf hm
  exact ⟨(congrArg (·.power.mode) hend).trans (congrArg (·.power.mode) hsent),
    (congrArg (·.power.lastFault) hend).trans (congrArg (·.power.lastFault) hsent),
    (congrArg (·.sched.running) hend).trans ((congrArg (·.sched.running) hsent).trans
      ((congrArg (·.sched.running) hlog).trans hrun)),
    (congrArg (·.sched.suspended) hend).trans ((congrArg (·.sched.suspended) hsent).trans
      ((congrArg (·.sched.suspended) hlog).trans hsusp)),
    (congrArg (·.host.cmds) hend).trans ((congrArg (·.host.cmds) hsent).trans
      ((congrArg (·.host.cmds) hlog).trans hcmds)),
    (congrArg (·.image) hend).trans ((congrArg (·.image) hsent).trans ((congrArg (·.image) hlog).trans himage)),
    congrArg (·.field.linkAlive) hend⟩

end Sys2Proof.Machine
end

section
/-!
PROOFS. Preemption and overruns (R47, R158, R175-R177, R231-R233).
-/
namespace Sys2Proof.Machine

open Sys2Proof

/-! ### Preemption -/

/-- Settles O21: the branches of the preemption; a single waiting release is the next one. -/
theorem preemptionRules : Obligations.PreemptionRules := by
  unfold Obligations.PreemptionRules
  refine ⟨fun s h => ?_, fun s sc t rel pr hsc hp hw hm hf ha => ?_⟩
  · unfold preemptNow
    rcases h with h | h | h
    · rw [show nextWaiting s = none by simp [nextWaiting, h]]
      split <;> simp_all
    · split
      · simp [h]
      · rfl
    · simp [h]
  · have hn : nextWaiting s = some (t, rel, pr) := by simp [nextWaiting, hw]
    refine ⟨fun ho => ?_, fun ho => ?_⟩ <;> simp [preemptNow, hsc, hn, hp, hm, hf, ha, ho, -BitVec.getLsbD_eq_getElem]

/-! ### Overruns -/

/-- Withdrawing a request changes the charts alone. -/
theorem withdrawChg_charts (s : State) (sc : Scan) : ∃ c, withdrawChg s sc = { s with charts := c } := by
  unfold withdrawChg
  split
  · exact ⟨s.charts, rfl⟩
  · dsimp only
    split
    · exact ⟨s.charts, rfl⟩
    · exact ⟨_, rfl⟩

/-- Before an overrun parts by the task's kind, the engine, the charts, the window stack of the task and the logbook
have changed. -/
theorem overrunOp_begun (s : State) (sc : Scan) (cause : OverrunCause) (hsc : s.sched.running = some sc)
    (hp : sc.phase = .execute) : ∃ e c l, 
    let u : State := { modTask s sc.task (fun r => { r with stack := [] }) with eng := e, charts := c, log := l }
    overrunOp s cause = (if (taskDef s sc.task).tolerant then
      stopIfDue (runNext (closeRound (modSched
        (modTask (sc.dirty.foldl restoreLine u) sc.task (fun r => { r with
          skipCount := min (r.skipCount + 1) 0xFFFFFFFFFF, skipNext := true }))
        (fun x => { x with running := none, roundLeft := if (taskDef s sc.task).fixed then x.roundLeft
          else x.roundLeft.filter (fun u => u ≠ sc.task) }))))
      else guardedStop u sc.task) := by
  obtain ⟨c, hc⟩ := withdrawChg_charts (modEng s (fun e => { e with ctrl := e.ctrl &&& 0xFFFFFFFFFE, pend := none })) sc
  simp only [overrunOp, hsc, hp, ne_eq, not_true_eq_false, if_false, hc]
  generalize hd : dropWindows _ sc.task = dropped
  obtain ⟨l, hl⟩ := log_rest dropped (if (taskDef s sc.task).tolerant then 0x20 else 0x21)
    (if (taskDef s sc.task).tolerant then sevWarning else sevFault) 0x01 sc.task (causeCode cause)
    (le 4 dropped.eng.pc.toNat)
  rw [hl]
  subst hd
  exact ⟨_, c, l, rfl⟩

/-- Writing items changes them alone. -/
theorem foldl_putItem (f : State → Nat → Tagged) (ks : List Nat) (s : State) :
    ∃ img, ks.foldl (fun s k => putItem s k (f s k)) s = { s with image := img } ∧
      ∀ k, k ∉ ks → getItem (ks.foldl (fun s k => putItem s k (f s k)) s) k = getItem s k := by
  induction ks generalizing s with
  | nil => exact ⟨s.image, rfl, fun _ _ => rfl⟩
  | cons j ks ih =>
    obtain ⟨img, himg, hk⟩ := ih (putItem s j (f s j))
    refine ⟨img, himg, fun k h => ?_⟩
    rw [List.mem_cons, not_or] at h
    exact (hk k h.2).trans (getItem_putItem_ne s _ h.1)

/-- Restoring a line changes its items alone (R176). -/
theorem restoreLine_image (s : State) (l : Nat) : ∃ img, restoreLine s l = { s with image := img } ∧
    ∀ k, k ∉ lineKeys l → getItem (restoreLine s l) k = getItem s k :=
  foldl_putItem _ (lineKeys l) s

theorem foldl_restoreLine (ls : List Nat) (s : State) : ∃ img, ls.foldl restoreLine s = { s with image := img } ∧
    ∀ k, (∀ l ∈ ls, k ∉ lineKeys l) → getItem (ls.foldl restoreLine s) k = getItem s k := by
  induction ls generalizing s with
  | nil => exact ⟨s.image, rfl, fun _ _ => rfl⟩
  | cons l ls ih =>
    obtain ⟨img, himg, hk⟩ := restoreLine_image s l
    obtain ⟨img', himg', hk'⟩ := ih (restoreLine s l)
    refine ⟨img', ?_, fun k h => ?_⟩
    · rw [List.foldl_cons, himg', himg]
    · rw [List.foldl_cons, hk' k (fun m hm => h m (List.mem_cons_of_mem _ hm)), hk k (h l List.mem_cons_self)]

/-- With no scan suspended, no release waiting and no stop or change due, nothing follows a scan's end. -/
theorem runNext_idle {s : State} (h : s.sched.suspended = []) (hw : s.sched.waiting = []) : runNext s = s := by
  simp [runNext, h, nextWaiting, hw]

theorem stopIfDue_idle {s : State} (hstop : s.sched.stopping = none) (hh : s.sched.handoverReq = none)
    (hf : s.power.failing = false) (hp : s.power.stopping = false) : stopIfDue s = s := by
  simp [stopIfDue, hstop, handoverIfIdle, hh, finishStop, hf, hp]

/-- Closing a round changes the schedule's round alone. -/
theorem closeRound_sched (s : State) : ∃ o r, closeRound s = modSched s (fun x => { x with roundOpen := o, roundReady := r }) := by
  unfold closeRound
  split
  · exact ⟨_, _, rfl⟩
  · exact ⟨s.sched.roundOpen, s.sched.roundReady, rfl⟩

/-- What a Tolerant overrun leaves when nothing follows it. -/
theorem overrunOp_tolerant {s : State} {sc : Scan} {cause : OverrunCause} (hsc : s.sched.running = some sc)
    (hp : sc.phase = .execute) (hd : (taskDef s sc.task).tolerant = true) (ht : sc.task < 16)
    (hsusp : s.sched.suspended = []) (hw : s.sched.waiting = []) (hstop : s.sched.stopping = none)
    (hh : s.sched.handoverReq = none) (hf : s.power.failing = false) (hps : s.power.stopping = false) :
    let t := overrunOp s cause
    t.sched.running = none ∧ (taskRt t sc.task).skipNext = true ∧
      (taskRt t sc.task).skipCount = min ((taskRt s sc.task).skipCount + 1) 0xFFFFFFFFFF ∧
      t.power.mode = s.power.mode ∧ t.ring = s.ring ∧
      ∀ k, (∀ l ∈ sc.dirty, k ∉ lineKeys l) → getItem t k = getItem s k := by
  obtain ⟨e, c, l, h⟩ := overrunOp_begun s sc cause hsc hp
  simp only [hd, if_true] at h
  generalize hu :
    ({ modTask s sc.task (fun r => { r with stack := [] }) with eng := e, charts := c, log := l } : State) = u at h
  obtain ⟨img, himg, hkeys⟩ := foldl_restoreLine sc.dirty u
  rw [himg] at h hkeys
  generalize hv : modSched (modTask { u with image := img } sc.task _) _ = v at h
  obtain ⟨o, r, hround⟩ := closeRound_sched v
  have hend : overrunOp s cause = modSched v (fun x => { x with roundOpen := o, roundReady := r }) := by
    rw [h, hround, runNext_idle, stopIfDue_idle] <;> subst hv hu <;> assumption
  have hrt : taskRt v sc.task =
      { taskRt s sc.task with
        stack := [], skipCount := min ((taskRt s sc.task).skipCount + 1) 0xFFFFFFFFFF, skipNext := true } := by
    subst hv hu
    simp [taskRt, vget_vmod, ht]
  have hrt' : taskRt (overrunOp s cause) sc.task = taskRt v sc.task := by rw [hend]; rfl
  refine ⟨?_, by rw [hrt', hrt], by rw [hrt', hrt], ?_, ?_, fun k hk => ?_⟩
  · rw [hend]; subst hv; rfl
  · rw [hend]; subst hv hu; rfl
  · rw [hend]; subst hv hu; rfl
  · rw [hend]
    refine Eq.trans ?_ ((hkeys k hk).trans ?_)
    · subst hv; rfl
    · subst hu; rfl

/-- Settles O20: the beats that do not fit; a Guarded overrun is a fault halt, a Tolerant one restores its lines. -/
theorem overrunRules : Obligations.OverrunRules := by
  unfold Obligations.OverrunRules
  refine ⟨fun s sc g rd rs1 rs2 pd p1 p2 m a target hsc hp hg i cost hmem hlt => ?_,
    fun s sc cause hsc hp => ⟨fun hd hm => ?_, fun hd => overrunOp_tolerant hsc hp hd⟩⟩
  · simp only [List.mem_cons, Prod.mk.injEq, List.not_mem_nil, or_false] at hmem
    rcases hmem with ⟨rfl, rfl⟩ | ⟨rfl, rfl⟩ | ⟨rfl, rfl⟩ | ⟨rfl, rfl⟩ | ⟨rfl, rfl⟩ | ⟨rfl, rfl⟩ | ⟨rfl, rfl⟩ | ⟨rfl, rfl⟩ |
      ⟨rfl, rfl⟩ | ⟨rfl, rfl⟩ | ⟨rfl, rfl⟩ | ⟨rfl, rfl⟩ | ⟨rfl, rfl⟩ <;>
      exact congrArg _ (engineRunThen_postage hsc hp hg hlt)
  · obtain ⟨e, c, l, h⟩ := overrunOp_begun s sc cause hsc hp
    simp only [hd, Bool.false_eq_true, if_false] at h
    obtain ⟨hmode, hlast, hrun, hsusp, -, -, hlink⟩ := enterHalt_view
      { modTask s sc.task (fun r => { r with stack := [] }) with eng := e, charts := c, log := l } 0x84
      (0xFFFF0000 + sc.task) true 3 hm
    rw [h]
    exact ⟨hmode, hlast, hrun, hsusp, hlink⟩

end Sys2Proof.Machine
end

section
/-!
PROOFS. Calls and returns (R205-R210, R270, R271).
-/
namespace Sys2Proof.Machine

open Sys2Proof

/-! ### The end of an instruction that writes no register -/

/-- What the end of an instruction adds to the engine its body left: the pending load, the pc and the beats. -/
theorem endInstr_plain (e0 e : Engine) (g : Guard) (cost : Nat) (pc : CodeAddr) :
    let f := endInstr e0 g cost [] false pc none e
    f.pc = pc ∧ f.beats = e.beats + cost ∧ f.wpos = e.wpos ∧ f.depth = e.depth ∧ f.a = e.a ∧ f.x = e.x ∧
      (∀ w, (vget f.win w Window.reset).link = (vget e.win w Window.reset).link) ∧
      ∀ l, readLoc f l = readLoc (commitLoad e) l := by
  have hrest := restOf_commitLoad e
  simp only [endInstr, Bool.false_eq_true, if_false, List.foldl_nil, countBeats_eq]
  exact ⟨trivial, (congrArg (fun x : Engine => x.beats + cost) hrest :), (congrArg Engine.wpos hrest :),
    (congrArg Engine.depth hrest :), (congrArg Engine.a hrest :), (congrArg Engine.x hrest :), link_commitLoad e,
    fun l => readLoc_congr _ _ l rfl rfl rfl⟩

/-- An instruction under its guard whose body goes to pc and writes no register. -/
theorem engineRun_plain {s u : State} {g : Guard} {cost : Nat} {body : State → Except OverrunCause EngOut} {pc : CodeAddr}
    (hc : canRun s cost = true) (hg : guardMet s.eng g = true) (hb : body s = .ok ⟨u, pc, none⟩)
    (hrun : u.sched.running = s.sched.running) :
    ∃ t, engineRun s g cost [] false body = preemptNow t ∧ engineOnly u t ∧
      t.eng = endInstr s.eng g cost [] false pc none u.eng := by
  obtain ⟨sc, hsc, -, -⟩ := canRun_some hc
  obtain ⟨honly, heng⟩ := notePmovr_only u (endInstr s.eng g cost [] false pc none u.eng)
  exact ⟨_, engineRunThen_met hc hg hb (by simp [hrun, hsc]), honly, heng⟩

/-! ### Calls (R205-R207, R210, R270, R271) -/

/-- The engine once a call has taken the next window position. -/
def calledEngine (e : Engine) (task : Nat) : Engine :=
  { e with
    win := vmod e.win (callPos e) (fun w => { w with link := e.pc + 1 }),
    owner := vset e.owner (callPos e) (some (task, e.depth + 1)), wpos := e.wpos + 1, depth := e.depth + 1 }

theorem callTo_ok {s : State} {sc : Scan} (hsc : s.sched.running = some sc) (target : CodeAddr)
    (hd : s.eng.depth + 1 ≤ (taskDef s sc.task).wstk) :
    callTo s target = .ok ⟨{ (spillAt s (callPos s.eng)).2 with eng := calledEngine s.eng sc.task }, target, none⟩ := by
  simp only [callTo, withScan, hsc, Nat.not_lt.mpr hd, if_false, jumpTo, spillAt, calledEngine, nextPc]
  cases vget s.eng.owner (callPos s.eng) none with
  | none => rfl
  | some o => simp only [modEng, modTask, callPos, vset_vset_same]

theorem callTo_error {s : State} {sc : Scan} (hsc : s.sched.running = some sc) (target : CodeAddr)
    (hd : (taskDef s sc.task).wstk < s.eng.depth + 1) : callTo s target = .error .stack := by
  simp only [callTo, withScan, hsc, hd, if_true]

/-- The homes of the caller read on as before. -/
theorem readLoc_calledEngine (e : Engine) (task : Nat) (l : LoadDest) : readLoc (calledEngine e task) l = readLoc e l := by
  cases l with
  | frame w i =>
    simp only [readLoc, calledEngine, vget_vmod]
    split <;> rfl
  | home | pred | nowhere => rfl

/-- The callee's e0 to e7 are v8 to v15 of the caller (R205). -/
theorem regLoc_callee {e f : Engine} (hw : f.wpos = e.wpos + 1) (hd : f.depth = e.depth + 1) {j : BitVec 5}
    (hj : j.toNat < 8) : regLoc f (24 + j) = .frame e.wpos.toNat (8 + j.toNat) := by
  have hn : (24 + j).toNat = 24 + j.toNat := by
    rw [BitVec.toNat_add, show (24 : BitVec 5).toNat = 24 from rfl]
    omega
  have hpos : ((e.wpos + 1).toNat + 15) % 16 = e.wpos.toNat := by
    have := e.wpos.isLt
    rw [BitVec.toNat_add, show (1 : BitVec 4).toNat = 1 from rfl]
    omega
  simp only [regLoc, hn, hw, hd, hpos]
  rw [if_neg (by omega), if_neg (by omega), if_neg (by omega)]
  congr 1
  omega

/-- A call that finds room in the window stack. -/
theorem calls_of_room {s : State} {sc : Scan} {g : Guard} {target : CodeAddr} (hsc : s.sched.running = some sc)
    (hc : canRun s (callCost s.eng) = true) (hg : guardMet s.eng g = true)
    (hd : s.eng.depth + 1 ≤ (taskDef s sc.task).wstk) :
    ∃ t, engineRun s g (callCost s.eng) [] false (fun s => callTo s target) = preemptNow t ∧
      engineOnly { (spillAt s (callPos s.eng)).2 with eng := calledEngine s.eng sc.task } t ∧
      t.eng = endInstr s.eng g (callCost s.eng) [] false target none (calledEngine s.eng sc.task) := by
  refine engineRun_plain hc hg (callTo_ok hsc target hd) ?_
  simp only [spillAt]
  split <;> rfl

theorem spillAt_rest (s : State) (pos : Nat) : (spillAt s pos).2.image = s.image ∧ (spillAt s pos).2.code = s.code ∧
    (vget s.eng.owner pos none = none → (spillAt s pos).2.tasks = s.tasks) ∧
    ∀ u d, vget s.eng.owner pos none = some (u, d) → u < 16 →
      (taskRt (spillAt s pos).2 u).stack = (taskRt s u).stack ++ [vget s.eng.win pos Window.reset] := by
  unfold spillAt
  cases h : vget s.eng.owner pos none with
  | none => simp
  | some o => 
    obtain ⟨u, d⟩ := o
    refine ⟨rfl, rfl, by simp, fun u' d' h' hu => ?_⟩
    obtain ⟨rfl, rfl⟩ : u = u' ∧ d = d' := by simpa using h'
    simp [taskRt, vget_vmod, hu, modEng]

theorem tasks_of_engineOnly {u t : State} (h : engineOnly u t) : t.image = u.image ∧ t.code = u.code ∧ t.tasks = u.tasks :=
  ⟨(congrArg State.image h.1 :), (congrArg State.code h.1 :), (congrArg State.tasks h.1 :)⟩

/-- Settles O13: the window that a call takes, and the overrun beyond WSTK. -/
theorem callResults : Obligations.CallResults := by
  unfold Obligations.CallResults
  intro s sc g rs target hsc e pos held cost i to_ hi hc hg
  have hexec : exec i s = .next (engineRun s g (callCost e) [] false (fun s => callTo s to_)) := by
    rcases hi with ⟨rfl, rfl⟩ | ⟨rfl, rfl⟩ <;> rfl
  refine ⟨fun hd => ?_, fun hd => ?_⟩
  · obtain ⟨t, ht, honly, heng⟩ := calls_of_room (target := to_) hsc hc hg hd
    obtain ⟨hpc, hbeats, hw, hdep, ha, hx, hlink, hread⟩ := endInstr_plain e (calledEngine e sc.task) g (callCost e) to_
    obtain ⟨himage, hcode, htasks⟩ := tasks_of_engineOnly honly
    obtain ⟨hsi, hsc', hnone, hsome⟩ := spillAt_rest s pos
    rw [← heng] at hpc hbeats hw hdep ha hx hlink hread
    have hreads : ∀ l, readLoc t.eng l = readLoc (commitLoad e) l := fun l =>
      (hread l).trans (readLoc_commitLoad_congr _ _ l (readLoc_calledEngine ..) rfl)
    refine ⟨t, by rw [hexec, ht], hpc, hbeats, hw, hdep, ?_, hreads, fun j hj => ?_, himage.trans hsi, hcode.trans hsc', ha, hx,
      fun h => htasks.trans (hnone h), fun u d h hu => ?_⟩
    · rw [hlink]
      have hpos : pos = callPos e ∧ pos < 16 := ⟨rfl, (e.wpos + 1).isLt⟩
      simp only [calledEngine, vget_vmod, ← hpos.1, hpos.2, and_self, if_true]
    · rw [readReg, regLoc_callee hw hdep hj, hreads]
    · have : taskRt t u = taskRt (spillAt s pos).2 u := by rw [taskRt, htasks]; rfl
      rw [this, hsome u d h hu]
  · rw [hexec]
    exact congrArg _ (engineRunThen_error hc hg (callTo_error hsc to_ hd))

/-! ### Returns (R206, R208, R270, R271) -/

/-- The engine once a return has moved WPOS back. -/
def returnedEngine (e : Engine) : Engine :=
  { e with owner := vset e.owner e.wpos.toNat none, wpos := e.wpos - 1, depth := e.depth - 1 }

theorem retFrom_ok {s : State} {sc : Scan} (hsc : s.sched.running = some sc) (hd : 0 < s.eng.depth) :
    retFrom s = .ok ⟨if retFills s sc.task then
        fillAt { s with eng := returnedEngine s.eng } sc.task ((s.eng.wpos.toNat + 14) % 16) (s.eng.depth - 2)
      else { s with eng := returnedEngine s.eng }, (vget s.eng.win s.eng.wpos.toNat Window.reset).link, none⟩ := by
  simp only [retFrom, withScan, hsc, Nat.ne_of_gt hd, if_false, jumpTo]
  rfl

theorem retFrom_error {s : State} {sc : Scan} (hsc : s.sched.running = some sc) (hd : s.eng.depth = 0) :
    retFrom s = .error .retAtZero := by
  simp only [retFrom, withScan, hsc, hd, if_true]

/-- Settles O14: the window that a return leaves, filled or not, and the overrun at depth 0. -/
theorem returnResults : Obligations.ReturnResults := by
  unfold Obligations.ReturnResults
  intro s sc g hsc e below cost hc hg
  have hcost : retCost s = cost := by simp only [retCost, hsc]; rfl
  have hexec : exec (.ret g) s = .next (engineRun s g cost [] false retFrom) := by rw [← hcost]; rfl
  refine ⟨fun hd => ?_, fun hd => ?_⟩
  · have hok := retFrom_ok hsc hd
    generalize hu : (if retFills s sc.task then
        fillAt { s with eng := returnedEngine s.eng } sc.task ((s.eng.wpos.toNat + 14) % 16) (s.eng.depth - 2)
      else { s with eng := returnedEngine s.eng } : State) = u at hok
    have hkeep : u.image = s.image ∧ u.code = s.code ∧ u.sched = s.sched ∧ u.eng.beats = e.beats ∧ u.eng.wpos = e.wpos - 1 ∧
        u.eng.depth = e.depth - 1 ∧ u.eng.a = e.a ∧ u.eng.x = e.x ∧ u.eng.pend = e.pend := by
      subst hu
      split <;> exact ⟨rfl, rfl, rfl, rfl, rfl, rfl, rfl, rfl, rfl⟩
    obtain ⟨hui, huc, hus, hub, huw, hud, hua, hux, hup⟩ := hkeep
    obtain ⟨t, ht, honly, heng⟩ := engineRun_plain hc hg hok (congrArg Sched.running hus)
    obtain ⟨hpc, hbeats, hw, hdep, ha, hx, -, hread⟩ := endInstr_plain e u.eng g cost
      (vget e.win e.wpos.toNat Window.reset).link
    rw [← heng] at hpc hbeats hw hdep ha hx hread
    obtain ⟨himage, hcode, htasks⟩ := tasks_of_engineOnly honly
    refine ⟨t, by rw [hexec, ht], hpc, hub ▸ hbeats, hw.trans huw, hdep.trans hud, himage.trans hui, hcode.trans huc,
      ha.trans hua, hx.trans hux, fun hf => ?_, fun hf => ⟨fun ht => ?_, fun w hlast l => ?_⟩⟩
    · simp only [hf, Bool.false_eq_true, if_false] at hu
      subst hu
      exact ⟨htasks, fun l => (hread l).trans (readLoc_commitLoad_congr _ _ l (readLoc_congr _ _ l rfl rfl rfl) rfl)⟩
    · simp only [hf, if_true] at hu
      subst hu
      rw [taskRt, htasks]
      simp [fillAt, taskRt, vget_vmod, ht, modEng]
    · simp only [hf, if_true] at hu
      subst hu
      refine (hread l).trans (readLoc_commitLoad_congr _ _ l (readLoc_congr _ _ l rfl ?_ rfl) rfl)
      have hst : (taskRt { s with eng := returnedEngine s.eng } sc.task).stack.getLast? = some w := hlast
      simp only [fillAt, hst, modEng, modTask, Option.getD_some]
      rfl
  · rw [hexec]
    exact congrArg _ (engineRunThen_error hc hg (retFrom_error hsc hd))
end Sys2Proof.Machine
end

section
/-!
PROOFS. Stores: the item written, every other item, and where a store may go (R152, R166-R167, R195, R215, R218, R221,
R268, R269).
-/
namespace Sys2Proof.Machine

open Sys2Proof

/-! ### The end of a store -/

/-- An instruction under its guard that leaves the homes alone, and outside the engine what u has changed. -/
theorem engineRun_stores {s u : State} {g : Guard} {cost : Nat} {body : State → Except OverrunCause EngOut} {src : Engine}
    (hc : canRun s cost = true) (hg : guardMet s.eng g = true) (hb : body s = .ok (engOut u src)) (hpc : u.eng.pc = s.eng.pc)
    (hs : keepsHomes s.eng src) (hrun : u.sched.running.isSome = true) :
    ∃ t, engineRun s g cost [] false body = preemptNow t ∧ engineOnly u t ∧
      t.eng = afterInstr s.eng src cost (s.eng.pc + 1) none := by
  obtain ⟨honly, heng⟩ := notePmovr_only u (endInstr s.eng g cost [] false (u.eng.pc + 1) none src)
  refine ⟨_, engineRunThen_met hc hg hb hrun, honly, heng.trans ?_⟩
  rw [hpc]
  exact endInstr_keepsHomes hs hs (fun _ _ _ _ => rfl)

/-- Post-modification after an access error (R215, R216, R221). -/
theorem postModify_setAerrAt (e : Engine) (a : BitVec 24) (k : BitVec 3) :
    (postModify (setAerrAt e a) k).x = (postModify e k).x ∧
    (postModify (setAerrAt e a) k).status = (postModify e k).status ||| stAerr ∧
    (postModify (setAerrAt e a) k).errpc = e.pc ∧
    ((readX e k).val = a → (postModify (setAerrAt e a) k).erraddr = a) := by
  have hread : readX (setAerrAt e a) k = readX e k := rfl
  have hmode : amodeOf (setAerrAt e a) k = amodeOf e k := rfl
  have hn : readN (setAerrAt e a) k = readN e k := rfl
  unfold postModify
  simp only [hread, hmode, hn]
  split
  · split <;> exact ⟨rfl, rfl, rfl, fun _ => rfl⟩
  · split
    · exact ⟨rfl, rfl, rfl, fun _ => rfl⟩
    · exact ⟨rfl, rfl, rfl, fun h => h⟩
  · exact ⟨rfl, rfl, rfl, fun _ => rfl⟩

theorem postOf_setAerrAt (e : Engine) (a : BitVec 24) (x : Ea) :
    (postOf (setAerrAt e a) x).x = (postOf e x).x ∧
    (postOf (setAerrAt e a) x).status = (postOf e x).status ||| stAerr ∧
    (postOf (setAerrAt e a) x).errpc = e.pc ∧
    ((∀ k, x.post = some k → (readX e k).val = a) → (postOf (setAerrAt e a) x).erraddr = a) := by
  unfold postOf
  cases h : x.post with
  | none => exact ⟨rfl, rfl, rfl, fun _ => rfl⟩
  | some k =>
    obtain ⟨hx, hst, hpc, haddr⟩ := postModify_setAerrAt e a k
    exact ⟨hx, hst, hpc, fun h => haddr (h k rfl)⟩

/-- The address register that a mode post-modifies holds its address (R240). -/
theorem eaOf_post {e : Engine} {m : Mode} {k : BitVec 3} (h : (eaOf e m).post = some k) : (readX e k).val = (eaOf e m).addr := by
  cases m with
  | indPost j =>
    obtain rfl : j = k := by simpa [eaOf] using h
    rfl
  | absPoint | ind | indexed | viaReg => simp [eaOf] at h

/-- A store runs: the engine goes on with its address register post-modified, and the image is that of u. -/
def runsStore (s u : State) (i : Instr) (x : Ea) (aerr : Word) : Prop :=
  ∃ t, exec i s = .next (preemptNow t) ∧ { t with eng := s.eng, image := s.image, log := s.log, sched := s.sched } = s ∧
    t.eng.pc = s.eng.pc + 1 ∧ t.eng.beats = s.eng.beats + 2 ∧ (∀ l, readLoc t.eng l = readLoc (commitLoad s.eng) l) ∧
    t.eng.a = s.eng.a ∧ t.eng.x = (postOf s.eng x).x ∧ t.eng.status = (postOf s.eng x).status ||| aerr ||| pmovrBit s.eng 2 ∧
    (∀ k, getItem t k = getItem u k) ∧ t.eng.errpc = (postOf u.eng x).errpc ∧ t.eng.erraddr = (postOf u.eng x).erraddr

/-- Outside its engine, image and schedule u is s, and a scan runs. -/
def storesOnly (s u : State) : Prop :=
  { u with eng := s.eng, image := s.image, sched := s.sched } = s ∧ u.sched.running.isSome = true

theorem runsStore.imp {s u : State} {i : Instr} {x : Ea} {aerr : Word} {post : State → Prop} (h : runsStore s u i x aerr)
    (hpost : ∀ t, (∀ k, getItem t k = getItem u k) → t.eng.errpc = (postOf u.eng x).errpc →
      t.eng.erraddr = (postOf u.eng x).erraddr → post t) :
    ∃ t, exec i s = .next (preemptNow t) ∧ { t with eng := s.eng, image := s.image, log := s.log, sched := s.sched } = s ∧
      t.eng.pc = s.eng.pc + 1 ∧ t.eng.beats = s.eng.beats + 2 ∧ (∀ l, readLoc t.eng l = readLoc (commitLoad s.eng) l) ∧
      t.eng.a = s.eng.a ∧ t.eng.x = (postOf s.eng x).x ∧
      t.eng.status = (postOf s.eng x).status ||| aerr ||| pmovrBit s.eng 2 ∧ post t := by
  obtain ⟨t, ht, hsame, hpc, hbeats, hread, ha, hx, hst, hitems, herrpc, haddr⟩ := h
  exact ⟨t, ht, hsame, hpc, hbeats, hread, ha, hx, hst, hpost t hitems herrpc haddr⟩

section
variable {s u : State} {i : Instr} {g : Guard} {x : Ea} {body : State → Except OverrunCause EngOut}

theorem runsStore_of {aerr : Word} (hi : exec i s = .next (engineRun s g 2 [] false body))
    (hc : canRun s 2 = true) (hg : guardMet s.eng g = true) (hb : body s = .ok (engOut u (postOf u.eng x)))
    (hu : storesOnly s u) (hk : keepsHomes s.eng u.eng) (ha : u.eng.a = s.eng.a)
    (hx : (postOf u.eng x).x = (postOf s.eng x).x) (hst : (postOf u.eng x).status = (postOf s.eng x).status ||| aerr) :
    runsStore s u i x aerr := by
  obtain ⟨hsame, hrun⟩ := hu
  obtain ⟨t, ht, honly, heng⟩ := engineRun_stores hc hg hb (hk.get Engine.pc) (keepsHomes_trans hk (keepsHomes_postOf _ x)) hrun
  have himage : t.image = u.image := (congrArg State.image honly.1 :)
  have hphase : t.sysPhase = u.sysPhase := (congrArg State.sysPhase honly.1 :)
  refine ⟨t, by rw [hi, ht], ?_, ?_⟩
  · have hlog : u.log = s.log := (congrArg State.log hsame :)
    have h1 := congrArg (fun v : State => ({ v with eng := s.eng, image := s.image, log := s.log, sched := s.sched } : State))
      honly.1
    have h2 := congrArg (fun v : State => ({ v with log := s.log } : State)) hsame
    exact h1.trans h2
  · rw [heng]
    refine ⟨rfl, rfl, readLoc_afterInstr _ _ _ _ _, (postOf_a ..).trans ha, hx, ?_, fun k => getItem_congr k himage hphase, rfl, rfl⟩
    rw [← hst]
    rfl

/-- A store that leaves the engine to its post-modification. -/
theorem runsStore_plain (hi : exec i s = .next (engineRun s g 2 [] false body)) (hc : canRun s 2 = true)
    (hg : guardMet s.eng g = true) (hb : body s = .ok (engOut u (postOf u.eng x))) (hu : storesOnly s u) (he : u.eng = s.eng) :
    runsStore s u i x 0 :=
  runsStore_of hi hc hg hb hu (he ▸ keepsHomes_refl _) (by rw [he]) (by rw [he]) (by rw [he]; simp)

/-- A store that is an access error. -/
theorem runsStore_aerr {a : BitVec 24} (hi : exec i s = .next (engineRun s g 2 [] false body)) (hc : canRun s 2 = true)
    (hg : guardMet s.eng g = true) (hb : body s = .ok (engOut u (postOf u.eng x))) (hu : storesOnly s u)
    (he : u.eng = setAerrAt s.eng a) : runsStore s u i x stAerr := by
  obtain ⟨hx, hst, -, -⟩ := postOf_setAerrAt s.eng a x
  exact runsStore_of hi hc hg hb hu (he ▸ keepsHomes_setAerrAt ..) (by rw [he]; rfl) (by rw [he, hx]) (by rw [he, hst])

end

/-! ### Stores into items -/

/-- What a store leaves of an item's tag (R166, R268): V, L and Q are its own, M, S and F stay. -/
def storedTag (old : Byte) (v l : Bool) (q : Quality) (new : Byte) : Prop :=
  tagQ new = q ∧ tagL new = l ∧ tagM new = tagM old ∧ tagS new = tagS old ∧ tagF new = tagF old ∧ tagV new = v

theorem storedTag_mkTag (old : Byte) (e0 e v l : Bool) (q : Quality) :
    storedTag old v l q (setE (mkTag e0 l (tagM old) (tagS old) (tagF old) q v) e) := by
  simp [storedTag, setE]

/-- A store into an item: the item's value, what the scan has dirtied, and nothing else (R166, R167). -/
theorem storeInto_ok {s : State} {sc : Scan} {k : Nat} (hsc : s.sched.running = some sc) (hk : sysInPoint k = false)
    (hroom : (sc.dirty ++ sc.shadowDirty).contains (lineOf k) = true ∨
      (sc.dirty ++ sc.shadowDirty).eraseDups.length + 1 ≤ (taskDef s sc.task).d) (v : Word) (l : Bool) (q : Quality) (point : Bool) :
    ∃ img dirty, storeInto s sc k v l q point =
        .ok { s with image := img, sched := { s.sched with running := some { sc with dirty := dirty } } } ∧
      (dirty = sc.dirty ∨ dirty = sc.dirty ++ [lineOf k]) ∧
      (∀ j, j ≠ k → getItem { s with image := img } j = getItem s j) ∧
      (getItem { s with image := img } k).val = (if point then (getItem s k).val else v) ∧
      storedTag (getItem s k).tag (if point then v.getLsbD 0 else false) l q (getItem { s with image := img } k).tag := by
  generalize hnew : (if point then (⟨(getItem s k).val, mkTag (tagE (getItem s k).tag) l (tagM (getItem s k).tag)
      (tagS (getItem s k).tag) (tagF (getItem s k).tag) q (v.getLsbD 0)⟩ : Tagged)
    else ⟨v, mkTag (tagE (getItem s k).tag) l (tagM (getItem s k).tag) (tagS (getItem s k).tag) (tagF (getItem s k).tag) q
      false⟩) = new
  have hself : getItem (storeItem s k new) k =
      ⟨new.val, setE new.tag (tagE (getItem s k).tag || changedItem new (sealedItem s k))⟩ := getItem_putItem_same s k _ hk
  have hdirty : ∃ dirty, storeInto s sc k v l q point =
        .ok { storeItem s k new with sched := { s.sched with running := some { sc with dirty := dirty } } } ∧
      (dirty = sc.dirty ∨ dirty = sc.dirty ++ [lineOf k]) := by
    have hrun : ∀ f, modRun (storeItem s k new) f =
        { storeItem s k new with sched := { s.sched with running := some (f sc) } } := by
      intro f
      simp [modRun, modSched, storeItem, putItem, hsc]
    have hsame : storeItem s k new =
        { storeItem s k new with sched := { s.sched with running := some { sc with dirty := sc.dirty } } } := by
      rw [show ({ sc with dirty := sc.dirty } : Scan) = sc from rfl, ← hsc]
      rfl
    simp only [storeInto, hnew, hrun]
    split
    · split
      · rename_i hin
        exact ⟨_, rfl, by split <;> simp⟩
      · rename_i hin
        rw [if_neg (Nat.not_lt.mpr (hroom.resolve_left hin))]
        exact ⟨_, rfl, .inr rfl⟩
    · exact ⟨sc.dirty, congrArg Except.ok hsame, .inl rfl⟩
  obtain ⟨dirty, hok, hd⟩ := hdirty
  refine ⟨(storeItem s k new).image, dirty, hok, hd, fun j hj => getItem_storeItem_ne s new hj, ?_, ?_⟩
  · refine (congrArg Tagged.val hself).trans ?_
    rw [← hnew]
    split <;> rfl
  · refine (congrArg (storedTag _ _ l q) (congrArg Tagged.tag hself)).mpr ?_
    rw [← hnew]
    split <;> exact storedTag_mkTag ..

/-- A store that the rules of R152 discard shows OUTPUT_OWNER_ERR at most (R197). -/
theorem discardStore_ok {s : State} {sc : Scan} (hsc : s.sched.running = some sc) (k : Nat) :
    ∃ img d, discardStore s k =
        { s with image := img, sched := { s.sched with running := some { sc with firstDiscard := d } } } ∧
      ∀ j, j ≠ 0xF014 → getItem { s with image := img } j = getItem s j := by
  have hrun : modRun s (fun sc => { sc with firstDiscard := sc.firstDiscard.orElse (fun _ => some k) }) =
      { s with sched := { s.sched with running := some { sc with firstDiscard := sc.firstDiscard.orElse (fun _ => some k) } } } := by
    simp [modRun, modSched, hsc]
  simp only [discardStore, hrun]
  split
  · exact ⟨s.image, _, rfl, fun _ _ => rfl⟩
  · exact ⟨_, _, rfl, fun j hj => getItem_putItem_ne s _ hj⟩

/-! ### Where a store goes -/

theorem storeWordTo_congr (s : State) (img : SMap Tagged) (sch : Sched) (e : Engine) (t a : Nat)
    (h : heldByForce { s with image := img } (wKey a) = heldByForce s (wKey a)) :
    storeWordTo { s with image := img, sched := sch, eng := e } t a = storeWordTo s t a := by
  have h' : heldByForce { s with image := img, sched := sch, eng := e } (wKey a) = heldByForce s (wKey a) := h
  have ho : ownedBy { s with image := img, sched := sch, eng := e } t (wKey a) = ownedBy s t (wKey a) := rfl
  have hd : dext { s with image := img, sched := sch, eng := e } = dext s := rfl
  have hb : dspBase { s with image := img, sched := sch, eng := e } = dspBase s := rfl
  have ha : anaModeNow { s with image := img, sched := sch, eng := e } = anaModeNow s := rfl
  simp only [storeWordTo, h', ho, hd, hb, ha]

/-! ### Word and point stores -/

/-- A state that differs in image and schedule alone is one that a store may leave. -/
theorem storesOnly_run (s : State) (img : SMap Tagged) (sc : Scan) :
    storesOnly s { s with image := img, sched := { s.sched with running := some sc } } := ⟨rfl, rfl⟩

theorem storesOnly_self {s : State} {sc : Scan} (h : s.sched.running = some sc) : storesOnly s s := ⟨rfl, by simp [h]⟩

theorem storesOnly_modEng {s u : State} (h : storesOnly s u) (f : Engine → Engine) : storesOnly s (modEng u f) := h

/-- The storing of a store whose rule is known: u is the state it leaves (R152, R221, R268). -/
def storesBy (s : State) (sc : Scan) (to_ : StoreTo) (k : Nat) (a : BitVec 24) (v : Word) (l : Bool) (q : Quality)
    (point : Bool) : Except OverrunCause State :=
  match to_ with
  | .item => storeInto s sc k v l q point
  | .aerr => .ok (modEng s (fun e => setAerrAt e a))
  | .notOwned => .ok (discardStore s k)
  | .reservedInput => .ok (if point then modEng (discardStore s k) (fun e => setAerrAt e a) else discardStore s k)
  | .ignored => .ok s

theorem storeWord_eq {s : State} {sc : Scan} {a : BitVec 24} (h : a.toNat < 0xFFF000) (t : Tagged) (q : Quality) :
    storeWord s sc a t q =
      storesBy s sc (storeWordTo s sc.task a.toNat) (wKey a.toNat) a t.val (tagL t.tag) (worseQ (tagQ t.tag) q) false := by
  have : inSf a.toNat = false := decide_eq_false (by omega)
  unfold storeWord storesBy
  rw [if_neg (by simp [this])]
  cases storeWordTo s sc.task a.toNat <;> rfl

theorem storePoint_eq (s : State) (sc : Scan) (p : Point) (v l : Bool) (q : Quality) :
    storePoint s sc p v l q =
      storesBy s sc (storePointTo s sc.task p.toNat) p.toNat (p.setWidth 24) (if v then 1 else 0) l q true := by
  unfold storePoint storesBy
  cases storePointTo s sc.task p.toNat <;> rfl

theorem sysInPoint_wKey (a : Nat) : sysInPoint (wKey a) = false :=
  decide_eq_false (by unfold wKey; omega)

/-- Only the points above the inputs may be stored into (R191, R254). -/
theorem sysInPoint_of_storePointTo {s : State} {t p : Nat} (h : storePointTo s t p = .item) : sysInPoint p = false := by
  refine decide_eq_false fun hp => ?_
  have hlow : p < 0x10000 := by omega
  simp only [storePointTo, hlow, if_true] at h
  split at h <;> cases h

section
variable {s : State} {sc : Scan} {i : Instr} {g : Guard} {x : Ea} {k : Nat} {a : BitVec 24} {v : Word} {l : Bool} {q : Quality}
  {point : Bool} {to_ : StoreTo} {body : State → Except OverrunCause EngOut}

/-- The body of a store: the storing, then the post-modification of the address register. -/
def storeBody (x : Ea) (st : Except OverrunCause State) : Except OverrunCause EngOut :=
  match st with
  | .error c => .error c
  | .ok u => .ok (engOut u (postOf u.eng x))

/-- A store into an item (R166, R167, R195, R268). -/
theorem stores_item (hsc : s.sched.running = some sc) (hi : exec i s = .next (engineRun s g 2 [] false body))
    (hb : body s = storeBody x (storesBy s sc .item k a v l q point)) (hk : sysInPoint k = false)
    (hroom : (sc.dirty ++ sc.shadowDirty).contains (lineOf k) = true ∨
      (sc.dirty ++ sc.shadowDirty).eraseDups.length + 1 ≤ (taskDef s sc.task).d)
    (hc : canRun s 2 = true) (hg : guardMet s.eng g = true) :
    ∃ u, runsStore s u i x 0 ∧ (getItem u k).val = (if point then (getItem s k).val else v) ∧
      storedTag (getItem s k).tag (if point then v.getLsbD 0 else false) l q (getItem u k).tag ∧
      ∀ j, j ≠ k → getItem u j = getItem s j := by
  obtain ⟨img, dirty, hok, -, hne, hval, htag⟩ := storeInto_ok hsc hk hroom v l q point
  rw [storesBy, hok] at hb
  exact ⟨_, runsStore_plain hi hc hg hb (storesOnly_run s img _) rfl, hval, htag, hne⟩

/-- A store that is discarded, or that a force keeps off (R152, R195). -/
theorem stores_nowhere (hsc : s.sched.running = some sc) (hi : exec i s = .next (engineRun s g 2 [] false body))
    (hto : to_ = .notOwned ∨ to_ = .ignored)
    (hb : body s = storeBody x (storesBy s sc to_ k a v l q point)) (hc : canRun s 2 = true) (hg : guardMet s.eng g = true) :
    ∃ u, runsStore s u i x 0 ∧ (∀ j, j ≠ 0xF014 → getItem u j = getItem s j) ∧
      (to_ = .ignored → ∀ j, getItem u j = getItem s j) := by
  rcases hto with rfl | rfl
  · obtain ⟨img, d, hd, hne⟩ := discardStore_ok hsc k
    rw [storesBy, hd] at hb
    exact ⟨_, runsStore_plain hi hc hg hb (storesOnly_run s img _) rfl, hne, nofun⟩
  · exact ⟨s, runsStore_plain hi hc hg hb (storesOnly_self hsc) rfl, fun _ _ => rfl, fun _ _ => rfl⟩

/-- A store that is an access error (R221, R254). -/
theorem stores_aerr (hsc : s.sched.running = some sc) (hi : exec i s = .next (engineRun s g 2 [] false body))
    (hto : to_ = .aerr ∨ to_ = .reservedInput ∧ point = true)
    (hb : body s = storeBody x (storesBy s sc to_ k a v l q point)) (hc : canRun s 2 = true) (hg : guardMet s.eng g = true) :
    ∃ u, runsStore s u i x stAerr ∧ u.eng = setAerrAt s.eng a ∧ (∀ j, j ≠ 0xF014 → getItem u j = getItem s j) ∧
      (to_ = .aerr → ∀ j, getItem u j = getItem s j) := by
  rcases hto with rfl | ⟨rfl, rfl⟩
  · exact ⟨_, runsStore_aerr hi hc hg hb (storesOnly_modEng (storesOnly_self hsc) _) rfl, rfl, fun _ _ => rfl, fun _ _ => rfl⟩
  · obtain ⟨img, d, hd, hne⟩ := discardStore_ok hsc k
    rw [storesBy, hd, if_pos rfl] at hb
    exact ⟨_, runsStore_aerr hi hc hg hb (storesOnly_modEng (storesOnly_run s img _) _) rfl, rfl,
      fun j hj => (getItem_congr j rfl rfl).trans (hne j hj), nofun⟩

end

/-- A store completes under its guard, when its beats fit: what it leaves, and `post` of the state it leaves. -/
def ranStore (s : State) (g : Guard) (i : Instr) (x : Ea) (aerr : Word) (post : State → Prop) : Prop :=
  canRun s 2 = true → guardMet s.eng g = true →
    ∃ t, exec i s = .next (preemptNow t) ∧ { t with eng := s.eng, image := s.image, log := s.log, sched := s.sched } = s ∧
      t.eng.pc = s.eng.pc + 1 ∧ t.eng.beats = s.eng.beats + 2 ∧ (∀ l, readLoc t.eng l = readLoc (commitLoad s.eng) l) ∧
      t.eng.a = s.eng.a ∧ t.eng.x = (postOf s.eng x).x ∧
      t.eng.status = (postOf s.eng x).status ||| aerr ||| pmovrBit s.eng 2 ∧ post t

section
variable {s : State} {sc : Scan} {g : Guard} {i : Instr} {x : Ea} {body : State → Except OverrunCause EngOut}
  (hsc : s.sched.running = some sc) (hi : exec i s = .next (engineRun s g 2 [] false body))
include hsc hi

/-- A store of a word below the special function registers, by its rule. -/
theorem wordStores {rs : Reg} (hbody : body s = wordStore s rs x) (hpost : ∀ k, x.post = some k → (readX s.eng k).val = x.addr)
    (hn : x.addr.toNat < 0xFFF000) :
    (storeWordTo s sc.task x.addr.toNat = .item →
      ((sc.dirty ++ sc.shadowDirty).contains (lineOf (wKey x.addr.toNat)) = true ∨
        (sc.dirty ++ sc.shadowDirty).eraseDups.length + 1 ≤ (taskDef s sc.task).d) →
      ranStore s g i x 0 (fun t => (getItem t (wKey x.addr.toNat)).val = (readReg s.eng rs).val ∧
        storedTag (getItem s (wKey x.addr.toNat)).tag false (tagL (readReg s.eng rs).tag) (worseQ (tagQ (readReg s.eng rs).tag) x.q)
          (getItem t (wKey x.addr.toNat)).tag ∧ ∀ k, k ≠ wKey x.addr.toNat → getItem t k = getItem s k)) ∧
    (storeWordTo s sc.task x.addr.toNat = .aerr → ranStore s g i x stAerr (fun t => (∀ k, getItem t k = getItem s k) ∧
      t.eng.errpc = s.eng.pc ∧ t.eng.erraddr = x.addr)) ∧
    (storeWordTo s sc.task x.addr.toNat = .notOwned → ranStore s g i x 0 (fun t => ∀ k, k ≠ 0xF014 → getItem t k = getItem s k)) ∧
    (storeWordTo s sc.task x.addr.toNat = .ignored → ranStore s g i x 0 (fun t => ∀ k, getItem t k = getItem s k)) := by
  have hb : ∀ {to_}, storeWordTo s sc.task x.addr.toNat = to_ → body s = storeBody x (storesBy s sc to_ (wKey x.addr.toNat)
      x.addr (readReg s.eng rs).val (tagL (readReg s.eng rs).tag) (worseQ (tagQ (readReg s.eng rs).tag) x.q) false) := by
    intro to_ hto
    rw [hbody, ← hto, ← storeWord_eq hn]
    simp only [wordStore, withScan, hsc]
    rfl
  refine ⟨fun hto hroom hc hg => ?_, fun hto hc hg => ?_, fun hto hc hg => ?_, fun hto hc hg => ?_⟩
  · obtain ⟨u, hu, hval, htag, hne⟩ := stores_item hsc hi (hb hto) (sysInPoint_wKey _) hroom hc hg
    exact hu.imp fun t ht _ _ => ⟨ht _ ▸ hval, ht _ ▸ htag, fun k hk => (ht k).trans (hne k hk)⟩
  · obtain ⟨u, hu, he, -, hall⟩ := stores_aerr hsc hi (.inl rfl) (hb hto) hc hg
    obtain ⟨-, -, hpc, haddr⟩ := postOf_setAerrAt s.eng x.addr x
    exact hu.imp fun t ht hep hea => ⟨fun k => (ht k).trans (hall rfl k), hep.trans (he ▸ hpc), hea.trans (he ▸ haddr hpost)⟩
  · obtain ⟨u, hu, hne, -⟩ := stores_nowhere hsc hi (.inl rfl) (hb hto) hc hg
    exact hu.imp fun t ht _ _ => fun k hk => (ht k).trans (hne k hk)
  · obtain ⟨u, hu, -, hall⟩ := stores_nowhere hsc hi (.inr rfl) (hb hto) hc hg
    exact hu.imp fun t ht _ _ => fun k => (ht k).trans (hall rfl k)

/-- A store into a point, by its rule. -/
theorem pointStores {m : Mode} {v l : Bool} {q : Quality} {k : Nat} (hx : eaOf s.eng m = x) (hk : (pointOf x).toNat = k)
    (hbody : body s = pointStore s m v l q) :
    (storePointTo s sc.task k = .item →
      ((sc.dirty ++ sc.shadowDirty).contains (lineOf k) = true ∨
        (sc.dirty ++ sc.shadowDirty).eraseDups.length + 1 ≤ (taskDef s sc.task).d) →
      ranStore s g i x 0 (fun t => (getItem t k).val = (getItem s k).val ∧
        storedTag (getItem s k).tag v l (worseQ q x.q) (getItem t k).tag ∧ ∀ k', k' ≠ k → getItem t k' = getItem s k')) ∧
    (storePointTo s sc.task k = .aerr → ranStore s g i x stAerr (fun t => (∀ k, getItem t k = getItem s k) ∧
      t.eng.errpc = s.eng.pc)) ∧
    (storePointTo s sc.task k = .notOwned → ranStore s g i x 0 (fun t => ∀ k', k' ≠ 0xF014 → getItem t k' = getItem s k')) ∧
    (storePointTo s sc.task k = .reservedInput → ranStore s g i x stAerr (fun t =>
      (∀ k', k' ≠ 0xF014 → getItem t k' = getItem s k') ∧ t.eng.errpc = s.eng.pc)) ∧
    (storePointTo s sc.task k = .ignored → ranStore s g i x 0 (fun t => ∀ k', getItem t k' = getItem s k')) := by
  have hb : ∀ {to_}, storePointTo s sc.task k = to_ → body s = storeBody x (storesBy s sc to_ k ((pointOf x).setWidth 24)
      (if v then 1 else 0) l (worseQ q x.q) true) := by
    intro to_ hto
    rw [hbody, ← hto, ← hk, ← storePoint_eq, ← hx]
    simp only [pointStore, withScan, hsc]
    rfl
  have hbit : (if v then (1 : Word) else 0).getLsbD 0 = v := by cases v <;> rfl
  refine ⟨fun hto hroom hc hg => ?_, fun hto hc hg => ?_, fun hto hc hg => ?_, fun hto hc hg => ?_, fun hto hc hg => ?_⟩
  · obtain ⟨u, hu, hval, htag, hne⟩ := stores_item hsc hi (hb hto) (sysInPoint_of_storePointTo hto) hroom hc hg
    rw [hbit] at htag
    exact hu.imp fun t ht _ _ => ⟨ht _ ▸ hval, ht _ ▸ htag, fun k hk => (ht k).trans (hne k hk)⟩
  · obtain ⟨u, hu, he, -, hall⟩ := stores_aerr hsc hi (.inl rfl) (hb hto) hc hg
    obtain ⟨-, -, hpc, -⟩ := postOf_setAerrAt s.eng ((pointOf x).setWidth 24) x
    exact hu.imp fun t ht hep _ => ⟨fun k => (ht k).trans (hall rfl k), hep.trans (he ▸ hpc)⟩
  · obtain ⟨u, hu, hne, -⟩ := stores_nowhere hsc hi (.inl rfl) (hb hto) hc hg
    exact hu.imp fun t ht _ _ => fun k hk => (ht k).trans (hne k hk)
  · obtain ⟨u, hu, he, hne, -⟩ := stores_aerr hsc hi (.inr ⟨rfl, rfl⟩) (hb hto) hc hg
    obtain ⟨-, -, hpc, -⟩ := postOf_setAerrAt s.eng ((pointOf x).setWidth 24) x
    exact hu.imp fun t ht hep _ => ⟨fun k hk => (ht k).trans (hne k hk), hep.trans (he ▸ hpc)⟩
  · obtain ⟨u, hu, -, hall⟩ := stores_nowhere hsc hi (.inr rfl) (hb hto) hc hg
    exact hu.imp fun t ht _ _ => fun k => (ht k).trans (hall rfl k)

end

/-! ### Where a store may go -/

theorem storeWordTo_high {s : State} {t a : Nat} (h : 0x200000 ≤ a) (ho : a < 0x800000 ∨ 0x808000 ≤ a) :
    storeWordTo s t a = .aerr := by
  have h1 : inDataSram a = false := decide_eq_false (by omega)
  have h2 : inAnaIn a = false := decide_eq_false (by omega)
  have h3 : inAnaOut a = false := decide_eq_false (by omega)
  simp [storeWordTo, h1, h2, h3]

theorem storeWordTo_anaIn {s : State} {t a : Nat} (hlo : 0x800000 ≤ a) (hhi : a < 0x804000) :
    storeWordTo s t a = if reservedWord a then .notOwned else .aerr := by
  have h1 : inDataSram a = false := decide_eq_false (by omega)
  have h2 : inAnaIn a = true := decide_eq_true ⟨hlo, hhi⟩
  simp [storeWordTo, h1, h2]

/-- An output word that a task may store to is covered by its emit mask and not held by a force (R152, R195). -/
theorem storeWordTo_anaOut {s : State} {t a : Nat} (hlo : 0x804000 ≤ a) (hhi : a < 0x808000) :
    storeWordTo s t a = .notOwned ∨ storeWordTo s t a =
      if !ownedBy s t (wKey a) then .notOwned else if heldByForce s (wKey a) then .ignored else .item := by
  have h1 : inDataSram a = false := decide_eq_false (by omega)
  have h2 : inAnaIn a = false := decide_eq_false (by omega)
  have h3 : inAnaOut a = true := decide_eq_true ⟨hlo, hhi⟩
  simp only [storeWordTo, h1, h2, h3, Bool.false_eq_true, if_false, if_true]
  split
  · exact .inl rfl
  · split
    · exact .inl rfl
    · exact .inr rfl

theorem storePointTo_out {s : State} {t p : Nat} (h : 0x10000 ≤ p) : storePointTo s t p =
    if reservedPoint p || !ownedBy s t p then .notOwned else if heldByForce s p then .ignored else .item :=
  if_neg (by omega)

theorem exec_st {m : Mode} (h : m.notPoint = true) (g : Guard) (rs : Reg) (s : State) :
    exec (.st g m rs) s = .next (engineRun s g 2 [] false (fun s => wordStore s rs (eaOf s.eng m))) := by
  have hst : execSt g m rs s = .next (engineRun s g 2 [] false (fun s => wordStore s rs (eaOf s.eng m))) :=
    if_neg (by simp [pointMode_of_notPoint h])
  exact hst

theorem exec_stAbs {addr : Abs} (h : addr.wf = true) (g : Guard) (rs : Reg) (s : State) :
    exec (.stAbs g addr rs) s = .next (engineRun s g 2 [] false (fun s => wordStore s rs ⟨absAddr addr, qGood, none⟩)) := by
  have hst : execStAbs g addr rs s =
      .next (engineRun s g 2 [] false (fun s => wordStore s rs ⟨absAddr addr, qGood, none⟩)) := if_neg (region_ne_of_wf h)
  exact hst

/-- Settles O11: the four storing instructions by the rule of their item, then the rules. -/
theorem storeResults : Obligations.StoreResults := by
  unfold Obligations.StoreResults
  refine ⟨fun s sc g rs p m addr hsc => ⟨fun hm => ?_, fun ha => ?_, ?_, ?_⟩,
    fun s t a p => ⟨storeWordTo_anaIn, fun h1 h2 => storeWordTo_high h1 (.inl h2), fun h => storeWordTo_high (by omega) (.inr h),
      fun h hd => ?_, fun h hd hb => ?_, fun h1 h2 ho => ?_, fun h1 h2 hf => ?_, fun h => if_pos h, fun h => ?_, fun h => ?_⟩⟩
  · exact fun hn => wordStores hsc (exec_st hm g rs s) rfl (fun k => eaOf_post) hn
  · exact fun hn => wordStores hsc (exec_stAbs ha g rs s) rfl nofun hn
  · exact pointStores hsc rfl rfl rfl rfl
  · exact pointStores hsc rfl rfl rfl rfl
  · simp [storeWordTo, inDataSram, h, hd]
  · simp [storeWordTo, inDataSram, h, Nat.not_le.mpr hd, hb]
  · rcases storeWordTo_anaOut (s := s) (t := t) h1 h2 with h | h <;> simp [h, ho]
  · rcases storeWordTo_anaOut (s := s) (t := t) h1 h2 with h | h
    · simp [h]
    · rw [h, hf]
      split <;> simp
  · rw [storePointTo_out h]
    cases reservedPoint p <;> cases ownedBy s t p <;> cases heldByForce s p <;> simp
  · rw [storePointTo_out h]
    cases reservedPoint p <;> cases ownedBy s t p <;> cases heldByForce s p <;> simp
end Sys2Proof.Machine
end

section
/-!
PROOFS. Function blocks: the state words they write, their output, and a block outside data SRAM (R185-R188, R272-R276).
-/
namespace Sys2Proof.Machine

open Sys2Proof

/-! ### The state words of a block -/

theorem length_eraseDups_le (l : List Nat) : l.eraseDups.length ≤ l.length := by
  induction hn : l.length using Nat.strong_induction_on generalizing l with
  | _ n ih =>
    cases l with
    | nil => simp
    | cons a l =>
      have hf := List.length_filter_le (fun b => !b == a) l
      rw [List.length_cons] at hn
      rw [List.eraseDups_cons, List.length_cons]
      have := ih _ (by omega) (l.filter (fun b => !b == a)) rfl
      omega

theorem wKey_inj {a b : Nat} (h : wKey a = wKey b) : a = b := by
  unfold wKey at h
  omega

/-- The address of a state word inside data SRAM. -/
theorem toNat_wordAddr {a : BitVec 24} {i : Nat} (h : a.toNat + i < 0x200000) : (a + BitVec.ofNat 24 i).toNat = a.toNat + i := by
  rw [BitVec.toNat_add, BitVec.toNat_ofNat]
  omega

/-- What a block writes into a state word. -/
def holdsWord (s : State) (a : Nat) (aq : Quality) (w : BlockWrite) : Prop :=
  (getItem s (wKey (a + w.idx))).val = w.val ∧ tagL (getItem s (wKey (a + w.idx))).tag = w.l ∧
    tagQ (getItem s (wKey (a + w.idx))).tag = worseQ w.q aq

/-- Its forces keep an item whose tag keeps M and F. -/
theorem heldByForce_of_stored {s t : State} {k j : Nat} {v l : Bool} {q : Quality}
    (hne : ∀ j, j ≠ k → getItem t j = getItem s j) (htag : storedTag (getItem s k).tag v l q (getItem t k).tag) :
    heldByForce t j = heldByForce s j := by
  obtain ⟨-, -, hm, -, hf, -⟩ := htag
  unfold heldByForce
  by_cases hj : j = k
  · rw [hj, hm, hf]
  · rw [hne j hj]

/-- Writing the state words of a block: each takes its value, and nothing else changes (R218, R273). -/
theorem writeBlock_ok (a : BitVec 24) (aq : Quality) (ws : List BlockWrite) (s : State) (sc : Scan)
    (hsc : s.sched.running = some sc) (hidx : ∀ w ∈ ws, a.toNat + w.idx < 0x200000)
    (hto : ∀ w ∈ ws, storeWordTo s sc.task (a.toNat + w.idx) = .item) (hnodup : (ws.map (·.idx)).Nodup)
    (hd : sc.dirty.length + sc.shadowDirty.length + ws.length ≤ (taskDef s sc.task).d) :
    ∃ img dirty, writeBlock s a aq ws =
        .ok { s with image := img, sched := { s.sched with running := some { sc with dirty := dirty } } } ∧
      (∀ w ∈ ws, holdsWord { s with image := img } a.toNat aq w) ∧
      ∀ j, (∀ w ∈ ws, j ≠ wKey (a.toNat + w.idx)) → getItem { s with image := img } j = getItem s j := by
  induction ws generalizing s sc with
  | nil =>
    refine ⟨s.image, sc.dirty, ?_, nofun, fun _ _ => rfl⟩
    rw [show ({ sc with dirty := sc.dirty } : Scan) = sc from rfl, ← hsc]
    rfl
  | cons w ws ih =>
    have haddr := toNat_wordAddr (hidx w List.mem_cons_self)
    have hlt := hidx w List.mem_cons_self
    have hlen : (sc.dirty ++ sc.shadowDirty).eraseDups.length + 1 ≤ (taskDef s sc.task).d := by
      have := length_eraseDups_le (sc.dirty ++ sc.shadowDirty)
      simp only [List.length_append, List.length_cons] at this hd
      omega
    obtain ⟨img, dirty, hok, hdirty, hne, hval, htag⟩ := storeInto_ok (k := wKey (a.toNat + w.idx)) hsc (sysInPoint_wKey _)
      (.inr hlen) w.val (tagL (mkTag false w.l false false false w.q false))
      (worseQ (tagQ (mkTag false w.l false false false w.q false)) aq) false
    have hstore : storeWord s sc (a + BitVec.ofNat 24 w.idx) ⟨w.val, mkTag false w.l false false false w.q false⟩ aq =
        .ok { s with image := img, sched := { s.sched with running := some { sc with dirty := dirty } } } := by
      rw [storeWord_eq (by omega), haddr, hto w List.mem_cons_self]
      exact hok
    have hheld : ∀ j, heldByForce { s with image := img } j = heldByForce s j := fun j => heldByForce_of_stored hne htag
    obtain ⟨hw, hws⟩ := List.nodup_cons.mp hnodup
    obtain ⟨img', dirty', hok', hall, hrest⟩ := ih
      { s with image := img, sched := { s.sched with running := some { sc with dirty := dirty } } } { sc with dirty := dirty } rfl
      (fun v hv => hidx v (List.mem_cons_of_mem _ hv))
      (fun v hv => (storeWordTo_congr s img _ s.eng sc.task _ (hheld _)).trans (hto v (List.mem_cons_of_mem _ hv))) hws
      (by
        have hle : dirty.length ≤ sc.dirty.length + 1 := by rcases hdirty with rfl | rfl <;> simp
        have hd' : (taskDef s sc.task).d = (taskDef { s with
          image := img, sched := { s.sched with running := some { sc with dirty := dirty } } } sc.task).d := rfl
        simp only [List.length_cons] at hd
        rw [← hd']
        dsimp only
        omega)
    refine ⟨img', dirty', ?_, fun v hv => ?_, fun j hj => ?_⟩
    · simp only [writeBlock, hsc, hstore]
      exact hok'
    · rcases List.mem_cons.mp hv with rfl | hv
      · have hself : getItem { s with image := img' } (wKey (a.toNat + v.idx)) =
            getItem { s with image := img } (wKey (a.toNat + v.idx)) :=
          hrest _ fun u hu h => hw (List.mem_map.mpr ⟨u, hu, (Nat.add_left_cancel (wKey_inj h)).symm⟩)
        obtain ⟨hq, hl, -⟩ := htag
        rw [tagQ_mkTag] at hq
        rw [tagL_mkTag] at hl
        exact ⟨by rw [hself]; exact hval, by rw [hself]; exact hl, by rw [hself]; exact hq⟩
      · exact hall v hv
    · exact (hrest j fun v hv => hj v (List.mem_cons_of_mem _ hv)).trans (hne j (hj w List.mem_cons_self))

/-! ### One block -/

/-- Noting that an outage could not be measured changes TIMER_GAP_UNKNOWN alone (R186). -/
theorem setGapUnknown_ok (s : State) (gap : Bool) : ∃ u : State, (if gap then setGapUnknown s else s) = u ∧ u.eng = s.eng ∧
    u.sched.running = s.sched.running ∧ (∀ t, taskDef u t = taskDef s t) ∧
    (∀ j, j ≠ 0xF00F → getItem u j = getItem s j) ∧ ∀ t a, storeWordTo u t a = storeWordTo s t a := by
  cases gap with
  | false => exact ⟨s, rfl, rfl, rfl, fun _ => rfl, fun _ _ => rfl, fun _ _ => rfl⟩
  | true =>
    have hitems : ∀ j, j ≠ 0xF00F → getItem (setGapUnknown s) j = getItem s j := fun j hj => getItem_putItem_ne s _ hj
    refine ⟨_, rfl, rfl, rfl, fun _ => rfl, hitems, fun t a => storeWordTo_congr s _ _ s.eng t a ?_⟩
    have hk : wKey a ≠ 0xF00F := fun h => by unfold wKey at h; omega
    exact congrArg (fun x : Tagged => tagF x.tag || tagM x.tag) (hitems (wKey a) hk)

/-- An instruction whose body writes one predicate into the engine src and leaves the rest to u. -/
theorem engineRun_pred {s u : State} {src : Engine} {g : Guard} {cost : Nat} {pd : BitVec 3} {v : Bool} {q : Quality}
    {body : State → Except OverrunCause EngOut} (hc : canRun s cost = true) (hg : guardMet s.eng g = true)
    (hb : body s = .ok (engOut u (writePred src pd v q))) (hrun : u.sched.running.isSome = true) (hpc : u.eng.pc = s.eng.pc)
    (hq : guardQ s.eng g = guardQ src g) (hm : ctrlPmask s.eng = ctrlPmask src) :
    ∃ t, engineRun s g cost [.pred pd] false body = preemptNow t ∧ engineOnly u t ∧
      t.eng = leaves src g cost [.pred pd] (s.eng.pc + 1) (writePred src pd v q) := by
  obtain ⟨honly, heng⟩ := notePmovr_only u (endInstr s.eng g cost [.pred pd] false (u.eng.pc + 1) none (writePred src pd v q))
  refine ⟨_, engineRunThen_met hc hg hb hrun, honly, heng.trans ?_⟩
  simp only [endInstr, leaves, hpc, hq, hm, Bool.false_eq_true, if_false, Option.map_none]

/-- The body of a block (R273). -/
def blockBody (pd x : BitVec 3) (k : BitVec 10) (n : Nat) (eval : State → Scan → BitVec 24 → BlockRes) (s : State) :
    Except OverrunCause EngOut :=
  withScan s (fun sc =>
    if 0x200000 < (blockAddr s.eng x k).toNat + n then
      .ok (engOut s (writePred (setAerrAt s.eng (blockAddr s.eng x k)) pd false qBad))
    else
      let r := eval s sc (blockAddr s.eng x k)
      match writeBlock (if r.gap then setGapUnknown s else s) (blockAddr s.eng x k) (readX s.eng x).q r.words with
      | .error c => .error c
      | .ok s' => .ok (engOut s' (writePred s'.eng pd r.out (worseQ r.q (readX s.eng x).q))))

theorem blockRun_eq (s : State) (g : Guard) (pd x : BitVec 3) (k : BitVec 10) (n : Nat)
    (eval : State → Scan → BitVec 24 → BlockRes) :
    blockRun s g pd x k n eval = .next (engineRun s g 6 [.pred pd] false (blockBody pd x k n eval)) := rfl

section
variable {s : State} {sc : Scan} {g : Guard} {pd x : BitVec 3} {k : BitVec 10} {n : Nat}
  {eval : State → Scan → BitVec 24 → BlockRes} (hsc : s.sched.running = some sc)
include hsc

/-- A block in data SRAM (R185, R188, R273). -/
theorem blockRun_evaluates (hidx : ∀ w ∈ (eval s sc (blockAddr s.eng x k)).words, w.idx < n)
    (hnodup : ((eval s sc (blockAddr s.eng x k)).words.map (·.idx)).Nodup) (hc : canRun s 6 = true)
    (hg : guardMet s.eng g = true) (hn : (blockAddr s.eng x k).toNat + n ≤ 0x200000)
    (hto : ∀ w ∈ (eval s sc (blockAddr s.eng x k)).words,
      storeWordTo s sc.task ((blockAddr s.eng x k).toNat + w.idx) = .item)
    (hd : sc.dirty.length + sc.shadowDirty.length + (eval s sc (blockAddr s.eng x k)).words.length ≤ (taskDef s sc.task).d) :
    ∃ t, blockRun s g pd x k n eval = .next (preemptNow t) ∧ t.eng.pc = s.eng.pc + 1 ∧ t.eng.beats = s.eng.beats + 6 ∧
      readPred t.eng pd = (if pd = 0 then ⟨true, qGood⟩ else
        ⟨(eval s sc (blockAddr s.eng x k)).out,
          worseQ (worseQ (eval s sc (blockAddr s.eng x k)).q (readX s.eng x).q) (guardQ s.eng g)⟩) ∧
      (∀ w ∈ (eval s sc (blockAddr s.eng x k)).words, holdsWord t (blockAddr s.eng x k).toNat (readX s.eng x).q w) ∧
      (∀ j, j ≠ 0xF00F → (∀ w ∈ (eval s sc (blockAddr s.eng x k)).words, j ≠ wKey ((blockAddr s.eng x k).toNat + w.idx)) →
        getItem t j = getItem s j) ∧
      (∀ l, l ≠ .pred pd.toNat → readLoc t.eng l = readLoc (commitLoad s.eng) l) ∧ t.eng.a = s.eng.a ∧ t.eng.x = s.eng.x := by
  generalize hr : eval s sc (blockAddr s.eng x k) = r at *
  generalize ha : blockAddr s.eng x k = a at *
  obtain ⟨s1, hs1, heng1, hrun1, htask1, hitems1, hto1⟩ := setGapUnknown_ok s r.gap
  obtain ⟨img, dirty, hok, hall, hrest⟩ := writeBlock_ok a (readX s.eng x).q r.words s1 sc (hrun1.trans hsc)
    (fun w hw => by have := hidx w hw; omega) (fun w hw => (hto1 ..).trans (hto w hw)) hnodup (by rw [htask1]; exact hd)
  generalize hu : ({ s1 with image := img, sched := { s1.sched with running := some { sc with dirty := dirty } } } : State) = u
    at hok
  have hueng : u.eng = s.eng := by rw [← hu]; exact heng1
  have hbody : blockBody pd x k n eval s = .ok (engOut u (writePred s.eng pd r.out (worseQ r.q (readX s.eng x).q))) := by
    simp only [blockBody, withScan, hsc, ha, hr, Nat.not_lt.mpr hn, if_false, hs1, hok, hueng]
  obtain ⟨t, ht, honly, heng⟩ := engineRun_pred hc hg hbody (by rw [← hu]; rfl) (congrArg Engine.pc hueng) rfl rfl
  obtain ⟨hframe, hta, htx, hpred, -, -, -⟩ := leaves_writePred s.eng g 6 pd r.out (worseQ r.q (readX s.eng x).q) (s.eng.pc + 1)
  rw [← heng] at hframe hta htx hpred
  obtain ⟨hread, -, -, -, -, -, -, -, -, -, hpc, hbeats, -⟩ := hframe
  have hitems : ∀ j, getItem t j = getItem { s1 with image := img } j := fun j => by
    refine (getItem_congr j (congrArg State.image honly.1 :) (congrArg State.sysPhase honly.1 :)).trans ?_
    rw [← hu]
    exact getItem_congr j rfl rfl
  refine ⟨t, by rw [blockRun_eq, ht], hpc, hbeats, hpred, fun w hw => ?_, fun j hj hws => ?_, hread, hta, htx⟩
  · unfold holdsWord
    rw [hitems]
    exact hall w hw
  · rw [hitems]
    exact (hrest j hws).trans (hitems1 j hj)

/-- A block outside data SRAM (R273). -/
theorem blockRun_outside (hc : canRun s 6 = true) (hg : guardMet s.eng g = true)
    (hn : 0x200000 < (blockAddr s.eng x k).toNat + n) :
    ∃ t, blockRun s g pd x k n eval = .next (preemptNow t) ∧
      readPred t.eng pd = (if pd = 0 then ⟨true, qGood⟩ else ⟨false, qBad⟩) ∧
      t.eng.status = s.eng.status ||| stAerr ||| pmovrBit s.eng 6 ∧ t.eng.erraddr = blockAddr s.eng x k ∧
      t.eng.errpc = s.eng.pc ∧ t.image = s.image := by
  have hbody : blockBody pd x k n eval s = .ok (engOut s (writePred (setAerrAt s.eng (blockAddr s.eng x k)) pd false qBad)) := by
    simp only [blockBody, withScan, hsc, hn, if_true]
  obtain ⟨t, ht, honly, heng⟩ := engineRun_pred hc hg hbody (by simp [hsc]) rfl rfl rfl
  obtain ⟨hframe, -, -, hpred, hst, -, hep⟩ := leaves_writePred (setAerrAt s.eng (blockAddr s.eng x k)) g 6 pd false qBad
    (s.eng.pc + 1)
  rw [← heng] at hframe hpred hst hep
  obtain ⟨-, -, -, -, -, -, haddr, -⟩ := hframe
  have hbad : ∀ q : Quality, worseQ qBad q = qBad := by decide
  rw [hbad] at hpred
  exact ⟨t, by rw [blockRun_eq, ht], hpred, hst, haddr, hep, (congrArg State.image honly.1 :)⟩

end

/-- Settles O15: each block by its words, whose indices are different. -/
theorem blockResults : Obligations.BlockResults := by
  unfold Obligations.BlockResults
  intro s sc g pd x p1 p2 p3 k hsc e base a aq v q2 q3 block
  have hblock : ∀ i n eval, exec i s = blockRun s g pd x k n eval → (∀ w ∈ (eval s sc base).words, w.idx < n) →
      ((eval s sc base).words.map (·.idx)).Nodup → block i n (eval s sc base) := by
    intro i n eval hi hidx hnodup hc hg
    refine ⟨fun hn hto hd => ?_, fun hn => ?_⟩
    · rw [hi]
      exact blockRun_evaluates hsc hidx hnodup hc hg hn hto hd
    · rw [hi]
      exact blockRun_outside hsc hc hg hn
  have timer : ∀ i rule p, exec i s = blockRun s g pd x k 4 (fun s => evalTimer rule (srcVal s.eng p) (srcQ s.eng p) s) →
      block i 4 (evalTimer rule (v p) (srcQ e p) s sc base) := fun i rule p hi =>
    hblock i 4 (fun s => evalTimer rule (srcVal s.eng p) (srcQ s.eng p) s) hi (by simp [evalTimer]) (by simp [evalTimer])
  have counter : ∀ (i : Instr) (c1 c2 : Engine → Bool) (q : Engine → Quality)
      (rule : Engine → Bool → Bool → Int → Int → (Int × Bool) × Bool × Bool),
      exec i s = blockRun s g pd x k 3 (fun s _ a => evalCounter (c1 s.eng) (c2 s.eng) (q s.eng) (rule s.eng) s a) →
      block i 3 (evalCounter (c1 e) (c2 e) (q e) (rule e) s base) := fun i c1 c2 q rule hi =>
    hblock i 3 (fun s _ a => evalCounter (c1 s.eng) (c2 s.eng) (q s.eng) (rule s.eng) s a) hi (by simp [evalCounter])
      (by simp [evalCounter])
  have edge : ∀ i p f, exec i s = blockRun s g pd x k 1 (fun s _ a => evalEdge (srcVal s.eng p) (srcQ s.eng p) f s a) →
      block i 1 (evalEdge (v p) (srcQ e p) f s base) := fun i p f hi =>
    hblock i 1 (fun s _ a => evalEdge (srcVal s.eng p) (srcQ s.eng p) f s a) hi (by simp [evalEdge]) (by simp [evalEdge])
  refine ⟨timer _ tonRule p1 rfl, timer _ tofRule p1 rfl, timer _ tpRule p1 rfl, ?_, ?_, ?_, edge _ p1 _ rfl, edge _ p1 _ rfl⟩
  · exact counter _ (srcVal · p1) (fun _ => false) (fun e => worseQ (srcQ e p1) (srcQ e p2)) (fun e => ctuRule (srcVal e p2)) rfl
  · exact counter _ (srcVal · p1) (fun _ => false) (fun e => worseQ (srcQ e p1) (srcQ e p2)) (fun e => ctdRule (srcVal e p2)) rfl
  · exact counter _ (srcVal · p1) (srcVal · p2) (fun e => worseQ (srcQ e p1) (worseQ (srcQ e p2) (srcQ e p3)))
      (fun e => ctudRule (srcVal e p3)) rfl

end Sys2Proof.Machine
end

section
/-!
PROOFS. System instructions and special function registers (R232, R233, R236, R237, R247-R250, R269).
-/
namespace Sys2Proof.Machine

open Sys2Proof

/-! ### Instructions that act outside the engine -/

/-- An instruction under its guard whose body leaves the engine alone and turns the rest into u. -/
theorem engineRun_outside {s u : State} {g : Guard} {cost : Nat} {body : State → Except OverrunCause EngOut}
    (hc : canRun s cost = true) (hg : guardMet s.eng g = true) (hb : body s = .ok (engOut u u.eng)) (hu : u.eng = s.eng)
    (hrun : u.sched.running.isSome = true) :
    ∃ t, engineRun s g cost [] false body = preemptNow t ∧ engineOnly u t ∧ t.eng.pc = s.eng.pc + 1 ∧
      t.eng.beats = s.eng.beats + cost := by
  obtain ⟨t, ht, honly, heng⟩ := engineRun_stores hc hg hb (congrArg Engine.pc hu) (hu ▸ keepsHomes_refl _) hrun
  refine ⟨t, ht, honly, by rw [heng]; rfl, by rw [heng]; rfl⟩

theorem logDiscard_log (s : State) (chart code : Nat) : ∃ l, logDiscard s chart code = { s with log := l } := log_rest ..

/-- A chart change request of the scan in progress, with none pending (R249). -/
theorem requestChg_new {s : State} {sc : Scan} {c : Nat} (hsc : s.sched.running = some sc) (hreq : s.charts.req = none)
    (hc : c ≠ s.charts.active) :
    (requestChg s c).eng = s.eng ∧ (requestChg s c).sched.running.isSome = true ∧ (requestChg s c).image = s.image ∧
      (requestChg s c).charts.reqField = c ∧ (requestChg s c).charts.active = s.charts.active ∧
      ∃ r, (requestChg s c).charts.req = some r ∧ r.chart = c ∧ r.kind = .chg := by
  simp only [requestChg, hsc, hreq, hc, if_false]
  exact ⟨rfl, rfl, rfl, rfl, rfl, _, rfl, rfl, rfl⟩

theorem requestChg_active {s : State} {sc : Scan} {c : Nat} (hsc : s.sched.running = some sc) (hreq : s.charts.req = none)
    (hc : c = s.charts.active) : requestChg s c = s := by
  simp only [requestChg, hsc, hreq, hc, if_true]

/-! ### The end of a scan's EXECUTE (R248) -/

theorem taskRt_modTask (s : State) (t u : Nat) (f : TaskRt → TaskRt) :
    taskRt (modTask s t f) u = if t = u ∧ t < 16 then f (taskRt s u) else taskRt s u := vget_vmod ..

/-- SEAL begins: the scan's own marks, the charts and the SEAL values apart, nothing changes (R289, R691). -/
theorem beginSeal_view (s : State) (sc : Scan) : ∃ c, ∃ sc' : Scan, sc'.phase = .seal ∧ sc'.task = sc.task ∧ sc'.promise = sc.promise ∧
    beginSeal s sc = { s with
      charts := c, params := { s.params with sealWait := [], sealing := s.params.sealing ++ s.params.sealWait },
      sched := { s.sched with running := some sc' } } := by
  unfold beginSeal
  extract_lets change edit hand u
  have hu : ∃ c, u = { s with charts := c } := by
    unfold u
    split
    · exact ⟨_, rfl⟩
    · exact ⟨s.charts, rfl⟩
  obtain ⟨c, hc⟩ := hu
  rw [hc]
  exact ⟨c, { sc with phase := .seal, isChange := change, isEdit := edit, isHandover := hand, sealBegun := s.tb }, rfl, rfl,
    rfl, rfl⟩

/-- Restoring a context: its engine, the windows apart, and of the rest the task's window stack alone (R231, R232). -/
theorem restoreContext_view (s : State) (t : Nat) (c : Context) : let u := restoreContext s t c
    u.sched = s.sched ∧ u.image = s.image ∧ u.params = s.params ∧ (∀ k, (taskRt u k).beats = (taskRt s k).beats) ∧
      u.eng.pc = c.eng.pc ∧ u.eng.beats = c.eng.beats ∧ u.eng.wpos = c.eng.wpos ∧ u.eng.depth = c.eng.depth ∧
      u.eng.a = c.eng.a ∧ u.eng.x = c.eng.x := by
  refine ⟨rfl, rfl, rfl, fun k => ?_, rfl, rfl, rfl, rfl, rfl, rfl⟩
  simp only [restoreContext, taskRt_modTask]
  split <;> rfl

/-- The record of PMOVR marks the running scan at most. -/
theorem notePmovr_running {s : State} {sc : Scan} (hsc : s.sched.running = some sc) :
    ∃ b, (notePmovr s).sched.running = some { sc with pmovr := b } := by
  simp only [notePmovr, hsc]
  split
  · exact ⟨true, by simp [modRun, modSched, hsc]⟩
  · exact ⟨sc.pmovr, hsc⟩

/-- EXECUTE ends (R248, R232). -/
theorem endExecute_view {s : State} {sc : Scan} (hsc : s.sched.running = some sc) :
    let t := endExecute s
    (∃ sc', t.sched.running = some sc' ∧ sc'.phase = .seal ∧ sc'.task = sc.task ∧ sc'.promise = sc.promise) ∧
    (sc.task < 16 → (taskRt t sc.task).beats = s.eng.beats) ∧ t.image = s.image ∧
    t.params = { s.params with sealWait := [], sealing := s.params.sealing ++ s.params.sealWait } ∧
    (s.sched.suspended = [] → t.eng.beats = s.eng.beats ∧ ∀ l, readLoc t.eng l = readLoc s.eng l) ∧
    ∀ below cx rest, s.sched.suspended = (below, cx) :: rest → t.eng.pc = cx.eng.pc ∧ t.eng.beats = cx.eng.beats ∧
      t.eng.wpos = cx.eng.wpos ∧ t.eng.depth = cx.eng.depth ∧ t.eng.a = cx.eng.a ∧ t.eng.x = cx.eng.x := by
  intro t
  generalize hu : modTask (dropWindows (modEng s (fun e => { e with ctrl := e.ctrl &&& 0xFFFFFFFFFE })) sc.task) sc.task
    (fun r => { r with beats := s.eng.beats }) = u
  obtain ⟨c, sc', hphase, htask, hprom, hseal⟩ := beginSeal_view u sc
  generalize hv : beginSeal u sc = v at hseal
  have ht : t = (match s.sched.suspended with
      | [] => v
      | (below, c) :: _ => restoreContext v below.task c) := by
    rw [show s.sched.suspended = v.sched.suspended by rw [hseal, ← hu]; rfl, ← hv, ← hu]
    simp only [t, endExecute, hsc]
    rfl
  have hrun : v.sched.running = some sc' := by rw [hseal]
  have hbeats : sc.task < 16 → (taskRt v sc.task).beats = s.eng.beats := fun h => by
    rw [show taskRt v sc.task = taskRt u sc.task by rw [hseal]; rfl, ← hu, taskRt_modTask, if_pos ⟨rfl, h⟩]
  have heng : v.eng = u.eng := by rw [hseal]
  have hb : v.eng.beats = s.eng.beats := by rw [heng, ← hu]; rfl
  have hh : v.eng.h = s.eng.h := by rw [heng, ← hu]; rfl
  have hw : v.eng.win = s.eng.win := by rw [heng, ← hu]; rfl
  have hp : v.eng.p = s.eng.p := by rw [heng, ← hu]; rfl
  have himage : v.image = s.image := by rw [hseal, ← hu]; rfl
  have hparams : v.params = { s.params with sealWait := [], sealing := s.params.sealing ++ s.params.sealWait } := by
    rw [hseal, ← hu]; rfl
  cases hs : s.sched.suspended with
  | nil =>
    rw [hs] at ht
    rw [ht]
    refine ⟨⟨sc', hrun, hphase, htask, hprom⟩, hbeats, himage, hparams, fun _ => ?_,
      fun _ _ _ h => (List.cons_ne_nil _ _ h.symm).elim⟩
    exact ⟨hb, fun l => readLoc_congr _ _ l hh hw hp⟩
  | cons top rest =>
    obtain ⟨below, cx⟩ := top
    rw [hs] at ht
    obtain ⟨hsched, himg, hpar, hbt, hengine⟩ := restoreContext_view v below.task cx
    rw [ht]
    refine ⟨⟨sc', by rw [hsched, hrun], hphase, htask, hprom⟩, fun h => (hbt _).trans (hbeats h), himg.trans himage,
      hpar.trans hparams, fun h => (List.cons_ne_nil _ _ h).elim, fun b c r h => ?_⟩
    obtain ⟨⟨rfl, rfl⟩, rfl⟩ : (below = b ∧ cx = c) ∧ rest = r := by simpa using h
    exact hengine

/-! ### Special function registers -/

/-- The field of another register stands; the field written is taken unless it is 0b11 (R215, R237). -/
theorem amodeOf_writeAmodeField (v : Word) (e : Engine) (j : Nat) (k : BitVec 3) :
    amodeOf (writeAmodeField v e j) k =
      if j = k.toNat ∧ v.extractLsb' (2 * j) 2 ≠ 3 then (v.extractLsb' (2 * j) 2).toNat else amodeOf e k := by
  have hk := k.isLt
  unfold writeAmodeField
  dsimp only
  by_cases hf : v.extractLsb' (2 * j) 2 = 3
  · simp [hf]
    rfl
  · simp only [hf, if_false, ne_eq, not_false_eq_true, and_true]
    generalize v.extractLsb' (2 * j) 2 = f
    unfold amodeOf
    split
    next hj =>
      subst hj
      congr 1
      refine BitVec.eq_of_getLsbD_eq fun i hi => ?_
      have h1 : 2 * k.toNat + i < 40 := by omega
      have h3 : (3#40).getLsbD i = true := by
        rcases (by omega : i = 0 ∨ i = 1) with rfl | rfl <;> rfl
      simp [BitVec.getLsbD_extractLsb', hi, h1, h3, show i < 40 by omega, -BitVec.getLsbD_eq_getElem]
    next hj =>
      congr 1
      refine BitVec.eq_of_getLsbD_eq fun i hi => ?_
      rw [BitVec.getLsbD_extractLsb', BitVec.getLsbD_extractLsb', BitVec.getLsbD_or, BitVec.getLsbD_and, BitVec.getLsbD_not,
        BitVec.getLsbD_shiftLeft, BitVec.getLsbD_shiftLeft]
      by_cases hlt : 2 * k.toNat + i < 2 * j
      · simp [hlt, show 2 * k.toNat + i < 40 by omega]
      · have h3 : (3#40).getLsbD (2 * k.toNat + i - 2 * j) = false := by
          rw [BitVec.getLsbD_ofNat, Nat.testBit_lt_two_pow (x := 3) (lt_of_lt_of_le (by decide : 3 < 2 ^ 2)
            (Nat.pow_le_pow_right (by decide) (by omega)))]
          simp
        have hf : (f.setWidth 40).getLsbD (2 * k.toNat + i - 2 * j) = false := by
          rw [BitVec.getLsbD_setWidth, BitVec.getLsbD_of_ge f _ (by omega)]
          simp
        simp [h3, hf, show 2 * k.toNat + i < 40 by omega]

theorem amodeOf_foldl_writeAmodeField (v : Word) (e : Engine) (n : Nat) (k : BitVec 3) :
    amodeOf ((List.range n).foldl (writeAmodeField v) e) k =
      if k.toNat < n ∧ v.extractLsb' (2 * k.toNat) 2 ≠ 3 then (v.extractLsb' (2 * k.toNat) 2).toNat else amodeOf e k := by
  induction n with
  | zero => simp
  | succ n ih =>
    rw [List.range_succ, List.foldl_append, List.foldl_cons, List.foldl_nil, amodeOf_writeAmodeField, ih]
    by_cases hn : n = k.toNat
    · subst hn
      simp
    · have : k.toNat < n + 1 ↔ k.toNat < n := by omega
      simp [hn, this]

/-- A write of SF.AMODE takes every field but those of 0b11, and leaves the rest of the engine, AERR apart. -/
theorem writeAmode_view (e : Engine) (v : Word) : (writeAmode e v).ctrl = e.ctrl ∧ ∀ k : BitVec 3,
    amodeOf (writeAmode e v) k =
      (if v.extractLsb' (2 * k.toNat) 2 = 3 then amodeOf e k else (v.extractLsb' (2 * k.toNat) 2).toNat) := by
  refine ⟨?_, fun k => ?_⟩
  · unfold writeAmode
    generalize List.range 8 = l
    induction l generalizing e with
    | nil => rfl
    | cons j l ih =>
      refine (ih _).trans ?_
      unfold writeAmodeField
      dsimp only
      split <;> rfl
  · have hk : k.toNat < 8 := k.isLt
    rw [writeAmode, amodeOf_foldl_writeAmodeField]
    simp only [hk, true_and, ne_eq]
    by_cases h : v.extractLsb' (2 * k.toNat) 2 = 3 <;> simp only [h, not_true_eq_false, not_false_eq_true, if_true, if_false]

/-- What a store to SF.PRED writes into pk (R237). -/
theorem readPred_writePred (e : Engine) (j k : BitVec 3) (v : Bool) (q : Quality) (hk : k ≠ 0) :
    readPred (writePred e j v q) k = if j = k then ⟨v, q⟩ else readPred e k := by
  unfold writePred
  by_cases hj : j = 0
  · rw [if_pos hj, if_neg (fun h => hk (h.symm.trans hj))]
  · simp only [hj, if_false, readPred, hk, vget_vset]
    have hp : (dropPend e (.pred j.toNat)).p = e.p := by
      unfold dropPend
      split
      · rfl
      · split <;> rfl
    by_cases hjk : j = k
    · subst hjk
      rw [if_pos ⟨rfl, j.isLt⟩, if_pos rfl]
    · rw [if_neg (fun h => hjk (BitVec.eq_of_toNat_eq h.1)), if_neg hjk, hp]

/-- The predicates that a store to SF.PRED has written up to index n (R237). -/
theorem readPred_foldl_writePred (e : Engine) (v : Word) (n : Nat) (hn : n ≤ 8) (k : BitVec 3) (hk : k ≠ 0) :
    readPred ((List.range n).foldl (fun e k => writePred e (BitVec.ofNat 3 k) (v.getLsbD k) (v.extractLsb' (2 * k + 8) 2)) e) k =
      if k.toNat < n then ⟨v.getLsbD k.toNat, v.extractLsb' (2 * k.toNat + 8) 2⟩ else readPred e k := by
  induction n with
  | zero => simp
  | succ n ih =>
    rw [List.range_succ, List.foldl_append, List.foldl_cons, List.foldl_nil, readPred_writePred _ _ _ _ _ hk, ih (by omega)]
    by_cases h : n = k.toNat
    · subst h
      simp
    · have hne : BitVec.ofNat 3 n ≠ k := fun h' => h (by
        rw [← h', BitVec.toNat_ofNat]
        omega)
      have : k.toNat < n + 1 ↔ k.toNat < n := by omega
      simp [hne, this]

/-- Writing a predicate reaches no general register. -/
theorem readLoc_writePred (e : Engine) (j : BitVec 3) (v : Bool) (q : Quality) (l : LoadDest) (hl : ∀ i, l ≠ .pred i) :
    readLoc (writePred e j v q) l = readLoc e l := by
  have hh : (writePred e j v q).h = e.h := by
    unfold writePred dropPend
    dsimp only
    split
    · rfl
    · split
      · rfl
      · split <;> rfl
  cases l with
  | pred i => exact absurd rfl (hl i)
  | home i => simp only [readLoc, hh]
  | frame w i => simp only [readLoc, win_writePred]
  | nowhere => rfl

theorem readLoc_writeSfPred (e : Engine) (v : Word) (l : LoadDest) (hl : ∀ i, l ≠ .pred i) :
    readLoc (writeSfPred e v) l = readLoc e l := by
  unfold writeSfPred
  generalize List.range 8 = ks
  induction ks generalizing e with
  | nil => rfl
  | cons j ks ih => exact (ih _).trans (readLoc_writePred _ _ _ _ l hl)

/-- An address of a special function register as a data address (R236). -/
theorem sfAddress (n : BitVec 12) : BitVec.ofNat 24 (0xFFF000 + n.toNat) = 0xFFF#12 ++ n := by
  apply BitVec.eq_of_toNat_eq
  have := n.isLt
  rw [BitVec.toNat_append, BitVec.toNat_ofNat, ← Nat.shiftLeft_add_eq_or_of_lt this]
  simp [Nat.shiftLeft_eq]
  omega

/-- A register that is read-only or unassigned cannot be written (R9, R269). -/
theorem sfWrite_none (s : State) (n : BitVec 12) (v : Word)
    (h : n ∉ [0x10#12, 0x11#12, 0x12#12, 0x13#12, 0x18#12, 0x19#12, 0x21#12]) : sfWrite s n.toNat v = none := by
  have key : ∀ m, n.toNat = m → BitVec.ofNat 12 m ∈ [0x10#12, 0x11#12, 0x12#12, 0x13#12, 0x18#12, 0x19#12, 0x21#12] → False := by
    intro m he hm
    rw [← he, BitVec.ofNat_toNat, BitVec.setWidth_eq] at hm
    exact h hm
  unfold sfWrite
  split
  case h_8 => rfl
  all_goals
    rename_i he
    exact (key _ he (by decide)).elim

theorem sfStore_of_write {s t : State} {sc : Scan} {n : Nat} {v : Word} (hsc : s.sched.running = some sc)
    (hp : sc.phase = .execute) (h : sfWrite s n v = some t) : sfStore s n v = t := by
  simp only [sfStore, hsc, hp, ne_eq, not_true_eq_false, if_false, h]

section
variable {s : State} {sc : Scan} {g : Guard} (hsc : s.sched.running = some sc)
include hsc

/-- `eos` under its guard: EXECUTE ends after its three beats (R248). -/
theorem eosResults (hc : canRun s 3 = true) (hg : guardMet s.eng g = true) : ∃ t, exec (.eos g) s = .next t ∧
    (∃ sc', t.sched.running = some sc' ∧ sc'.phase = .seal ∧ sc'.task = sc.task ∧ sc'.promise = sc.promise) ∧
    (sc.task < 16 → (taskRt t sc.task).beats = s.eng.beats + 3) ∧ t.image = s.image ∧
    t.params = { s.params with sealWait := [], sealing := s.params.sealing ++ s.params.sealWait } ∧
    (s.sched.suspended = [] → t.eng.beats = s.eng.beats + 3 ∧ ∀ l, readLoc t.eng l = readLoc (commitLoad s.eng) l) ∧
    ∀ below cx rest, s.sched.suspended = (below, cx) :: rest → t.eng.pc = cx.eng.pc ∧ t.eng.beats = cx.eng.beats ∧
      t.eng.wpos = cx.eng.wpos ∧ t.eng.depth = cx.eng.depth ∧ t.eng.a = cx.eng.a ∧ t.eng.x = cx.eng.x := by
  have hrun := engineRunThen_met (after := fun met s => if met then endExecute s else preemptNow s) (dests := []) (isLoad := false)
    (body := fun s => .ok (engOut s s.eng)) hc hg rfl (by simp [engOut, hsc])
  obtain ⟨-, hbeats, -, -, -, -, -, hread⟩ := endInstr_plain s.eng s.eng g 3 (s.eng.pc + 1)
  obtain ⟨honly, heng⟩ := notePmovr_only s (endInstr s.eng g 3 [] false (s.eng.pc + 1) none s.eng)
  generalize hu : notePmovr { s with eng := endInstr s.eng g 3 [] false (s.eng.pc + 1) none s.eng } = u at honly heng
  obtain ⟨b, hb⟩ := notePmovr_running (s := { s with eng := endInstr s.eng g 3 [] false (s.eng.pc + 1) none s.eng }) hsc
  rw [hu] at hb
  have hsusp : u.sched.suspended = s.sched.suspended := (congrArg Sched.suspended honly.2.1 :)
  obtain ⟨hseal, hbt, himage, hparams, hnil, hcons⟩ := endExecute_view hb
  rw [heng] at hbt hnil
  rw [hsusp] at hnil hcons
  refine ⟨endExecute u, ?_, hseal, fun h => (hbt h).trans hbeats, himage.trans (congrArg State.image honly.1 :), ?_,
    fun h => ⟨(hnil h).1.trans hbeats, fun l => ((hnil h).2 l).trans (hread l)⟩, hcons⟩
  · rw [← hu]
    exact congrArg Host.Outcome.next hrun
  · rw [hparams, show u.params = s.params from (congrArg State.params honly.1 :)]

/-- A chart change request that is taken (R249). -/
theorem chgResults {c : Nat} {i : Instr} {f : State → State} (hreq : s.charts.req = none) (hne : c ≠ s.charts.active)
    (hc : canRun s 2 = true) (hg : guardMet s.eng g = true)
    (hi : exec i s = .next (engineRun s g 2 [] false (fun s => .ok (let s' := f s; engOut s' s'.eng))))
    (hf : f s = requestChg s c) :
    ∃ t, exec i s = .next (preemptNow t) ∧ t.charts.reqField = c ∧
      (∃ r, t.charts.req = some r ∧ r.chart = c ∧ r.kind = .chg) ∧ t.charts.active = s.charts.active ∧
      t.eng.pc = s.eng.pc + 1 ∧ t.image = s.image := by
  obtain ⟨heng, hrun, himage, hfield, hactive, hr⟩ := requestChg_new hsc hreq hne
  obtain ⟨t, ht, honly, hpc, -⟩ := engineRun_outside (u := requestChg s c) hc hg
    (body := fun s => .ok (let s' := f s; engOut s' s'.eng)) (by simp only [hf]) heng hrun
  have hcharts : t.charts = (requestChg s c).charts := (congrArg State.charts honly.1 :)
  rw [← hcharts] at hfield hr hactive
  exact ⟨t, by rw [hi, ht], hfield, hr, hactive, hpc, ((congrArg State.image honly.1 :)).trans himage⟩

end

/-- Settles O18: the system instructions by what their bodies do outside the engine, the registers by their access codes. -/
theorem systemResults : Obligations.SystemResults := by
  unfold Obligations.SystemResults
  refine ⟨fun s sc g rs c w hsc hp => ⟨?_, fun hc hg => ?_, fun hc hg => ?_, fun hc hg hreq hne => ?_, fun hc hg hreq heq => ?_,
    fun hc hg hreq h7 hq hne => ?_, fun hc hg hbad => ?_, ?_⟩, fun s sc w hsc hp => ⟨?_, ?_, ?_, ?_, ?_, ?_, fun n hn => ?_⟩⟩
  · have h := writesNone_of_keepsHomes (s := s) (i := .nop g) (g := g) (dests := []) rfl rfl (keepsHomes_refl _) (keepsHomes_refl _)
      (fun _ _ _ _ _ => rfl)
    refine writesNone_mono h fun t ht => ?_
    rw [ht]
    exact ⟨rfl, rfl, rfl⟩
  · exact eosResults hsc hc hg
  · have hrun : (wdCheckIn s sc.task).sched.running.isSome = true := by simp [wdCheckIn, hsc]
    obtain ⟨t, ht, honly, hpc, hbeats⟩ := engineRun_outside (u := wdCheckIn s sc.task) hc hg
      (body := fun s => withScan s (fun sc => .ok (let s' := wdCheckIn s sc.task; engOut s' s'.eng)))
      (by simp only [withScan, hsc]) rfl hrun
    exact ⟨t, congrArg _ ht, hpc, hbeats, (congrArg State.wd honly.1 :), (congrArg State.image honly.1 :)⟩
  · exact chgResults hsc hreq hne hc hg (f := fun s => requestChg s c.toNat) rfl rfl
  · obtain ⟨t, ht, honly, hpc, hbeats⟩ := engineRun_outside (u := s) hc hg
      (body := fun s => .ok (let s' := requestChg s c.toNat; engOut s' s'.eng))
      (by simp only [requestChg_active hsc hreq heq]) rfl (by simp [hsc])
    exact ⟨t, congrArg _ ht, (congrArg State.charts honly.1 :), hpc, (congrArg State.image honly.1 :)⟩
  · have hf : requestFrom s (readReg s.eng rs) = requestChg s (readReg s.eng rs).val.toNat :=
      if_neg (by simp [hq]; omega)
    obtain ⟨u, hu, hfield, hr, -, hpc, himg⟩ := chgResults hsc hreq hne hc hg
      (f := fun s => requestFrom s (readReg s.eng rs)) (i := .chgr g rs) rfl hf
    exact ⟨u, hu, hfield, hr, hpc, himg⟩
  · obtain ⟨l, hl⟩ := logDiscard_log s (if 7 < (readReg s.eng rs).val.toNat then 0xFFFF else (readReg s.eng rs).val.toNat) 1
    have hf : requestFrom s (readReg s.eng rs) = { s with log := l } := (if_pos hbad).trans hl
    obtain ⟨t, ht, honly, hpc, hbeats⟩ := engineRun_outside (u := { s with log := l }) hc hg
      (body := fun s => .ok (let s' := requestFrom s (readReg s.eng rs); engOut s' s'.eng))
      (by simp only [hf]) rfl (by simp [hsc])
    exact ⟨t, congrArg _ ht, (congrArg State.charts honly.1 :), hpc, (congrArg State.image honly.1 :)⟩
  · have : engineIllegal s = overrunOp s .illegal := by simp only [engineIllegal, hsc, hp, ne_eq, not_true_eq_false, if_false]
    exact congrArg _ this
  · refine ⟨_, congrArg Host.Outcome.next (sfStore_of_write hsc hp rfl), rfl, fun k hk => ?_, fun l hl => readLoc_writeSfPred _ _ _ hl⟩
    exact (readPred_foldl_writePred s.eng w 8 (le_refl 8) k hk).trans (if_pos k.isLt)
  · exact congrArg Host.Outcome.next (sfStore_of_write hsc hp rfl)
  · exact congrArg Host.Outcome.next (sfStore_of_write hsc hp rfl)
  · exact congrArg Host.Outcome.next (sfStore_of_write hsc hp rfl)
  · exact congrArg Host.Outcome.next (sfStore_of_write hsc hp rfl)
  · exact ⟨_, congrArg Host.Outcome.next (sfStore_of_write hsc hp rfl), rfl, writeAmode_view s.eng w⟩
  · have : sfStore s n.toNat w = modEng s (fun e => setAerrAt e (BitVec.ofNat 24 (0xFFF000 + n.toNat))) := by
      simp only [sfStore, hsc, hp, ne_eq, not_true_eq_false, if_false, sfWrite_none s n w hn]
    rw [sfAddress] at this
    exact congrArg _ this

end Sys2Proof.Machine
end

section
/-!
PROOFS. The commands that only read, and the layout of their blocks (R139, R363, R407, R434, R477, R518, R551, R610).
-/
namespace Sys2Proof.Machine

open Sys2Proof

/-! ### Commands that only read -/

section
variable {s : State} {now : Tb} {c : CmdRef} {i : Instr}

/-- A row whose work is to answer with a block made from the state. -/
theorem reads_of {payload : State → List Byte} (he : exec i s = runWork now c i s (fun b _ => done b c (payload b))) :
    works s now c i (fun _ b t => onlyAnswers b t c (payload b)) :=
  works_of he fun _ hx => done_onlyAnswers (findCmd_workState hx) _

/-- A row that answers so in its last stage. -/
theorem reads_last {payload : State → List Byte} (he : exec i s = runLast now c i s (fun b => done b c (payload b))) :
    works s now c i (fun x b t => lastStage x = true → onlyAnswers b t c (payload b)) :=
  works_of he fun x hx hlast => by
    rw [if_pos hlast]
    exact done_onlyAnswers (findCmd_workState hx) _

end

/-- Settles O24: every one of these rows answers, six of them on a condition. -/
theorem readingCommands : Obligations.ReadingCommands := by
  unfold Obligations.ReadingCommands
  intro s now c pids packet nonce k first limit l reads last
  have hreads : ∀ i payload, exec i s = runWork now c i s (fun b _ => done b c (payload b)) → reads i payload :=
    fun _ _ h => reads_of h
  have hlast : ∀ i payload, exec i s = runLast now c i s (fun b => done b c (payload b)) → last i payload :=
    fun _ _ h => reads_last h
  refine ⟨hreads _ _ rfl, hreads _ _ rfl, hreads _ _ rfl, hreads _ _ rfl, hreads _ _ rfl, hreads _ _ rfl, hreads _ _ rfl, ?_,
    hreads _ _ rfl, hreads _ _ rfl, hreads _ _ rfl, hreads _ _ rfl, hreads _ _ rfl, hreads _ _ rfl, hreads _ _ rfl,
    hlast _ _ rfl, hlast _ _ rfl, ?_, ?_⟩
  · refine works_of (f := fun b _ => done { b with freeIdx := b.freeIdx + 8 } c ((List.range 8).flatMap (anaBlock b))) rfl
      fun x hx => ?_
    generalize hb : workState s now c x = b
    have hc := findCmd_workState hx
    rw [hb] at hc
    exact done_onlyAnswers (s := { b with freeIdx := b.freeIdx + 8 }) hc _
  · refine works_of (f := fun b _ => match closingEntry b 7 with
      | some e => abortedBy b c 7 e.2.1
      | none => done b c (dspCheckBytes b)) rfl fun x hx hopen => ?_
    simp only [hopen]
    exact done_onlyAnswers (findCmd_workState hx) _
  · refine works_of (f := fun b x => if lastStage x then match closingEntry b 8 with
      | some e => abortedBy b c 8 e.2.1
      | none => done b c (quoteBytes b nonce ++ deviceBlock (sha512 (quoteBytes b nonce))) else b) rfl fun x hx hlast hopen => ?_
    simp only [hlast, hopen, if_true]
    exact done_onlyAnswers (findCmd_workState hx) _

/-! ### Numbers in bytes -/

@[simp] theorem length_le (n v : Nat) : (le n v).length = n := by
  induction n generalizing v with
  | zero => rfl
  | succ n ih => simp [le, ih]

@[simp] theorem length_leInt (n : Nat) (v : Int) : (leInt n v).length = n := length_le ..

theorem length_padTo {n : Nat} {bs : List Byte} (h : bs.length ≤ n) : (padTo n bs).length = n := by
  simp only [padTo, List.length_append, List.length_replicate]
  omega

@[simp] theorem length_padTo_take (n : Nat) (bs : List Byte) : (padTo n (bs.take n)).length = n :=
  length_padTo (by simp)

theorem unle_le (n v : Nat) : unle (le n v) = v % 256 ^ n := by
  induction n generalizing v with
  | zero => simp [le, unle, Nat.mod_one]
  | succ n ih =>
    have h : v % 256 ^ (n + 1) = v % 256 + 256 * (v / 256 % 256 ^ n) := by rw [pow_succ', Nat.mod_mul]
    rw [le, unle, ih, BitVec.toNat_ofNat, h]

/-- A field within the first of two parts, and one within the second. -/
theorem field_append_left {a b : List Byte} {off n : Nat} (h : off + n ≤ a.length) : field (a ++ b) off n = field a off n := by
  unfold field slice
  rw [List.drop_append_of_le_length (by omega), List.take_append_of_le_length (by simp; omega)]

theorem field_append_right {a b : List Byte} {off n : Nat} (h : a.length ≤ off) :
    field (a ++ b) off n = field b (off - a.length) n := by
  unfold field slice
  rw [List.drop_append, List.drop_eq_nil_of_le h, List.nil_append]

/-- A number spelled in its own bytes. -/
theorem field_le (n v : Nat) : field (le n v) 0 n = v % 256 ^ n := by
  have h : (le n v).take n = le n v := List.take_of_length_le (by simp)
  simp only [field, slice, List.drop_zero, h, length_le, Nat.sub_self, List.replicate_zero, List.append_nil, unle_le]

theorem field_byte (b : Byte) : field [b] 0 1 = b.toNat := by simp [field, slice, unle]

/-! ### Status blocks -/

theorem length_statusBytes_head :
    (asciiBytes (if Config.tapeAndReel then "VU640-AR" else "VU640-AT") ++ asciiBytes "B1").length = 10 := by
  cases Config.tapeAndReel <;> rfl

theorem deviceStateCode_lt (s : State) : deviceStateCode s < 4 := by
  unfold deviceStateCode
  split
  · decide
  · split
    · decide
    · split <;> decide

theorem faultFlags_lt (s : State) : faultFlags s < 2 ^ 32 := by
  have hb := boolBit_lt
  have h1 := hb s.field.lockout
  have h2 := hb s.field.cut
  have h3 := hb (inTrial s)
  have h4 := hb (decide (s.wd.state = .warned))
  have h5 := hb s.power.restartLimit
  have h6 := hb s.store.recovery
  have h7 := hb s.power.vbatLow
  have h8 := hb s.clock.bkpLost
  have h9 := hb s.power.holdupWeak
  have h10 := hb s.power.holdupFault
  have h11 := hb s.power.unitFault
  have h12 := hb (decide (s.power.mode = .halt))
  unfold faultFlags
  omega

@[simp] theorem length_calendarBytes (sec : Nat) : (calendarBytes sec).length = 8 := by simp [calendarBytes]

@[simp] theorem length_offsetBytes (s : State) (c : Nat) (z : Int) : (offsetBytes s c z).length = 2 := by
  unfold offsetBytes
  split <;> simp

theorem length_anaBlock (s : State) (c : Nat) : (anaBlock s c).length = 32 := by simp [anaBlock]

theorem length_flatMap_const {α : Type} (l : List α) (f : α → List Byte) (n : Nat) (h : ∀ a ∈ l, (f a).length = n) :
    (l.flatMap f).length = l.length * n := by
  rw [List.length_flatMap, List.map_congr_left h, List.map_const', List.sum_replicate, smul_eq_mul]

theorem statusBytes_fields (s : State) : (statusBytes s).length = 64 ∧ field (statusBytes s) 15 1 = deviceStateCode s ∧
    field (statusBytes s) 36 8 = s.tb % 2 ^ 64 ∧ field (statusBytes s) 52 3 = s.power.powerCycles % 2 ^ 24 ∧
    field (statusBytes s) 56 4 = faultFlags s := by
  have hhead := length_statusBytes_head
  unfold statusBytes
  extract_lets fw v open_
  generalize asciiBytes (if Config.tapeAndReel then "VU640-AR" else "VU640-AT") ++ asciiBytes "B1" = head at hhead
  refine ⟨by simp [hhead], ?_, ?_, ?_, ?_⟩ <;>
    simp (disch := simp [hhead]) only [field_append_left, field_append_right] <;> simp [hhead, field_le, field_byte]
  · have := deviceStateCode_lt s
    omega
  · exact faultFlags_lt s

theorem wdStatusBytes_fields (s : State) : (wdStatusBytes s).length = 32 ∧
    field (wdStatusBytes s) 4 2 = s.wd.period % 2 ^ 16 ∧ field (wdStatusBytes s) 8 4 = s.wd.lfsr.toNat ∧
    field (wdStatusBytes s) 12 4 = s.wd.mask.toNat ∧ field (wdStatusBytes s) 16 4 = s.wd.observed.toNat ∧
    field (wdStatusBytes s) 24 4 = s.store.wdsalt.toNat ∧ field (wdStatusBytes s) 28 4 = s.wd.count % 2 ^ 32 := by
  have hlfsr := s.wd.lfsr.isLt
  have hmask := s.wd.mask.isLt
  have hobs := s.wd.observed.isLt
  have hsalt := s.store.wdsalt.isLt
  unfold wdStatusBytes
  extract_lets w state flags
  refine ⟨by simp, ?_, ?_, ?_, ?_, ?_, ?_⟩ <;>
    simp (disch := simp) only [field_append_left, field_append_right] <;> simp [field_le, w] <;> omega

/-- Settles O25: lengths part by part, and each field after the parts that go before it. -/
theorem statusBlocks : Obligations.StatusBlocks := by
  unfold Obligations.StatusBlocks
  intro s l k
  obtain ⟨hlen, hfields⟩ := wdStatusBytes_fields s
  have htime : (timeGetBytes s).length = 28 ∧ field (timeGetBytes s) 0 8 = s.clock.sec % 2 ^ 64 ∧
      field (timeGetBytes s) 8 2 = s.clock.sub % 2 ^ 16 ∧ field (timeGetBytes s) 20 8 = s.tb % 2 ^ 64 := by
    unfold timeGetBytes
    refine ⟨by simp, ?_, ?_, ?_⟩ <;> simp (disch := simp) only [field_append_left, field_append_right] <;> simp [field_le]
  have htwin : (twinStatusBytes s).length = 40 ∧ field (twinStatusBytes s) 32 4 = s.twin.term % 2 ^ 32 := by
    unfold twinStatusBytes
    refine ⟨by simp, ?_⟩
    simp (disch := simp) only [field_append_left, field_append_right]
    simp [field_le]
  have hdio : (dioStatusBytes s).length = 74 ∧ field (dioStatusBytes s) 72 2 = s.field.vfld % 2 ^ 16 := by
    unfold dioStatusBytes
    refine ⟨by simp, ?_⟩
    simp (disch := simp) only [field_append_right]
    simp [field_le]
  refine ⟨statusBytes_fields s, htime.1, htime.2.1, htime.2.2.1, htime.2.2.2, ⟨hlen, hfields⟩, htwin.1, htwin.2, hdio.1, hdio.2,
    ?_, ?_, ?_, ?_, fun h => ?_⟩
  · rw [length_flatMap_const _ _ 32 fun c _ => length_anaBlock s c, List.length_range]
  · simp [busStatusBytes]
  · rw [stationBytes, length_flatMap_const _ _ 4 fun n _ => by simp]
    rfl
  · simp [taskBytes]
  · have hhash : (((chartSlot s k).image.map (·.hash)).getD []).length ≤ 64 := by
      cases hi : (chartSlot s k).image with
      | none => simp
      | some i => exact h i hi
    simp [chartBytes, length_padTo hhash]

end Sys2Proof.Machine
end

section
/-!
PROOFS. Outcomes, the removal of commands, and the session's commands and timeouts (R111, R116, R120-R127, R134).
-/
namespace Sys2Proof.Machine

open Sys2Proof

/-! ### Outcomes other than DONE -/

/-- A command that is refused by its work has that outcome, and nothing else has changed. -/
theorem refuseState_refuses {s : State} {c : CmdRef} {x : Cmd} (h : findCmd s c = some x) (r : BitVec 8) :
    refuses (refuseState s c r) c stState r ∧ sameButResults s (refuseState s c r) :=
  ⟨⟨_, findResult_setResult h .., rfl, rfl, rfl⟩, setResult_same ..⟩

theorem done_answers {s : State} {c : CmdRef} {x : Cmd} (h : findCmd s c = some x) (p : List Byte) :
    answers (done s c p) c p := ⟨_, findResult_setResult h .., rfl, rfl, rfl⟩

/-! ### What an outcome leaves alone -/

/-- What depends on no outcome stands when one is set. -/
theorem setResult_keeps {α : Type} (p : State → α)
    (hp : ∀ s rs, p { s with host := { s.host with results := rs } } = p s) (s : State) (c : CmdRef) (st r : BitVec 8)
    (v : BitVec 32) (pay : List Byte) : p (setResult s c st r v pay) = p s := by
  rw [setResult_same s c st r v pay, hp]

@[simp] theorem portSt_setResult (s : State) (c : CmdRef) (st r : BitVec 8) (v : BitVec 32) (pay : List Byte) (p : Port) :
    portSt (setResult s c st r v pay) p = portSt s p := by
  exact setResult_keeps (fun s => portSt s p) (fun _ _ => by cases p <;> rfl) ..

@[simp] theorem portSt_done (s : State) (c : CmdRef) (pay : List Byte) (p : Port) : portSt (done s c pay) p = portSt s p :=
  portSt_setResult ..

@[simp] theorem hostRest_setResult (s : State) (c : CmdRef) (st r : BitVec 8) (v : BitVec 32) (pay : List Byte) :
    hostRest (setResult s c st r v pay) = hostRest s := setResult_keeps hostRest (fun _ _ => rfl) ..

@[simp] theorem hostRest_done (s : State) (c : CmdRef) (pay : List Byte) : hostRest (done s c pay) = hostRest s :=
  hostRest_setResult ..

@[simp] theorem findCmd_setResult (s : State) (c d : CmdRef) (st r : BitVec 8) (v : BitVec 32) (pay : List Byte) :
    findCmd (setResult s c st r v pay) d = findCmd s d :=
  setResult_keeps (fun s => findCmd s d) (fun _ _ => rfl) ..

@[simp] theorem findCmd_done (s : State) (c d : CmdRef) (pay : List Byte) : findCmd (done s c pay) d = findCmd s d :=
  findCmd_setResult ..

@[simp] theorem findCmd_setPort (s : State) (p : Port) (x : PortSt) (c : CmdRef) : findCmd (setPort s p x) c = findCmd s c := by
  cases p <;> rfl

/-! ### The removal of commands -/

theorem removeCmd_cmds (s : State) (c : CmdRef) :
    (removeCmd s c).host.cmds = s.host.cmds.eraseP (fun y => decide (y.ref = c)) := by
  unfold removeCmd
  cases h : findCmd s c with
  | none =>
    refine (List.eraseP_of_forall_not fun y hy => ?_).symm
    exact List.find?_eq_none.mp h y hy
  | some x =>
    dsimp only
    rw [cmds_touchSession]
    exact setPort_cmds ..

/-- The removal of one command leaves the record of another. -/
theorem findCmd_removeCmd_ne (s : State) {c d : CmdRef} (h : d ≠ c) : findCmd (removeCmd s c) d = findCmd s d := by
  unfold findCmd
  rw [removeCmd_cmds]
  induction s.host.cmds with
  | nil => rfl
  | cons y l ih =>
    by_cases hy : y.ref = c
    · have : y.ref ≠ d := fun e => h (e ▸ hy)
      simp [hy, Ne.symm h]
    · by_cases hd : y.ref = d <;> simp [hy, hd, h, ih]

/-- The bookings that a foldl of dropBooking frees are all it changes. -/
theorem dropBookings_host (l : List Booking) (s : State) : (l.foldl dropBooking s).host = s.host :=
  foldl_keeps State.host dropBooking (fun _ _ => rfl) l s

theorem hostRest_dropBookings (l : List Booking) (s : State) : hostRest (l.foldl dropBooking s) = hostRest s :=
  foldl_keeps hostRest dropBooking (fun _ _ => rfl) l s

@[simp] theorem hostRest_cancelCmd (s : State) (x : Cmd) : hostRest (cancelCmd s x) = hostRest s :=
  (hostRest_removeCmd ..).trans (hostRest_dropBookings ..)

theorem findCmd_cancelCmd_ne (s : State) {x : Cmd} {c : CmdRef} (h : x.ref ≠ c) : findCmd (cancelCmd s x) c = findCmd s c :=
  (findCmd_removeCmd_ne _ (Ne.symm h)).trans (congrArg (fun h => h.cmds.find? (fun y => decide (y.ref = c))) (dropBookings_host ..))

/-- The removal of the commands that have not started leaves the command that asks for it (R120, R123). -/
theorem removeUnstarted_keeps (s : State) (c : CmdRef) :
    findCmd (removeUnstarted s c).1 c = findCmd s c ∧ hostRest (removeUnstarted s c).1 = hostRest s := by
  refine ⟨?_, foldl_keeps hostRest _ (fun _ _ => hostRest_cancelCmd ..) _ s⟩
  unfold removeUnstarted
  have hne : ∀ y ∈ (sessionCmds s).filter (fun y => y.ref ≠ c && !y.begun), y.ref ≠ c := fun y hy => by
    have := (List.mem_filter.mp hy).2
    simp_all
  generalize (sessionCmds s).filter (fun y => y.ref ≠ c && !y.begun) = l at hne ⊢
  dsimp only
  induction l generalizing s with
  | nil => rfl
  | cons y l ih =>
    rw [List.forall_mem_cons] at hne
    exact (ih _ hne.2).trans (findCmd_cancelCmd_ne s hne.1)

/-! ### Sessions -/

section
variable {s : State} {now : Tb} {c : CmdRef}

theorem works_sessionOpen (host : BitVec 32) : works s now c (.sessionOpen now c host) (fun _ b t =>
    (b.host.session = none → onlyAnswers b t c []) ∧
    (b.host.session ≠ none → refuses t c stState 0x01 ∧ sameButResults b t)) := by
  refine works_of (Eq.refl (execSessionOpen now c host s)) fun x hx => ?_
  have hc := findCmd_workState hx
  generalize workState s now c x = b at hc
  cases hz : b.host.session with
  | none => exact ⟨fun _ => done_onlyAnswers hc [], fun h => (h rfl).elim⟩
  | some z => exact ⟨nofun, fun _ => refuseState_refuses hc 0x01⟩

/-- The state that a fresh nonce of command c's port leaves before the answer (R127). -/
def nonceDrawn (b : State) (c : CmdRef) : State :=
  setPort { b with freeIdx := b.freeIdx + 1 } c.port
    { portSt b c.port with nonce := some (le 32 (Config.freeValue b.freeIdx).toNat) }

theorem works_sessionNonce : works s now c (.sessionNonce now c) (fun _ b t =>
    let v := le 32 (Config.freeValue b.freeIdx).toNat
    answers t c v ∧ (portSt t c.port).nonce = some v ∧ t.freeIdx = b.freeIdx + 1 ∧
    (∀ p, p ≠ c.port → portSt t p = portSt b p) ∧ { t with host := b.host, freeIdx := b.freeIdx } = b) :=
  works_of (f := fun b _ => done (nonceDrawn b c) c (le 32 (Config.freeValue b.freeIdx).toNat)) rfl fun x hx => by
    have hc := findCmd_workState hx
    generalize workState s now c x = b at hc
    have hdrawn : hostRest (nonceDrawn b c) = hostRest { b with freeIdx := b.freeIdx + 1 } := hostRest_setPort ..
    refine ⟨done_answers (s := nonceDrawn b c) ((findCmd_setPort ..).trans hc) _, ?_, ?_, fun p hp => ?_, ?_⟩
    · exact congrArg PortSt.nonce ((portSt_done ..).trans (portSt_setPort ..))
    · exact congrArg State.freeIdx ((hostRest_done ..).trans hdrawn)
    · exact (portSt_done ..).trans (portSt_setPort_ne _ _ hp)
    · rw [done, setResult_same (nonceDrawn b c)]
      unfold nonceDrawn
      cases c.port <;> rfl

theorem works_sessionClose : works s now c (.sessionClose now c) (fun _ b t =>
    b.host.session ≠ none → b.host.closing = none →
      answers t c (seqBytes (removeUnstarted b c).2) ∧ t.host.closing = some c ∧ hostOnly b t) := by
  refine works_of (f := fun b _ => if b.host.session.isNone ∨ b.host.closing.isSome then refuseState b c 0x01
    else done (modHost (removeUnstarted b c).1 (fun h => { h with closing := some c })) c (seqBytes (removeUnstarted b c).2))
    rfl fun x hx hs hcl => ?_
  have hc := findCmd_workState hx
  generalize workState s now c x = b at hc hs hcl
  obtain ⟨hkeep, hrest⟩ := removeUnstarted_keeps b c
  have hno : ¬(b.host.session.isNone = true ∨ b.host.closing.isSome = true) := by simp [hs, hcl]
  rw [if_neg hno]
  refine ⟨done_answers (by exact hkeep.trans hc) _, ?_, (hostOnly_iff ..).mpr ((hostRest_done ..).trans hrest)⟩
  exact setResult_keeps (fun t => t.host.closing) (fun _ _ => rfl) ..

theorem works_sessionClaim (host : BitVec 32) : works s now c (.sessionClaim now c host) (fun _ b t =>
    answers t c ([BitVec.ofNat 8 (portCode c.port), BitVec.ofNat 8 (frankSlotOf b c)] ++ seqBytes (removeUnstarted b c).2) ∧
    hostOnly b t) := by
  refine works_of (f := fun b _ => done (removeUnstarted b c).1 c
    ([BitVec.ofNat 8 (portCode c.port), BitVec.ofNat 8 (frankSlotOf b c)] ++ seqBytes (removeUnstarted b c).2)) rfl fun x hx => ?_
  have hc := findCmd_workState hx
  generalize workState s now c x = b at hc
  obtain ⟨hkeep, hrest⟩ := removeUnstarted_keeps b c
  exact ⟨done_answers (hkeep.trans hc) _, (hostOnly_iff ..).mpr ((hostRest_done ..).trans hrest)⟩

end

/-- Settles O26: each of these commands by its own work, and the two timeouts by their guards. -/
theorem sessionCommands : Obligations.SessionCommands := by
  unfold Obligations.SessionCommands
  intro s now c host n
  refine ⟨works_sessionOpen host, works_sessionNonce, works_sessionClose, works_sessionClaim host,
    fun z hz hpar hnone hlate => ?_, fun z hz hearly => ?_, fun x hx => ?_⟩
  all_goals refine congrArg Host.Outcome.next ?_
  · have hno : ¬(par n 0x0111 = 0 ∨ (!(sessionCmds n).isEmpty) = true ∨ n.tb < z.lastPacket + msToTb (1000 * par n 0x0111)) := by
      have hempty : sessionCmds n = [] := hnone
      rw [hempty]
      rintro (h | h | h)
      · exact hpar h
      · exact Bool.false_ne_true h
      · exact absurd hlate (Nat.not_le.mpr h)
    show idleTimeout n = _
    unfold idleTimeout
    rw [show n.host.session = some z from hz]
    exact if_neg hno
  · show idleTimeout n = _
    unfold idleTimeout
    rw [show n.host.session = some z from hz]
    exact if_pos (.inr (.inr hearly))
  · rw [show (s.at now).host.transfer = some x from hx]
    rfl

end Sys2Proof.Machine
end

section
/-!
PROOFS. The end of a stage: final receipts, the next stage, the receipt that opens a session (R71, R72, R83, R84, R112, R116).
-/
namespace Sys2Proof.Machine

open Sys2Proof

/-! ### The final receipt -/

theorem ref_of_findCmd {s : State} {c : CmdRef} {x : Cmd} (h : findCmd s c = some x) : x.ref = c := by
  simpa using List.find?_some h

theorem portSt_touchSession (s : State) (x : Cmd) (p : Port) : portSt (touchSession s x) p = portSt s p := by
  unfold touchSession
  split <;> cases p <;> rfl

theorem findResult_touchSession (s : State) (x : Cmd) (c : CmdRef) : findResult (touchSession s x) c = findResult s c := by
  unfold touchSession
  split <;> rfl

@[simp] theorem findResult_setPort (s : State) (p : Port) (x : PortSt) (c : CmdRef) :
    findResult (setPort s p x) c = findResult s c := by cases p <;> rfl

/-- Forgetting a command leaves the receipts of every port. -/
theorem tx_removeCmd (s : State) (c : CmdRef) (p : Port) : (portSt (removeCmd s c) p).tx = (portSt s p).tx := by
  unfold removeCmd
  split
  · rfl
  · rw [portSt_touchSession]
    unfold unreserve
    by_cases hp : p = c.port
    · subst hp
      rw [portSt_setPort]
      cases c.port <;> rfl
    · rw [portSt_setPort_ne _ _ hp]
      cases p <;> rfl

theorem findResult_removeCmd {s : State} {c : CmdRef} {x : Cmd} (h : findCmd s c = some x) :
    findResult (removeCmd s c) c = none := by
  unfold removeCmd
  rw [h]
  dsimp only
  rw [findResult_touchSession]
  refine (findResult_setPort ..).trans (List.find?_eq_none.mpr fun y hy => ?_)
  have := (List.mem_filter.mp hy).2
  simpa using this

@[simp] theorem findCmd_place (s : State) (p : Port) (r : List Byte) (c : CmdRef) : findCmd (place s p r) c = findCmd s c :=
  findCmd_setPort ..

theorem placed_place (s : State) (p : Port) (r : List Byte) : placed s (place s p r) p r :=
  congrArg PortSt.tx (portSt_setPort ..)

/-- A command that has not outlived its promise, or does not end with DONE, ends. -/
theorem finishNow_endsAs {s : State} {c : CmdRef} {x : Cmd} (h : findCmd s c = some x) {status : BitVec 8}
    (hdue : status = stDone → s.tb ≤ x.promise) (reason : BitVec 8) (detail : Nat) (payload : List Byte) :
    endsAs s (finishNow s c status reason detail payload) c x status reason
      (if status = stDone then min (x.promise - s.tb) 0xFFFFFFFF else detail) payload := by
  have hno : ¬(status = stDone ∧ x.promise < s.tb) := fun ⟨h1, h2⟩ => Nat.not_lt.mpr (hdue h1) h2
  simp only [finishNow, h, hno, if_false]
  generalize hu : (if status = stDone then s else dropTransfer s x) = u
  have hcmds : u.host.cmds = s.host.cmds := by subst hu; split <;> rfl
  have htx : (portSt u c.port).tx = (portSt s c.port).tx := by subst hu; split <;> cases c.port <;> rfl
  have htb : u.tb = s.tb := by subst hu; split <;> rfl
  have hfind : ∀ r, findCmd (place u c.port r) c = some x := fun r => by
    rw [findCmd_place, findCmd, hcmds]
    exact h
  refine ⟨?_, ?_, findResult_removeCmd (hfind _)⟩
  · rw [placed, tx_removeCmd, placed_place, htx, htb]
  · rw [removeCmd_cmds, ← hcmds]
    exact congrArg (List.eraseP _) (setPort_cmds ..)

theorem finishNow_endsDone (s : State) (c : CmdRef) (payload : List Byte) :
    endsDone s (finishNow s c stDone 0 0 payload) c payload :=
  fun _ h hdue => finishNow_endsAs h (fun _ => hdue) 0 0 payload

theorem finishNow_hostOnly (s : State) (c : CmdRef) (status reason : BitVec 8) (detail : Nat) (payload : List Byte) :
    hostOnly s (finishNow s c status reason detail payload) := (hostOnly_iff ..).mpr (hostRest_finishNow ..)

/-! ### The end of a stage -/

/-- A frank that is verified, or not asked for. -/
theorem frank_settled {x : Cmd} (h : x.franked = true → x.frankDone = true) : (x.franked && !x.frankDone) = false := by
  cases hf : x.franked <;> simp_all

/-- Placing the outcome of a stage that is within its promise (R71, R83). -/
theorem stageComplete_result {s : State} {c : CmdRef} {x : Cmd} {r : CmdResult} (h : findCmd s c = some x)
    (hheld : x.phase ≠ .held) (hbook : x.book ≠ none) (hdue : s.tb ≤ x.promise) (hf : x.franked = true → x.frankDone = true)
    (hr : findResult s c = some r) (hend : lastStage x = true ∨ r.status ≠ stDone) :
    stageComplete s c =
      if x.opcode = 0x0303 ∧ r.status = stDone then
        let t := committedNow (placeResult s x r)
        if c.port = .spi then takeBaud t else t
      else if r.status = stDone then finishUpdate (placeResult s x r) x.opcode
      else placeResult s x r := by
  have hpend : ¬(x.phase = .held ∨ x.book.isNone = true) := by simp [hheld, hbook]
  have hlast : (lastStage x || decide (r.status ≠ stDone)) = true := by simpa using hend
  simp only [stageComplete, h, hpend, Nat.not_lt.mpr hdue, frank_settled hf, Bool.false_eq_true, hr, hlast, if_false, if_true]

/-- A stage with stages after it goes on to the next (R72). -/
theorem stageComplete_next {s : State} {c : CmdRef} {x : Cmd} (h : findCmd s c = some x)
    (hheld : x.phase ≠ .held) (hbook : x.book ≠ none) (hdue : s.tb ≤ x.promise) (hf : x.franked = true → x.frankDone = true)
    (hmore : lastStage x = false) (hr : ∀ r, findResult s c = some r → r.status = stDone)
    (hnone : findResult s c = none → x.phase ≠ .waiting ∧ x.worked = true) (hfail : s.power.failing = false) :
    stageComplete s c = nextStage s x := by
  have hpend : ¬(x.phase = .held ∨ x.book.isNone = true) := by simp [hheld, hbook]
  simp only [stageComplete, h, hpend, Nat.not_lt.mpr hdue, frank_settled hf, Bool.false_eq_true, if_false]
  cases hres : findResult s c with
  | some r => simp [hmore, hr r hres, hfail]
  | none =>
    obtain ⟨hwait, hworked⟩ := hnone hres
    simp [hmore, hwait, hworked, hfail]

theorem placeResult_refused {s : State} {x : Cmd} {r : CmdResult} (h : r.status ≠ stDone) :
    placeResult s x r = finishNow s x.ref r.status r.reason r.detail.toNat r.payload := if_pos h

/-- An outcome of DONE of a command without a rule of its own for its receipt. -/
theorem placeResult_done {s : State} {x : Cmd} {r : CmdResult} (h : r.status = stDone) (hr : r.reason = 0)
    (ht : r.time = none) (hop : x.opcode ∉ [0x0001#16, 0x0002#16, 0x0004#16]) :
    placeResult s x r = finishNow s x.ref stDone 0 0 r.payload := by
  simp only [List.mem_cons, List.not_mem_nil, or_false, not_or] at hop
  obtain ⟨h1, h2, h4⟩ := hop
  simp [placeResult, h, hr, ht, h1, h2, h4]

/-- A command that does not belong to an update has no step of it to end. -/
theorem finishUpdate_other {s : State} {op : BitVec 16} (h : op ∉ [0x1003#16, 0x1004#16, 0x1005#16]) :
    finishUpdate s op = s := by
  simp only [List.mem_cons, List.not_mem_nil, or_false, not_or] at h
  obtain ⟨h3, h4, h5⟩ := h
  cases hu : s.store.update <;> simp [finishUpdate, h3, h4, h5, hu]

/-! ### The next stage -/

/-- The record of a pending command after a change that keeps its number. -/
theorem findCmd_updCmd_some {s : State} {c : CmdRef} {f : Cmd → Cmd} {x : Cmd} (h : findCmd s c = some x)
    (hf : (f x).ref = c) : findCmd (updCmd s c f) c = some (f x) := by
  show (updFirst c f s.host.cmds).find? _ = _
  have h : s.host.cmds.find? (fun y => decide (y.ref = c)) = some x := h
  generalize s.host.cmds = l at h
  induction l with
  | nil => cases h
  | cons y r ih =>
    by_cases hy : y.ref = c
    · have : y = x := by simpa [hy] using h
      have hx : x.ref = c := this ▸ hy
      simp [updFirst, this, hx, hf]
    · have : r.find? (fun y => decide (y.ref = c)) = some x := by simpa [hy] using h
      simp [updFirst, hy, ih this]

@[simp] theorem findCmd_unreserve (s : State) (p : Port) (n : Nat) (c : CmdRef) : findCmd (unreserve s p n) c = findCmd s c :=
  findCmd_setPort ..

theorem tx_unreserve (s : State) (p : Port) (n : Nat) : (portSt (unreserve s p n) p).tx = (portSt s p).tx := by
  rw [unreserve, portSt_setPort]

@[simp] theorem hostRest_unreserve (s : State) (p : Port) (n : Nat) : hostRest (unreserve s p n) = hostRest s :=
  hostRest_setPort ..

@[simp] theorem hostRest_updCmd (s : State) (c : CmdRef) (f : Cmd → Cmd) : hostRest (updCmd s c f) = hostRest s := rfl

@[simp] theorem portSt_updCmd (s : State) (c : CmdRef) (f : Cmd → Cmd) (p : Port) : portSt (updCmd s c f) p = portSt s p := by
  cases p <;> rfl

@[simp] theorem hostRest_placeReserved (s : State) (x : Cmd) (r : List Byte) : hostRest (placeReserved s x r) = hostRest s := by
  simp only [placeReserved, hostRest_updCmd, hostRest_unreserve, hostRest_place]

theorem placeReserved_placed (s : State) (x : Cmd) (r : List Byte) : placed s (placeReserved s x r) x.ref.port r := by
  simp only [placed, placeReserved, portSt_updCmd, tx_unreserve]
  exact placed_place ..

/-- The bytes that a receipt uses are all it changes in the record of its command. -/
theorem findCmd_placeReserved {s : State} {c : CmdRef} {x y : Cmd} (hy : y.ref = c) (h : findCmd s c = some x)
    (r : List Byte) :
    findCmd (placeReserved s y r) c = some { x with reservedBytes := x.reservedBytes - Nat.min y.reservedBytes r.length } := by
  subst hy
  have hpay : findCmd (unreserve (place s y.ref.port r) y.ref.port (Nat.min y.reservedBytes r.length)) y.ref = some x := by
    rw [findCmd_unreserve, findCmd_place, h]
  have href := ref_of_findCmd h
  exact findCmd_updCmd_some hpay href

/-- The record of a command whose stage ends while the bookings k and those after it stand. -/
def bookedRecord (x : Cmd) (k : Booking) (later : List Booking) : Cmd :=
  { x with
    stages := x.stages.drop 1, later := later, phase := .started, begun := true, worked := false, sliced := false,
    book := some k, promise := k.bound }

/-- A stage for which bookings stand begins: its record, its ACCEPTED receipt, and nothing outside the host link (R72). -/
theorem nextStage_booked {s : State} {c : CmdRef} {x : Cmd} (h : findCmd s c = some x) {k : Booking} {later : List Booking}
    (hl : x.later = k :: later) :
    (∃ n, findCmd (nextStage s x) c = some { bookedRecord x k later with reservedBytes := n }) ∧
    placed s (nextStage s x) c.port (mkReceipt (moreFlag (x.stages.drop 1)) x.opcode.toNat stAccepted k.bandCode c.seq.toNat
      x.token.toNat k.bound k.sp []) ∧ hostOnly s (nextStage s x) := by
  have href := ref_of_findCmd h
  subst href
  simp only [nextStage, hl, takeBookings, if_true]
  generalize hu : updCmd (updCmd (freeEnergy s (stageEnergy x)) _ _) _ _ = u
  have hfind : findCmd u x.ref = some (bookedRecord x k later) := by
    have h : findCmd (freeEnergy s (stageEnergy x)) x.ref = some x := h
    subst hu
    exact findCmd_updCmd_some (findCmd_updCmd_some h rfl) rfl
  have hrest : hostRest u = hostRest s := by
    subst hu
    rw [hostRest_updCmd, hostRest_updCmd]
    rfl
  have htx : (portSt u x.ref.port).tx = (portSt s x.ref.port).tx := by
    subst hu
    simp only [portSt_updCmd]
    cases x.ref.port <;> rfl
  rw [hfind, Option.getD_some]
  refine ⟨⟨_, findCmd_placeReserved rfl hfind _⟩, ?_, (hostOnly_iff ..).mpr ((hostRest_placeReserved ..).trans hrest)⟩
  have hplaced := placeReserved_placed u (bookedRecord x k later)
    (mkReceipt (moreFlag (x.stages.drop 1)) x.opcode.toNat stAccepted k.bandCode x.ref.seq.toNat x.token.toNat k.bound k.sp [])
  exact hplaced.trans (congrArg (· ++ _) htx)

/-! ### The receipt that opens a session -/

/-- The payload of SESSION.OPEN's and SESSION.CLAIM's DONE receipt with token k (R116). -/
def sessionPayload (s : State) (x : Cmd) (k : BitVec 16) : List Byte :=
  le 2 k.toNat ++ [BitVec.ofNat 8 (portCode x.ref.port),
    BitVec.ofNat 8 (boolBit s.host.prevEnded + 2 * boolBit s.host.workDiscarded), BitVec.ofNat 8 s.power.resetKind]
    ++ le 3 s.power.powerCycles ++ le 8 s.tb

theorem nonZero16_ne (v : BitVec 256) : nonZero16 v ≠ 0 := by
  unfold nonZero16
  split
  · decide
  · assumption

/-- A session begins with a token that is not zero, its receipt carries it, and nothing else outside the host link changes. -/
theorem beginSession_begins {s : State} {c : CmdRef} {x : Cmd} (h : findCmd s c = some x) (hdue : s.tb ≤ x.promise) :
    ∃ k, k ≠ 0#16 ∧
      (beginSession s x).host.session = some { port := c.port, token := k, lastPacket := s.tb, pending := [] } ∧
      placed s (beginSession s x) c.port (mkReceipt 0 x.opcode.toNat stDone 0 c.seq.toNat k.toNat s.tb
        (min (x.promise - s.tb) 0xFFFFFFFF) (sessionPayload s x k)) ∧
      hostOnly s { beginSession s x with freeIdx := s.freeIdx } := by
  have href := ref_of_findCmd h
  subst href
  let k := nonZero16 (Config.freeValue s.freeIdx)
  let u := updCmd { s with freeIdx := s.freeIdx + 1 } x.ref (fun y => { y with token := k, bySession := false })
  have hu : findCmd u x.ref = some { x with token := k, bySession := false } :=
    findCmd_updCmd_some (s := { s with freeIdx := s.freeIdx + 1 }) h rfl
  have hend := (finishNow_endsAs hu (status := stDone) (fun _ => hdue) 0 0 (sessionPayload s x k)).1
  have htx : (portSt u x.ref.port).tx = (portSt s x.ref.port).tx := by
    rw [portSt_updCmd]
    cases x.ref.port <;> rfl
  have hrest := hostRest_finishNow u x.ref stDone 0 0 (sessionPayload s x k)
  have htb : (finishNow u x.ref stDone 0 0 (sessionPayload s x k)).tb = s.tb := (congrArg State.tb hrest :)
  refine ⟨k, nonZero16_ne _, ?_, ?_, (hostOnly_iff ..).mpr ?_⟩
  · exact congrArg (fun n => some ({ port := x.ref.port, token := k, lastPacket := n, pending := [] } : Session)) htb
  · have hport : ∀ v f, (∀ h, (f h).spi = h.spi ∧ (f h).maint = h.maint) →
        portSt (modHost v f) x.ref.port = portSt v x.ref.port := fun v f hf => by
      cases x.ref.port
      · exact (hf v.host).1
      · exact (hf v.host).2
    rw [placed, if_pos rfl] at hend
    rw [placed, ← htx]
    exact (congrArg PortSt.tx (hport _ _ fun _ => ⟨rfl, rfl⟩)).trans hend
  · exact congrArg (fun v : State => { v with freeIdx := s.freeIdx }) hrest

/-- Settles O27: by the outcome that stands, and by the stages and bookings that are left. -/
theorem commandStageCompletes : Obligations.CommandStageCompletes := by
  unfold Obligations.CommandStageCompletes
  intro s now c x b hx hheld hbook
  have href := ref_of_findCmd hx
  refine ⟨fun hlate hmode => ?_, fun hdue hf => ⟨fun r hr hst => ?_, fun r hr hst hreason htime hlast hop => ?_,
    fun r hr hst hlast hop hsession => ?_, fun k later hmore hres hnone hfail hl => ?_⟩⟩
  · have hpend : ¬(x.phase = .held ∨ x.book.isNone = true) := by simp [hheld, hbook]
    have hstep : stageComplete b c = raiseFault b 0x83 c.seq.toNat := by
      simp only [stageComplete, hx, hpend, hlate, if_false, if_true]
    exact ⟨_, congrArg Host.Outcome.next hstep, enterHalt_view b 0x83 c.seq.toNat false 1 hmode⟩
  · have hstep := stageComplete_result hx hheld hbook hdue hf hr (.inr hst)
    rw [if_neg (fun h => hst h.2), if_neg hst, placeResult_refused hst, href] at hstep
    have hend := finishNow_endsAs hx (status := r.status) (fun h => (hst h).elim) r.reason r.detail.toNat r.payload
    rw [if_neg hst] at hend
    exact ⟨_, congrArg Host.Outcome.next hstep, hend, finishNow_hostOnly ..⟩
  · simp only [List.mem_cons, List.not_mem_nil, or_false, not_or] at hop
    obtain ⟨h1, h2, h4, h303, h1003, h1004, h1005⟩ := hop
    have hstep := stageComplete_result hx hheld hbook hdue hf hr (.inl hlast)
    rw [if_neg (fun h => h303 h.1), if_pos hst, finishUpdate_other (by simp [h1003, h1004, h1005]),
      placeResult_done hst hreason htime (by simp [h1, h2, h4]), href] at hstep
    exact ⟨_, congrArg Host.Outcome.next hstep, finishNow_endsDone b c r.payload, finishNow_hostOnly ..⟩
  · have hstep := stageComplete_result hx hheld hbook hdue hf hr (.inl hlast)
    have hplace : placeResult b x r = beginSession b x := by simp [placeResult, hst, hop, hsession]
    rw [if_neg (by simp [hop]), if_pos hst, finishUpdate_other (by simp [hop]), hplace] at hstep
    obtain ⟨k, hk, hses, hplaced, honly⟩ := beginSession_begins hx hdue
    rw [hop, sessionPayload, href] at hplaced
    exact ⟨_, k, congrArg Host.Outcome.next hstep, hk, hses, hplaced, honly⟩
  · have hstep := stageComplete_next hx hheld hbook hdue hf (decide_eq_false (Nat.not_le.mpr hmore)) hres hnone hfail
    obtain ⟨⟨n, hfind⟩, hplaced, honly⟩ := nextStage_booked hx hl
    exact ⟨_, _, congrArg Host.Outcome.next hstep, hfind, rfl, rfl, rfl, rfl, hplaced, honly⟩

end Sys2Proof.Machine
end

section
/-!
PROOFS. The arrival of a packet: its checks, its refusal, its record when it is accepted (R60-R62, R90, R95-R97, R105, R108-R114).
-/
namespace Sys2Proof.Machine

open Sys2Proof

/-! ### Numbers in a packet -/

theorem unle_lt (bs : List Byte) : unle bs < 256 ^ bs.length := by
  induction bs with
  | nil => exact Nat.one_pos
  | cons b r ih =>
    have := b.isLt
    rw [unle, List.length_cons, pow_succ]
    omega

theorem length_slice (bs : List Byte) (off n : Nat) : (slice bs off n).length = n := by
  simp only [slice, List.length_append, List.length_replicate, List.length_take]
  omega

theorem field_lt (bs : List Byte) (off n : Nat) : field bs off n < 256 ^ n := by
  have := unle_lt (slice bs off n)
  rwa [length_slice] at this

/-! ### What changes in the host link alone -/

/-- The state but for the host link. -/
def exceptHost (s : State) : State := { s with host := HostSt.reset }

theorem exceptHost_iff (b t : State) : { t with host := b.host } = b ↔ exceptHost t = exceptHost b :=
  ⟨fun h => (congrArg exceptHost h :), fun h => (congrArg (fun u : State => { u with host := b.host }) h :)⟩

@[simp] theorem exceptHost_setHost (s : State) (h : HostSt) : exceptHost { s with host := h } = exceptHost s := rfl

@[simp] theorem exceptHost_modHost (s : State) (f : HostSt → HostSt) : exceptHost (modHost s f) = exceptHost s := rfl

@[simp] theorem exceptHost_setPort (s : State) (p : Port) (x : PortSt) : exceptHost (setPort s p x) = exceptHost s := by
  cases p <;> rfl

@[simp] theorem exceptHost_place (s : State) (p : Port) (r : List Byte) : exceptHost (place s p r) = exceptHost s :=
  exceptHost_setPort ..

@[simp] theorem exceptHost_noteSession (s : State) (p : Port) : exceptHost (noteSession s p) = exceptHost s := rfl

@[simp] theorem exceptHost_setResult (s : State) (c : CmdRef) (st r : BitVec 8) (v : BitVec 32) (pay : List Byte) :
    exceptHost (setResult s c st r v pay) = exceptHost s := setResult_keeps exceptHost (fun _ _ => rfl) ..

@[simp] theorem exceptHost_done (s : State) (c : CmdRef) (pay : List Byte) : exceptHost (done s c pay) = exceptHost s :=
  exceptHost_setResult ..

/-! ### A packet that is refused on arrival -/

/-- The state in which the packet at the front of port p's buffer has left it (R60). -/
def packetTaken (s : State) (p : Port) : State :=
  noteSession (setPort s p { portSt s p with rx := (portSt s p).rx.drop (frameLen (portSt s p).rx) }) p

theorem packetTaken_rest (s : State) (p : Port) : exceptHost (packetTaken s p) = exceptHost s :=
  (exceptHost_noteSession ..).trans (exceptHost_setPort ..)

theorem findCmd_packetTaken (s : State) (p : Port) (c : CmdRef) : findCmd (packetTaken s p) c = findCmd s c :=
  findCmd_setPort ..

theorem packetTaken_cmds (s : State) (p : Port) : (packetTaken s p).host.cmds = s.host.cmds := setPort_cmds ..

@[simp] theorem portSt_noteSession (s : State) (p q : Port) : portSt (noteSession s p) q = portSt s q := by cases q <;> rfl

theorem portSt_packetTaken (s : State) (p : Port) :
    portSt (packetTaken s p) p = { portSt s p with rx := (portSt s p).rx.drop (frameLen (portSt s p).rx) } :=
  (portSt_noteSession ..).trans (portSt_setPort ..)

theorem txFree_packetTaken (s : State) (p : Port) : txFree (packetTaken s p) p = txFree s p := by
  unfold txFree
  rw [portSt_packetTaken]
  rfl

theorem rx_place (s : State) (p : Port) (r : List Byte) : (portSt (place s p r) p).rx = (portSt s p).rx := by
  rw [place, portSt_setPort]

/-- A refusal that echoes the header takes the packet from the buffer, and nothing else changes (R113). -/
theorem echo_refused {s : State} {p : Port} (htx : 56 ≤ txFree s p) (bs : List Byte) (status reason : BitVec 8)
    {detail : Nat} (hd : detail < 2 ^ 32) :
    let t := echo (packetTaken s p) p bs status reason detail
    (portSt t p).rx = (portSt s p).rx.drop (frameLen (portSt s p).rx) ∧ { t with host := s.host } = s ∧
      t.host.cmds = s.host.cmds ∧
      placed s t p (mkReceipt 0 (field bs 4 2) status reason (field bs 8 2) (field bs 14 2) s.tb detail []) := by
  have hroom : ¬txFree (packetTaken s p) p < 28 := by rw [txFree_packetTaken]; omega
  have htb : (packetTaken s p).tb = s.tb := (congrArg State.tb (packetTaken_rest s p) :)
  have hmod : detail % 0x100000000 = detail := Nat.mod_eq_of_lt hd
  simp only [echo, hroom, if_false, htb, hmod]
  refine ⟨?_, (exceptHost_iff ..).mpr ((exceptHost_place ..).trans (packetTaken_rest ..)),
    (setPort_cmds ..).trans (packetTaken_cmds ..), ?_⟩
  · rw [rx_place, portSt_packetTaken]
  · rw [placed, placed_place, portSt_packetTaken]

/-! ### A packet that is admitted -/

/-- Bookings that are taken change nothing but the lists of bookings. -/
theorem addBookings_book (c : CmdRef) (l : List Booking) (s : State) :
    (l.foldl (fun s b => addBooking s c b) s).host = s.host :=
  foldl_keeps State.host (fun s b => addBooking s c b) (fun _ _ => rfl) l s

theorem portSt_reserveTx (s : State) (x : Cmd) (n : Nat) :
    portSt (reserveTx s x n) x.ref.port =
      { portSt s x.ref.port with reserved := (portSt s x.ref.port).reserved + n } :=
  (portSt_updCmd ..).trans (portSt_setPort ..)

theorem findCmd_reserveTx {s : State} {x : Cmd} (h : findCmd s x.ref = some x) (n : Nat) :
    findCmd (reserveTx s x n) x.ref = some { x with reservedBytes := x.reservedBytes + n } :=
  findCmd_updCmd_some ((findCmd_setPort ..).trans h) rfl

theorem rx_placeReserved (s : State) (x : Cmd) (r : List Byte) :
    (portSt (placeReserved s x r) x.ref.port).rx = (portSt s x.ref.port).rx := by
  simp only [placeReserved, portSt_updCmd, unreserve, portSt_setPort, rx_place]

/-- The record of command c once its first bookings stand, with n bytes reserved for its receipts. -/
def acceptedRecord (c : Cmd) (k : Booking) (later : List Booking) (n : Nat) : Cmd :=
  { c with
    phase := .accepted, book := some k, later := later, promise := k.bound, worked := false, begun := false,
    reservedBytes := n }

/-- The record of a packet that is accepted: its first bookings stand (R71). -/
theorem acceptStage_accepts {s : State} {c : Cmd} (h : findCmd s c.ref = some c) (hb : c.begun = false) (k : Booking)
    (later : List Booking) :
    (∃ n, findCmd (acceptStage s c (k :: later)) c.ref =
      some (acceptedRecord c k later n)) ∧
    placed s (acceptStage s c (k :: later)) c.ref.port (acceptedReceipt c k) ∧
    (portSt (acceptStage s c (k :: later)) c.ref.port).rx = (portSt s c.ref.port).rx := by
  have hbook := addBookings_book c.ref (k :: later) s
  simp only [acceptStage, takeBookings, hb, Bool.false_eq_true, if_false]
  generalize (k :: later).foldl (fun s b => addBooking s c.ref b) s = booked at hbook
  have hc : findCmd booked c.ref = some c := (congrArg (fun h => h.cmds.find? (fun y => decide (y.ref = c.ref))) hbook).trans h
  have hport : portSt booked c.ref.port = portSt s c.ref.port := by cases c.ref.port <;> simp only [portSt, hbook]
  have hreserved := findCmd_reserveTx hc (c.bytes - c.reservedBytes)
  have hportr := portSt_reserveTx booked c (c.bytes - c.reservedBytes)
  generalize reserveTx booked c (c.bytes - c.reservedBytes) = r at hreserved hportr
  generalize hu : updCmd r c.ref _ = u
  obtain ⟨n, hfind⟩ : ∃ n, findCmd u c.ref = some (acceptedRecord c k later n) := by
    subst hu
    refine ⟨c.reservedBytes + (c.bytes - c.reservedBytes), (findCmd_updCmd_some hreserved rfl).trans ?_⟩
    rw [hb]
    rfl
  rw [hfind, Option.getD_some]
  have hportu : portSt u c.ref.port = portSt r c.ref.port := hu ▸ portSt_updCmd ..
  refine ⟨⟨_, findCmd_placeReserved (y := acceptedRecord c k later n) rfl hfind _⟩, ?_, ?_⟩
  · refine (placeReserved_placed u (acceptedRecord c k later n) _).trans (congrArg (· ++ _) ?_)
    exact (congrArg PortSt.tx (hportu.trans hportr)).trans (congrArg PortSt.tx hport :)
  · refine (rx_placeReserved u (acceptedRecord c k later n) _).trans ?_
    exact (congrArg PortSt.rx (hportu.trans hportr)).trans (congrArg PortSt.rx hport :)

/-- Nothing happens before a packet is whole, nor without transmit bytes for its receipts. -/
theorem arrive_waits {s : State} {p : Port} (h : portOpen s = false ∨ s.power.failing = true ∨ s.power.stopping = true ∨
    frontWhole (portSt s p).rx = false ∨ txFree s p < 56) : arrive s p = s := by
  refine if_pos ?_
  rcases h with h | h | h | h | h <;> simp [h]

/-- The checks of a packet that is whole (R62). -/
theorem arrive_whole {s : State} {p : Port} (hopen : portOpen s = true) (hfail : s.power.failing = false)
    (hstop : s.power.stopping = false) (hwhole : frontWhole (portSt s p).rx = true) (htx : 56 ≤ txFree s p) :
    arrive s p =
      let bs := (portSt s p).rx.take (frameLen (portSt s p).rx)
      let t := packetTaken s p
      let k := packetOf bs 4
      let crc := (crc32c (bs.take (bs.length - 4))).toNat
      if field bs 0 1 ≠ 0x5E then echo t p bs stFormat 0x01 0
      else if k.version ≠ 1 then echo t p bs stFormat 0x02 k.version
      else if k.length < 20 ∨ k.length ≠ bs.length then echo t p bs stFormat 0x03 k.length
      else if field bs (bs.length - 4) 4 ≠ crc then echo t p bs stFormat 0x04 crc
      else match parsePacket s.tb p k with
        | .error (r, d) => echo t p bs stFormat (BitVec.ofNat 8 r) d
        | .ok i =>
          match checksOf t p k i with
          | some (st, r, d) =>
            let t := echo t p bs st r d
            if st = stSession ∨ st = stClass ∨ (st = stState ∧ r = 0x04) then t else afterRefusal t i
          | none => admitPacket t p k bs i := by
  have hgo : ¬((!portOpen s || s.power.failing || s.power.stopping || !frontWhole (portSt s p).rx ||
      decide (txFree s p < 56)) = true) := by simp [hopen, hfail, hstop, hwhole, Nat.not_lt.mpr htx]
  have htb : (packetTaken s p).tb = s.tb := (congrArg State.tb (packetTaken_rest s p) :)
  rw [← htb]
  exact if_neg hgo

/-- The record of an admitted packet is the last of the records (R62). -/
theorem takeCmd_record (s : State) (x : Ask) (k : Packet) (bs : List Byte) (i : Instr) (hnew : findCmd s x.ref = none) :
    let u := (takeCmd s x k bs i).1
    let c := (takeCmd s x k bs i).2
    findCmd u x.ref = some c ∧ (∀ p, portSt u p = portSt s p) ∧ c.ref = x.ref ∧ c.begun = false ∧
      c.opcode = BitVec.ofNat 16 k.opcode ∧ c.token = k.token := by
  refine ⟨?_, fun p => ?_, rfl, rfl, rfl, rfl⟩
  · have hcmds : (takeCmd s x k bs i).1.host.cmds = s.host.cmds ++ [(takeCmd s x k bs i).2] := by
      unfold takeCmd modHost
      dsimp only
      split <;> rfl
    have href : (takeCmd s x k bs i).2.ref = x.ref := rfl
    have hnew : s.host.cmds.find? (fun y => decide (y.ref = x.ref)) = none := hnew
    rw [findCmd, hcmds, List.find?_append, hnew, Option.none_or, List.find?_cons, href]
    simp
  · unfold takeCmd modHost
    dsimp only
    split <;> cases p <;> rfl

/-- A packet that passes every check and is given bookings has its record and its ACCEPTED receipt (R71). -/
theorem admitPacket_accepts {s : State} {p : Port} {k : Packet} {bs : List Byte} {i : Instr} {b : Booking} {later : List Booking}
    (hj : judge s (packetAsk s p k bs.length i) = .accept (b :: later)) (hnew : findCmd s ⟨p, k.seq⟩ = none) :
    ∃ y, findCmd (admitPacket s p k bs i) ⟨p, k.seq⟩ = some y ∧ y.phase = .accepted ∧ y.opcode = BitVec.ofNat 16 k.opcode ∧
      y.token = k.token ∧ y.promise = b.bound ∧
      placed s (admitPacket s p k bs i) p (mkReceipt (moreFlag y.stages) y.opcode.toNat stAccepted b.bandCode k.seq.toNat
        k.token.toNat b.bound b.sp []) ∧
      (portSt (admitPacket s p k bs i) p).rx = (portSt s p).rx := by
  obtain ⟨hfind, hport, href, hbegun, hop, htok⟩ := takeCmd_record s (packetAsk s p k bs.length i) k bs i hnew
  have hadmit : admitPacket s p k bs i = acceptStage (takeCmd s (packetAsk s p k bs.length i) k bs i).1
      (takeCmd s (packetAsk s p k bs.length i) k bs i).2 (b :: later) := by simp only [admitPacket, hj]
  rw [hadmit]
  generalize (takeCmd s (packetAsk s p k bs.length i) k bs i).1 = u at *
  generalize (takeCmd s (packetAsk s p k bs.length i) k bs i).2 = c at *
  have href : c.ref = ⟨p, k.seq⟩ := href
  have hfind : findCmd u c.ref = some c := href ▸ hfind
  obtain ⟨⟨n, hrec⟩, hplaced, hrx⟩ := acceptStage_accepts hfind hbegun b later
  rw [href] at hrec hplaced hrx
  refine ⟨_, hrec, rfl, hop, htok, rfl, ?_, hrx.trans (congrArg PortSt.rx (hport p))⟩
  refine (hplaced.trans (congrArg (· ++ _) (congrArg PortSt.tx (hport p)))).trans ?_
  rw [acceptedReceipt, href, htok]
  rfl

/-- Settles O28: check by check, in the order of R62. -/
theorem packetArrivals : Obligations.PacketArrivals := by
  unfold Obligations.PacketArrivals
  intro s now p b x n bs k crc refused whole
  refine ⟨fun h => congrArg Host.Outcome.next (arrive_waits h), fun hopen hfail hstop hfront htx => ?_⟩
  have hstep := congrArg (Host.Outcome.next (φ := Fault) (ρ := Refusal)) (arrive_whole hopen hfail hstop hfront htx)
  have hexec : exec (.packetArrival now p) s = .next (arrive b p) := rfl
  have hver : k.version < 2 ^ 32 := by
    have : field bs 1 1 < 256 := field_lt bs 1 1
    have : k.version = field bs 1 1 / 16 := rfl
    omega
  have hlen : k.length < 2 ^ 32 := (field_lt bs 2 2).trans (by decide)
  refine ⟨fun h0 => ?_, fun h0 h1 => ?_, fun h0 h1 h2 => ?_, fun hw h3 => ?_, fun hw h3 => ⟨fun r d hp hr hd => ?_,
    fun i bk later hp hc hj hnew => ?_⟩⟩
  · rw [if_pos h0] at hstep
    exact ⟨_, hexec.trans hstep, echo_refused htx bs _ _ (by decide)⟩
  · rw [if_neg (not_not.mpr h0), if_pos h1] at hstep
    exact ⟨_, hexec.trans hstep, echo_refused htx bs _ _ hver⟩
  · rw [if_neg (not_not.mpr h0), if_neg (not_not.mpr h1), if_pos h2] at hstep
    exact ⟨_, hexec.trans hstep, echo_refused htx bs _ _ hlen⟩
  all_goals
    obtain ⟨h0, h1, h2, h2'⟩ := hw
    rw [if_neg (not_not.mpr h0), if_neg (not_not.mpr h1), if_neg (not_or.mpr ⟨Nat.not_lt.mpr h2, not_not.mpr h2'⟩)] at hstep
  · rw [if_pos h3] at hstep
    exact ⟨_, hexec.trans hstep, echo_refused htx bs _ _ (crc32c _).isLt⟩
  · rw [if_neg (not_not.mpr h3), hp] at hstep
    exact ⟨_, hexec.trans hstep, echo_refused htx bs _ _ hd⟩
  · rw [if_neg (not_not.mpr h3), hp] at hstep
    have hc : checksOf (packetTaken b p) p (packetOf ((portSt b p).rx.take (frameLen (portSt b p).rx)) 4) i = none := hc
    simp only [hc] at hstep
    have hj : judge (packetTaken b p) (packetAsk (packetTaken b p) p k bs.length i) = .accept (bk :: later) := hj
    obtain ⟨y, hy, hphase, hop, htok, hprom, hplaced, hrx⟩ := admitPacket_accepts hj ((findCmd_packetTaken ..).trans hnew)
    have hport := portSt_packetTaken b p
    rw [placed, hport] at hplaced
    rw [hport] at hrx
    exact ⟨_, y, hexec.trans hstep, hrx, hy, hphase, hop, htok, hprom, hplaced⟩

end Sys2Proof.Machine
end

section
/-!
PROOFS. Groups of the store, cancellation, shares, held commands and share windows (R75, R76, R78, R79).
-/
namespace Sys2Proof.Machine

open Sys2Proof

/-! ### Groups of the parameter store -/

theorem mirrorGroup_twin (s : State) (ws : List PWrite) : { mirrorGroup s ws with twin := s.twin } = s := by
  unfold mirrorGroup
  split <;> rfl

/-- A group that the gauge admits is written; only the store, the snapshot of an update and the link to the twin change. -/
theorem groupWrite_written {s : State} {ws : List PWrite} (h : energyFor s (eGroup (groupPages ws)) = true) :
    ∃ u, groupWrite s ws = some u ∧ u.pstore = writeGroup s.pstore ws ∧
      { u with pstore := s.pstore, store := s.store, twin := s.twin } = s :=
  ⟨_, if_pos h, (congrArg State.pstore (mirrorGroup_twin ..) :),
    (congrArg (fun u : State => { u with pstore := s.pstore, store := s.store }) (mirrorGroup_twin ..) :)⟩

theorem groupWrite_lacks {s : State} {ws : List PWrite} (h : energyFor s (eGroup (groupPages ws)) = false) :
    groupWrite s ws = none := if_neg (by simp [h])

/-! ### Cancellation and shares -/

section
variable {s : State} {now : Tb} {c : CmdRef}

theorem works_admitCancel (q : BitVec 16) : works s now c (.admitCancel now c [q]) (fun _ b t =>
    (findCmd b ⟨c.port, q⟩ = none → onlyAnswers b t c (le 2 q.toNat ++ [2, 0])) ∧
    ∀ y, findCmd b ⟨c.port, q⟩ = some y →
      (y.begun = true → onlyAnswers b t c (le 2 q.toNat ++ [1, 0])) ∧
      (y.begun = false → answers t c (le 2 q.toNat ++ [0, 0]) ∧
        t.host.cmds = b.host.cmds.eraseP (fun z => decide (z.ref = ⟨c.port, q⟩)) ∧ hostOnly b t)) := by
  refine works_of (f := fun b _ => done (cancelSeq b c q).2 c (le 2 q.toNat ++ [BitVec.ofNat 8 (cancelSeq b c q).1, 0]))
    rfl fun x hx => ?_
  have hc := findCmd_workState hx
  generalize workState s now c x = b at hc
  refine ⟨fun hnone => ?_, fun y hy => ⟨fun hbegun => ?_, fun hbegun => ?_⟩⟩
  · simp only [cancelSeq, hnone]
    exact done_onlyAnswers hc _
  · simp only [cancelSeq, hy, hbegun, if_true]
    exact done_onlyAnswers hc _
  · simp only [cancelSeq, hy, hbegun, Bool.false_eq_true, if_false]
    have hne : y.ref ≠ c := by
      intro href
      rw [ref_of_findCmd hy] at href
      rw [href, hc] at hy
      cases hy
      cases hbegun
    refine ⟨done_answers (by exact (findCmd_cancelCmd_ne b hne).trans hc) _, ?_,
      (hostOnly_iff ..).mpr ((hostRest_done ..).trans (hostRest_cancelCmd ..))⟩
    rw [done, setResult_keeps (fun t => t.host.cmds) (fun _ _ => rfl), cancelCmd, removeCmd_cmds, dropBookings_host,
      ref_of_findCmd hy]

/-- The group of the four shares (R79). -/
def sharesGroup (v ps ss d : Nat) : List PWrite :=
  [{ kind := .param, scope := globalScope, key := 0x0201, body := some (le 8 v) },
    { kind := .param, scope := globalScope, key := 0x0202, body := some (le 8 ps) },
    { kind := .param, scope := globalScope, key := 0x0203, body := some (le 8 ss) },
    { kind := .param, scope := globalScope, key := 0x0204, body := some (le 8 d) }]

/-- The state in which these shares wait for the window after the latest promise (R79). -/
def sharesBooked (u : State) (v ps ss d : Nat) : State :=
  { u with book := { u.book with
      sharesNext := putShares (winOf (max u.book.latest u.tb) + 1, (v, ps, ss, d)) u.book.sharesNext } }

theorem groupPages_sharesGroup (v ps ss d : Nat) : groupPages (sharesGroup v ps ss d) = 1 := by
  simp [sharesGroup, groupPages, cdiv]

/-- Changing outcomes that keep their numbers changes the outcome of a command. -/
theorem findResult_map (s : State) (f : CmdResult → CmdResult) (hf : ∀ r, (f r).ref = r.ref) (c : CmdRef) :
    findResult (modHost s (fun h => { h with results := h.results.map f })) c = (findResult s c).map f := by
  refine (List.find?_map ..).trans (congrArg (fun p => (s.host.results.find? p).map f) ?_)
  funext r
  simp [hf]

theorem works_admitShares (v ps ss d : Nat) : works s now c (.admitShares now c v ps ss d) (fun _ b t =>
    energyFor b (eGroup 1) = true → answers t c [] ∧
    t.book = { b.book with
      sharesNext := putShares (max b.book.latest b.tb / 200000 + 1, (v, ps, ss, d)) b.book.sharesNext }) := by
  refine works_of (Eq.refl (execAdmitShares now c v ps ss d s)) fun x hx henergy => ?_
  have hc := findCmd_workState hx
  generalize workState s now c x = b at hc henergy
  obtain ⟨u, hu, -, hrest⟩ := groupWrite_written (ws := sharesGroup v ps ss d) (by rwa [groupPages_sharesGroup])
  have hcu : findCmd u c = _ := (congrArg (fun s => findCmd s c) hrest :).trans hc
  have hbook : u.book = b.book := (congrArg State.book hrest :)
  have htb : u.tb = b.tb := (congrArg State.tb hrest :)
  have hop : sharesOp b c v ps ss d = modHost (done (sharesBooked u v ps ss d) c []) (fun h => { h with
      results := h.results.map (fun r =>
        if r.ref = c then { r with time := some ((winOf (max u.book.latest u.tb) + 1) * shareTb) } else r) }) := by
    unfold sharesGroup at hu
    simp only [sharesOp, hu]
    rfl
  refine (congrArg (fun t => answers t c [] ∧ t.book = _) hop).mpr ⟨?_, ?_⟩
  · obtain ⟨r, hr, hstatus, hreason, hpay⟩ := done_answers (s := sharesBooked u v ps ss d) hcu []
    refine ⟨_, (findResult_map _ _ (fun r => by split <;> rfl) c).trans (congrArg _ hr), ?_, ?_, ?_⟩
    all_goals
      dsimp only
      split <;> assumption
  · refine (congrArg State.book (exceptHost_done (sharesBooked u v ps ss d) c []) :).trans ?_
    simp only [sharesBooked, hbook, htb]
    rfl

theorem heldAgesOut {x : Cmd} (h : findCmd (s.at now) c = some x) (hheld : x.phase = .held)
    (hage : x.arrival + horizonTb ≤ (s.at now).tb) :
    ∃ t, exec (.heldCommandAgesOut now c) s = .next t ∧ endsAs (s.at now) t c x stHorizon 0x09
      (((heldIn (s.at now) x.cls).takeWhile (fun y => y.ref ≠ c)).length + 1) [] ∧ hostOnly (s.at now) t := by
  have hstep : exec (.heldCommandAgesOut now c) s = .next (ageOut (s.at now) x 0x09) := by
    refine congrArg Host.Outcome.next ?_
    simp only [h, hheld, ne_eq, not_true_eq_false, hage, if_false, if_true]
  refine ⟨_, hstep, ?_⟩
  rw [ageOut, ref_of_findCmd h]
  have hend := finishNow_endsAs h (status := stHorizon) (fun h => absurd h (by decide)) 0x09
    (((heldIn (s.at now) x.cls).takeWhile (fun y => y.ref ≠ c)).length + 1) []
  rw [if_neg (by decide)] at hend
  exact ⟨hend, finishNow_hostOnly ..⟩

end

/-! ### Share windows -/

/-- What a window that takes the shares that are due leaves, and what of the bookings it changes (R79). -/
theorem takeShares_fields (s : State) :
    (takeShares s).host = s.host ∧ (takeShares s).image = s.image ∧ (takeShares s).ring = s.ring ∧
    (takeShares s).book =
      if s.book.sharesNext.any (fun e => decide (e.1 ≤ winOf s.tb)) then
        { s.book with
          shares := sharesAt s (winOf s.tb), sharesNext := s.book.sharesNext.filter (fun e => !decide (e.1 ≤ winOf s.tb)) }
      else s.book := by
  unfold takeShares
  dsimp only
  split
  · simp only [setPar_host, setPar_image, setPar_ring, setPar_book, and_self]
  · exact ⟨rfl, rfl, rfl, rfl⟩

/-- A window without a held command and without a stage to book serves none (R75). -/
theorem windowStart_none {s : State} (h : ∀ x ∈ s.host.cmds, x.phase ≠ .held ∧ (x.phase = .started → x.book ≠ none)) :
    windowStart s = takeShares (pruneBookings s) := by
  have hhost : (takeShares (pruneBookings s)).host = s.host := (takeShares_fields (pruneBookings s)).1
  unfold windowStart
  generalize takeShares (pruneBookings s) = u at hhost
  have hserve : ∀ k, serveHeld (heldIn u k) (serveUnbooked k u) = u := fun k => by
    have hunbooked : serveUnbooked k u = u := by
      unfold serveUnbooked
      rw [hhost, List.filter_eq_nil_iff.mpr]
      · rfl
      · intro x hx hp
        have := (h x hx).2
        simp_all
    have hheld : heldIn u k = [] := by
      unfold heldIn
      rw [hhost, List.filter_eq_nil_iff]
      intro x hx hp
      have := (h x hx).1
      simp_all
    rw [hunbooked, hheld]
    rfl
  dsimp only
  split
  · rfl
  · simp only [List.foldl_cons, List.foldl_nil, hserve]

/-- A window forgets the bookings of those that have passed, and takes the shares that are due (R79). -/
theorem takeShares_pruned (s : State) :
    let t := takeShares (pruneBookings s)
    t.host = s.host ∧ t.image = s.image ∧ t.ring = s.ring ∧ (∀ e ∈ t.book.sp, s.tb / 200000 ≤ e.1) ∧
      ∀ w sh, s.book.sharesNext = [(w, sh)] →
        (w ≤ s.tb / 200000 → t.book.shares = sh ∧ t.book.sharesNext = []) ∧
        (s.tb / 200000 < w → t.book.shares = s.book.shares ∧ t.book.sharesNext = [(w, sh)]) := by
  obtain ⟨hhost, himage, hring, hbook⟩ := takeShares_fields (pruneBookings s)
  have hwin : winOf (pruneBookings s).tb = s.tb / 200000 := rfl
  have hnext : (pruneBookings s).book.sharesNext = s.book.sharesNext := rfl
  have hsp : ∀ e ∈ (pruneBookings s).book.sp, s.tb / 200000 ≤ e.1 := fun e he => of_decide_eq_true (List.mem_filter.mp he).2
  refine ⟨hhost, himage, hring, ?_, fun w sh hw => ?_⟩
  · rw [hbook]
    split <;> exact hsp
  · simp only [hbook, sharesAt, hwin, hnext, hw, List.any_cons, List.any_nil, Bool.or_false, decide_eq_true_eq]
    refine ⟨fun hle => ?_, fun hlt => ?_⟩
    · simp [hle]
    · simp only [Nat.not_le.mpr hlt, if_false]
      exact ⟨rfl, hw⟩

/-- Settles O29: the cancelled command is another than the one that cancels it, since that one has started. -/
theorem admissionCommands : Obligations.AdmissionCommands := by
  unfold Obligations.AdmissionCommands
  intro s now c q v ps ss d n
  exact ⟨works_admitCancel q, works_admitShares v ps ss d, fun x => heldAgesOut, fun h =>
    ⟨_, congrArg Host.Outcome.next (windowStart_none (s := n) h), takeShares_pruned n⟩⟩

end Sys2Proof.Machine
end

section
/-!
PROOFS. SPI transactions and the port status word (R92-R101).
-/
namespace Sys2Proof.Machine

open Sys2Proof

/-! ### Bytes received -/

/-- The tail of a buffer whose front is not whole is the whole buffer. -/
theorem partialOf_notWhole {x : PortSt} (h : frontWhole x.rx = false) : partialOf x = x.rx := by
  unfold partialOf
  cases x.rx.length with
  | zero => rfl
  | succ n => simp [rxTail, h]

theorem dropPartial_notWhole {x : PortSt} (h : frontWhole x.rx = false) : dropPartial x = { x with rx := [] } := by
  simp [dropPartial, partialOf_notWhole h]

theorem frontWhole_short {rx : List Byte} (h : rx.length < 16) : frontWhole rx = false :=
  decide_eq_false fun ⟨h16, _⟩ => Nat.not_le.mpr h h16

theorem partialOf_nil {x : PortSt} (h : x.rx = []) : partialOf x = [] :=
  (partialOf_notWhole (frontWhole_short (by simp [h]))).trans h

/-- Bytes within the header of a packet are all kept (R96). -/
theorem takeBytes_header {n : Nat} (hn : n ≠ 0) (len : Nat) {bs : List Byte} (h : n + bs.length < 16) :
    takeBytes n len bs = (bs, false) := by
  induction bs generalizing n len with
  | nil => rfl
  | cons b r ih =>
    have hlen : n + 1 + r.length < 16 := by simpa [Nat.add_assoc, Nat.add_comm 1] using h
    have hnot : ¬(16 ≤ n + 1) := by omega
    simp only [takeBytes, hn, false_and, if_false, hnot]
    rw [ih (Nat.succ_ne_zero n) _ hlen]

theorem takeBytes_begin {bs : List Byte} (hhead : bs.head? = some 0x5E) (h : bs.length < 16) :
    takeBytes 0 0 bs = (bs, false) := by
  cases bs with
  | nil => rfl
  | cons b r =>
    have hb : b = 0x5E := by simpa using hhead
    have hlen : 1 + r.length < 16 := by simpa [Nat.add_comm] using h
    simp [takeBytes, hb, takeBytes_header Nat.one_ne_zero _ hlen]

theorem takeBytes_discard {bs : List Byte} (hhead : bs.head? ≠ some 0x5E) (h : bs ≠ []) : takeBytes 0 0 bs = ([], true) := by
  cases bs with
  | nil => exact (h rfl).elim
  | cons b r =>
    have hb : b ≠ 94#8 := by simpa using hhead
    simp [takeBytes, hb]

/-- The bytes of a header that begins a packet are appended to an empty buffer (R96). -/
theorem receive_begin {s : State} {p : Port} (hopen : portOpen s = true) (hrx : (portSt s p).rx = []) {bs : List Byte}
    (hhead : bs.head? = some 0x5E) (hlen : bs.length < 16) :
    receive s p bs = setPort s p { portSt s p with rx := bs, lastByteAt := s.tb } := by
  have htake : bs.take 8192 = bs := List.take_of_length_le (by omega)
  have hroom : ¬8192 < bs.length := by omega
  simp [receive, hopen, rxFree, hrx, partialOf_nil hrx, htake, takeBytes_begin hhead hlen, field, slice, unle, hroom]

/-- Bytes that cannot begin a packet are discarded, and RX_ERR is set (R97). -/
theorem receive_discard {s : State} {p : Port} (hopen : portOpen s = true) (hrx : (portSt s p).rx = []) {bs : List Byte}
    (hhead : bs.head? ≠ some 0x5E) (hne : bs ≠ []) :
    receive s p bs = setPort s p { portSt s p with lastByteAt := s.tb, rxErr := true } := by
  have hhead' : (bs.take 8192).head? ≠ some 0x5E := by simpa [List.head?_take] using hhead
  have hne' : bs.take 8192 ≠ [] := by simpa using hne
  simp [receive, hopen, rxFree, hrx, partialOf_nil hrx, takeBytes_discard hhead' hne', field, slice, unle]

/-! ### Receipts taken -/

theorem takeTx_zero (f : Nat) (x : PortSt) : takeTx f 0 x = ([], x) := by cases f <;> simp [takeTx]

theorem takeTx_empty (f n : Nat) {x : PortSt} (h : x.tx = []) : takeTx f n x = (List.replicate n 0, x) := by
  cases f with
  | zero => rfl
  | succ f =>
    by_cases hn : n = 0
    · simp [takeTx, hn]
    · simp [takeTx, hn, h]

/-- Bytes short of the end of the front receipt. -/
theorem takeTx_part {n : Nat} {x : PortSt} {r : List Byte} {rest : List (List Byte)} (h : x.tx = r :: rest)
    (hn : n < r.length - x.taken) :
    takeTx n n x = ((r.drop x.taken).take n, { x with taken := x.taken + n }) := by
  cases n with
  | zero => simp [takeTx]
  | succ f =>
    have hgot : ((r.drop x.taken).take (f + 1)).length = f + 1 := by simp; omega
    have hlt : x.taken + (f + 1) < r.length := by omega
    simp only [takeTx, h, Nat.succ_ne_zero, if_false, hgot, hlt, if_true]

/-- The bytes up to the end of the front receipt, which leaves the buffer (R99, R100). -/
theorem takeTx_whole {n : Nat} {x : PortSt} {r : List Byte} {rest : List (List Byte)} (h : x.tx = r :: rest)
    (hlt : x.taken < r.length) (hn : n = r.length - x.taken) :
    takeTx n n x = (r.drop x.taken, { x with tx := rest, taken := 0, lastTaken := r }) := by
  cases n with
  | zero => omega
  | succ f =>
    have htake : (r.drop x.taken).take (f + 1) = r.drop x.taken := List.take_of_length_le (by simp; omega)
    have hlen : (r.drop x.taken).length = f + 1 := by simp; omega
    have hend : ¬x.taken + (f + 1) < r.length := by omega
    simp only [takeTx, h, Nat.succ_ne_zero, if_false, htake, hlen, hend, Nat.sub_self, takeTx_zero, List.append_nil]

/-! ### The status word -/

/-- The fields of the status word of an open port (R94). -/
theorem portStatus_fields {s : State} (h : portOpen s = true) :
    portStatus s / 65536 = min (txNext s.host.spi) 0xFFFF ∧
    (s.host.spi.rx.length ≤ 8192 → portStatus s % 65536 / 4 = 8192 - s.host.spi.rx.length) ∧
    (portStatus s / 2 % 2 = 1 ↔ s.host.spi.rxErr = true) ∧
    (portStatus s % 2 = 1 ↔ ∃ z, s.host.session = some z ∧ z.port = .spi) := by
  have hsession : s.host.session.any (fun z => decide (z.port = .spi)) = true ↔
      ∃ z, s.host.session = some z ∧ z.port = .spi := by simp [Option.any_eq_true]
  rw [← hsession]
  simp only [portStatus, h, Bool.not_true, Bool.false_eq_true, if_false, rxFree]
  have hmin : Nat.min (txNext s.host.spi) 0xFFFF = min (txNext s.host.spi) 65535 := rfl
  rw [hmin]
  generalize s.host.session.any _ = c
  generalize s.host.spi.rxErr = e
  cases c <;> cases e <;> simp only [boolBit, if_true, Bool.false_eq_true, if_false, iff_true, iff_false] <;>
    refine ⟨?_, ?_, ?_, ?_⟩ <;> omega

/-! ### The transactions -/

/-- The state that an SPI transaction leaves which drives these bytes and leaves these registers of its port. -/
def spiLeaves (b : State) (bs : List Byte) (y : PortSt) : State := { b with host := { b.host with out := bs, spi := y } }

section
variable {s : State} {now : Tb} {i : Instr}

theorem exec_put {bytes : List Byte} (hi : i = .put now bytes ∨ i = .putQ now bytes) :
    exec i s = .next (receive (spiOut (s.at now) []) .spi bytes) := by rcases hi with rfl | rfl <;> rfl

theorem exec_take {n : Nat} (hi : i = .take now n ∨ i = .takeQ now n) {bs : List Byte} {y : PortSt}
    (h : takeTx n n s.host.spi = (bs, y)) : exec i s = .next (spiLeaves (s.at now) bs y) := by
  have hop : takeOp now n s = spiLeaves (s.at now) (takeTx n n s.host.spi).1 (takeTx n n s.host.spi).2 := rfl
  rw [h] at hop
  rcases hi with rfl | rfl <;> exact congrArg Host.Outcome.next hop

theorem exec_repeat {n : Nat} (hi : i = .repeatLast now n ∨ i = .repeatLastQ now n) :
    exec i s = .next (spiLeaves (s.at now) (slice s.host.spi.lastTaken 0 n) s.host.spi) := by rcases hi with rfl | rfl <;> rfl

end

/-- Settles O30: by what the receive buffer keeps and by what the receipts give. -/
theorem portTransactions : Obligations.PortTransactions := by
  unfold Obligations.PortTransactions
  intro s now mask bytes n u b x out
  refine ⟨fun hclosed => ?_, fun hopen => ⟨_, rfl, portStatus_fields (s := b) hopen⟩, ?_,
    fun i hi => ⟨fun hopen hrx hhead hlen => (exec_put hi).trans ?_, fun hopen hrx hhead hne => (exec_put hi).trans ?_⟩,
    fun i hi => ⟨fun htx => exec_take hi (takeTx_empty n n htx), fun r rest htx hn => exec_take hi (takeTx_part htx hn),
      fun r rest htx hlt hn => exec_take hi (takeTx_whole htx hlt hn)⟩,
    fun i hi => (exec_repeat hi).trans ?_, fun hwhole => ?_, fun hu => ?_, fun hu => congrArg Host.Outcome.next (if_pos ?_)⟩
  · have hclosed : portOpen b = false := hclosed
    have hword : portStatus b = 0 := if_pos (by simp [hclosed])
    show Host.Outcome.next (spiOut b (le 4 (portStatus b))) = _
    rw [hword]
    rfl
  · show Host.Outcome.next _ = Host.Outcome.next _
    cases mask.getLsbD 1 <;> rfl
  · rw [receive_begin (s := spiOut b []) (p := .spi) hopen hrx hhead hlen]
    rfl
  · rw [receive_discard (s := spiOut b []) (p := .spi) hopen hrx hhead hne]
    rfl
  · have hlen : n - (x.lastTaken.take n).length = n - x.lastTaken.length := by
      rw [List.length_take]
      omega
    simp only [slice, List.drop_zero]
    rw [show s.host.spi = x from rfl, hlen]
    rfl
  · exact congrArg (fun y => Host.Outcome.next (spiLeaves b [] y)) (dropPartial_notWhole hwhole)
  · have hno : ¬commandBytes.contains u = true := fun h => hu (by simpa [commandBytes] using h)
    exact congrArg Host.Outcome.next (if_neg hno)
  · simpa [commandBytes] using hu

end Sys2Proof.Machine
end

section
/-!
PROOFS. The maintenance port and partly received packets (R97, R98, R103, R104, R145).
-/
namespace Sys2Proof.Machine

open Sys2Proof

/-! ### The time limit between the bytes of a packet -/

theorem frameLen_le (rx : List Byte) : frameLen rx ≤ 4096 := by
  unfold frameLen
  dsimp only
  split
  · omega
  · decide

/-- A partly received packet is shorter than the longest packet. -/
theorem length_notWhole {rx : List Byte} (h : frontWhole rx = false) : rx.length < 4096 := by
  have hframe := frameLen_le rx
  have hnot := of_decide_eq_false h
  omega

theorem portSt_place (s : State) (p : Port) (r : List Byte) :
    portSt (place s p r) p = { portSt s p with tx := (portSt s p).tx ++ [r] } := portSt_setPort ..

section
variable {s : State} {p : Port}

theorem partialTimeout_waits (h : s.tb < (portSt s p).lastByteAt + msToTb 10) : partialTimeout s p = s :=
  if_pos (.inr h)

/-- A partly received packet is dropped, and RX_ERR is set; from 16 bytes on its header is echoed (R98, R113). -/
theorem partialTimeout_drops (hwhole : frontWhole (portSt s p).rx = false) (hne : (portSt s p).rx ≠ [])
    (hlate : (portSt s p).lastByteAt + msToTb 10 ≤ s.tb) :
    partialTimeout s p =
      let t := setPort s p { portSt s p with rx := [], rxErr := true }
      if 16 ≤ (portSt s p).rx.length then echo t p (portSt s p).rx stFormat 0x0A (portSt s p).rx.length else t := by
  have hgo : ¬((partialOf (portSt s p)).isEmpty = true ∨ s.tb < (portSt s p).lastByteAt + msToTb 10) := by
    rw [partialOf_notWhole hwhole]
    rintro (h | h)
    · exact hne (by simpa using h)
    · exact Nat.not_lt.mpr hlate h
  refine (if_neg hgo).trans ?_
  rw [partialOf_notWhole hwhole, dropPartial_notWhole hwhole]

theorem partialTimeout_echoes (hwhole : frontWhole (portSt s p).rx = false) (h16 : 16 ≤ (portSt s p).rx.length)
    (hlate : (portSt s p).lastByteAt + msToTb 10 ≤ s.tb) (htx : 28 ≤ txFree s p) :
    (portSt (partialTimeout s p) p).rx = [] ∧ (portSt (partialTimeout s p) p).rxErr = true ∧
      placed s (partialTimeout s p) p (mkReceipt 0 (field (portSt s p).rx 4 2) stFormat 0x0A (field (portSt s p).rx 8 2)
        (field (portSt s p).rx 14 2) s.tb (portSt s p).rx.length []) := by
  have hne : (portSt s p).rx ≠ [] := List.ne_nil_of_length_pos (by omega)
  have hlen := length_notWhole hwhole
  have hmod : (portSt s p).rx.length % 0x100000000 = (portSt s p).rx.length := Nat.mod_eq_of_lt (by omega)
  rw [partialTimeout_drops hwhole hne hlate]
  dsimp only
  rw [if_pos h16]
  have hport := portSt_setPort s p { portSt s p with rx := [], rxErr := true }
  have htb : (setPort s p { portSt s p with rx := [], rxErr := true }).tb = s.tb := setPort_tb ..
  generalize setPort s p { portSt s p with rx := [], rxErr := true } = t at *
  have hroom : ¬txFree t p < 28 := by
    unfold txFree txBytes at htx ⊢
    rw [hport]
    exact Nat.not_lt.mpr htx
  simp only [echo, hroom, if_false, hmod, htb]
  rw [placed, portSt_place, hport]
  exact ⟨rfl, rfl, rfl⟩

end

/-! ### The maintenance port -/

/-- Settles O31: breaks, bytes, receipts that leave, and the limit between bytes. -/
theorem maintPort : Obligations.MaintPort := by
  unfold Obligations.MaintPort
  intro s now us u p b x y host
  refine ⟨fun hshort hbreak => congrArg Host.Outcome.next ?_, fun hlong hbreak hwhole => congrArg Host.Outcome.next ?_,
    fun hbreak => ⟨_, rfl, ?_⟩, fun hd => congrArg Host.Outcome.next (if_pos hd), fun hd hopen hrx hu => ?_,
    fun hd hopen hrx hu => ?_, fun r rest htx hop => congrArg Host.Outcome.next ?_,
    fun r rest v htx hop hst hbaud => congrArg Host.Outcome.next ?_,
    fun h => congrArg Host.Outcome.next (partialTimeout_waits h), fun hwhole hne hlen hlate => ?_,
    fun hwhole h16 hlate htx => ⟨_, rfl, partialTimeout_echoes hwhole h16 hlate htx⟩⟩
  · show breakOp b us = b
    have hno : ¬20000000 ≤ us * baudRate b.host.baud := Nat.not_le.mpr hshort
    simp only [breakOp, hno, Nat.not_le.mpr hbreak, if_false]
  · have hyes : 20000000 ≤ us * baudRate b.host.baud := hlong
    show breakOp b us = _
    simp only [breakOp, hyes, Nat.not_le.mpr hbreak, if_true, if_false, modHost,
      dropPartial_notWhole (x := b.host.maint) hwhole]
    rfl
  · simp only [breakOp, hbreak, if_true]
    split <;> exact ⟨rfl, rfl⟩
  · refine congrArg Host.Outcome.next ?_
    have hrec := receive_discard (s := b) (p := .maint) hopen hrx (bs := [u]) (by simpa using hu) (by simp)
    have hstart : ((partialOf b.host.maint).isEmpty && decide (u ≠ 0x5E#8)) = true := by
      rw [partialOf_nil (x := b.host.maint) hrx]
      simpa using hu
    have hd : b.host.maint.discarding = false := hd
    show maintByteOp b u = _
    simp only [maintByteOp, hd, Bool.false_eq_true, if_false, hstart, if_true, hrec]
    rfl
  · refine congrArg Host.Outcome.next ?_
    have hrec := receive_begin (s := b) (p := .maint) hopen hrx (bs := [u]) (by simpa using hu) (by simp)
    have hstart : ¬((partialOf b.host.maint).isEmpty && decide (u ≠ 0x5E#8)) = true := by simp [hu]
    have hd : b.host.maint.discarding = false := hd
    show maintByteOp b u = _
    simp only [maintByteOp, hd, Bool.false_eq_true, if_false, hstart, hrec]
    rfl
  · have htx : b.host.maint.tx = r :: rest := htx
    show maintSent b = _
    simp only [maintSent, htx, hop, false_and, if_false]
    rfl
  · have htx : b.host.maint.tx = r :: rest := htx
    have hbaud : b.host.baudNext = some v := hbaud
    show maintSent b = _
    simp only [maintSent, htx, hop, hst, and_self, if_true, takeBaud, modHost, hbaud]
    rfl
  · refine congrArg Host.Outcome.next ((partialTimeout_drops hwhole hne hlate).trans ?_)
    exact if_neg (Nat.not_le.mpr hlen)

end Sys2Proof.Machine
end

section
/-!
PROOFS. Accesses to image and force table that wait for an image slot (R69, R139, R142, R308, R310, R526).
-/
namespace Sys2Proof.Machine

open Sys2Proof

/-- No access of command c waits for a slot. -/
theorem any_slotRef_false {b : State} {c : CmdRef} (h : ∀ w ∈ b.sched.slotWork, slotRef w ≠ c) :
    b.sched.slotWork.any (fun x => decide (slotRef x = c)) = false := by
  simpa using h

/-- A command without an access in the queue puts one there, and nothing else changes (R69). -/
theorem queueSlot_queues {b : State} {w : SlotWork} (h : ∀ x ∈ b.sched.slotWork, slotRef x ≠ slotRef w) :
    queuedOnly b (queueSlot b w) w := by
  unfold queueSlot
  rw [any_slotRef_false h]
  rfl

/-- What a force command leaves which has written the store and queued its access (R308, R310). -/
theorem queueSlot_stored {b u : State} {c : CmdRef} {w : SlotWork} {ws : List PWrite} (hw : slotRef w = c)
    (h : ∀ x ∈ b.sched.slotWork, slotRef x ≠ c) (hps : u.pstore = writeGroup b.pstore ws)
    (hu : { u with pstore := b.pstore, store := b.store, twin := b.twin } = b) :
    (queueSlot u w).pstore = writeGroup b.pstore ws ∧ (queueSlot u w).sched.slotWork = b.sched.slotWork ++ [w] ∧
      (queueSlot u w).image = b.image ∧ (queueSlot u w).forces = b.forces := by
  have hsched : u.sched = b.sched := (congrArg State.sched hu :)
  have himage : u.image = b.image := (congrArg State.image hu :)
  have hforces : u.forces = b.forces := (congrArg State.forces hu :)
  have hq : queueSlot u w = _ := queueSlot_queues (b := u) (by rw [hsched, hw]; exact h)
  rw [hq]
  exact ⟨hps, congrArg (·.slotWork ++ [w]) hsched, himage, hforces⟩

section
variable {s : State} {now : Tb} {c : CmdRef}

theorem works_forceSet (es : List ForceArg) : works s now c (.forceSet now c es) (fun _ b t =>
    (∀ w ∈ b.sched.slotWork, slotRef w ≠ c) →
    (energyFor b (eGroup (groupPages (es.map forceWrite))) = true →
      t.pstore = writeGroup b.pstore (es.map forceWrite) ∧ t.sched.slotWork = b.sched.slotWork ++ [.forceSet c es] ∧
      t.image = b.image ∧ t.forces = b.forces) ∧
    (energyFor b (eGroup (groupPages (es.map forceWrite))) = false → refuses t c stState 0x06 ∧ sameButResults b t)) := by
  refine works_of (Eq.refl (execForceSet now c es s)) fun x hx hfresh => ?_
  have hc := findCmd_workState hx
  generalize workState s now c x = b at hc hfresh
  simp only [forceSetOp, any_slotRef_false hfresh, Bool.false_eq_true, if_false]
  refine ⟨fun henergy => ?_, fun hlack => ?_⟩
  · obtain ⟨u, hu, hps, hrest⟩ := groupWrite_written henergy
    rw [hu]
    exact queueSlot_stored rfl hfresh hps hrest
  · rw [groupWrite_lacks hlack]
    exact refuseState_refuses hc 0x06

theorem works_forceRelease (as : List (BitVec 32)) : works s now c (.forceRelease now c as) (fun _ b t =>
    (∀ w ∈ b.sched.slotWork, slotRef w ≠ c) →
    let gone := (b.forces.map (fun f => forceAddr f.addr)).filter (fun a =>
      decide (as = [0xFFFFFFFF#32]) || as.any (fun x => decide (forceAddr (forceKey x.toNat) = a)))
    let work := SlotWork.forceRelease c (decide (as = [0xFFFFFFFF#32])) (as.map (·.toNat))
    (gone = [] → queuedOnly b t work) ∧
    (gone ≠ [] → energyFor b (eGroup (groupPages (gone.map forceDelete))) = true →
      t.pstore = writeGroup b.pstore (gone.map forceDelete) ∧ t.sched.slotWork = b.sched.slotWork ++ [work] ∧
      t.image = b.image ∧ t.forces = b.forces) ∧
    (gone ≠ [] → energyFor b (eGroup (groupPages (gone.map forceDelete))) = false →
      refuses t c stState 0x06 ∧ sameButResults b t)) := by
  refine works_of (Eq.refl (execForceRelease now c as s)) fun x hx hfresh => ?_
  have hc := findCmd_workState hx
  generalize workState s now c x = b at hc hfresh
  intro gone work
  have hgone : (if decide (as = [0xFFFFFFFF#32]) = true then b.forces.map (fun f => forceAddr f.addr)
      else (b.forces.map (fun f => forceAddr f.addr)).filter (fun a =>
        as.any (fun x => decide (forceAddr (forceKey x.toNat) = a)))) = gone := by
    by_cases hall : as = [0xFFFFFFFF#32] <;> simp [gone, hall]
  simp only [forceReleaseOp, any_slotRef_false hfresh, Bool.false_eq_true, if_false, hgone]
  clear_value gone
  refine ⟨fun hnone => ?_, fun hsome henergy => ?_, fun hsome hlack => ?_⟩
  · rw [hnone]
    exact queueSlot_queues (b := b) hfresh
  · have hne : gone.isEmpty = false := by simpa using hsome
    obtain ⟨u, hu, hps, hrest⟩ := groupWrite_written henergy
    simp only [hne, Bool.false_eq_true, if_false, hu]
    exact queueSlot_stored rfl hfresh hps hrest
  · have hne : gone.isEmpty = false := by simpa using hsome
    simp only [hne, Bool.false_eq_true, if_false, groupWrite_lacks hlack]
    exact refuseState_refuses hc 0x06

end

/-- Settles O32: every access waits in the queue of the slots, a force's once the store holds it. -/
theorem imageAccessQueued : Obligations.ImageAccessQueued := by
  unfold Obligations.ImageAccessQueued
  intro s now c space n start first count vals bytes es as fresh store
  exact ⟨works_of (Eq.refl (execImageRead now c space n start s)) fun _ _ h => queueSlot_queues h,
    works_of (Eq.refl (execImageWrite now c space start vals s)) fun _ _ h => queueSlot_queues h,
    works_of (Eq.refl (execDspWrite now c first count bytes s)) fun _ _ h => queueSlot_queues h,
    works_forceSet es, works_forceRelease as⟩

end Sys2Proof.Machine
end

section
/-!
PROOFS. An image slot that serves a write of a system input point before the first ACQUIRE (R69, R163, R173, R197).
-/
namespace Sys2Proof.Machine

open Sys2Proof

/-- An empty ring takes every record. -/
theorem ringTakes_of_empty {s : State} (h : s.ring.recs = []) (n : Nat) : ringTakes s n := by
  intro r _
  unfold ringAppend
  simp only [h]
  split
  · next x hx => exact absurd (List.find?_some hx) (by simp [liveLines])
  · exact ⟨_, rfl⟩

/-- The command whose access waits. -/
def writingCmd : Cmd :=
  { ref := ⟨.spi, 0⟩, opcode := 0x0102, cls := .s, token := 0, deadlineUs := 0, franked := false, packet := [], arrival := 0,
    promise := 0, phase := .started, stages := [], frankDone := false, bytes := 0, reservedBytes := 0, worked := true,
    sliced := false, bySession := false, begun := true, book := none, later := [] }

/-- Before the first ACQUIRE, a write of 1 to the system input point 0xF000 waits for a slot. -/
def sysPointWrite : State :=
  { State.reset with
    host := { HostSt.reset with cmds := [writingCmd] },
    sched := { Sched.reset with slotWork := [.write ⟨.spi, 0⟩ [(0xF000, ⟨1, 0⟩)]] } }

/-- The ring keeps no line of the item. -/
theorem touchedLines_sysPoint : touchedLines [0xF000] = [] := by
  have hno : [0xF000].filter recordedItem = [] := by decide
  simp [touchedLines, recordOrder, hno]

/-- A slot that serves one access, between two scans (R69). -/
def slotBegun (s : State) (w : SlotWork) : State :=
  modSched s (fun x => { x with
    slotWork := [], slotNo := x.slotNo + 1, slotEnd := s.tb, slotDone := true,
    aheadPs := x.aheadPs + ([w].map slotPs).foldl (· + ·) 0 })

theorem imageSlotOp_one {s : State} {w : SlotWork} (h : slotIdle s) (hw : s.sched.slotWork = [w]) :
    imageSlotOp s = idleChanges (performSlot (slotBegun s w) w) := by
  obtain ⟨hrun, hsusp, hfail, hmore, hmode, -, -, hfree⟩ := h
  have hgo : (s.sched.running.isSome || !s.sched.suspended.isEmpty || s.power.failing || s.sched.noMoreScans
      || decide (s.power.mode = .halt) || (s.sched.slotDone && scansFollow s)) = false := by
    have : (s.sched.slotDone && scansFollow s) = false := by rcases hfree with h | h <;> simp [h]
    simp [hrun, hsusp, hfail, hmore, hmode, this]
  simp only [imageSlotOp, hgo, hw, fitSlot, Bool.false_eq_true, if_false, true_or, if_true]
  rfl

/-- Refutes O33: until the first ACQUIRE a system input point reads 0 with Q stale, whatever a slot has written to it (R163, R197). -/
theorem not_imageSlotPerforms : ¬ Obligations.ImageSlotPerforms := by
  unfold Obligations.ImageSlotPerforms
  intro h
  have hidle : slotIdle sysPointWrite := by unfold slotIdle; decide
  have hslot := (h sysPointWrite 0 ⟨.spi, 0⟩ writingCmd [] 0xF000 ⟨1, 0⟩ ⟨0, 0, false⟩ ⟨0, 0, false, false⟩).2 hidle rfl
    (ringTakes_of_empty rfl 4)
  obtain ⟨t, ht, _, _, _, _, _, _, _, hval, _⟩ := hslot.2.1 (by decide) rfl
  have hrun : t = imageSlotOp (sysPointWrite.at 0) := (Host.Outcome.next.inj ht).symm
  have hread : (getItem t 0xF000).val = 0 := by
    rw [hrun, imageSlotOp_one (s := sysPointWrite.at 0) (w := .write ⟨.spi, 0⟩ [(0xF000, ⟨1, 0⟩)]) hidle rfl]
    have hfree : ([((0xF000 : Nat), (⟨1, 0⟩ : Tagged))].filter (fun x => !heldByForce
      (slotBegun (sysPointWrite.at 0) (.write ⟨.spi, 0⟩ [(0xF000, ⟨1, 0⟩)])) x.1)).map (·.1) = [0xF000] := by decide
    simp only [performSlot, hfree, touchedLines_sysPoint]
    decide
  exact absurd (hval.symm.trans hread) (by decide)

end Sys2Proof.Machine
end

section
/-!
PROOFS. IMAGE.WATCH, the pending set, PARAM.COMMIT and the moments of values (R128, R139, R141, R691, R695, R697, R698).
-/
namespace Sys2Proof.Machine

open Sys2Proof

/-! ### Values that take effect -/

theorem par_setPar (s : State) (pid v p : Nat) : par (setPar s pid v) p = if p = pid then v else par s p :=
  smGet_smSet ..

/-- A value without a rule of its own takes effect as the parameter's (R691). -/
theorem takeValue_plain {pid : Nat} (h : pid ∉ [0x0110, 0x1F01, 0x1F02]) (s : State) (v : Option Nat) :
    takeValue s pid v = setPar s pid (waitValue s pid v) := by
  simp only [List.mem_cons, List.not_mem_nil, or_false, not_or] at h
  obtain ⟨h1, h2, h3⟩ := h
  simp only [takeValue, h1, h2, h3, or_self, if_false]

/-- Values without rules of their own change nothing but the values in effect of their parameters. -/
theorem takeValues_plain (es : List (Nat × Option Nat)) (h : ∀ p ∈ es.map (·.1), p ∉ [0x0110, 0x1F01, 0x1F02]) (s : State) :
    ∃ m, es.foldl (fun s e => takeValue s e.1 e.2) s = { s with params := { s.params with eff := m } } ∧
      ∀ p, p ∉ es.map (·.1) → smGet paramDefault m p = par s p := by
  induction es generalizing s with
  | nil => exact ⟨s.params.eff, rfl, fun _ _ => rfl⟩
  | cons e es ih =>
    rw [List.map_cons, List.forall_mem_cons] at h
    obtain ⟨m, hm, hkeep⟩ := ih h.2 (setPar s e.1 (waitValue s e.1 e.2))
    refine ⟨m, ?_, fun p hp => ?_⟩
    · rw [List.foldl_cons, takeValue_plain h.1, hm]
      rfl
    · rw [List.map_cons, List.mem_cons, not_or] at hp
      rw [hkeep p hp.2, par_setPar, if_neg hp.1]

/-- The one value that waits for its moment takes effect (R691). -/
theorem takeValues_one {s : State} {k : Applies} {pid v : Nat} (hw : s.params.wait = [(k, pid, some v)])
    (h : pid ∉ [0x0110, 0x1F01, 0x1F02]) :
    takeValues s k = setPar { s with params := { s.params with wait := [] } } pid v := by
  have hnow : s.params.wait.filter (fun w => decide (w.1 = k)) = [(k, pid, some v)] := by rw [hw]; simp
  have hlater : s.params.wait.filter (fun w => decide (w.1 ≠ k)) = [] := by rw [hw]; simp
  simp only [takeValues, hnow, hlater, List.foldl_cons, List.foldl_nil, takeValue_plain h]
  rfl

/-- The SEAL values that wait take effect, the one committed last after the others (R691). -/
theorem takeSealValues_one {s : State} {pid v : Nat} (hw : s.params.wait = [(.seal, pid, some v)])
    (h : ∀ p ∈ pid :: (s.params.sealing ++ s.params.sealWait).map (·.1), p ∉ [0x0110, 0x1F01, 0x1F02]) :
    let t := takeSealValues s
    par t pid = v ∧ (∀ p, p ∉ pid :: (s.params.sealing ++ s.params.sealWait).map (·.1) → par t p = par s p) ∧
      t.params.wait = [] ∧ t.params.sealing = [] ∧ t.params.sealWait = [] ∧ { t with params := s.params } = s := by
  rw [List.forall_mem_cons] at h
  obtain ⟨m, hm, hkeep⟩ := takeValues_plain (s.params.sealing ++ s.params.sealWait) h.2
    { s with params := { s.params with sealWait := [], sealing := [] } }
  have hstep : takeSealValues s = setPar { s with params := { eff := m, wait := [], sealWait := [], sealing := [] } } pid v :=
    (congrArg (takeValues · .seal) hm).trans (takeValues_one hw h.1)
  rw [hstep]
  refine ⟨?_, fun p hp => ?_, rfl, rfl, rfl, rfl⟩
  · rw [par_setPar, if_pos rfl]
  · rw [List.mem_cons, not_or] at hp
    rw [par_setPar, if_neg hp.1]
    exact hkeep p hp.2

/-! ### IMAGE.WATCH and the pending set -/

/-- A row whose work is done in its command's last stage. -/
theorem works_last {s : State} {now : Tb} {c : CmdRef} {i : Instr} {post : Cmd → State → State → Prop} {f : State → State}
    (he : exec i s = runLast now c i s f)
    (h : ∀ x, ready s now c i x → lastStage x = true → post x (workState s now c x) (f (workState s now c x))) :
    works s now c i (fun x b t => lastStage x = true → post x b t) :=
  works_of (f := fun b x => if lastStage x then f b else b) he fun x hx hlast => by
    rw [if_pos hlast]
    exact h x hx hlast

section
variable {s : State} {now : Tb} {c : CmdRef}

theorem waits_waitFor {u : State} {x : Cmd} (h : findCmd u c = some x) : waits (waitFor u c) c := by
  have href := ref_of_findCmd h
  exact ⟨_, findCmd_updCmd_some h href, rfl⟩

theorem works_imageWatch (task space us : Nat) (addrs : List Nat) :
    works s now c (.imageWatch now c task space addrs us) (fun x b t => waits t c ∧
      t.sched.watches = b.sched.watches ++ [(c, task, addrs.map (itemKey space), x.arrival + usToTb us)] ∧
      { t with host := b.host, sched := b.sched } = b) := by
  refine works_of (Eq.refl (execImageWatch now c task space addrs us s)) fun x hx => ⟨?_, rfl, rfl⟩
  exact waits_waitFor (by exact findCmd_workState hx)

theorem imageWatchTimeout_ends {w : CmdRef × Nat × List Nat × Nat}
    (hw : s.sched.watches.find? (fun x => decide (x.1 = c)) = some w) (hlate : w.2.2.2 ≤ (s.at now).tb) :
    ∃ t, exec (.imageWatchTimeout now c) s = .next t ∧ endsDone (s.at now) t c (le 8 0 ++ le 2 0) ∧
      t.sched.watches = s.sched.watches.filter (fun y => decide (y.1 ≠ c)) := by
  have hw : (s.at now).sched.watches.find? (fun x => decide (x.1 = c)) = some w := hw
  refine ⟨_, rfl, ?_⟩
  simp only [watchExpired, hw, Nat.not_lt.mpr hlate, if_false]
  exact ⟨finishNow_endsDone (modSched (s.at now) _) c _, (congrArg (·.sched.watches) (hostRest_finishNow ..) :)⟩

theorem works_paramWrite (pid v : Nat) (z : Session) : works s now c (.paramWrite now c [(pid, v)]) (fun _ b t =>
    b.host.session = some z →
    let set_ := z.pending.filter (fun e => decide (e.1 ≠ pid)) ++ [(pid, v)]
    answers t c (le 2 set_.length) ∧ t.host.session = some { z with pending := set_ } ∧ t.params = b.params ∧
    t.pstore = b.pstore ∧ { t with host := b.host } = b) := by
  refine works_of (Eq.refl (execParamWrite now c [(pid, v)] s)) fun x hx hz => ?_
  intro set_
  have hc := findCmd_workState hx
  generalize workState s now c x = b at hc hz
  have hset : [(pid, v)].foldl putPending (pendingSet b) = set_ := by
    simp only [pendingSet, hz]
    rfl
  simp only [hset]
  refine ⟨done_answers (by exact hc) _, ?_, (congrArg State.params (exceptHost_done ..) :),
    (congrArg State.pstore (exceptHost_done ..) :), (exceptHost_iff ..).mpr (exceptHost_done ..)⟩
  rw [done, setResult_keeps (fun t => t.host.session) (fun _ _ => rfl)]
  show b.host.session.map _ = _
  rw [hz]
  rfl

/-! ### PARAM.COMMIT -/

/-- Once the outcome of PARAM.COMMIT stands the pending set is emptied (R695). -/
theorem commit_cleared {b u : State} {z : Session} (hz : b.host.session = some z) (hu : u.host.session = b.host.session)
    (hp : u.params.eff = b.params.eff) :
    ((afterRefusal u (.paramCommit 0 c)).host.session.map (·.pending) = some []) ∧
      (afterRefusal u (.paramCommit 0 c)).params.eff = b.params.eff := by
  refine ⟨?_, hp⟩
  show (u.host.session.map _).map _ = _
  rw [hu, hz]
  rfl

/-- A commit that is refused leaves the store and the values in effect. -/
theorem commit_refused {b : State} {x : Cmd} {z : Session} (hc : findCmd b c = some x) (hz : b.host.session = some z)
    (status reason : BitVec 8) :
    let t := afterRefusal (setResult b c status reason 0 []) (.paramCommit 0 c)
    (t.host.session.map (·.pending) = some []) ∧ t.params.eff = b.params.eff ∧
      refuses t c status reason ∧ t.pstore = b.pstore ∧ t.params = b.params := by
  have hparams : (setResult b c status reason 0 []).params = b.params := setResult_keeps State.params (fun _ _ => rfl) ..
  obtain ⟨hses, heff⟩ := commit_cleared (c := c) hz
    (setResult_keeps (fun t => t.host.session) (fun _ _ => rfl) b c status reason 0 []) (congrArg Params.eff hparams)
  exact ⟨hses, heff, ⟨_, findResult_setResult hc .., rfl, rfl, rfl⟩, setResult_keeps State.pstore (fun _ _ => rfl) .., hparams⟩

/-- A commit whose group is written: its values wait, its answer counts them (R691, R698). -/
theorem commit_written {b u : State} {x : Cmd} {z : Session} (hc : findCmd b c = some x) (hz : b.host.session = some z)
    (hu : { u with pstore := b.pstore, store := b.store, twin := b.twin } = b) (es : List (Nat × Nat)) :
    let w := addWaits u (es.map (fun e => (e.1, some e.2)))
    let t := afterRefusal (done w c (le 2 es.length ++ [BitVec.ofNat 8 (commitFlags w es)])) (.paramCommit 0 c)
    (t.host.session.map (·.pending) = some []) ∧ t.params.eff = b.params.eff ∧ t.pstore = u.pstore ∧
      answers t c (le 2 es.length ++ [BitVec.ofNat 8 (commitFlags b es)]) := by
  intro w
  have hcw : findCmd w c = some x := (congrArg (fun s => findCmd s c) hu :).trans hc
  have hsw : w.host.session = b.host.session := (congrArg (·.host.session) hu :)
  have hflags : commitFlags w es = commitFlags b es := by
    have hpstate : w.pstate = b.pstate := (congrArg State.pstate hu :)
    simp only [commitFlags, hpstate]
  have heff : w.params.eff = b.params.eff := (congrArg (·.params.eff) hu :)
  rw [hflags]
  obtain ⟨hses, hpar⟩ := commit_cleared (c := c) hz
    ((setResult_keeps (fun t => t.host.session) (fun _ _ => rfl) w c stDone 0 0 _).trans hsw)
    ((setResult_keeps (·.params.eff) (fun _ _ => rfl) w c stDone 0 0 _).trans heff)
  exact ⟨hses, hpar, setResult_keeps State.pstore (fun _ _ => rfl) w c stDone 0 0 _, done_answers hcw _⟩

theorem works_paramCommit (z : Session) : works s now c (.paramCommit now c) (fun x b t =>
    lastStage x = true → b.host.session = some z →
    let policy := z.pending.any (fun e => decide (e.1 = 0x2010 ∧ e.2 ≠ par b 0x2010)) && !x.franked
    let ok := !policy && commitRules b z.pending && (commitAdmission b z.pending).isNone
    let ws := commitWrites b
    (t.host.session.map (·.pending) = some []) ∧ t.params.eff = b.params.eff ∧
    (policy = true → refuses t c stAuth 0x01 ∧ t.pstore = b.pstore ∧ t.params = b.params) ∧
    (policy = false → ok = false → refuses t c stState 0x01 ∧ t.pstore = b.pstore ∧ t.params = b.params) ∧
    (ok = true → ws ≠ [] → energyFor b (eGroup (groupPages ws)) = false →
      refuses t c stState 0x06 ∧ t.pstore = b.pstore ∧ t.params = b.params) ∧
    (ok = true → ws ≠ [] → energyFor b (eGroup (groupPages ws)) = true → t.pstore = writeGroup b.pstore ws ∧
      answers t c (le 2 z.pending.length ++ [BitVec.ofNat 8 (commitFlags b z.pending)]))) := by
  refine works_last (Eq.refl (execParamCommit now c s)) fun x hx _ hz => ?_
  have hc := findCmd_workState hx
  generalize workState s now c x = b at hc hz
  intro policy ok ws
  have hset : pendingSet b = z.pending := by simp only [pendingSet, hz]; rfl
  have hpolicy : (z.pending.any (fun e => decide (e.1 = 0x2010 ∧ e.2 ≠ par b 0x2010)) &&
      !(findCmd b c).any (·.franked)) = policy := by rw [hc]; rfl
  have hrules : (!commitRules b z.pending || (commitAdmission b z.pending).isSome) = !(commitRules b z.pending &&
      (commitAdmission b z.pending).isNone) := by
    cases commitRules b z.pending <;> cases commitAdmission b z.pending <;> rfl
  simp only [commitOp, hset, hpolicy, hrules]
  cases hpol : policy with
  | true =>
    obtain ⟨hses, heff, href, hps, hpar⟩ := commit_refused hc hz stAuth 0x01
    have hok : ok = false := by simp [ok, hpol]
    simp only [if_true, hok]
    exact ⟨hses, heff, fun _ => ⟨href, hps, hpar⟩, nofun, nofun, nofun⟩
  | false =>
    have hok : (commitRules b z.pending && (commitAdmission b z.pending).isNone) = ok := by simp [ok, hpol]
    rw [hok]
    clear_value ok
    cases ok with
    | false =>
      obtain ⟨hses, heff, href, hps, hpar⟩ := commit_refused hc hz stState 0x01
      exact ⟨hses, heff, nofun, fun _ _ => ⟨href, hps, hpar⟩, nofun, nofun⟩
    | true =>
      simp only [Bool.not_true, Bool.false_eq_true, if_false]
      have hws : commitWrites b = ws := rfl
      clear_value ws
      rw [hws]
      by_cases hnil : ws = []
      · obtain ⟨hses, heff, -, -⟩ := commit_written (u := b) hc hz rfl z.pending
        simp only [hnil, List.isEmpty_nil, if_true]
        exact ⟨hses, heff, nofun, nofun, fun _ h => (h rfl).elim, fun _ h => (h rfl).elim⟩
      · have hne : ws.isEmpty = false := by simpa using hnil
        simp only [hne, Bool.false_eq_true, if_false]
        cases henergy : energyFor b (eGroup (groupPages ws)) with
        | true =>
          obtain ⟨u, hu, hps, hrest⟩ := groupWrite_written henergy
          obtain ⟨hses, heff, hpst, hans⟩ := commit_written hc hz hrest z.pending
          simp only [hu]
          exact ⟨hses, heff, nofun, nofun, nofun, fun _ _ _ => ⟨hpst.trans hps, hans⟩⟩
        | false =>
          obtain ⟨hses, heff, href, hps, hpar⟩ := commit_refused hc hz stState 0x06
          simp only [groupWrite_lacks henergy]
          exact ⟨hses, heff, nofun, nofun, fun _ _ _ => ⟨href, hps, hpar⟩, nofun⟩

end

/-- Settles O34: each command by its work, each moment by the values that wait for it. -/
theorem watchAndParameters : Obligations.WatchAndParameters := by
  unfold Obligations.WatchAndParameters
  intro s now c task space us pid v addrs z n
  refine ⟨works_imageWatch task space us addrs, fun w hw => ⟨fun hearly => congrArg Host.Outcome.next ?_,
    imageWatchTimeout_ends hw⟩, works_paramWrite pid v z, works_paramCommit z, rfl, fun hw hnone hpid =>
    ⟨_, congrArg Host.Outcome.next ((if_neg ?_).trans (takeValues_one (s := n) hw hpid)), ?_, fun p hp => ?_, rfl, rfl⟩,
    fun hw hstop hpids => ⟨_, congrArg Host.Outcome.next (if_neg fun h => hstop h.1), takeSealValues_one (s := n) hw hpids⟩,
    fun hrun hscan => congrArg Host.Outcome.next (if_pos ⟨hrun, hscan.imp_right fun ⟨r, hr⟩ => ?_⟩)⟩
  · have hw : n.sched.watches.find? (fun x => decide (x.1 = c)) = some w := hw
    show watchExpired n c = n
    simp only [watchExpired, hw, hearly, if_true]
  · show ¬s.host.cmds.any (fun x => decide (x.opcode = 0x0303)) = true
    simpa using hnone
  · rw [par_setPar, if_pos rfl]
  · rw [par_setPar, if_neg hp]
    rfl
  · have hr : n.sched.running = some r := hr
    rw [hr]
    rfl

end Sys2Proof.Machine
end

section
/-!
PROOFS. The logbook's commands and housekeeping (R573, R578-R584).
-/
namespace Sys2Proof.Machine

open Sys2Proof

/-! ### What writing a record leaves -/

/-- The ring gives up its oldest records only: what is available begins no earlier, and the last record stays. -/
theorem dropOldest_keeps (k : Nat) (l : Logbook) : (dropOldest k l).next = l.next ∧ l.oldest ≤ (dropOldest k l).oldest ∧
    (dropOldest k l).overwrite = l.overwrite := by
  induction k generalizing l with
  | zero => exact ⟨rfl, Nat.le_refl _, rfl⟩
  | succ k ih =>
    rw [dropOldest]
    split
    · exact ⟨rfl, Nat.le_refl _, rfl⟩
    · cases l.recs with
      | nil => exact ⟨rfl, Nat.le_refl _, rfl⟩
      | cons r rest =>
        obtain ⟨hn, ho, hw⟩ := ih { l with recs := rest, oldest := Nat.max l.oldest (r.seq + 1) }
        exact ⟨hn, Nat.le_trans (Nat.le_max_left ..) ho, hw⟩

theorem dropOldest_last (k : Nat) {l : Logbook} {r : LogRec} (hlast : l.recs.getLast? = some r)
    (hfits : r.length + 4 ≤ 16777216) : (dropOldest k l).recs.getLast? = some r := by
  induction k generalizing l with
  | zero => exact hlast
  | succ k ih =>
    rw [dropOldest]
    split
    · exact hlast
    next hfull =>
      match hrecs : l.recs with
      | [] => exact hlast
      | [x] =>
        rw [hrecs, List.getLast?_singleton, Option.some_inj] at hlast
        rw [Logbook.bytesUsed, hrecs, hlast] at hfull
        exact absurd (by simpa using hfits) hfull
      | x :: y :: rest => exact ih (by rw [hrecs, List.getLast?_cons_cons] at hlast; exact hlast)

/-- Writing a record changes the logbook alone, and neither brings back a record nor drops an order to overwrite. -/
theorem logRaw_keeps (s : State) (type sev src : Nat) (body : List Byte) :
    ∃ l, (logRaw s type sev src body).2 = { s with log := l } ∧ s.log.oldest ≤ l.oldest ∧ l.overwrite = s.log.overwrite := by
  unfold logRaw
  simp only
  split
  · exact ⟨s.log, rfl, Nat.le_refl _, rfl⟩
  split
  · exact ⟨_, rfl, Nat.le_refl _, rfl⟩
  · obtain ⟨-, ho, hw⟩ := dropOldest_keeps 1024 { s.log with
      recs := s.log.recs ++ [{ seq := s.log.next, type, sev, src, opsec := s.power.opsec % 0x100000000,
                               power := s.power.powerCycles, flags := rtcFlags s, body }]
      next := s.log.next + 1
      credits := if creditClass type sev = 1 then s.log.credits - 1 else s.log.credits
      alarmCredits := if creditClass type sev = 2 then s.log.alarmCredits - 1 else s.log.alarmCredits }
    exact ⟨_, rfl, ho, hw⟩

/-- The last record of a logbook is one with its sequence number, type and body. -/
def endsWith (l : Logbook) (seq type : Nat) (body : List Byte) : Prop :=
  ∃ r, l.recs.getLast? = some r ∧ r.seq = seq ∧ r.type = type ∧ r.body = body

/-- A record that draws a logbook credit is written when a credit and a sequence number are left (R579, R580). -/
theorem logRaw_writes {s : State} {type sev src : Nat} {body : List Byte} (hcls : creditClass type sev = 1)
    (hnext : s.log.next < 0x100000000) (hcr : 0 < s.log.credits) (hbody : body.length ≤ 2048) :
    (logRaw s type sev src body).1 = 0 ∧ (logRaw s type sev src body).2.log.next = s.log.next + 1 ∧
      endsWith (logRaw s type sev src body).2.log s.log.next type body := by
  have hcr : ¬ s.log.credits = 0 := Nat.ne_of_gt hcr
  simp only [logRaw, Nat.not_le.mpr hnext, hcls, hcr, and_false, if_false, OfNat.one_ne_ofNat, false_and, or_self, if_true]
  refine ⟨trivial, (dropOldest_keeps ..).1, _, dropOldest_last _ List.getLast?_concat ?_, rfl, rfl, rfl⟩
  show cdiv (16 + body.length) 4 * 4 + 4 ≤ 16777216
  unfold cdiv
  omega

/-- Without a credit the record is counted, not written (R579). -/
theorem logRaw_suppressed {s : State} {type sev src : Nat} {body : List Byte} (hcls : creditClass type sev = 1)
    (hnext : s.log.next < 0x100000000) (hcr : s.log.credits = 0) :
    logRaw s type sev src body = (1, { s with log := suppress s.log type sev src }) := by
  simp only [logRaw, Nat.not_le.mpr hnext, hcls, hcr, and_self, if_false, if_true, true_or]

section
variable {s : State} {now : Tb} {c : CmdRef}

theorem works_logClear (last : Nat) : works s now c (.logClear now c last) (fun x b t => lastStage x = true →
    answers t c (le 4 b.log.next) ∧ { t with host := b.host, log := b.log } = b ∧ b.log.oldest ≤ t.log.oldest ∧
    (b.log.oldest ≤ last → t.log.overwrite = some last ∧ ∀ r ∈ availableFrom t.log 0, last < r.seq) ∧
    (last < b.log.oldest → t.log.overwrite = b.log.overwrite)) := by
  refine works_last (Eq.refl (execLogClear now c last s)) fun x hx _ => ?_
  have hc := findCmd_workState hx
  generalize workState s now c x = b at hc
  obtain ⟨l, hl, hold, hover⟩ := logRaw_keeps b 0x02 sevInfo 0x1D (le 8 b.tb ++ le 1 (frankSlotOf b c) ++ le 1 (portCode c.port)
    ++ [0, 0] ++ le 4 b.log.oldest ++ leInt 4 (if last < b.log.oldest then (b.log.oldest : Int) - 1 else last))
  simp only [logClearOp, hl, modLog]
  have hlog : ∀ (u : State) p, (done u c p).log = u.log := fun u p => setResult_keeps State.log (fun _ _ => rfl) ..
  refine ⟨done_answers (by exact hc) _, ?_, ?_, fun h => ?_, fun h => ?_⟩
  · exact congrArg (fun t : State => { t with log := b.log }) ((exceptHost_iff ..).mpr (exceptHost_done { b with log := _ } c _))
  · rw [hlog]
    exact Nat.le_trans hold (Nat.le_max_left ..)
  · simp only [hlog, Nat.not_lt.mpr h, if_false]
    refine ⟨trivial, fun r hr => ?_⟩
    obtain ⟨-, hfrom⟩ := List.mem_filter.mp hr
    exact Nat.lt_of_lt_of_le (Nat.lt_succ_self last) (Nat.le_trans (Nat.le_max_right ..) (decide_eq_true_eq.mp hfrom).1)
  · simp only [hlog, h, if_true, hover]

theorem works_logMark (code : Nat) (data : List Byte) : works s now c (.logMark now c code data) (fun _ b t =>
    { t with host := b.host, log := b.log } = b ∧
    (b.log.next < 2 ^ 32 → 0 < b.log.credits → data.length ≤ 1024 → answers t c (le 4 b.log.next ++ [0, 0, 0, 0]) ∧
      t.log.next = b.log.next + 1 ∧ ∃ r, t.log.recs.getLast? = some r ∧ r.seq = b.log.next ∧ r.type = 4 ∧
        r.body = le 8 b.tb ++ le 2 code ++ le 1 (portCode c.port) ++ le 1 (frankSlotOf b c) ++ data) ∧
    (b.log.next < 2 ^ 32 → b.log.credits = 0 → answers t c [0, 0, 0, 0, 1, 0, 0, 0] ∧ t.log.recs = b.log.recs)) := by
  refine works_of (Eq.refl (execLogMark now c code data s)) fun x hx => ?_
  have hc := findCmd_workState hx
  generalize workState s now c x = b at hc
  have hlog : ∀ (u : State) p, (done u c p).log = u.log := fun u p => setResult_keeps State.log (fun _ _ => rfl) ..
  obtain ⟨l, hl, -, -⟩ := logRaw_keeps b 0x04 sevNotice 0x1E
    (le 8 b.tb ++ le 2 code ++ le 1 (portCode c.port) ++ le 1 (frankSlotOf b c) ++ data)
  refine ⟨?_, fun hnext hcr hlen => ?_, fun hnext hcr => ?_⟩
  · simp only [logMarkOp, hl]
    exact congrArg (fun t : State => { t with log := b.log }) ((exceptHost_iff ..).mpr (exceptHost_done { b with log := l } c _))
  · obtain ⟨hcode, hn, hr⟩ := logRaw_writes (s := b) (type := 0x04) (sev := sevNotice) (src := 0x1E)
      (body := le 8 b.tb ++ le 2 code ++ le 1 (portCode c.port) ++ le 1 (frankSlotOf b c) ++ data) rfl hnext hcr
      (by simp only [List.length_append, length_le]; omega)
    simp only [logMarkOp, hcode, if_true, hlog]
    refine ⟨?_, hn, hr⟩
    rw [hl]
    exact done_answers (by exact hc) _
  · simp only [logMarkOp, logRaw_suppressed (type := 0x04) (sev := sevNotice) (src := 0x1E) rfl hnext hcr, hlog]
    have hp : le 4 (if 1 = 0 then b.log.next else 0) ++ [BitVec.ofNat 8 1, 0, 0, 0] = [0, 0, 0, 0, 1, 0, 0, 0] := by
      rw [if_neg Nat.one_ne_zero]
      decide
    rw [hp]
    exact ⟨done_answers (by exact hc) _, rfl⟩

end

/-- Settles O51, by what a record that is written or counted leaves of the logbook. -/
theorem logbookCommands : Obligations.LogbookCommands := by
  intro s now c last code m data n
  refine ⟨works_logClear last, works_logMark code data, fun h => ?_, fun hm hd => ?_, fun h => ?_, fun hs hat hd => ?_⟩
  · show Host.Outcome.next _ = _
    rcases h with h | h
    · simp only [show (s.at now).log.overwrite = none from h]
      rfl
    · simp only [show dieRuns (s.at now) = false from h]
      cases (s.at now).log.overwrite <;> rfl
  · show Host.Outcome.next _ = _
    simp only [show (s.at now).log.overwrite = some m from hm, show dieRuns (s.at now) = true from hd, if_true]
    rfl
  · refine congrArg Host.Outcome.next (if_pos ?_)
    rw [Bool.or_eq_true, Bool.or_eq_true, List.isEmpty_iff, decide_eq_true_eq, Bool.not_eq_true', or_assoc]
    exact h
  · obtain ⟨l, hl, -, -⟩ := logRaw_keeps n 0x03 sevInfo 0x1D (suppressedBody n)
    have hgo : ¬ (s.log.suppressed.isEmpty || decide (s.power.opsec < s.log.suppressedAt + 16) || !dieRuns s) = true := by
      simpa [hd] using ⟨hs, hat⟩
    refine ⟨_, congrArg Host.Outcome.next (if_neg hgo), rfl, ?_, ?_⟩ <;> rw [modLog, hl] <;> rfl

end Sys2Proof.Machine
end

section
/-!
PROOFS. What an analogue island does by itself (R438, R450, R452, R457-R461).
-/
namespace Sys2Proof.Machine

open Sys2Proof

/-! ### One island -/

section
variable {s : State} {c j : Nat}

theorem island_modAna (hc : c < 8) (s : State) (f : Island → Island) : island (modAna s c f) c = f (island s c) := by
  rw [island, modAna, vget_vmod, if_pos ⟨rfl, hc⟩, island]

theorem island_modAna_ne (h : j ≠ c) (s : State) (f : Island → Island) : island (modAna s c f) j = island s j := by
  rw [island, modAna, vget_vmod, if_neg fun hj => h hj.1.symm, island]

/-- What an island becomes depends on what it is. -/
theorem modAna_congr {f g : Island → Island} (h : f (island s c) = g (island s c)) : modAna s c f = modAna s c g := by
  unfold modAna vmod
  split
  next hc =>
    rw [island, vget, dif_pos hc] at h
    rw [h]
  next => rfl

theorem modAna_modAna (s : State) (c : Nat) (f g : Island → Island) :
    modAna (modAna s c f) c g = modAna s c (fun a => g (f a)) := by
  unfold modAna vmod
  by_cases hc : c < 8
  · simp only [hc, dif_pos, Vector.getElem_set_self, Vector.set_set]
  · simp only [hc, dif_neg, not_false_eq_true]

/-- A change of one island that is put on record leaves the other islands and everything else. -/
theorem logged_modAna (hc : c < 8) {f : Island → Island} {b : Island} (h : f (island s c) = b)
    (type sev src subject code : Nat) (vals : List Byte) :
    let t := log (modAna s c f) type sev src subject code vals
    island t c = b ∧ (∀ j, j ≠ c → island t j = island s j) ∧ { t with ana := s.ana, log := s.log } = s := by
  obtain ⟨l, hl⟩ := log_rest (modAna s c f) type sev src subject code vals
  intro t
  have ht : t = { modAna s c f with log := l } := hl
  rw [ht]
  exact ⟨(island_modAna hc s f).trans h, fun j hj => island_modAna_ne hj s f, rfl⟩

/-! ### Output updates -/

theorem outputUpdate_source (hb : (island s c).blendLeft = 0) (hm : (island s c).mode = .source) :
    outputUpdate s c = modAna s c (fun a => nextCurrent s c { a with blendLeft := 0 }) := by
  refine modAna_congr ?_
  simp only [hb, hm, true_or, if_true, reduceCtorEq, false_and, or_self, if_false]

theorem moveBy_short {step : Nat} {target v : Int} (h : v + step < target) (hstep : (0 : Int) < step) :
    moveBy step target v = v + step := by
  rw [moveBy, if_neg (by omega), if_pos (by omega), if_neg (by omega)]

theorem moveBy_reaches {step : Nat} {target v : Int} (hle : v ≤ target) (h : target ≤ v + step) :
    moveBy step target v = target := by
  unfold moveBy
  simp only [hle, if_true, show target - v ≤ step by omega, ite_self]

theorem moveTarget_source {a : Island} (hm : a.mode = .source) : moveTarget s c a = a.setPoint := by
  rw [moveTarget, if_neg (by simp [hm])]

/-- A source that nothing holds moves its current by ANA_RAMP or along its segment (R450). -/
theorem nextCurrent_free {a : Island} (hm : a.mode = .source) (hpass : a.pass = false) (hhold : a.hold = false)
    (hcomply : a.comply = false) (hcross : a.crossing = false) (hsafe : a.safeMove = false) :
    nextCurrent s c a =
      if anaP s c 0xB = 0 then
        { a with current := moveBy (anaP s c 0xC * updPeriod s c) a.setPoint a.current, safeMove := false }
      else if anaP s c 0xD ≤ a.segAt + updPeriod s c then
        { a with current := a.setPoint, segAt := anaP s c 0xD, segFrom := a.setPoint }
      else { a with
        segAt := a.segAt + updPeriod s c,
        current := a.segFrom + (a.setPoint - a.segFrom) * ((a.segAt + updPeriod s c : Nat) : Int) / anaP s c 0xD } := by
  simp only [nextCurrent, moveTarget_source hm, hpass, hhold, hcomply, hcross, hsafe, Bool.false_eq_true, false_and, or_self,
    if_false, false_or, ne_eq, not_true_eq_false, or_false, Bool.false_and]

end

/-! ### Headroom (R460) -/

theorem headroomOp_enters {s : State} {c : Nat} {v : Int} (hm : isOutputMode (island s c).mode = true)
    (hc : (island s c).comply = false) (hv : v < 500) :
    headroomOp s c v true = log (modAna s c (fun a => { a with
      headroomMv := v, comply := true, current := min a.meas a.current })) 0x70 sevWarning 0x06 c 2 [] := by
  simp only [headroomOp, hm, hc, not_true_eq_false, if_false, if_true, Bool.false_eq_true, Int.not_le.mpr hv, or_self,
    modAna_modAna]
  refine congrArg (fun t => log t 0x70 sevWarning 0x06 c 2 []) (modAna_congr ?_)
  have hmin : (if (island s c).meas < (island s c).current then (island s c).meas else (island s c).current) =
      min (island s c).meas (island s c).current := by
    split <;> omega
  simp only [hmin, hc, Bool.false_and, Bool.or_false]

theorem headroomOp_clears {s : State} {c : Nat} {v : Int} (hm : isOutputMode (island s c).mode = true)
    (hc : (island s c).comply = true) (hv : 1000 ≤ v) (hat : (island s c).current = moveTarget s c (island s c)) :
    headroomOp s c v false = log (modAna s c (fun a => { a with headroomMv := v, safeMove := true, comply := false }))
      0x71 sevNotice 0x06 c 2 [] := by
  have hv5 : (500 : Int) ≤ v := by omega
  simp only [headroomOp, hm, not_true_eq_false, Bool.false_eq_true, if_false]
  refine (if_pos ⟨hc, hv, hat⟩).trans ?_
  rw [modAna_modAna]
  refine congrArg (fun t => log t 0x71 sevNotice 0x06 c 2 []) (modAna_congr ?_)
  simp only [hc, hv5, decide_true, Bool.and_true, Bool.or_true]

section
variable {s : State} {now : Tb} {ch : Fin 8}

theorem anaRow_off {op : State → State} (hoff : anaOn s ch.val = false) :
    (if anaOn (s.at now) ch.val then op (s.at now) else s.at now) = s.at now :=
  if_neg (by rw [show anaOn (s.at now) ch.val = false from hoff]; exact Bool.false_ne_true)

theorem anaRow_on {op : State → State} (hon : anaOn s ch.val = true) :
    (if anaOn (s.at now) ch.val then op (s.at now) else s.at now) = op (s.at now) := if_pos hon

theorem anaOutputUpdate_moves {f : Island → Island} (hon : anaOn s ch.val = true) (hb : (island s ch.val).blendLeft = 0)
    (hm : (island s ch.val).mode = .source)
    (h : nextCurrent (s.at now) ch.val { island s ch.val with blendLeft := 0 } = f { island s ch.val with blendLeft := 0 }) :
    exec (.anaOutputUpdate now ch) s = .next (modAna (s.at now) ch.val (fun a => f { a with blendLeft := 0 })) := by
  refine congrArg Host.Outcome.next ((anaRow_on (op := fun s => outputUpdate s ch.val) hon).trans ?_)
  rw [outputUpdate_source (by exact hb) (by exact hm)]
  exact modAna_congr h

/-! ### Temperature, compliance, mode change, stage failure -/

theorem islandTemperature_sameBand {v : Int} (hon : anaOn s ch.val = true)
    (h : bandStep (anaBounds s) (island s ch.val).band v = (island s ch.val).band) :
    exec (.islandTemperatureSample now ch v) s = .next (modAna (s.at now) ch.val (fun a => { a with temp := v })) :=
  congrArg Host.Outcome.next ((anaRow_on (op := fun s => temperatureOp s ch.val v) hon).trans (if_pos h))

theorem islandTemperature_otherBand {v : Int} (hon : anaOn s ch.val = true)
    (h : bandStep (anaBounds s) (island s ch.val).band v ≠ (island s ch.val).band) (hstep : (island s ch.val).step = none) :
    exec (.islandTemperatureSample now ch v) s = .next (modAna (s.at now) ch.val (fun a => { a with
      temp := v, band := bandStep (anaBounds s) (island s ch.val).band v, blendLeft := 256, measLeft := 256 })) := by
  refine congrArg Host.Outcome.next ((anaRow_on (op := fun s => temperatureOp s ch.val v) hon).trans ?_)
  have hnone : ¬ ((island (s.at now) ch.val).step.isSome = true ∧ ¬ (island (s.at now) ch.val).failOver = true) := by
    rw [show (island (s.at now) ch.val).step = none from hstep]
    exact fun hs => Bool.false_ne_true hs.1
  rw [temperatureOp, if_neg (by exact h)]
  exact (if_neg hnone).trans (modAna_modAna ..)

theorem loopOpen_logs {yes : Bool} (hon : anaOn s ch.val = true) (h : (island s ch.val).open_ ≠ yes) :
    ∃ t, exec (.loopOpen now ch yes) s = .next t ∧ island t ch.val = { island s ch.val with open_ := yes } ∧
      (∀ j, j ≠ ch.val → island t j = island s j) ∧ { t with ana := s.ana, log := s.log } = s.at now := by
  refine ⟨_, congrArg Host.Outcome.next (if_neg ?_), logged_modAna (s := s.at now) ch.isLt rfl ..⟩
  rw [show anaOn (s.at now) ch.val = true from hon, Bool.not_true, Bool.false_or, decide_eq_true_eq]
  exact h

theorem complianceLack_enters {v : Int} (hon : anaOn s ch.val = true) (hm : isOutputMode (island s ch.val).mode = true)
    (hc : (island s ch.val).comply = false) (hv : v < 500) :
    ∃ t, exec (.complianceLack now ch v true) s = .next t ∧ island t ch.val = { island s ch.val with
        headroomMv := v, comply := true, current := min (island s ch.val).meas (island s ch.val).current } ∧
      (∀ j, j ≠ ch.val → island t j = island s j) ∧ { t with ana := s.ana, log := s.log } = s.at now := by
  refine ⟨_, congrArg Host.Outcome.next ((anaRow_on (op := fun s => headroomOp s ch.val v true) hon).trans
    (headroomOp_enters (by exact hm) (by exact hc) hv)), logged_modAna (s := s.at now) ch.isLt rfl ..⟩

theorem complianceLack_clears {v : Int} (hon : anaOn s ch.val = true) (hm : isOutputMode (island s ch.val).mode = true)
    (hc : (island s ch.val).comply = true) (hv : 1000 ≤ v)
    (hat : (island s ch.val).current = moveTarget s ch.val (island s ch.val)) :
    ∃ t, exec (.complianceLack now ch v false) s = .next t ∧
      island t ch.val = { island s ch.val with headroomMv := v, safeMove := true, comply := false } ∧
      (∀ j, j ≠ ch.val → island t j = island s j) ∧ { t with ana := s.ana, log := s.log } = s.at now := by
  refine ⟨_, congrArg Host.Outcome.next ((anaRow_on (op := fun s => headroomOp s ch.val v false) hon).trans
    (headroomOp_clears (by exact hm) (by exact hc) hv (by exact hat))), logged_modAna (s := s.at now) ch.isLt rfl ..⟩

theorem modeChangeComplete_switches (hon : anaOn s ch.val = true) (hm : (island s ch.val).mode = .changing)
    (hcross : (island s ch.val).crossing = false) (hsafe : s.field.safe = none) (hrole : s.twin.role ≠ .watch) :
    let m := (island s ch.val).nextMode
    exec (.modeChangeComplete now ch) s = .next (modAna (s.at now) ch.val (fun a => { a with
      mode := m, current := floorCurrent m, setPoint := floorCurrent m, segFrom := floorCurrent m, segAt := 0,
      hold := false, safeMove := false, pass := false, sampled := false, open_ := false, comply := false,
      clamped := false })) := by
  intro m
  refine congrArg Host.Outcome.next ((anaRow_on (op := fun s => modeChanged s ch.val) hon).trans ?_)
  have hgo : ¬ ((island (s.at now) ch.val).mode ≠ .changing ∨ (island (s.at now) ch.val).crossing = true) := by
    rw [show (island (s.at now) ch.val).mode = .changing from hm, show (island (s.at now) ch.val).crossing = false from hcross]
    simp
  rw [modeChanged, if_neg hgo]
  refine if_neg ?_
  show ¬ (s.field.safe.isSome = true ∨ s.twin.role = .watch)
  rw [hsafe]
  simpa using hrole

/-! ### Outcomes that nothing waits for -/

end

theorem trimResult_none {s : State} {c : Nat} (h : (island s c).trimRef = none) (k : Nat) : trimResult s c k = s := by
  simp only [trimResult, h]

theorem relayOutcome_none {s : State} {c : Nat} (h : (island s c).relayRef = none) (k : Nat) : relayOutcome s c k = s := by
  simp only [relayOutcome, h]

section
variable {s : State} {now : Tb} {ch : Fin 8}

theorem activeStageFailure_idle (h : isOutputMode (island s ch.val).mode = false ∨ (island s ch.val).open_ = true ∨
    (island s ch.val).failOver = true ∨ (island s ch.val).step = some 5 ∨ (island s ch.val).step = some 6) :
    exec (.activeStageFailure now ch) s = .next (s.at now) := by
  refine congrArg Host.Outcome.next ?_
  split
  · exact if_pos (by rw [Bool.not_eq_true]; exact h)
  · rfl

/-- An active stage that fails while its loop may be handed over. -/
def stageMayFail (a : Island) : Prop :=
  isOutputMode a.mode = true ∧ a.open_ = false ∧ a.failOver = false ∧ a.step ≠ some 5 ∧ a.step ≠ some 6

theorem stageFailOp_goes (hon : anaOn s ch.val = true) (h : stageMayFail (island s ch.val)) :
    exec (.activeStageFailure now ch) s = .next (
      if stageFault (island s ch.val) (!(island s ch.val).stageB) then setChFault (s.at now) ch.val true
      else tryStep4 (modAna (relayOutcome (trimResult (s.at now) ch.val 2) ch.val 2) ch.val (fun a => { a with
        step := some 3, calReady := true, failOver := true })) ch.val) := by
  obtain ⟨hm, hopen, hfail, h5, h6⟩ := h
  refine congrArg Host.Outcome.next ((anaRow_on (op := fun s => stageFailOp s ch.val) hon).trans (if_neg ?_))
  show ¬ (¬ isOutputMode (island s ch.val).mode = true ∨ (island s ch.val).open_ = true ∨ (island s ch.val).failOver = true ∨
    (island s ch.val).step = some 5 ∨ (island s ch.val).step = some 6)
  simp only [hm, hopen, hfail, h5, h6, not_true_eq_false, Bool.false_eq_true, or_self, not_false_eq_true]

theorem activeStageFailure_channel (hon : anaOn s ch.val = true) (h : stageMayFail (island s ch.val))
    (hf : stageFault (island s ch.val) (!(island s ch.val).stageB) = true) (hch : (island s ch.val).chFault = false) :
    ∃ t, exec (.activeStageFailure now ch) s = .next t ∧ island t ch.val = { island s ch.val with chFault := true } ∧
      (∀ j, j ≠ ch.val → island t j = island s j) ∧ { t with ana := s.ana, log := s.log } = s.at now := by
  refine ⟨_, stageFailOp_goes hon h, ?_⟩
  rw [if_pos hf, setChFault, if_neg (by rw [show (island (s.at now) ch.val).chFault = false from hch]; exact Bool.false_ne_true)]
  exact logged_modAna (s := s.at now) ch.isLt rfl ..

theorem activeStageFailure_starts (hon : anaOn s ch.val = true) (h : stageMayFail (island s ch.val))
    (hf : stageFault (island s ch.val) (!(island s ch.val).stageB) = false) (ht : (island s ch.val).trimRef = none)
    (hr : (island s ch.val).relayRef = none) :
    exec (.activeStageFailure now ch) s = .next (tryStep4 (modAna (s.at now) ch.val (fun a => { a with
      step := some 3, calReady := true, failOver := true })) ch.val) := by
  rw [stageFailOp_goes hon h, if_neg (by rw [hf]; exact Bool.false_ne_true), trimResult_none (by exact ht),
    relayOutcome_none (by exact hr)]

end

/-- Settles O42, row by row; every change is one of the island's own record. -/
theorem analogueIsland : Obligations.AnalogueIsland := by
  intro s now ch v yes n c a becomes logs upd step at_ moved
  refine ⟨fun hoff i hi => ?_, fun hon => ⟨fun hb hm => ⟨fun hp => ?_, fun hp hh => ?_, fun hp hh hcm hcr hsf => ?_⟩, ?_, ?_, ?_,
    loopOpen_logs hon, complianceLack_enters hon, fun hm hc hv hat => complianceLack_clears hon hm hc hv hat, ?_,
    modeChangeComplete_switches hon, activeStageFailure_idle, fun hm ho hf h5 h6 => ?_⟩⟩
  · rcases hi with rfl | rfl | rfl | rfl | rfl | rfl | rfl
    · exact congrArg Host.Outcome.next (anaRow_off (op := fun s => outputUpdate s ch.val) hoff)
    · exact congrArg Host.Outcome.next (anaRow_off (op := fun s => sampleOp s ch.val v) hoff)
    · exact congrArg Host.Outcome.next (anaRow_off (op := fun s => temperatureOp s ch.val v) hoff)
    · exact congrArg Host.Outcome.next (if_pos (by rw [show anaOn (s.at now) ch.val = false from hoff]; rfl))
    · exact congrArg Host.Outcome.next (anaRow_off (op := fun s => headroomOp s ch.val v yes) hoff)
    · exact congrArg Host.Outcome.next (anaRow_off (op := fun s => modeChanged s ch.val) hoff)
    · exact congrArg Host.Outcome.next (anaRow_off (op := fun s => stageFailOp s ch.val) hoff)
  · exact anaOutputUpdate_moves (f := fun a => { a with current := 22500000 }) hon hb hm (if_pos hp)
  · refine anaOutputUpdate_moves (f := id) hon hb hm ?_
    rw [nextCurrent, if_neg (by rw [hp]; exact Bool.false_ne_true)]
    exact if_pos (.inl hh)
  · have hnext := nextCurrent_free (s := n) (c := ch.val) (a := { a with blendLeft := 0 }) hm hp hh hcm hcr hsf
    refine ⟨fun h0 hlt hpos => ?_, fun h0 hle hge => ?_, fun h0 hlt => ?_, fun h0 hle => ?_⟩
    · refine anaOutputUpdate_moves (f := fun a => { a with current := a.current + step, safeMove := false }) hon hb hm ?_
      exact hnext.trans ((if_pos h0).trans <| congrArg (fun i => { a with blendLeft := 0, current := i, safeMove := false })
        (moveBy_short (by exact_mod_cast hlt) (by exact hpos)))
    · refine anaOutputUpdate_moves (f := fun a => { a with current := a.setPoint, safeMove := false }) hon hb hm ?_
      exact hnext.trans ((if_pos h0).trans <| congrArg (fun i => { a with blendLeft := 0, current := i, safeMove := false })
        (moveBy_reaches hle (by exact_mod_cast hge)))
    · refine anaOutputUpdate_moves (f := fun a => { a with
        segAt := at_, current := a.segFrom + (a.setPoint - a.segFrom) * at_ / anaP s ch.val 0xD }) hon hb hm ?_
      exact hnext.trans ((if_neg h0).trans (if_neg (Nat.not_le.mpr hlt)))
    · refine anaOutputUpdate_moves (f := fun a => { a with
        current := a.setPoint, segAt := anaP s ch.val 0xD, segFrom := a.setPoint }) hon hb hm ?_
      exact hnext.trans ((if_neg h0).trans (if_pos hle))
  · exact congrArg Host.Outcome.next (anaRow_on (op := fun s => sampleOp s ch.val v) hon)
  · exact ⟨islandTemperature_sameBand hon, islandTemperature_otherBand hon⟩
  · intro h
    refine congrArg Host.Outcome.next (if_pos ?_)
    rw [Bool.or_eq_true, decide_eq_true_eq]
    exact .inr h
  · intro h
    exact congrArg Host.Outcome.next ((anaRow_on (op := fun s => modeChanged s ch.val) hon).trans (if_pos h))
  · have hgo : stageMayFail (island s ch.val) := ⟨hm, ho, hf, h5, h6⟩
    refine ⟨activeStageFailure_channel hon hgo, fun hs ht hr hbl => ?_, fun hs ht hr hbl => ?_⟩
    · refine (activeStageFailure_starts hon hgo hs ht hr).trans (congrArg Host.Outcome.next ?_)
      rw [tryStep4, island_modAna ch.isLt, if_neg (ne_true_of_eq_false (by exact hbl))]
      exact modAna_modAna ..
    · refine (activeStageFailure_starts hon hgo hs ht hr).trans (congrArg Host.Outcome.next ?_)
      rw [tryStep4, island_modAna ch.isLt, if_pos (by exact hbl)]

end Sys2Proof.Machine
end

section
/-!
PROOFS. Relay calibration, ANA.TRIM and ANA.RELAY (R446, R453-R457, R475, R476).
-/
namespace Sys2Proof.Machine

open Sys2Proof

/-! ### Requests that a closed collar answers -/

section
variable {s : State} {now : Tb} {c : CmdRef} {i : Instr} {x : Cmd}

theorem abortedBy_endsAs (hx : ready s now c i x) (u cause : Nat) :
    endsAs (workState s now c x) (abortedBy (workState s now c x) c u cause) c x stFault (BitVec.ofNat 8 u) cause [] :=
  finishNow_endsAs (findCmd_workState hx) (status := stFault) (fun h => absurd h (by decide)) ..

end

theorem anaClosed_one (s : State) (ch : Nat) :
    anaClosed s [ch] = (closingEntry s (0x10 + ch)).map (fun e => (0x10 + ch, e.2.1)) := by
  simp only [anaClosed, List.findSome?_cons, List.findSome?_nil]
  cases closingEntry s (0x10 + ch) <;> rfl

theorem anaClosed_none {s : State} {cs : List Nat} (h : ∀ c ∈ cs, closingEntry s (0x10 + c) = none) : anaClosed s cs = none := by
  rw [anaClosed, List.findSome?_eq_none_iff]
  intro c hc
  rw [h c hc]
  rfl

/-- DONE at an event ends a waiting command as it does one at its work. -/
theorem endsDone_of_waitFor {b t : State} {c : CmdRef} {p : List Byte} (h : endsDone (waitFor b c) t c p) :
    endsDone b t c p := by
  intro x hx hdue
  have href := ref_of_findCmd hx
  obtain ⟨hp, hc, hr⟩ := h { x with phase := .waiting } (findCmd_updCmd_some hx href) hdue
  refine ⟨hp, hc.trans ?_, hr⟩
  show (updFirst c _ b.host.cmds).eraseP _ = _
  induction b.host.cmds with
  | nil => rfl
  | cons y ys ih =>
    rw [updFirst]
    split
    next hy => rw [List.eraseP_cons_of_pos (by simpa using hy), List.eraseP_cons_of_pos (by simpa using hy)]
    next hy => rw [List.eraseP_cons_of_neg (by simpa using hy), List.eraseP_cons_of_neg (by simpa using hy), ih]

/-! ### Stages of an island -/

/-- The island whose stage b has taken a trim for its present band. -/
def takeTrim (a : Island) (b : Bool) (t : Trim) : Island :=
  if b then { a with trimB := vset a.trimB a.band t } else { a with trimA := vset a.trimA a.band t }

/-- The island whose stage b is out of service, or back in it. -/
def withFault (a : Island) (b v : Bool) : Island := if b then { a with faultB := v } else { a with faultA := v }

theorem setTrim_eq (s : State) (c : Nat) (b : Bool) (t : Trim) : setTrim s c b t = modAna s c (fun a => takeTrim a b t) := rfl

theorem stageTrim_takeTrim {a : Island} (h : a.band < 8) (b : Bool) (t : Trim) : stageTrim (takeTrim a b t) b = t := by
  cases b <;> exact (vget_vset ..).trans (if_pos ⟨rfl, h⟩)

theorem stageTrim_takeTrim_other (a : Island) (b : Bool) (t : Trim) : stageTrim (takeTrim a (!b) t) b = stageTrim a b := by
  cases b <;> rfl

theorem relayBlocked_takeTrim (a : Island) (b : Bool) (t : Trim) : relayBlocked (takeTrim a b t) = relayBlocked a := by
  cases b <;> rfl

theorem step_takeTrim (a : Island) (b : Bool) (t : Trim) : (takeTrim a b t).step = a.step := by cases b <;> rfl

theorem stageFault_withFault (a : Island) (b v : Bool) : stageFault (withFault a b v) b = v := by cases b <;> rfl

/-- A stage out of service changes nothing else of the island. -/
theorem withFault_keeps {α : Type} (f : Island → α) (h : ∀ a v w, f { a with faultA := v, faultB := w } = f a) (a : Island)
    (b v : Bool) : f (withFault a b v) = f a := by
  cases b
  · exact h a v a.faultB
  · exact h a a.faultA v

section
variable {s : State} {c : Nat}

theorem setStageFault_island (hc : c < 8) (b v : Bool) :
    island (setStageFault s c b v) c = withFault (island s c) b v := by
  unfold setStageFault
  split
  next h =>
    rw [← h]
    cases b <;> rfl
  next => exact (logged_modAna (f := fun a => withFault a b v) hc rfl ..).1

theorem setStageFault_keeps (b v : Bool) : { setStageFault s c b v with ana := s.ana, log := s.log } = s := by
  unfold setStageFault
  split
  · rfl
  · obtain ⟨l, hl⟩ := log_rest (modAna s c (fun a => withFault a b v)) (if v then 0x70 else 0x71)
      (if v then sevAlarm else sevNotice) 0x06 c (if b then 4 else 3) []
    exact congrArg (fun t : State => { t with ana := s.ana, log := s.log }) hl

theorem tryStep4_modAna (hc : c < 8) (f : Island → Island) : tryStep4 (modAna s c f) c =
    modAna s c (fun a => if relayBlocked (f a) then f a else { f a with step := some 4, calReady := false }) := by
  rw [tryStep4, island_modAna hc]
  split
  next h => exact modAna_congr (if_pos h).symm
  next h =>
    rw [modAna_modAna]
    exact modAna_congr (if_neg h).symm

theorem hartHostNext_empty (h : (island s c).hartQueue = []) : hartHostNext s c = s := by
  simp only [hartHostNext, h]

/-- Sending the next host frame touches the island's HART fields alone. -/
theorem hartHostNext_keeps {α : Type} (hc : c < 8) (f : Island → α)
    (h : ∀ a x y z, f { a with hartHost := x, hartBusy := y, hartSent := z } = f a) :
    f (island (hartHostNext s c) c) = f (island s c) := by
  unfold hartHostNext
  simp only
  cases (island s c).hartQueue with
  | nil => rfl
  | cons e es =>
    simp only
    split
    · rfl
    · rw [hartSend, modAna_modAna, island_modAna hc]
      exact h (island s c) true true _

/-! ### Steps of a calibration -/

/-- Corrections that pass, with no ANA.TRIM waiting: the idle stage takes them, and step 4 begins unless something blocks it. -/
theorem calPassed_untested (hc : c < 8) (ht : (island s c).trimRef = none) (hband : (island s c).band < 8) :
    stageTrim (island (calPassed s c) c) (!(island s c).stageB) = (island s c).newTrim ∧
      stageTrim (island (calPassed s c) c) (island s c).stageB = stageTrim (island s c) (island s c).stageB ∧
      (island (calPassed s c) c).step = (if relayBlocked (island s c) then (island s c).step else some 4) ∧
      { calPassed s c with ana := s.ana } = s := by
  have hstep : calPassed s c = tryStep4 (modAna s c (fun a =>
      { takeTrim a (!(island s c).stageB) (island s c).newTrim with
        lastOff := (island s c).newTrim.z, lastGain := (island s c).newTrim.g, calReady := true })) c := by
    simp only [calPassed, ht, Option.isSome_none, Bool.false_eq_true, if_false, setTrim_eq, modAna_modAna]
  rw [hstep, tryStep4_modAna hc, island_modAna hc]
  have hblk : relayBlocked { takeTrim (island s c) (!(island s c).stageB) (island s c).newTrim with
      lastOff := (island s c).newTrim.z, lastGain := (island s c).newTrim.g, calReady := true } = relayBlocked (island s c) :=
    relayBlocked_takeTrim ..
  rw [hblk]
  refine ⟨?_, ?_, ?_, rfl⟩
  · split <;> exact stageTrim_takeTrim hband ..
  · split <;> exact stageTrim_takeTrim_other ..
  · split
    · exact step_takeTrim ..
    · rfl

/-- Corrections that fail, with no command waiting: the idle stage is out of service and the calibration over. -/
theorem calFailed_untested (hc : c < 8) (ht : (island s c).trimRef = none) (hr : (island s c).relayRef = none) :
    stageFault (island (calFailed s c) c) (!(island s c).stageB) = true ∧ (island (calFailed s c) c).step = none ∧
      (island (calFailed s c) c).current = (island s c).current ∧
      { calFailed s c with ana := s.ana, log := s.log } = s := by
  have hi : island (setStageFault (modAna s c (fun a => { a with step := none, calReady := false })) c
      (!(island s c).stageB) true) c =
      withFault { island s c with step := none, calReady := false } (!(island s c).stageB) true := by
    rw [setStageFault_island hc, island_modAna hc]
  have hstep : calFailed s c = setStageFault (modAna s c (fun a => { a with step := none, calReady := false })) c
      (!(island s c).stageB) true := by
    rw [calFailed, trimResult_none, relayOutcome_none]
    · rw [hi, withFault_keeps Island.relayRef (fun _ _ _ => rfl)]
      exact hr
    · rw [hi, withFault_keeps Island.trimRef (fun _ _ _ => rfl)]
      exact ht
  rw [hstep, hi]
  refine ⟨stageFault_withFault .., ?_, ?_, ?_⟩
  · exact withFault_keeps Island.step (fun _ _ _ => rfl) ..
  · exact withFault_keeps Island.current (fun _ _ _ => rfl) ..
  · exact congrArg (fun t : State => { t with ana := s.ana }) (setStageFault_keeps (s := modAna s c _) ..)

/-- A group that is written leaves all but the store, the update and the link to the twin. -/
theorem groupWrite_keeps {u : State} {ws : List PWrite} (h : groupWrite s ws = some u) :
    { u with pstore := s.pstore, store := s.store, twin := s.twin } = s := by
  cases he : energyFor s (eGroup (groupPages ws)) with
  | false => rw [groupWrite_lacks he] at h; cases h
  | true =>
    obtain ⟨w, hw, -, hkeep⟩ := groupWrite_written he
    rw [hw] at h
    cases h
    exact hkeep

/-- The mark of a calibration notes its time on the island and nothing else there. -/
theorem housekeepMark_keeps {α : Type} (hc : c < 8) (f : Island → α) (h : ∀ a m, f { a with markAt := m } = f a) :
    f (island (housekeepMark s c) c) = f (island s c) := by
  have hwrite : ∀ u, groupWrite s (trimMark s c) = some u →
      f (island (modAna u c (fun a => { a with markAt := vset a.markAt a.band (some u.power.opsec) })) c) =
        f (island s c) := fun u hu => by
    rw [island_modAna hc, h]
    exact congrArg f (congrArg (island · c) (groupWrite_keeps hu) :)
  unfold housekeepMark
  simp only
  split
  all_goals
    split
    · rfl
    split
    · rfl
    next u hu => exact hwrite u hu

/-- A calibration whose loop has moved over, with no command waiting. -/
theorem handedOver_untested (hc : c < 8) (hf : (island s c).failOver = false) (ht : (island s c).trimRef = none)
    (hr : (island s c).relayRef = none) :
    let b := island (handedOver s c) c
    b.step = none ∧ b.calCount = (island s c).calCount + 1 ∧ b.relayDone = s.power.opsec ∧
      b.relayNext = s.power.opsec + anaP s c 0x12 ∧ b.aborts = 0 := by
  have hstep : handedOver s c = housekeepMark (modAna s c (fun a => { a with
      step := none, calReady := false, failOver := false, aborts := 0, relayDone := s.power.opsec,
      relayNext := s.power.opsec + anaP s c 0x12, calCount := a.calCount + 1 })) c := by
    simp only [handedOver, hf, ht, Option.isSome_none, Bool.false_eq_true, if_false, modAna_modAna]
    refine relayOutcome_none ?_ 1
    rw [housekeepMark_keeps hc Island.relayRef (fun _ _ => rfl), island_modAna hc]
    exact hr
  rw [hstep]
  refine ⟨?_, ?_, ?_, ?_, ?_⟩
  · exact (housekeepMark_keeps hc Island.step (fun _ _ => rfl)).trans (by rw [island_modAna hc])
  · exact (housekeepMark_keeps hc Island.calCount (fun _ _ => rfl)).trans (by rw [island_modAna hc])
  · exact (housekeepMark_keeps hc Island.relayDone (fun _ _ => rfl)).trans (by rw [island_modAna hc])
  · exact (housekeepMark_keeps hc Island.relayNext (fun _ _ => rfl)).trans (by rw [island_modAna hc])
  · exact (housekeepMark_keeps hc Island.aborts (fun _ _ => rfl)).trans (by rw [island_modAna hc])

/-- The first abort in a row is tried again after ANA_RELAY. -/
theorem abortOp_first (hc : c < 8) (h5 : (island s c).step = some 5) (ht : (island s c).trimRef = none)
    (hr : (island s c).relayRef = none) (hq : (island s c).hartQueue = []) (ha : (island s c).aborts = 0) :
    abortOp s c = modAna s c (fun a => { a with
      step := none, failOver := false, uncertainNext := true, aborts := 1,
      relayNext := s.power.opsec + anaP s c 0x12 }) := by
  simp only [abortOp, h5, ha, ne_eq, not_true_eq_false, if_false, show decide (1 ≤ 0) = false from rfl, Bool.false_eq_true]
  rw [trimResult_none, relayOutcome_none, hartHostNext_empty]
  · exact modAna_congr (by simp only [ha, Nat.zero_add])
  all_goals rw [island_modAna hc]; assumption

/-- A second abort takes the idle stage out of service (R457). -/
theorem abortOp_second (hc : c < 8) (h5 : (island s c).step = some 5) (ht : (island s c).trimRef = none)
    (hr : (island s c).relayRef = none) (ha : 1 ≤ (island s c).aborts) :
    (island (abortOp s c) c).step = none ∧ stageFault (island (abortOp s c) c) (!(island s c).stageB) = true ∧
      (island (abortOp s c) c).stageB = (island s c).stageB := by
  have hi : ∀ r, island (setStageFault (modAna s c (fun a => { a with
      step := none, failOver := false, uncertainNext := true, aborts := 0, relayNext := r })) c
      (!(island s c).stageB) true) c = withFault { island s c with
        step := none, failOver := false, uncertainNext := true, aborts := 0, relayNext := r } (!(island s c).stageB) true :=
    fun r => by rw [setStageFault_island hc, island_modAna hc]
  simp only [abortOp, h5, ha, ne_eq, not_true_eq_false, if_false, decide_true, if_true]
  rw [trimResult_none, relayOutcome_none]
  · refine ⟨?_, ?_, ?_⟩
    · rw [hartHostNext_keeps hc Island.step (fun _ _ _ _ => rfl), hi]
      exact withFault_keeps Island.step (fun _ _ _ => rfl) ..
    · rw [hartHostNext_keeps hc (stageFault · _) (fun _ _ _ _ => rfl), hi]
      exact stageFault_withFault ..
    · rw [hartHostNext_keeps hc Island.stageB (fun _ _ _ _ => rfl), hi]
      exact withFault_keeps Island.stageB (fun _ _ _ => rfl) ..
  · rw [hi, withFault_keeps Island.relayRef (fun _ _ _ => rfl)]
    exact hr
  · rw [hi, withFault_keeps Island.trimRef (fun _ _ _ => rfl)]
    exact ht

/-! ### ANA.RELAY -/

/-- Island k waits for command c's handover and calibrates. -/
def relaying (c : CmdRef) (k : Nat) (s : State) : Prop :=
  (island s k).relayRef = some (c, 0) ∧ (island s k).step.isSome = true

/-- An island that may join a calibration for ANA.RELAY. -/
def mayRelay (a : Island) : Prop :=
  a.mode ≠ .changing ∧ a.relayRef = none ∧ a.trimRef = none ∧ a.failOver = false ∧ a.faultA = false ∧ a.faultB = false

theorem relayStart_other (r : CmdRef) {k : Nat} (h : k ≠ c) : island (relayStart r s c) k = island s k := by
  unfold relayStart startCal
  simp only
  split
  · rfl
  split
  · exact island_modAna_ne h ..
  · rw [modAna_modAna]
    exact island_modAna_ne h ..

theorem relayStart_starts (hc : c < 8) (r : CmdRef) (h : mayRelay (island s c)) : relaying r c (relayStart r s c) := by
  obtain ⟨hm, hr, ht, hf, ha, hb⟩ := h
  simp only [relayStart, hm, hr, ht, hf, ha, hb, Option.isSome_none, Bool.false_eq_true, or_self, if_false]
  cases hs : (island s c).step with
  | none =>
    simp only [Option.isSome_none, Bool.false_eq_true, if_false, startCal, modAna_modAna, relaying, island_modAna hc]
    exact ⟨trivial, rfl⟩
  | some k =>
    simp only [Option.isSome_some, if_true, relaying, island_modAna hc, hs]
    exact ⟨trivial, trivial⟩

theorem relayStart_stays (r : CmdRef) (k : Nat) (h : relaying r k s) : relaying r k (relayStart r s c) := by
  by_cases hk : k = c
  · subst hk
    have hstay : relayStart r s k = s := by
      unfold relayStart
      exact if_pos (.inr (.inl (by rw [h.1]; rfl)))
    rw [hstay]
    exact h
  · rw [relaying, relayStart_other r hk]
    exact h

theorem foldl_relayStart (r : CmdRef) {k : Nat} (hk : k < 8) (cs : List Nat) (hmem : k ∈ cs ∨ relaying r k s)
    (h : relaying r k s ∨ mayRelay (island s k)) : relaying r k (cs.foldl (relayStart r) s) := by
  induction cs generalizing s with
  | nil => exact hmem.resolve_left (List.not_mem_nil)
  | cons y ys ih =>
    rw [List.foldl_cons]
    rcases h with h | h
    · exact ih (.inr (relayStart_stays r k h)) (.inl (relayStart_stays r k h))
    · by_cases hy : k = y
      · subst hy
        exact ih (.inr (relayStart_starts hk r h)) (.inl (relayStart_starts hk r h))
      · have hsame : island (relayStart r s y) k = island s k := relayStart_other r hy
        refine ih (hmem.imp (fun hm => (List.mem_cons.mp hm).resolve_left hy) fun hr => ?_) (.inr (by rw [hsame]; exact h))
        rw [relaying, hsame]
        exact hr

theorem findCmd_relayStart (r d : CmdRef) (s : State) (c : Nat) : findCmd (relayStart r s c) d = findCmd s d := by
  unfold relayStart startCal
  simp only
  split
  · rfl
  split <;> rfl

/-- ANA.RELAY waits while one of its channels is at work. -/
theorem finishRelay_waits {r : CmdRef} {k : Nat} (hk : k < 8) (h : relaying r k s) : finishRelay s r = s := by
  refine if_pos (List.any_eq_true.mpr ⟨(k, 0), List.mem_filterMap.mpr ⟨k, List.mem_range.mpr hk, ?_⟩, rfl⟩)
  rw [h.1]
  exact if_pos rfl

theorem finishRelay_empty {r : CmdRef} (h : ∀ j x, (island s j).relayRef = some x → x.1 ≠ r) :
    finishRelay s r = doneNow s r [0] := by
  unfold finishRelay
  simp only
  rw [List.filterMap_eq_nil_iff.mpr ?_]
  · rfl
  · intro c _
    cases hr : (island s c).relayRef with
    | none => rfl
    | some x => exact if_neg (h c x hr)

end

section
variable {s : State} {now : Tb} {ch : Fin 8} {c : CmdRef}

theorem works_anaTrim (kind : Nat) : works s now c (.anaTrim now c ch.val kind) (fun x b t => lastStage x = true →
    let i := ch.val
    let a := island b i
    (∀ e, closingEntry b (0x10 + i) = some e → endsAs b t c x stFault (BitVec.ofNat 8 (0x10 + i)) e.2.1 []) ∧
    (closingEntry b (0x10 + i) = none →
      (a.mode = .changing ∨ a.trimRef.isSome = true ∨ a.failOver = true → onlyAnswers b t c [2, 0, 0, 0, 0, 0, 0, 0]) ∧
      (a.mode ≠ .changing → a.trimRef = none → a.failOver = false → a.relayRef = none → waits t c ∧
        island t i = { a with trimRef := some c, trimSecond := false, step := some 1, calReady := false,
                              newTrim := Trim.zero } ∧ ∀ j, j ≠ i → island t j = island b j))) := by
  refine works_last (Eq.refl (execAnaTrim now c ch.val kind s)) fun x hx _ => ⟨fun e he => ?_, fun hopen => ?_⟩
  · simp only [anaTrimOp, anaClosed_one, he, Option.map_some]
    exact abortedBy_endsAs hx ..
  · have hc := findCmd_workState hx
    generalize workState s now c x = b at hc hopen
    simp only [anaTrimOp, anaClosed_one, hopen, Option.map_none]
    refine ⟨fun h => ?_, fun hm ht hf hr => ?_⟩
    · rw [if_pos h]
      exact done_onlyAnswers hc _
    · have hgo : ¬ ((island b ch.val).mode = .changing ∨ (island b ch.val).trimRef.isSome = true ∨
          (island b ch.val).failOver = true) := by simp [hm, ht, hf]
      have hfail : (island b ch.val).failOver = false := hf
      rw [if_neg hgo, relayOutcome_none hr, startCal, modAna_modAna]
      refine ⟨waits_waitFor hc, ?_, fun j hj => island_modAna_ne hj (waitFor b c) _⟩
      rw [island_modAna ch.isLt]
      show { island b ch.val with
        trimRef := some c, trimSecond := false, step := some 1, calReady := false, newTrim := Trim.zero, failOver := false } = _
      rw [← hfail]

theorem works_anaRelay (k : Nat) (mask : BitVec 8) : works s now c (.anaRelay now c mask) (fun x b t => lastStage x = true →
    (∀ j, j < 8 → mask.getLsbD j = true → closingEntry b (0x10 + j) = none) →
    (mask.getLsbD k = true → k < 8 → (island b k).mode ≠ .changing → (island b k).relayRef = none →
      (island b k).trimRef = none → (island b k).failOver = false → (island b k).faultA = false →
      (island b k).faultB = false →
      waits t c ∧ (island t k).relayRef = some (c, 0) ∧ (island t k).step.isSome = true) ∧
    (mask = 0 → (∀ j r, (island b j).relayRef = some r → r.1 ≠ c) → endsDone b t c [0])) := by
  refine works_last (Eq.refl (execAnaRelay now c mask s)) fun x hx _ hopen => ?_
  have hc := findCmd_workState hx
  generalize workState s now c x = b at hc hopen
  have hnone : anaClosed b ((List.range 8).filter (fun ch => mask.getLsbD ch)) = none := anaClosed_none fun j hj => by
    obtain ⟨hj, hm⟩ := List.mem_filter.mp hj
    exact hopen j (List.mem_range.mp hj) hm
  simp only [anaRelayOp, hnone]
  refine ⟨fun hm hk hmode hr ht hf ha hb => ?_, fun hm hnobody => ?_⟩
  · have hrel := foldl_relayStart (s := waitFor b c) c hk ((List.range 8).filter (fun ch => mask.getLsbD ch))
      (.inl (List.mem_filter.mpr ⟨List.mem_range.mpr hk, hm⟩)) (.inr ⟨hmode, hr, ht, hf, ha, hb⟩)
    rw [finishRelay_waits hk hrel]
    refine ⟨?_, hrel⟩
    obtain ⟨y, hy, hph⟩ := waits_waitFor hc
    exact ⟨y, (foldl_keeps (findCmd · c) _ (findCmd_relayStart c c) _ _).trans hy, hph⟩
  · subst hm
    have hempty : (List.range 8).filter (fun ch => (0 : BitVec 8).getLsbD ch) = [] := by decide
    rw [hempty, List.foldl_nil, finishRelay_empty (by exact hnobody)]
    exact endsDone_of_waitFor (finishNow_endsDone (waitFor b c) c [0])

end

/-! ### The rows of a calibration -/

section
variable {s : State} {now : Tb} {ch : Fin 8} {v : Int}

theorem stepEnd_row (hon : anaOn s ch.val = true) :
    exec (.relayCalibrationStepEnd now ch v) s = .next (stepEnd (s.at now) ch.val v) :=
  congrArg Host.Outcome.next (anaRow_on (op := fun s => stepEnd s ch.val v) hon)

theorem abortOp_row (hon : anaOn s ch.val = true) : exec (.handoverAbort now ch) s = .next (abortOp (s.at now) ch.val) :=
  congrArg Host.Outcome.next (anaRow_on (op := fun s => abortOp s ch.val) hon)

theorem stepEnd_none {u : State} {c : Nat} (h : (island u c).step = none) : stepEnd u c v = u := by
  simp only [stepEnd, h]

theorem stepEnd_one {u : State} {c : Nat} (h : (island u c).step = some 1) :
    stepEnd u c v = modAna u c (fun a => { a with step := some 2 }) := by
  simp only [stepEnd, h]

theorem stepEnd_two {u : State} {c : Nat} (h : (island u c).step = some 2) : stepEnd u c v =
    modAna u c (fun a => { a with step := some 3, newTrim := { a.newTrim with z := v - 4000000 } }) := by
  simp only [stepEnd, h]

theorem stepEnd_four {u : State} {c : Nat} (h : (island u c).step = some 4) :
    stepEnd u c v = modAna u c (fun a => { a with step := some 5 }) := by
  simp only [stepEnd, h]

theorem discardCal_plain {u : State} {c : Nat} (hc : c < 8) (ht : (island u c).trimRef = none)
    (hr : (island u c).relayRef = none) (wait : Nat) : discardCal u c wait = modAna u c (fun a => { a with
      step := none, calReady := false, failOver := false, relayNext := u.power.opsec + wait }) := by
  rw [discardCal, trimResult_none (by rw [island_modAna hc]; exact ht), relayOutcome_none (by rw [island_modAna hc]; exact hr)]

/-- Step 3 measured with acceptable corrections, and with others (R455). -/
theorem stepEnd_three (hon : anaOn s ch.val = true) (h3 : (island s ch.val).step = some 3)
    (hready : (island s ch.val).calReady = false) (ht : (island s ch.val).trimRef = none)
    (hr : (island s ch.val).relayRef = none) (hband : (island s ch.val).band < 8) :
    let a := island s ch.val
    let i := ch.val
    let ends := Instr.relayCalibrationStepEnd now ch v
    let new : Trim := { a.newTrim with g := gainOf a.newTrim.z v }
    (trimOk new = true → ∃ t, exec ends s = .next t ∧ stageTrim (island t i) (!a.stageB) = new ∧
      stageTrim (island t i) a.stageB = stageTrim a a.stageB ∧
      (island t i).step = (if relayBlocked a then some 3 else some 4) ∧ { t with ana := s.ana } = s.at now) ∧
    (trimOk new = false → ∃ t, exec ends s = .next t ∧ stageFault (island t i) (!a.stageB) = true ∧
      (island t i).step = none ∧ (island t i).current = a.current ∧ { t with ana := s.ana, log := s.log } = s.at now) := by
  intro a i ends new
  have hrow : stepEnd (s.at now) i v =
      if trimOk new then calPassed (modAna (s.at now) i (fun a => { a with newTrim := new })) i
      else calFailed (modAna (s.at now) i (fun a => { a with newTrim := new })) i := by
    have h3 : (island (s.at now) i).step = some 3 := h3
    have hready : (island (s.at now) i).calReady = false := hready
    simp only [stepEnd, h3, hready, Bool.false_eq_true, if_false]
    rfl
  have hi : island (modAna (s.at now) i (fun a => { a with newTrim := new })) i = { a with newTrim := new } :=
    island_modAna ch.isLt ..
  refine ⟨fun hok => ?_, fun hok => ?_⟩
  · obtain ⟨h1, h2, h4, h5⟩ := calPassed_untested (s := modAna (s.at now) i (fun a => { a with newTrim := new })) ch.isLt
      (by rw [hi]; exact ht) (by rw [hi]; exact hband)
    rw [hi] at h1 h2 h4
    refine ⟨_, (stepEnd_row hon).trans (congrArg Host.Outcome.next (hrow.trans (if_pos hok))), h1, h2, h4.trans ?_, ?_⟩
    · show (if relayBlocked a = true then a.step else some 4) = _
      rw [h3]
    · exact congrArg (fun t : State => { t with ana := s.ana }) h5
  · obtain ⟨h1, h2, h4, h5⟩ := calFailed_untested (s := modAna (s.at now) i (fun a => { a with newTrim := new })) ch.isLt
      (by rw [hi]; exact ht) (by rw [hi]; exact hr)
    rw [hi] at h1 h4
    refine ⟨_, (stepEnd_row hon).trans (congrArg Host.Outcome.next (hrow.trans (if_neg (ne_true_of_eq_false hok)))),
      h1, h2, h4, ?_⟩
    exact congrArg (fun t : State => { t with ana := s.ana }) h5

theorem stepEnd_five (hon : anaOn s ch.val = true) (h5 : (island s ch.val).step = some 5)
    (hq : (island s ch.val).hartQueue = []) :
    exec (.relayCalibrationStepEnd now ch v) s = .next (modAna (s.at now) ch.val (fun a => { a with
      step := some 6, stageB := !(island s ch.val).stageB,
      useTrim := stageTrim (island s ch.val) (!(island s ch.val).stageB), blendLeft := 0 })) := by
  refine (stepEnd_row hon).trans (congrArg Host.Outcome.next ?_)
  have h5 : (island (s.at now) ch.val).step = some 5 := h5
  simp only [stepEnd, h5]
  rw [hartHostNext_empty (by rw [island_modAna ch.isLt]; exact hq)]
  exact modAna_congr rfl

theorem stepEnd_six (hon : anaOn s ch.val = true) (h6 : (island s ch.val).step = some 6) :
    exec (.relayCalibrationStepEnd now ch v) s = .next (handedOver (s.at now) ch.val) := by
  refine (stepEnd_row hon).trans (congrArg Host.Outcome.next ?_)
  have h6 : (island (s.at now) ch.val).step = some 6 := h6
  simp only [stepEnd, h6]

end

/-- Settles O43: the steps of a calibration, its outcomes, and the commands that wait for them. -/
theorem relayCalibration : Obligations.RelayCalibration := by
  intro s now ch v c k kind mask n i a free ends becomes
  refine ⟨fun hoff => ⟨?_, ?_, ?_, ?_⟩, fun hon => ⟨fun hd => ?_, fun hd => ?_, fun h0 => ?_, fun h1 => ?_, fun h2 => ?_,
    fun h3 hready hfree hband => stepEnd_three hon h3 hready hfree.1 hfree.2 hband, fun h4 => ?_, fun h5 hq => ?_,
    fun h6 hf hfree => ?_, fun h5 => ?_, fun h5 hfree hq ha => ?_, fun h5 hfree ha => ?_, fun hno => ?_,
    fun h3 hready hfree => ?_⟩, works_anaTrim kind, works_anaRelay k mask⟩
  · refine congrArg Host.Outcome.next (if_neg ?_)
    rw [show anaOn (s.at now) ch.val = false from hoff]
    exact Bool.false_ne_true
  · exact congrArg Host.Outcome.next (anaRow_off (op := fun s => stepEnd s ch.val v) hoff)
  · exact congrArg Host.Outcome.next (anaRow_off (op := fun s => abortOp s ch.val) hoff)
  · refine congrArg Host.Outcome.next (if_neg ?_)
    rw [show anaOn (s.at now) ch.val = false from hoff]
    exact Bool.false_ne_true
  · refine congrArg Host.Outcome.next (if_neg ?_)
    rw [show calDue (s.at now) ch.val = false from hd, Bool.and_false]
    exact Bool.false_ne_true
  · refine congrArg Host.Outcome.next (if_pos ?_)
    rw [show calDue (s.at now) ch.val = true from hd, Bool.and_true]
    exact hon
  · exact (stepEnd_row hon).trans (congrArg Host.Outcome.next (stepEnd_none (u := n) h0))
  · exact (stepEnd_row hon).trans (congrArg Host.Outcome.next (stepEnd_one (u := n) h1))
  · exact (stepEnd_row hon).trans (congrArg Host.Outcome.next (stepEnd_two (u := n) h2))
  · exact (stepEnd_row hon).trans (congrArg Host.Outcome.next (stepEnd_four (u := n) h4))
  · refine (stepEnd_five hon h5 hq).trans (congrArg Host.Outcome.next (modAna_congr rfl))
  · exact ⟨_, stepEnd_six hon h6, handedOver_untested (s := n) ch.isLt hf hfree.1 hfree.2⟩
  · exact (abortOp_row hon).trans (congrArg Host.Outcome.next (if_pos h5))
  · exact (abortOp_row hon).trans (congrArg Host.Outcome.next (abortOp_first (s := n) ch.isLt h5 hfree.1 hfree.2 hq ha))
  · exact ⟨_, abortOp_row hon, abortOp_second (s := n) ch.isLt h5 hfree.1 hfree.2 ha⟩
  · refine congrArg Host.Outcome.next (if_neg ?_)
    show ¬ (anaOn s ch.val && decide (a.step = some 3) && a.calReady) = true
    rw [Bool.and_assoc]
    rcases hno with h | h
    · rw [decide_eq_false h, Bool.false_and, Bool.and_false]
      exact Bool.false_ne_true
    · rw [h, Bool.and_false, Bool.and_false]
      exact Bool.false_ne_true
  · refine congrArg Host.Outcome.next ((if_pos ?_).trans (discardCal_plain (u := n) ch.isLt hfree.1 hfree.2 10))
    show (anaOn s ch.val && decide (a.step = some 3) && a.calReady) = true
    rw [decide_eq_true h3, hready, hon]
    rfl

end Sys2Proof.Machine
end

section
/-!
PROOFS. HART polls, replies, host frames and field devices (R467-R473).
-/
namespace Sys2Proof.Machine

open Sys2Proof

/-! ### Frames on the wire -/

section
variable {s : State} {c : Nat}

/-- A frame that waits alone is sent when the wire is free and no handover step 5 runs (R473). -/
theorem hartHostNext_sends {r : CmdRef} {frame : List Byte} (hq : (island s c).hartQueue = [(r, frame)])
    (hb : (island s c).hartBusy = false) (h5 : (island s c).step ≠ some 5) : hartHostNext s c = modAna s c (fun a => { a with
      hartHost := true, hartBusy := true, hartSent := frame ++ [hartCheck frame] }) := by
  simp only [hartHostNext, hq, hb, h5, Bool.false_eq_true, or_self, if_false, hartSend, modAna_modAna]

theorem hartPollOp_sends (hm : hartMaster s c = true) (hb : (island s c).hartBusy = false)
    (h5 : (island s c).step ≠ some 5) : hartPollOp s c = modAna s c (fun a => { a with
      hartTries := 0, hartHost := false, hartBusy := true,
      hartSent := pollFrame (island s c) ++ [hartCheck (pollFrame (island s c))] }) := by
  simp only [hartPollOp, hm, hb, h5, Bool.not_true, Bool.or_self, decide_false, Bool.false_eq_true, if_false, hartSend,
    modAna_modAna]

/-! ### Replies -/

theorem cyclicMiss_retries (h : (island s c).hartTries < 2) :
    cyclicMiss s c = modAna s c (fun a => { a with hartTries := a.hartTries + 1 }) := if_pos h

theorem cyclicMiss_counts (h : 2 ≤ (island s c).hartTries) : cyclicMiss s c = modAna s c (fun a => { a with
    hartBusy := false, hartTries := 0, hartOk := false, hartMiss := a.hartMiss + 1,
    hartLong := if 2 ≤ a.hartMiss then none else a.hartLong }) := by
  rw [cyclicMiss, if_neg (Nat.not_lt.mpr h)]
  exact modAna_congr (by simp only [show 3 ≤ (island s c).hartMiss + 1 ↔ 2 ≤ (island s c).hartMiss by omega])

/-- A valid reply to command 0 identifies the device (R472). -/
theorem cyclicReply_identity {fr : List Byte} (h : hartCmd fr = 0) : cyclicReply s c fr = modAna s c (fun a => { a with
    hartBusy := false, hartMiss := 0, hartOk := true, hartTries := 0, hartLong := some (longAddress (hartData fr)) }) := by
  rw [cyclicReply, if_pos h, modAna_modAna]

/-- A valid reply to command 3 gives the variables (R472). -/
theorem cyclicReply_variables {fr : List Byte} (h : hartCmd fr = 3) (hr : (hartData fr).getD 0 0 = 0) :
    cyclicReply s c fr = modAna s c (fun a => { a with
      hartBusy := false, hartMiss := 0, hartOk := true, hartTries := 0, hartLastReply := some s.tb, hartResp := 0,
      hartStatus := (hartData fr).getD 1 0, hartVars := dynamicVars (hartData fr) }) := by
  rw [cyclicReply, if_neg (by rw [h]; decide), modAna_modAna, hr]
  rfl

theorem island_doneNow (s : State) (r : CmdRef) (p : List Byte) (c : Nat) : island (doneNow s r p) c = island s c :=
  (congrArg (fun t : State => island t c) (hostRest_finishNow s r stDone 0 0 p) :)

/-- A reply of the cyclic exchange whose frame is whole, or none, while no host frame waits. -/
theorem hartReplyOp_cyclic {reply : Option (List Byte)} (hb : (island s c).hartBusy = true)
    (hh : (island s c).hartHost = false) (hok : ∀ fr, reply = some fr → hartOkFrame fr = true) :
    hartReplyOp s c reply = hartHostNext (match reply with
      | some fr => if replyValid (island s c) fr then cyclicReply s c fr else cyclicMiss s c
      | none => cyclicMiss s c) c := by
  cases reply with
  | none => simp only [hartReplyOp, hb, hh, Option.any_none, Bool.not_true, Bool.false_eq_true, if_false]
  | some fr =>
    simp only [hartReplyOp, hb, hh, Option.any_some, hok fr rfl, Bool.not_true, Bool.false_eq_true, if_false]

/-- The end of a host frame's one attempt ends its command (R473). -/
theorem hartReplyOp_host (hc : c < 8) {reply : Option (List Byte)} {r : CmdRef} {frame : List Byte}
    (hb : (island s c).hartBusy = true) (hh : (island s c).hartHost = true) (hq : (island s c).hartQueue = [(r, frame)])
    (hok : ∀ fr, reply = some fr → hartOkFrame fr = true ∧ hartCount fr ≤ 32) :
    hartReplyOp s c reply = doneNow (modAna s c (fun a => { a with hartBusy := false, hartHost := false, hartQueue := [] })) r
      (match reply with
        | none => le 2 0
        | some fr => le 2 (fr.length - 1) ++ fr.dropLast) := by
  have hend : ∀ p, hartHostNext (doneNow (modAna s c (fun a => { a with
      hartBusy := false, hartHost := false, hartQueue := [] })) r p) c = doneNow (modAna s c (fun a => { a with
      hartBusy := false, hartHost := false, hartQueue := [] })) r p := fun p => hartHostNext_empty (by
    rw [island_doneNow, island_modAna hc])
  cases reply with
  | none =>
    simp only [hartReplyOp, hb, hh, hostReply, hq, Option.any_none, Bool.not_true, Bool.false_eq_true, if_false, if_true]
    exact hend _
  | some fr =>
    obtain ⟨h1, h2⟩ := hok fr rfl
    simp only [hartReplyOp, hb, hh, hostReply, hq, Option.any_some, h1, h2, Bool.not_true, Bool.false_eq_true, if_false,
      if_true, decide_true, Bool.and_self]
    exact hend _

/-! ### Requests to a field device -/

theorem hartRequestOp_answers {fr data : List Byte} {rc : Byte} (hrole : hartDeviceRole s c = true)
    (hok : hartOkFrame fr = true) (hreq : fr.getD 0 0 &&& 0x07 = 0x02) (had : addressed s c fr = true)
    (hrep : deviceReply s c fr = some (rc, data)) :
    let body := [fr.getD 0 0 ||| 0x04] ++ hartAddr fr ++ [BitVec.ofNat 8 (hartCmd fr), BitVec.ofNat 8 (data.length + 2)]
      ++ [rc, deviceStatus s c] ++ data
    hartRequestOp s c fr = modAna s c (fun a => { a with
      hartSent := body ++ [hartCheck body], hartAnswered := some s.tb,
      hartCfgChanged := a.hartCfgChanged && decide (hartCmd fr ≠ 38) }) := by
  simp only [hartRequestOp, hrole, hok, hreq, had, hrep, Bool.not_true, Bool.false_eq_true, if_false, ne_eq,
    not_true_eq_false, decide_false, Bool.or_self]

end

section
variable {s : State} {now : Tb} {ch : Fin 8} {c r : CmdRef} {frame fr : List Byte} {reply : Option (List Byte)}

theorem hartReply_row (hon : anaOn s ch.val = true) :
    exec (.hartReply now ch reply) s = .next (hartReplyOp (s.at now) ch.val reply) :=
  congrArg Host.Outcome.next (anaRow_on (op := fun s => hartReplyOp s ch.val reply) hon)

/-- A cyclic reply with no host frame waiting ends with what the reply, or its lack, changes. -/
theorem hartReply_cyclic (hon : anaOn s ch.val = true) (hb : (island s ch.val).hartBusy = true)
    (hh : (island s ch.val).hartHost = false) (hq : (island s ch.val).hartQueue = []) {f : Island → Island}
    (hok : ∀ fr, reply = some fr → hartOkFrame fr = true)
    (h : (match reply with
      | some fr => if replyValid (island s ch.val) fr then cyclicReply (s.at now) ch.val fr else cyclicMiss (s.at now) ch.val
      | none => cyclicMiss (s.at now) ch.val) = modAna (s.at now) ch.val f)
    (hf : (f (island s ch.val)).hartQueue = (island s ch.val).hartQueue) :
    exec (.hartReply now ch reply) s = .next (modAna (s.at now) ch.val f) := by
  refine (hartReply_row hon).trans (congrArg Host.Outcome.next ?_)
  rw [hartReplyOp_cyclic (by exact hb) (by exact hh) hok]
  refine (congrArg (hartHostNext · ch.val) h).trans (hartHostNext_empty ?_)
  rw [island_modAna ch.isLt]
  exact hf.trans hq

theorem replyValid_ok {a : Island} (h : replyValid a fr = true) : hartOkFrame fr = true := by
  unfold replyValid at h
  simp only [Bool.and_eq_true, and_assoc] at h
  exact h.1

theorem hartReply_host (hon : anaOn s ch.val = true) (hb : (island s ch.val).hartBusy = true)
    (hh : (island s ch.val).hartHost = true) (hq : (island s ch.val).hartQueue = [(r, frame)])
    (hok : ∀ fr, reply = some fr → hartOkFrame fr = true ∧ hartCount fr ≤ 32) :
    ∃ t, exec (.hartReply now ch reply) s = .next t ∧ endsDone (s.at now) t r (match reply with
        | none => le 2 0
        | some fr => le 2 (fr.length - 1) ++ fr.dropLast) ∧ (island t ch.val).hartQueue = [] ∧
      (island t ch.val).hartBusy = false := by
  refine ⟨_, (hartReply_row hon).trans (congrArg Host.Outcome.next
    (hartReplyOp_host (s := s.at now) ch.isLt hb hh hq hok)), finishNow_endsDone (modAna (s.at now) ch.val _) r _, ?_, ?_⟩ <;>
  rw [island_doneNow, island_modAna ch.isLt]

theorem works_anaHart : works s now c (.anaHart now c ch.val frame) (fun x b t => lastStage x = true →
    let i := ch.val
    (∀ e, closingEntry b (0x10 + i) = some e → endsAs b t c x stFault (BitVec.ofNat 8 (0x10 + i)) e.2.1 []) ∧
    (closingEntry b (0x10 + i) = none → hartMaster b i = false → onlyAnswers b t c (le 2 0xFFFF)) ∧
    (closingEntry b (0x10 + i) = none → hartMaster b i = true → (island b i).hartQueue = [] →
      (island b i).hartBusy = false → (island b i).step ≠ some 5 → waits t c ∧
      island t i = { island b i with hartQueue := [(c, frame)], hartHost := true, hartBusy := true,
                                     hartSent := frame ++ [hartCheck frame] })) := by
  refine works_last (Eq.refl (execAnaHart now c ch.val frame s)) fun x hx _ =>
    ⟨fun e he => ?_, fun hopen hm => ?_, fun hopen hm hq hb h5 => ?_⟩
  · simp only [anaHartOp, anaClosed_one, he, Option.map_some]
    exact abortedBy_endsAs hx ..
  · have hc := findCmd_workState hx
    generalize workState s now c x = b at hc hopen hm
    simp only [anaHartOp, anaClosed_one, hopen, hm, Option.map_none, Bool.not_false, if_true]
    exact done_onlyAnswers hc _
  · have hc := findCmd_workState hx
    generalize workState s now c x = b at hc hopen hm hq hb h5
    simp only [anaHartOp, anaClosed_one, hopen, hm, Option.map_none, Bool.not_true, Bool.false_eq_true, if_false]
    have hi : island (modAna (waitFor b c) ch.val (fun a => { a with hartQueue := a.hartQueue ++ [(c, frame)] })) ch.val =
        { island b ch.val with hartQueue := [(c, frame)] } := by
      rw [island_modAna ch.isLt]
      show { island b ch.val with hartQueue := (island b ch.val).hartQueue ++ [(c, frame)] } = _
      rw [hq, List.nil_append]
    rw [hartHostNext_sends (by rw [hi]) (by rw [hi]; exact hb) (by rw [hi]; exact h5)]
    refine ⟨waits_waitFor hc, ?_⟩
    rw [island_modAna ch.isLt, hi]

end

/-- Settles O44: polls, replies, host frames and the field device's answers, each a change of the island's HART fields. -/
theorem hartTransactions : Obligations.HartTransactions := by
  intro s now ch c r frame fr reply n i a becomes
  refine ⟨fun hoff => ⟨?_, ?_, ?_⟩, fun hon => ⟨fun h => ?_, fun hm hb h5 => ?_, fun hb => ?_, fun hb hh hq => ⟨fun h => ?_,
    fun h => ?_, fun hv h0 => ?_, fun hv h3 hr => ?_⟩, fun hb hh hq => ⟨?_, fun hok hcnt => ?_⟩, fun h => ?_, fun h hf => ?_,
    fun h hok hreq had rc data hrep => ?_⟩, works_anaHart⟩
  · exact congrArg Host.Outcome.next (anaRow_off (op := fun s => hartPollOp s ch.val) hoff)
  · exact congrArg Host.Outcome.next (anaRow_off (op := fun s => hartReplyOp s ch.val reply) hoff)
  · exact congrArg Host.Outcome.next (anaRow_off (op := fun s => hartRequestOp s ch.val frame) hoff)
  · refine congrArg Host.Outcome.next ((anaRow_on (op := fun s => hartPollOp s ch.val) hon).trans (if_pos ?_))
    show (!hartMaster s ch.val || a.hartBusy || decide (a.step = some 5)) = true
    rw [Bool.or_eq_true, Bool.or_eq_true, Bool.not_eq_true', decide_eq_true_eq, or_assoc]
    exact h
  · refine congrArg Host.Outcome.next ((anaRow_on (op := fun s => hartPollOp s ch.val) hon).trans
      ((hartPollOp_sends (s := n) hm hb h5).trans ?_))
    rfl
  · refine (hartReply_row hon).trans (congrArg Host.Outcome.next (if_pos ?_))
    show (!a.hartBusy) = true
    rw [hb]
    rfl
  · exact hartReply_cyclic hon hb hh hq (fun _ => nofun) (cyclicMiss_retries (s := n) h) rfl
  · exact hartReply_cyclic hon hb hh hq (fun _ => nofun) (cyclicMiss_counts (s := n) h) rfl
  · refine hartReply_cyclic hon hb hh hq (fun _ he => ?_) ((if_pos hv).trans (cyclicReply_identity (s := n) h0)) rfl
    cases he
    exact replyValid_ok hv
  · refine hartReply_cyclic hon hb hh hq (fun _ he => ?_) ((if_pos hv).trans (cyclicReply_variables (s := n) h3 hr)) rfl
    cases he
    exact replyValid_ok hv
  · exact hartReply_host (reply := none) hon hb hh hq (fun _ => nofun)
  · obtain ⟨t, h1, h2, h3, -⟩ := hartReply_host (now := now) (reply := some fr) hon hb hh hq (fun _ he => by
      cases he
      exact ⟨hok, hcnt⟩)
    exact ⟨t, h1, h2, h3⟩
  · refine congrArg Host.Outcome.next ((anaRow_on (op := fun s => hartRequestOp s ch.val fr) hon).trans (if_pos ?_))
    show (!hartDeviceRole s ch.val) = true
    rw [h]
    rfl
  · refine congrArg Host.Outcome.next ((anaRow_on (op := fun s => hartRequestOp s ch.val fr) hon).trans
      ((if_neg ?_).trans (if_pos ?_)))
    · show ¬ (!hartDeviceRole s ch.val) = true
      rw [h]
      exact Bool.false_ne_true
    · rw [hf]
      rfl
  · exact congrArg Host.Outcome.next ((anaRow_on (op := fun s => hartRequestOp s ch.val fr) hon).trans
      (hartRequestOp_answers (s := n) h hok hreq had hrep))

end Sys2Proof.Machine
end

section
/-!
PROOFS. The end of a bistable update for which a stop waits (R532, R659, R669).
-/
namespace Sys2Proof.Machine

open Sys2Proof

/-! ### The end of a bistable update while the die waits to stop -/

/-- A requested DORMANT waits for the update in progress, and for no scan (R659). -/
def dormantWaits (s : State) (m : BitVec 16) : Prop :=
  noScan s = true ∧ s.power.failing = false ∧ s.power.stopping = true ∧ s.host.dormantWait = some m

theorem finishWaits_dormant {s : State} {m : BitVec 16} (h : dormantWaits s m) : finishWaits s = goDormant s m := by
  obtain ⟨hscan, hfail, hstop, hwait⟩ := h
  simp only [finishWaits, finishStop, hscan, hfail, hstop, hwait, Bool.not_true, Bool.false_eq_true, Bool.false_or, if_true,
    if_false]

/-- The last phase of an ordinary update, in range, while a full rewrite is due and no check is set (R532). -/
theorem phaseEndOp_last {s : State} {mv : Nat} {u : DspUpdate} {p : Nat × Bool} {k : Nat} (hu : s.dsp.update = some u)
    (hleft : u.left = [p]) (hmv : 100 * dspP s 8 ≤ mv) (hfull : u.full = none) (hk : s.dsp.rewrite = some k)
    (hcrc : checksCrc s = false) : phaseEndOp s mv = finishWaits (freeEnergy (modDsp s (fun d => { d with
      panel := pulseCommon d.panel u.target p.1 p.2, update := none, vdsp0 := mv, switches := true })) u.energy) := by
  have hlow : ¬ mv < 100 * dspP s 8 := Nat.not_lt.mpr hmv
  have hpulse : pulseDone s = modDsp s (fun d => { d with
      panel := pulseCommon d.panel u.target p.1 p.2, update := some { u with left := [] } }) := by
    simp only [pulseDone, hu, hleft]
  simp only [phaseEndOp, hu, hlow, decide_false, Bool.false_eq_true, if_false, hpulse]
  simp only [modDsp, List.isEmpty_nil, if_true, endUpdate, hfull, hk, freeEnergy, Option.isNone_some, Bool.false_eq_true,
    if_false]
  refine congrArg finishWaits (if_neg ?_)
  show ¬ checksCrc s = true
  rw [hcrc]
  exact Bool.false_ne_true

/-- The last phase of an update, on which a requested DORMANT waits. -/
def lastPhase : DspUpdate := ⟨[], [(0, true)], 0, none, 0⟩

def dormantAfterUpdate : State :=
  { setPar State.reset 0x1C03 0 with
    dsp := { State.reset.dsp with update := some lastPhase, rewrite := some 0 },
    host := { HostSt.reset with dormantWait := some 0 },
    power := { State.reset.power with failing := false, stopping := true } }

/-- Refutes O48: the phase that ends an update for which DEV.DORMANT waits sends the die to DORMANT (R659, R669), so the power
state does not stay. -/
theorem not_displayRules : ¬ Obligations.DisplayRules := by
  unfold Obligations.DisplayRules
  intro h
  obtain ⟨-, -, -, -, -, -, hphase, -⟩ :=
    h dormantAfterUpdate 0 ⟨.spi, 0⟩ 0 (100 * dspP dormantAfterUpdate 8) 0 0 0 lastPhase true []
  have hcrc : checksCrc dormantAfterUpdate = false := by decide
  obtain ⟨t, ht, -, hpower⟩ := (hphase rfl rfl).2.2 rfl (Nat.le_refl _) rfl rfl hcrc rfl
  have hrun : t = phaseEndOp (dormantAfterUpdate.at 0) (100 * dspP dormantAfterUpdate 8) := (Host.Outcome.next.inj ht).symm
  rw [phaseEndOp_last (s := dormantAfterUpdate.at 0) (mv := 100 * dspP dormantAfterUpdate 8) rfl rfl (Nat.le_refl _) rfl rfl hcrc,
    finishWaits_dormant (m := 0) ⟨by decide, rfl, rfl, rfl⟩] at hrun
  have hstopped : t.power.stopping = false := by rw [hrun]; rfl
  rw [hpower] at hstopped
  exact Bool.false_ne_true hstopped.symm

end Sys2Proof.Machine
end

section
/-!
PROOFS. The time register, its trim step, anchors and commands (R546-R563, R576).
-/
namespace Sys2Proof.Machine

open Sys2Proof

/-! ### Records of the clock -/

theorem clockEvent_keeps (s : State) (code : Nat) : ∃ l, clockEvent s code = { s with log := l } := log_rest ..

theorem clockEvent_host (s : State) (code : Nat) : (clockEvent s code).host = s.host := by
  obtain ⟨l, hl⟩ := clockEvent_keeps s code
  rw [hl]

/-- An anchor writes a record and notes its second (R576). -/
theorem anchor_keeps (s : State) (cause : Nat) :
    ∃ l, anchor s cause = { s with log := l, clock := { s.clock with anchorAt := s.power.opsec } } := by
  obtain ⟨l, hl, -, -⟩ := logRaw_keeps s 0x01 sevInfo 0x1C (le 8 s.tb ++ le 5 s.clock.sec ++ le 2 s.clock.sub ++ le 1 cause
    ++ leInt 2 (trimInForce s) ++ le 1 (par s 0x1D00) ++ le 1 s.power.band
    ++ (if s.clock.valid then calendarBytes s.clock.sec else List.replicate 8 0))
  refine ⟨l, ?_⟩
  simp only [anchor, hl]
  rfl

/-! ### The crystal tick -/

/-- The counts of the time in the trim bands after a tick (R569). -/
def tickBands (s : State) : Vector Nat 8 :=
  if dieRuns s then vmod s.clock.winBands s.power.band (· + 1) else s.clock.winBands

/-- A tick that loads no time: shift and correction give its counts, and the register advances by them. -/
theorem crystalTickOp_counts {s : State} (hset : s.clock.setPend = none) (hshift : s.clock.shiftPend = none) {n : Nat}
    {c e : Clock} (hcounts : tickCounts s.clock = (n, c)) {second : Bool} (hadv : advanceTime c n = (e, second))
    (hrange : e.sec ≤ lastSecond ∨ e.range = true) (hbands : e.winBands = s.clock.winBands) :
    crystalTickOp s = { s with clock := { e with secondDue := e.secondDue || second, winBands := tickBands s } } := by
  have hbegin : beginShift s.clock = s.clock := by simp only [beginShift, hshift]
  have hpass : (decide (lastSecond < e.sec) && !e.range) = false := by
    rcases hrange with h | h
    · rw [decide_eq_false (Nat.not_lt.mpr h), Bool.false_and]
    · rw [h, Bool.not_true, Bool.and_false]
  simp only [crystalTickOp, hset, hbegin, hcounts, hadv, hpass, Bool.false_and, Bool.false_eq_true, if_false, Bool.or_false,
    tickBands, hbands]

theorem advanceTime_within {c : Clock} {n : Nat} (hsec : c.sec ≤ lastSecond) (hsub : c.sub + n ≤ 32767) :
    advanceTime c n = ({ c with sub := c.sub + n }, false) := by
  have hmax : ¬ maxSeconds ≤ c.sec := by unfold maxSeconds lastSecond at *; omega
  rw [advanceTime, if_neg fun h => hmax h.1]
  exact if_neg (Nat.not_lt.mpr hsub)

theorem advanceTime_second {c : Clock} (hsec : c.sec ≤ lastSecond) (hsub : c.sub = 32767) :
    advanceTime c 1 = ({ c with sub := 0, sec := c.sec + 1 }, true) := by
  have hmax : ¬ maxSeconds ≤ c.sec := by unfold maxSeconds lastSecond at *; omega
  rw [advanceTime, if_neg fun h => hmax h.1, hsub]
  exact if_neg hmax

theorem advanceTime_end {c : Clock} (hsec : c.sec = maxSeconds) (hsub : c.sub = 32767) : advanceTime c 1 = (c, false) := by
  have h : maxSeconds ≤ c.sec ∧ 32767 ≤ c.sub + 1 - 1 := by omega
  rw [advanceTime, if_pos h, ← hsec, ← hsub]

theorem tickCounts_plain {c : Clock} (h : c.shiftLeft = 0) : tickCounts c =
    if 0 < c.corr then (2, { c with corr := c.corr - 1 })
    else if c.corr < 0 then (0, { c with corr := c.corr + 1 }) else (1, c) := by
  simp only [tickCounts, h, ne_eq, not_true_eq_false, false_and, if_false]

theorem tickCounts_forward {c : Clock} (h : 0 < c.shiftLeft) (hd : c.shiftDiv ≤ c.shiftTicks + 1) : tickCounts c =
    (2, { c with
      shiftLeft := c.shiftLeft - 1, shiftTicks := 0, shiftDone := c.shiftDone || decide (c.shiftLeft = 1) }) := by
  have hlast : decide (c.shiftLeft - 1 = 0) = decide (c.shiftLeft = 1) := decide_eq_decide.mpr (by omega)
  rw [tickCounts, ← hlast]
  refine (if_pos ⟨by omega, hd⟩).trans ?_
  simp only [h, if_true]

theorem tickCounts_backward {c : Clock} (h : c.shiftLeft < 0) (hd : c.shiftDiv ≤ c.shiftTicks + 1) : tickCounts c =
    (0, { c with
      shiftLeft := c.shiftLeft + 1, shiftTicks := 0, shiftDone := c.shiftDone || decide (c.shiftLeft = -1) }) := by
  have hlast : decide (c.shiftLeft + 1 = 0) = decide (c.shiftLeft = -1) := decide_eq_decide.mpr (by omega)
  have hneg : ¬ 0 < c.shiftLeft := by omega
  rw [tickCounts, ← hlast]
  refine (if_pos ⟨by omega, hd⟩).trans ?_
  simp only [hneg, if_false]

/-- A tick that loads a time sets the register, anchors it and ends TIME.SET (R555). -/
theorem crystalTickOp_loads {s : State} {sec : Nat} {r : CmdRef} (h : s.clock.setPend = some (sec, some r)) :
    let t := crystalTickOp s
    t.clock.sec = sec ∧ t.clock.sub = 0 ∧ t.clock.valid = true ∧ t.clock.bkpLost = false ∧ t.clock.shiftLeft = 0 ∧
      t.clock.setPend = none ∧ t.clock.anchorAt = s.power.opsec ∧ endsDone s t r [] := by
  obtain ⟨l, hl⟩ := anchor_keeps (modClock s (fun c => { c with
      sec, sub := 0, valid := true, range := false, bkpLost := false, shiftLeft := 0, shiftPend := none,
      shiftTicks := 0, shiftDone := false, setPend := none })) 3
  simp only [crystalTickOp, h, hl, doneNow?]
  have hclock : ∀ u : State, (doneNow u r []).clock = u.clock := fun u => (congrArg State.clock (hostRest_finishNow ..) :)
  rw [hclock]
  exact ⟨rfl, rfl, rfl, rfl, rfl, rfl, rfl, finishNow_endsDone { s with clock := _, log := l } r []⟩

theorem dieAt_par (s : State) (now : Tb) (p : Nat) : par (dieAt s now) p = par s p := by
  unfold dieAt
  split <;> rfl

/-! ### The trim step -/

theorem trimSecondOp_idle {s : State} (h : s.clock.secondDue = false) : trimSecondOp s = s := by
  simp only [trimSecondOp, h, Bool.not_false, if_true]

/-- At a second the correction takes up what the trim has gathered (R563). -/
theorem trimSecondOp_steps {s : State} (h : s.clock.secondDue = true) :
    let t := trimSecondOp s
    let acc := s.clock.acc + 32 * trimInForce s
    t.clock.secondDue = false ∧ t.clock.sec = s.clock.sec ∧ t.clock.sub = s.clock.sub ∧ { t with clock := s.clock } = s ∧
      (15625 ≤ acc → t.clock.acc = acc - 15625 ∧ t.clock.corr = s.clock.corr + 1) ∧
      (acc ≤ -15625 → t.clock.acc = acc + 15625 ∧ t.clock.corr = s.clock.corr - 1) ∧
      (-15625 < acc → acc < 15625 → t.clock.acc = acc ∧ t.clock.corr = s.clock.corr) := by
  intro t acc
  have ht : t = modClock s (fun c =>
      if 15625 ≤ acc then { c with acc := acc - 15625, corr := c.corr + 1, secondDue := false }
      else if acc ≤ -15625 then { c with acc := acc + 15625, corr := c.corr - 1, secondDue := false }
      else { c with acc, secondDue := false }) := if_neg (by rw [h]; exact Bool.false_ne_true)
  rw [ht]
  simp only [modClock]
  by_cases hup : 15625 ≤ acc
  · simp only [hup, if_true]
    exact ⟨trivial, trivial, trivial, trivial, fun _ => ⟨trivial, trivial⟩, fun _ => by omega, fun _ _ => by omega⟩
  · by_cases hdown : acc ≤ -15625
    · simp only [hup, hdown, if_true, if_false]
      exact ⟨trivial, trivial, trivial, trivial, nofun, fun _ => ⟨trivial, trivial⟩, fun _ _ => by omega⟩
    · simp only [hup, hdown, if_false]
      exact ⟨trivial, trivial, trivial, trivial, nofun, nofun, fun _ _ => ⟨trivial, trivial⟩⟩

/-- Noting the reference's presence leaves what the trim in force depends on. -/
theorem trimInForce_refSync (s : State) : trimInForce (refSync s) = trimInForce s := rfl

/-! ### Shifts and the source of the trim -/

theorem clampInt_eq {lo hi : Int} (h : lo ≤ hi) (v : Int) : clampInt lo hi v = max lo (min v hi) := by
  unfold clampInt
  split
  · omega
  · split <;> omega

/-- What is left of the shift in progress, or asked for (R557). -/
def shiftRest (c : Clock) : Int :=
  match c.shiftPend with
  | some (m, _) => m
  | none => c.shiftLeft

/-- The clock that has been asked for a further shift (R557, R559). -/
def shifted (c : Clock) (n : Int) (d : Nat) : Clock :=
  { c with
    shiftPend := some (clampInt (-32767) 32767 (shiftRest c + n), d), shiftLeft := clampInt (-32767) 32767 (shiftRest c + n),
    shiftDiv := d, shiftTicks := 0 }

theorem clockEvent_ite (p : Prop) [Decidable p] (s : State) (code : Nat) :
    ∃ l, (if p then clockEvent s code else s) = { s with log := l } := by
  split
  · exact clockEvent_keeps ..
  · exact ⟨s.log, rfl⟩

/-- A shift adds to the one in progress, within its limits, at the next tick. -/
theorem shiftBy_keeps (s : State) (n : Int) (d : Nat) :
    ∃ l, shiftBy s n d = { s with log := l, clock := shifted s.clock n d } := by
  obtain ⟨l, hl⟩ := clockEvent_ite (decide (shiftRest s.clock ≠ 0) = true) (modClock s (shifted · n d)) 9
  obtain ⟨l', hl'⟩ := clockEvent_ite (¬ clampInt (-32767) 32767 (shiftRest s.clock + n) = shiftRest s.clock + n)
    { s with log := l, clock := shifted s.clock n d } 4
  have hrow : shiftBy s n d = if clampInt (-32767) 32767 (shiftRest s.clock + n) = shiftRest s.clock + n then
      (if decide (shiftRest s.clock ≠ 0) = true then clockEvent (modClock s (shifted · n d)) 9
        else modClock s (shifted · n d))
      else clockEvent (if decide (shiftRest s.clock ≠ 0) = true then clockEvent (modClock s (shifted · n d)) 9
        else modClock s (shifted · n d)) 4 := rfl
  rw [ite_not] at hl'
  rw [hrow, hl]
  exact ⟨l', hl'⟩

/-- LOCKED ends or begins; nothing else of the clock changes (R567). -/
theorem setLocked_keeps (s : State) (b : Bool) :
    ∃ l, setLocked s b = { s with log := l, clock := { s.clock with locked := b } } := by
  unfold setLocked
  split
  next h =>
    refine ⟨s.log, ?_⟩
    rw [← h]
  · exact clockEvent_keeps ..

theorem setLocked_host (s : State) (b : Bool) : (setLocked s b).host = s.host := by
  obtain ⟨l, hl⟩ := setLocked_keeps s b
  rw [hl]

/-- A new source of the trim: the servo starts from the trim in force, not LOCKED (R567). -/
theorem setSource_changes {s : State} {source : Nat} (h : par s 0x1D00 ≠ source) :
    (setSource s source).clock.locked = false ∧ (setSource s source).clock.servo = trimInForce s ∧
      (setSource s source).params = (setPar s 0x1D00 source).params ∧ (setSource s source).host = s.host := by
  obtain ⟨l, hl⟩ := setLocked_keeps s false
  obtain ⟨l', hl'⟩ := clockEvent_keeps (setPar (setLocked s false) 0x1D00 source) 1
  have hwin : ∀ u : State, (newWindow (refSync (modClock u (fun c =>
      { c with servo := trimInForce s, refPresent := false, refAbsentAt := none })))).host = u.host := fun _ => rfl
  have hhost : (setSource s source).host = s.host := by
    rw [setSource, if_neg h, hwin, clockEvent_host]
    exact setLocked_host s false
  refine ⟨?_, ?_, ?_, hhost⟩ <;> rw [setSource, if_neg h, hl', hl] <;> rfl

theorem setSource_par (s : State) (source : Nat) : par (setSource s source) 0x1D00 = source := by
  by_cases h : par s 0x1D00 = source
  · rw [setSource, if_pos h, h]
  · have hp : par (setSource s source) 0x1D00 = par (setPar s 0x1D00 source) 0x1D00 :=
      congrArg (fun p : Params => smGet paramDefault p.eff 0x1D00) (setSource_changes h).2.2.1
    rw [hp, par_setPar, if_pos rfl]

theorem setSource_host (s : State) (source : Nat) : (setSource s source).host = s.host := by
  by_cases h : par s 0x1D00 = source
  · rw [setSource, if_pos h]
  · exact (setSource_changes h).2.2.2

/-! ### The commands -/

section
variable {s : State} {now : Tb} {c : CmdRef}

theorem works_timeSet (y mo d h mi se : Nat) : works s now c (.timeSet now c y mo d h mi se) (fun _ b t =>
    let v := secondsOf y mo d h mi se
    let ws := [lastSetMark b c v]
    (energyFor b (eGroup (groupPages ws)) = false → refuses t c stState 0x06 ∧ sameButResults b t) ∧
    (energyFor b (eGroup (groupPages ws)) = true → waits t c ∧ t.clock = { b.clock with setPend := some (v, some c) } ∧
      t.pstore = writeGroup b.pstore ws)) := by
  refine works_of (Eq.refl (execTimeSet now c y mo d h mi se s)) fun x hx => ?_
  have hc := findCmd_workState hx
  generalize workState s now c x = b at hc
  refine ⟨fun he => ?_, fun he => ?_⟩
  · simp only [timeSetOp, groupWrite_lacks he]
    exact refuseState_refuses hc 0x06
  · obtain ⟨u, hu, hps, hkeep⟩ := groupWrite_written he
    have hcu : findCmd u c = some _ := (congrArg (findCmd · c) hkeep :).trans hc
    have hclock : u.clock = b.clock := (congrArg State.clock hkeep :)
    simp only [timeSetOp, hu]
    refine ⟨waits_waitFor (by exact hcu), ?_, hps⟩
    exact congrArg (fun k : Clock => { k with setPend := some (secondsOf y mo d h mi se, some c) }) hclock

theorem works_timeShift (sh : Int) (div : Nat) : works s now c (.timeShift now c sh div) (fun _ b t =>
    (energyFor b (eGroup (groupPages [])) = false → refuses t c stState 0x06 ∧ sameButResults b t) ∧
    (energyFor b (eGroup (groupPages [])) = true → b.clock.shiftPend = none →
      let m := max (-32767) (min (b.clock.shiftLeft + sh) 32767)
      (∃ p, answers t c (le 8 p)) ∧ t.clock.sec = b.clock.sec ∧ t.clock.sub = b.clock.sub ∧
      t.clock.shiftPend = some (m, div))) := by
  refine works_of (Eq.refl (execTimeShift now c sh div s)) fun x hx => ?_
  have hc := findCmd_workState hx
  generalize workState s now c x = b at hc
  refine ⟨fun he => ?_, fun he hp => ?_⟩
  · simp only [timeShiftOp, groupWrite_lacks he]
    exact refuseState_refuses hc 0x06
  · obtain ⟨u, hu, -, hkeep⟩ := groupWrite_written he
    have hcu : findCmd u c = some _ := (congrArg (findCmd · c) hkeep :).trans hc
    have hclock : u.clock = b.clock := (congrArg State.clock hkeep :)
    obtain ⟨l, hl⟩ := shiftBy_keeps u sh div
    simp only [timeShiftOp, hu, hl]
    have hdone : ∀ (w : State) p, (done w c p).clock = w.clock := fun w p => setResult_keeps State.clock (fun _ _ => rfl) ..
    refine ⟨⟨_, done_answers (by exact hcu) _⟩, ?_, ?_, ?_⟩ <;> rw [hdone]
    · exact (congrArg Clock.sec hclock :)
    · exact (congrArg Clock.sub hclock :)
    · show some (clampInt (-32767) 32767 (shiftRest u.clock + sh), div) = _
      rw [clampInt_eq (by decide), hclock, shiftRest, hp]

theorem works_timeTrim (source : Nat) (fixed : Int) : works s now c (.timeTrim now c source fixed) (fun _ b t =>
    let v := unle (leInt 4 fixed)
    let ws : List PWrite :=
      [⟨.param, globalScope, 0x1D00, some (le 8 source)⟩, ⟨.param, globalScope, 0x1D01, some (le 8 v)⟩]
    (energyFor b (eGroup (groupPages ws)) = false → refuses t c stState 0x06 ∧ sameButResults b t) ∧
    (energyFor b (eGroup (groupPages ws)) = true → answers t c [] ∧ par t 0x1D00 = source ∧ par t 0x1D01 = v ∧
      (par b 0x1D00 ≠ source → t.clock.locked = false ∧ t.clock.servo = trimInForce b))) := by
  refine works_of (Eq.refl (execTimeTrim now c source fixed s)) fun x hx => ?_
  have hc := findCmd_workState hx
  generalize workState s now c x = b at hc
  intro v ws
  have hrow : timeTrimOp b c source fixed = (match groupWrite b ws with
    | none => refuseState b c 0x06
    | some s => done (setPar (setSource s source) 0x1D01 v) c []) := rfl
  refine ⟨fun he => ?_, fun he => ?_⟩
  · simp only [hrow, groupWrite_lacks he]
    exact refuseState_refuses hc 0x06
  · obtain ⟨u, hu, -, hkeep⟩ := groupWrite_written he
    have hcu : findCmd u c = some _ := (congrArg (findCmd · c) hkeep :).trans hc
    have hpar : par u 0x1D00 = par b 0x1D00 := (congrArg (par · 0x1D00) hkeep :)
    have htrim : trimInForce u = trimInForce b := (congrArg trimInForce hkeep :)
    have hparams : ∀ w : State, (done w c []).params = w.params := fun w => setResult_keeps State.params (fun _ _ => rfl) ..
    have hclock : ∀ w : State, (done w c []).clock = w.clock := fun w => setResult_keeps State.clock (fun _ _ => rfl) ..
    have hpid : ∀ p, par (done (setPar (setSource u source) 0x1D01 v) c []) p =
        par (setPar (setSource u source) 0x1D01 v) p := fun p => by rw [par, hparams, par]
    simp only [hrow, hu]
    have hcs : findCmd (setPar (setSource u source) 0x1D01 v) c = some _ :=
      (congrArg (fun h : HostSt => h.cmds.find? (fun x : Cmd => decide (x.ref = c))) (setSource_host u source)).trans hcu
    refine ⟨done_answers hcs [], ?_, ?_, fun hne => ?_⟩
    · rw [hpid, par_setPar, if_neg (by decide), setSource_par]
    · rw [hpid, par_setPar, if_pos rfl]
    · obtain ⟨h1, h2, -, -⟩ := setSource_changes (s := u) (by rw [hpar]; exact hne)
      rw [hclock]
      exact ⟨h1, h2.trans htrim⟩

/-! ### The rows -/

/-- A tick of the crystal that loads no time. -/
theorem crystalTick_counts (hset : s.clock.setPend = none) (hshift : s.clock.shiftPend = none) {n : Nat}
    {c e f : Clock} (hcounts : tickCounts s.clock = (n, c)) {second : Bool} (hadv : advanceTime c n = (e, second))
    (hrange : e.sec ≤ lastSecond ∨ e.range = true) (hbands : e.winBands = s.clock.winBands)
    (hf : { e with secondDue := e.secondDue || second } = f) :
    exec (.crystalTick now) s = .next { dieAt s now with clock := { f with winBands := tickBands s } } := by
  have hclock : (dieAt s now).clock = s.clock := by unfold dieAt; split <;> rfl
  have hruns : tickBands (dieAt s now) = tickBands s := by
    rw [tickBands, tickBands, dieRuns_dieAt, hclock, dieAt_power]
  refine congrArg Host.Outcome.next ((crystalTickOp_counts (s := dieAt s now) (by rw [hclock]; exact hset)
    (by rw [hclock]; exact hshift) (by rw [hclock]; exact hcounts) hadv hrange (by rw [hclock]; exact hbands)).trans ?_)
  rw [hruns, ← hf]

end

/-- Settles O49: what a tick counts, the trim step, anchors, and the clock's commands. -/
theorem clockTicksAndCommands : Obligations.ClockTicksAndCommands := by
  intro s now c r y mo d h mi se sec div source sh fixed n k tick bands ticked plain
  have hclock : n.clock = k := by
    show (dieAt s now).clock = s.clock
    unfold dieAt
    split <;> rfl
  have hpower : n.power = s.power := dieAt_power s now
  have hruns : dieRuns n = dieRuns s := dieRuns_dieAt s now
  refine ⟨fun ⟨h1, h2, h3⟩ hc hs hl => ?_, fun ⟨h1, h2, h3⟩ hc hs hl => ?_, fun ⟨h1, h2, h3⟩ hc hs hl hr => ?_,
    fun ⟨h1, h2, h3⟩ hc hs hl => ?_, fun ⟨h1, h2, h3⟩ hc hs hl => ?_, fun h1 h2 hd hs hl => ⟨fun hpos => ?_, fun hneg => ?_⟩,
    fun hset => ?_, fun hdue => ?_, fun hdue => ?_, fun hno => ?_, fun hdone hrun => ?_, fun hno => ?_, fun hrun hat => ?_,
    works_timeSet y mo d h mi se, works_timeShift sh div, works_timeTrim source fixed⟩
  · exact crystalTick_counts h1 h2 ((tickCounts_plain h3).trans ((if_neg (by omega)).trans (if_neg (by omega))))
      (advanceTime_within hl (by omega)) (.inl hl) rfl (by rw [Bool.or_false])
  · exact crystalTick_counts h1 h2 ((tickCounts_plain h3).trans ((if_neg (by omega)).trans (if_neg (by omega))))
      (advanceTime_second (Nat.le_of_lt hl) hs) (.inl hl) rfl (by rw [Bool.or_true])
  · exact crystalTick_counts h1 h2 ((tickCounts_plain h3).trans ((if_neg (by omega)).trans (if_neg (by omega))))
      (advanceTime_end hl hs) (.inr hr) rfl (by rw [Bool.or_false])
  · exact crystalTick_counts h1 h2 ((tickCounts_plain h3).trans (if_pos hc))
      (advanceTime_within (by exact hl) (by show k.sub + 2 ≤ 32767; omega)) (.inl hl) rfl (by rw [Bool.or_false])
  · exact crystalTick_counts h1 h2 ((tickCounts_plain h3).trans ((if_neg (by omega)).trans (if_pos hc)))
      (advanceTime_within (by exact hl) (by show k.sub + 0 ≤ 32767; omega)) (.inl hl) rfl (by rw [Bool.or_false]; rfl)
  · exact crystalTick_counts h1 h2 (tickCounts_forward hpos hd)
      (advanceTime_within (by exact hl) (by show k.sub + 2 ≤ 32767; omega)) (.inl hl) rfl (by rw [Bool.or_false])
  · exact crystalTick_counts h1 h2 (tickCounts_backward hneg hd)
      (advanceTime_within (by exact hl) (by show k.sub + 0 ≤ 32767; omega)) (.inl hl) rfl (by rw [Bool.or_false]; rfl)
  · obtain ⟨h1, h2, h3, h4, h5, h6, h7, h8⟩ := crystalTickOp_loads (s := n) (by rw [hclock]; exact hset)
    exact ⟨_, rfl, h1, h2, h3, h4, h5, h6, h7.trans (by rw [hpower]), h8⟩
  · refine ⟨_, rfl, ?_⟩
    have hstay : ∀ u : State, u.clock.secondDue = false → trimSecondOp u = u := fun _ => trimSecondOp_idle
    rw [dieRuns_dieAt, hstay]
    · split
      · exact ⟨(congrArg Clock.acc hclock :), (congrArg Clock.corr hclock :)⟩
      · exact ⟨(congrArg Clock.acc hclock :), (congrArg Clock.corr hclock :)⟩
    · split
      · exact (congrArg Clock.secondDue hclock :).trans hdue
      · exact (congrArg Clock.secondDue hclock :).trans hdue
  · have hfix : ∀ u : State, u.clock.acc = k.acc → u.clock.corr = k.corr → u.clock.secondDue = k.secondDue →
        u.clock.sec = k.sec → u.clock.sub = k.sub → trimInForce u = trimInForce s → { u with clock := s.clock } = n →
        let t := trimSecondOp u
        t.clock.secondDue = false ∧ t.clock.sec = k.sec ∧ t.clock.sub = k.sub ∧ { t with clock := s.clock } = n ∧
          (let acc := k.acc + 32 * trimInForce s
           (15625 ≤ acc → t.clock.acc = acc - 15625 ∧ t.clock.corr = k.corr + 1) ∧
           (acc ≤ -15625 → t.clock.acc = acc + 15625 ∧ t.clock.corr = k.corr - 1) ∧
           (-15625 < acc → acc < 15625 → t.clock.acc = acc ∧ t.clock.corr = k.corr)) := by
      intro u hacc hcorr hd hsec hsub htrim hrest
      obtain ⟨h1, h2, h3, h4, h5⟩ := trimSecondOp_steps (hd.trans hdue)
      rw [hacc, hcorr, htrim] at h5
      exact ⟨h1, h2.trans hsec, h3.trans hsub,
        (congrArg (fun t : State => { t with clock := s.clock }) h4 :).trans hrest, h5⟩
    have htrim : trimInForce n = trimInForce s := by
      show trimInForce (dieAt s now) = _
      unfold dieAt
      split <;> rfl
    have hself : { n with clock := s.clock } = n := by rw [show s.clock = n.clock from hclock.symm]
    refine ⟨_, rfl, ?_⟩
    rw [dieRuns_dieAt]
    split
    · exact hfix (refSync n) (congrArg Clock.acc hclock :) (congrArg Clock.corr hclock :) (congrArg Clock.secondDue hclock :)
        (congrArg Clock.sec hclock :) (congrArg Clock.sub hclock :) ((trimInForce_refSync n).trans htrim) hself
    · exact hfix n (congrArg Clock.acc hclock :) (congrArg Clock.corr hclock :) (congrArg Clock.secondDue hclock :)
        (congrArg Clock.sec hclock :) (congrArg Clock.sub hclock :) htrim hself
  · refine congrArg Host.Outcome.next (if_neg ?_)
    show ¬ (n.clock.shiftDone && dieRuns n) = true
    rw [hclock, hruns]
    rcases hno with h | h <;> rw [h]
    · rw [Bool.false_and]
      exact Bool.false_ne_true
    · rw [Bool.and_false]
      exact Bool.false_ne_true
  · obtain ⟨l, hl⟩ := anchor_keeps (modClock n (fun c => { c with shiftDone := false })) 4
    refine ⟨_, congrArg Host.Outcome.next (if_pos ?_), ?_⟩
    · show (n.clock.shiftDone && dieRuns n) = true
      rw [hclock, hruns, hdone, hrun]
      rfl
    · rw [hl]
      show { n.clock with shiftDone := false, anchorAt := n.power.opsec } = _
      rw [hclock, hpower]
  · refine congrArg Host.Outcome.next (if_neg ?_)
    show ¬ (dieRuns n && decide (n.clock.anchorAt + par n 0x1E00 ≤ n.power.opsec)) = true
    rw [hclock, hruns, hpower, show par n 0x1E00 = par s 0x1E00 from dieAt_par s now _]
    rcases hno with h | h
    · rw [h, Bool.false_and]
      exact Bool.false_ne_true
    · rw [decide_eq_false (Nat.not_le.mpr h), Bool.and_false]
      exact Bool.false_ne_true
  · obtain ⟨l, hl⟩ := anchor_keeps n 0
    refine ⟨_, congrArg Host.Outcome.next (if_pos ?_), ?_⟩
    · show (dieRuns n && decide (n.clock.anchorAt + par n 0x1E00 ≤ n.power.opsec)) = true
      rw [hclock, hruns, hpower, show par n 0x1E00 = par s 0x1E00 from dieAt_par s now _, hrun, decide_eq_true hat]
      rfl
    · rw [hl]
      show { n.clock with anchorAt := n.power.opsec } = _
      rw [hclock, hpower]

end Sys2Proof.Machine
end

section
/-!
PROOFS. Time references, their absence, and the servo's windows (R517, R556, R565-R569).
-/
namespace Sys2Proof.Machine

open Sys2Proof

/-! ### Points of the servo's window -/

section
variable {s : State} {l : Line}

theorem windowPoint_keeps {α : Type} (f : Clock → α) (h : ∀ c x y, f { c with winFirst := x, winLast := y } = f c) (u : State)
    (ref rtc : Nat) : f (windowPoint u ref rtc).clock = f u.clock := by
  unfold windowPoint modClock
  simp only
  split <;> exact h u.clock _ _

theorem windowPoint_first {u : State} (h : u.clock.winFirst = none) (ref rtc : Nat) :
    (windowPoint u ref rtc).clock.winFirst = some (ref, rtc) := by
  unfold windowPoint modClock
  simp only
  rw [if_pos (by rw [h]; rfl)]

theorem windowPoint_last {u : State} (h : u.clock.winFirst ≠ none) (ref rtc : Nat) :
    (windowPoint u ref rtc).clock.winLast = some (ref, rtc) := by
  unfold windowPoint modClock
  simp only
  rw [if_neg (by rwa [Option.isNone_iff_eq_none])]

/-- The clock at a crossing of LREF, its reference looked at before and after. -/
def crossed (s : State) (p : Nat) : State :=
  refSync (modClock (refSync s) (fun c => { c with lrefPeriodUs := p, lrefAt := s.tb, lrefCount := c.lrefCount + 1 }))

theorem crossed_fields (s : State) (p : Nat) :
    let c := (crossed s p).clock
    c.lrefPeriodUs = p ∧ c.lrefAt = s.tb ∧ c.lrefCount = s.clock.lrefCount + 1 ∧ c.sec = s.clock.sec ∧ c.sub = s.clock.sub ∧
      c.locked = s.clock.locked ∧ c.winFirst = s.clock.winFirst ∧ c.winLast = s.clock.winLast :=
  ⟨rfl, rfl, rfl, rfl, rfl, rfl, rfl, rfl⟩

theorem refSync_rest (s : State) : ∃ k, refSync s = { s with clock := k } := ⟨_, rfl⟩

theorem crossed_rest (s : State) (p : Nat) : { crossed s p with clock := s.clock } = s := by
  obtain ⟨k, hk⟩ := refSync_rest s
  obtain ⟨k', hk'⟩ := refSync_rest (modClock { s with clock := k } (fun c => { c with
    lrefPeriodUs := p, lrefAt := s.tb, lrefCount := c.lrefCount + 1 }))
  rw [crossed, hk, hk']
  rfl

/-- A crossing of LREF is counted with its period; with source 1 it is a point of the window (R566). -/
theorem lrefOp_counts (s : State) (p : Nat) :
    let t := lrefOp s p
    t.clock.lrefPeriodUs = p ∧ t.clock.lrefAt = s.tb ∧ t.clock.lrefCount = s.clock.lrefCount + 1 ∧
      t.clock.sec = s.clock.sec ∧ t.clock.sub = s.clock.sub ∧ t.clock.locked = s.clock.locked ∧
      { t with clock := s.clock } = s ∧
      (par s 0x1D00 ≠ 1 → t.clock.winFirst = s.clock.winFirst ∧ t.clock.winLast = s.clock.winLast) ∧
      (par s 0x1D00 = 1 → s.clock.winFirst = none →
        t.clock.winFirst = some (s.clock.lrefCount + 1, rtcCount s.clock)) ∧
      (par s 0x1D00 = 1 → s.clock.winFirst ≠ none →
        t.clock.winLast = some (s.clock.lrefCount + 1, rtcCount s.clock)) := by
  intro t
  obtain ⟨h1, h2, h3, h4, h5, h6, h7, h8⟩ := crossed_fields s p
  have ht : t = if par s 0x1D00 = 1 then windowPoint (crossed s p) (s.clock.lrefCount + 1) (rtcCount s.clock)
    else crossed s p := rfl
  have hrest := crossed_rest s p
  generalize crossed s p = u at *
  rw [ht]
  by_cases hs : par s 0x1D00 = 1
  · rw [if_pos hs]
    refine ⟨?_, ?_, ?_, ?_, ?_, ?_, hrest, fun h => absurd hs h, fun _ hw => ?_, fun _ hw => ?_⟩
    · exact (windowPoint_keeps Clock.lrefPeriodUs (fun _ _ _ => rfl) ..).trans h1
    · exact (windowPoint_keeps Clock.lrefAt (fun _ _ _ => rfl) ..).trans h2
    · exact (windowPoint_keeps Clock.lrefCount (fun _ _ _ => rfl) ..).trans h3
    · exact (windowPoint_keeps Clock.sec (fun _ _ _ => rfl) ..).trans h4
    · exact (windowPoint_keeps Clock.sub (fun _ _ _ => rfl) ..).trans h5
    · exact (windowPoint_keeps Clock.locked (fun _ _ _ => rfl) ..).trans h6
    · exact windowPoint_first (h7.trans hw) ..
    · exact windowPoint_last (by rw [h7]; exact hw) ..
  · rw [if_neg hs]
    exact ⟨h1, h2, h3, h4, h5, h6, hrest, fun _ => ⟨h7, h8⟩, fun h => absurd h hs, fun h => absurd h hs⟩

/-! ### Reference frames -/

/-- The line once a time-reference frame is recorded (R517). -/
def refLine (s : State) (f : CanFrame) (b : BusLine) : BusLine :=
  let valid := decide (field f.data 7 1 / 2 % 2 = 1)
  { b with
    timeRefPrev := some (postmark s, s.clock.sec, s.clock.sub),
    timeRef := some (postmark s, s.clock.sec, s.clock.sub, field f.data 0 5 % 2 ^ 34, field f.data 5 2 % 32768, valid),
    timeRefOk := b.timeRefOk || valid, timeRefAt := if valid then s.tb else b.timeRefAt }

/-- The time that a reference frame carries, in counts. -/
def carriedTime (f : CanFrame) : Nat := 32768 * (field f.data 0 5 % 2 ^ 34) + field f.data 5 2 % 32768

/-- The state with the frame recorded and its reference's presence noted. -/
def refNoted (s : State) (l : Line) (f : CanFrame) : State := refSync (modLine s l (refLine s f))

theorem refNoted_line (s : State) (l : Line) (f : CanFrame) :
    lineOfBus (refNoted s l f) l = refLine s f (lineOfBus s l) := by
  cases l <;> rfl

theorem refSync_keeps {α : Type} (f : Clock → α)
    (h : ∀ c x y z, f { c with refPresent := x, refAbsentAt := y, winBad := z } = f c) (s : State) :
    f (refSync s).clock = f s.clock := h s.clock _ _ _

theorem refNoted_keeps {α : Type} (g : Clock → α)
    (h : ∀ c x y z, g { c with refPresent := x, refAbsentAt := y, winBad := z } = g c) (s : State) (l : Line) (f : CanFrame) :
    g (refNoted s l f).clock = g s.clock :=
  (refSync_keeps g h _).trans (by cases l <;> rfl)

/-- A frame that is the master's own reference. -/
def isReference (s : State) (l : Line) (f : CanFrame) : Prop :=
  busP s l 0xE ≠ 0 ∧ f.ext = false ∧ f.id = 128 + busP s l 0xE ∧ lineReceives s l = true

theorem timeRefOp_other {f : CanFrame} (h : busP s l 0xE = 0 ∨ f.ext = true ∨ f.id ≠ 128 + busP s l 0xE ∨
    lineReceives s l = false) : timeRefOp s l f = s := by
  refine if_pos ?_
  rw [Bool.or_eq_true, Bool.or_eq_true, Bool.or_eq_true, Bool.not_eq_true', decide_eq_true_eq, decide_eq_true_eq, or_assoc,
    or_assoc]
  exact h

theorem timeRefOp_notes {f : CanFrame} (h : isReference s l f) : timeRefOp s l f =
    match refRtc (lineOfBus s l) (decide (field f.data 7 1 % 2 = 1)) (rtcCount s.clock) with
    | some r => if decide (field f.data 7 1 / 2 % 2 = 1) && decide (sourceLine (refNoted s l f) = some l) then
        useReference (refNoted s l f) (carriedTime f) r else refNoted s l f
    | none => refNoted s l f := by
  obtain ⟨h1, h2, h3, h4⟩ := h
  have hgo : ¬ (decide (busP s l 0xE = 0) || f.ext || decide (f.id ≠ 128 + busP s l 0xE) || !lineReceives s l) = true := by
    simp [h1, h2, h3, h4]
  exact if_neg hgo

theorem sourceLine_refNoted (s : State) (l : Line) (f : CanFrame) : sourceLine (refNoted s l f) = sourceLine s := by
  cases l <;> rfl

/-- A time from the bus sets the clock and is anchored (R556). -/
theorem setFromBus_sets (u : State) (sec sub : Nat) : ∃ lg, setFromBus u sec sub = { u with
    log := lg, clock := { u.clock with sec, sub, valid := true, bkpLost := false, anchorAt := u.power.opsec } } := by
  obtain ⟨lg, hlg⟩ := clockEvent_keeps (modClock u (fun c => { c with sec, sub, valid := true, bkpLost := false })) 7
  obtain ⟨lg', hlg'⟩ := anchor_keeps (clockEvent (modClock u (fun c => { c with sec, sub, valid := true, bkpLost := false })) 7) 2
  refine ⟨lg', ?_⟩
  rw [setFromBus, hlg', hlg]
  rfl

theorem useReference_line (u : State) (carried rtc : Nat) (l : Line) :
    lineOfBus (useReference u carried rtc) l = lineOfBus u l := by
  unfold useReference
  split
  · obtain ⟨lg, hlg⟩ := setFromBus_sets u ((carried + (rtcCount u.clock - rtc)) / 32768)
      ((carried + (rtcCount u.clock - rtc)) % 32768)
    simp only [hlg]
    cases l <;> rfl
  · cases l <;> rfl

/-- What a reference frame leaves (R517, R556). -/
theorem timeRefOp_result {f : CanFrame} (h : isReference s l f) :
    let t := timeRefOp s l f
    let secs := field f.data 0 5 % 2 ^ 34
    let subs := field f.data 5 2 % 32768
    let flags := field f.data 7 1
    let valid := decide (flags / 2 % 2 = 1)
    lineOfBus t l = refLine s f (lineOfBus s l) ∧
      (valid = false ∨ sourceLine s ≠ some l → t.clock.sec = s.clock.sec ∧ t.clock.valid = s.clock.valid) ∧
      (valid = true → flags % 2 = 0 → sourceLine s = some l → s.clock.valid = false → par s 0x1D04 = 1 →
        t.clock.sec = secs ∧ t.clock.sub = subs ∧ t.clock.valid = true) ∧
      (valid = true → flags % 2 = 0 → sourceLine s = some l → s.clock.valid = true → s.clock.winFirst = none →
        t.clock.winFirst = some (32768 * secs + subs, rtcCount s.clock) ∧ t.clock.sec = s.clock.sec) := by
  intro t secs subs flags valid
  have ht : t = _ := timeRefOp_notes h
  rw [sourceLine_refNoted] at ht
  have hline := refNoted_line s l f
  have hsec : (refNoted s l f).clock.sec = s.clock.sec := refNoted_keeps Clock.sec (fun _ _ _ _ => rfl) ..
  have hvalid : (refNoted s l f).clock.valid = s.clock.valid := refNoted_keeps Clock.valid (fun _ _ _ _ => rfl) ..
  have hwin : (refNoted s l f).clock.winFirst = s.clock.winFirst := refNoted_keeps Clock.winFirst (fun _ _ _ _ => rfl) ..
  have hrtc : rtcCount (refNoted s l f).clock = rtcCount s.clock := refNoted_keeps rtcCount (fun _ _ _ _ => rfl) ..
  have hpar : par (refNoted s l f) 0x1D04 = par s 0x1D04 := by cases l <;> rfl
  have huses : valid = true → flags % 2 = 0 → sourceLine s = some l →
      t = useReference (refNoted s l f) (carriedTime f) (rtcCount s.clock) := fun hv hf hs => by
    have hno : decide (field f.data 7 1 % 2 = 1) = false := decide_eq_false (by show ¬ flags % 2 = 1; omega)
    rw [ht, hno]
    exact if_pos (by rw [hs, decide_eq_true rfl, Bool.and_true]; exact hv)
  generalize refNoted s l f = u at *
  refine ⟨?_, fun hno => ?_, fun hv hf hs hk hp => ?_, fun hv hf hs hk hw => ?_⟩
  · rw [ht, ← hline]
    split
    · split
      · exact useReference_line ..
      · rfl
    · rfl
  · have hstay : (valid && decide (sourceLine s = some l)) = false := by
      rcases hno with h | h
      · rw [h, Bool.false_and]
      · rw [decide_eq_false h, Bool.and_false]
    have hu : t = u := by
      rw [ht]
      split
      · exact if_neg (by rw [hstay]; exact Bool.false_ne_true)
      · rfl
    rw [hu]
    exact ⟨hsec, hvalid⟩
  · have hset : useReference u (carriedTime f) (rtcCount s.clock) =
        setFromBus u (carriedTime f / 32768) (carriedTime f % 32768) := by
      have hgo : (decide (par u 0x1D04 = 1) && !u.clock.valid) = true := by rw [hpar, hp, hvalid, hk]; rfl
      rw [useReference, if_pos hgo, hrtc, Nat.sub_self, Nat.add_zero]
    obtain ⟨lg, hlg⟩ := setFromBus_sets u (carriedTime f / 32768) (carriedTime f % 32768)
    rw [huses hv hf hs, hset, hlg]
    refine ⟨?_, ?_, rfl⟩
    · show carriedTime f / 32768 = secs
      unfold carriedTime
      omega
    · show carriedTime f % 32768 = subs
      unfold carriedTime
      omega
  · have hset : useReference u (carriedTime f) (rtcCount s.clock) = windowPoint u (carriedTime f) (rtcCount s.clock) := by
      refine if_neg ?_
      rw [hvalid, hk, Bool.not_true, Bool.and_false]
      exact Bool.false_ne_true
    rw [huses hv hf hs, hset]
    exact ⟨windowPoint_first (hwin.trans hw) .., (windowPoint_keeps Clock.sec (fun _ _ _ => rfl) ..).trans hsec⟩

/-! ### The end of a window -/

/-- What the end of a window that counts fixes before steering. -/
def servoView (s : State) : Nat × Nat × Nat × Int × Bool × Bool :=
  (s.tb, s.clock.sec, s.clock.sub, s.clock.servo, s.clock.servoValid, s.clock.locked)

theorem servoView_clockEvent (u : State) (code : Nat) : servoView (clockEvent u code) = servoView u := by
  obtain ⟨lg, hlg⟩ := clockEvent_keeps u code
  rw [hlg]
  rfl

theorem servoView_shiftBy (u : State) (n : Int) (d : Nat) : servoView (shiftBy u n d) = servoView u := by
  obtain ⟨lg, hlg⟩ := shiftBy_keeps u n d
  rw [hlg]
  rfl

theorem servoView_steer (u : State) : servoView (steer u) = servoView u := by
  unfold steer
  split
  · split
    · rfl
    · simp only
      split
      · exact servoView_clockEvent ..
      split
      · exact (servoView_clockEvent ..).trans (servoView_shiftBy ..)
      · rfl
  · rfl

theorem servoView_writeLearned (u : State) : servoView (writeLearned u) = servoView u := by
  unfold writeLearned
  simp only
  split
  · rfl
  next w hw => exact (congrArg servoView (groupWrite_keeps hw) :)

theorem windowCounts_view (u : State) (e : Int) : servoView (windowCounts u e) =
    (u.tb, u.clock.sec, u.clock.sub, clampInt (-4096) 4095 (trimInForce u + clampInt (-256) 256 (-e)), true, true) := by
  unfold windowCounts
  simp only
  rw [servoView_steer]
  generalize hw : (if u.clock.locked = true then learn u (clampInt (-4096) 4095 (trimInForce u + clampInt (-256) 256 (-e)))
    else u) = w
  have htb : w.tb = u.tb := by subst hw; split <;> rfl
  have hsec : w.clock.sec = u.clock.sec := by subst hw; split <;> rfl
  have hsub : w.clock.sub = u.clock.sub := by subst hw; split <;> rfl
  obtain ⟨lg, hlg⟩ := setLocked_keeps (modClock w (fun c => { c with
    servo := clampInt (-4096) 4095 (trimInForce u + clampInt (-256) 256 (-e)), servoValid := true })) true
  have hview : servoView (setLocked (modClock w (fun c => { c with
      servo := clampInt (-4096) 4095 (trimInForce u + clampInt (-256) 256 (-e)), servoValid := true })) true) =
      (u.tb, u.clock.sec, u.clock.sub, clampInt (-4096) 4095 (trimInForce u + clampInt (-256) 256 (-e)), true, true) := by
    rw [hlg, ← htb, ← hsec, ← hsub]
    rfl
  split
  · rw [servoView_writeLearned, hview]
  · exact hview

theorem servoOp_ends (hs : par s 0x1D00 ≠ 0) (h4 : par s 0x1D00 < 4) (hat : s.clock.winAt + s.clock.winLen ≤ s.tb) :
    servoOp s = newWindow (if (refSync s).clock.winBad then refSync s
      else match windowError (refSync s) with
        | none => refSync s
        | some e => windowCounts (refSync s) e) :=
  if_neg fun h => h.elim hs fun h => h.elim (Nat.not_le.mpr h4) (Nat.not_lt.mpr hat)

theorem windowError_refSync (s : State) : windowError (refSync s) = windowError s := rfl

end

/-- Settles O50: points from crossings and frames, absence of the reference, and the servo's windows. -/
theorem timeReferencesAndServo : Obligations.TimeReferencesAndServo := by
  intro s now l f p u e n k source ref
  refine ⟨fun hoff i hi => ?_, fun hon => ⟨⟨_, congrArg Host.Outcome.next (if_pos hon), lrefOp_counts n p⟩, fun h => ?_,
    fun h1 h2 h3 h4 => ?_, ⟨fun h => ?_, fun h => ?_⟩, fun h => ?_, fun h hp hu => ?_, fun h => ?_,
    fun h0 h4 hat => ⟨fun h => ?_, fun hbad hpres he => ?_⟩⟩⟩
  · have hoff' : ¬ dieRuns s = true := ne_true_of_eq_false hoff
    rcases hi with rfl | rfl | rfl | rfl | rfl
    · exact congrArg Host.Outcome.next (if_neg hoff')
    · exact congrArg Host.Outcome.next (if_neg hoff')
    · exact congrArg Host.Outcome.next (if_neg hoff')
    · refine congrArg Host.Outcome.next ?_
      simp only [hoff, Bool.false_and, Bool.false_eq_true, if_false]
      cases s.clock.refAbsentAt <;> rfl
    · exact congrArg Host.Outcome.next (if_neg hoff')
  · exact congrArg Host.Outcome.next ((if_pos hon).trans (timeRefOp_other (s := n) h))
  · obtain ⟨hline, hrest⟩ := timeRefOp_result (s := n) (l := l) (f := f) ⟨h1, h2, h3, h4⟩
    exact ⟨_, congrArg Host.Outcome.next (if_pos hon), congrArg BusLine.timeRef hline, congrArg BusLine.timeRefPrev hline,
      congrArg BusLine.timeRefOk hline, fun hv => (congrArg BusLine.timeRefAt hline).trans (if_pos hv), hrest⟩
  · refine congrArg Host.Outcome.next ((if_pos hon).trans (if_neg ?_))
    show ¬ ((lineOfBus s l).timeRefOk && decide ((lineOfBus s l).timeRefAt + msToTb 2000 ≤ n.tb)) = true
    rw [Bool.and_eq_true, decide_eq_true_eq]
    exact h
  · refine ⟨_, congrArg Host.Outcome.next ((if_pos hon).trans (if_pos ?_)), ?_⟩
    · show ((lineOfBus s l).timeRefOk && decide ((lineOfBus s l).timeRefAt + msToTb 2000 ≤ n.tb)) = true
      rw [Bool.and_eq_true, decide_eq_true_eq]
      exact h
    · exact lineOfBus_modLine n l _
  · have hnone : (refSync n).clock.refAbsentAt = none := if_pos h
    refine ⟨refSync n, congrArg Host.Outcome.next ?_, refSync_keeps Clock.locked (fun _ _ _ _ => rfl) n, hnone⟩
    simp only [hon, if_true]
    rw [hnone]
  · have hsince : (refSync n).clock.refAbsentAt = some u := by
      show (if refPresentNow n then none else if n.clock.refPresent || n.clock.refAbsentAt.isNone then _ else
        n.clock.refAbsentAt) = some u
      rw [h, show n.clock.refPresent = false from hp, show n.clock.refAbsentAt = some u from hu]
      rfl
    have hrow : exec (.referenceAbsentTimeout now) s = .next
        (if dieRuns (refSync n) && decide (u + msToTb 10000 ≤ n.tb) then setLocked (refSync n) false else refSync n) := by
      refine congrArg Host.Outcome.next ?_
      simp only [hon, if_true]
      rw [hsince]
      rfl
    refine ⟨_, hrow, ?_⟩
    rw [show dieRuns (refSync n) = true from hon, Bool.true_and]
    by_cases hlate : u + msToTb 10000 ≤ n.tb
    · rw [if_pos (decide_eq_true hlate), decide_eq_false (Nat.not_lt.mpr hlate), Bool.and_false]
      obtain ⟨lg, hlg⟩ := setLocked_keeps (refSync n) false
      rw [hlg]
    · rw [if_neg (by rw [decide_eq_true_eq]; exact hlate), decide_eq_true (Nat.not_le.mp hlate), Bool.and_true]
      exact refSync_keeps Clock.locked (fun _ _ _ _ => rfl) n
  · exact congrArg Host.Outcome.next ((if_pos hon).trans (if_pos h))
  · have hstay : (if (refSync n).clock.winBad then refSync n else match windowError (refSync n) with
        | none => refSync n
        | some e => windowCounts (refSync n) e) = refSync n := by
      split
      · rfl
      next hgood =>
        have hbad : ¬ (k.winBad || !refPresentNow n) = true := hgood
        have he : windowError (refSync n) = none := by
          rcases h with h | h | h
          · exact absurd (by rw [h]; rfl) hbad
          · exact absurd (by rw [h, Bool.not_false, Bool.or_true]) hbad
          · exact h
        rw [he]
    refine ⟨_, congrArg Host.Outcome.next ((if_pos hon).trans ((servoOp_ends (s := n) h0 h4 hat).trans
      (congrArg newWindow hstay))), ?_⟩
    exact ⟨refSync_keeps Clock.servo (fun _ _ _ _ => rfl) n, refSync_keeps Clock.locked (fun _ _ _ _ => rfl) n, rfl, rfl⟩
  · have hgo : (if (refSync n).clock.winBad then refSync n else match windowError (refSync n) with
        | none => refSync n
        | some e => windowCounts (refSync n) e) = windowCounts (refSync n) e := by
      have hgood : (refSync n).clock.winBad = false := by
        show (k.winBad || !refPresentNow n) = false
        rw [hbad, hpres]
        rfl
      rw [hgood, windowError_refSync, show windowError n = some e from he]
      rfl
    have hview := windowCounts_view (refSync n) e
    refine ⟨_, congrArg Host.Outcome.next ((if_pos hon).trans ((servoOp_ends (s := n) h0 h4 hat).trans
      (congrArg newWindow hgo))), ?_⟩
    generalize windowCounts (refSync n) e = w at hview
    simp only [servoView, Prod.mk.injEq] at hview
    obtain ⟨htb, hsec, hsub, hservo, hval, hlock⟩ := hview
    refine ⟨hservo.trans ?_, hlock, hval, htb, rfl, hsec, hsub⟩
    rw [clampInt_eq (by decide), clampInt_eq (by decide)]
    rfl

end Sys2Proof.Machine
end

section
/-!
PROOFS. The cyclic exchange of a bus line and its transmissions (R483-R487, R496, R499-R501, R505, R513).
-/
namespace Sys2Proof.Machine

open Sys2Proof

/-! ### One line of the bus -/

section
variable {s : State} {l : Line}

/-- What a line becomes depends on what it is. -/
theorem modLine_congr {f g : BusLine → BusLine} (h : f (lineOfBus s l) = g (lineOfBus s l)) : modLine s l f = modLine s l g := by
  cases l
  · exact congrArg (fun b => { s with busA := b }) h
  · exact congrArg (fun b => { s with busB := b }) h

theorem modLine_rest (s : State) (l : Line) (f : BusLine → BusLine) (x y : BusLine) :
    { modLine s l f with busA := x, busB := y } = { s with busA := x, busB := y } := by
  cases l <;> rfl

/-- A change of one line that is put on record leaves the other line and everything else. -/
theorem logged_modLine {f : BusLine → BusLine} {b : BusLine} (h : f (lineOfBus s l) = b)
    (type sev src subject code : Nat) (vals : List Byte) :
    let t := log (modLine s l f) type sev src subject code vals
    lineOfBus t l = b ∧ (∀ j, j ≠ l → lineOfBus t j = lineOfBus s j) ∧
      { t with busA := s.busA, busB := s.busB, log := s.log } = s := by
  obtain ⟨lg, hl⟩ := log_rest (modLine s l f) type sev src subject code vals
  intro t
  have ht : t = { modLine s l f with log := lg } := hl
  rw [ht, ← h]
  exact ⟨by cases l <;> rfl, fun j hj => by cases l <;> cases j <;> trivial, by cases l <;> rfl⟩

theorem lineOfBus_doneNow (s : State) (c : CmdRef) (p : List Byte) (l : Line) : lineOfBus (doneNow s c p) l = lineOfBus s l :=
  (congrArg (lineOfBus · l) (hostRest_finishNow s c stDone 0 0 p) :)

/-! ### Transmit buffers -/

theorem fillOne_keeps {α : Type} (f : BusLine → α) (h : ∀ b x y, f { b with txb := x, outQueue := y } = f b) (b : BusLine)
    (k : Nat) : f (fillOne b k) = f b := by
  unfold fillOne
  split
  · rfl
  split
  · rfl
  · exact h ..

/-- Filling buffers touches the first two buffers and the queue alone. -/
theorem fillTx_keeps {α : Type} (f : BusLine → α) (h : ∀ b x y, f { b with txb := x, outQueue := y } = f b) (b : BusLine) :
    f (fillTx b) = f b := (fillOne_keeps f h _ 1).trans (fillOne_keeps f h b 0)

theorem fillOne_other {j k : Nat} (h : j ≠ k) (b : BusLine) : vget (fillOne b k).txb j none = vget b.txb j none := by
  unfold fillOne
  split
  · rfl
  split
  · rfl
  · exact (vget_vset ..).trans (if_neg fun hk => h hk.1.symm)

/-- The first waiting frame of the sequencer takes a free buffer. -/
theorem fillOne_takes {b : BusLine} {k : Nat} {q r : List TxFrame} {f : TxFrame} (hk : k < 3) (hfree : vget b.txb k none = none)
    (hq : b.outQueue = q ++ f :: r) (hserv : ∀ g ∈ q, isService g = true) (hf : isService f = false) :
    vget (fillOne b k).txb k none = some f := by
  have hfind : b.outQueue.find? (fun f => !isService f) = some f := by
    rw [hq, List.find?_append, List.find?_eq_none.mpr fun g hg => by rw [hserv g hg]; exact Bool.false_ne_true]
    exact List.find?_cons_of_pos (p := fun f => !isService f) (by rw [hf]; rfl)
  rw [fillOne, if_neg (by rw [hfree]; exact Bool.false_ne_true), hfind]
  exact (vget_vset ..).trans (if_pos ⟨rfl, hk⟩)

/-! ### The start of a cycle -/

theorem vget_map {α β : Type} {n : Nat} (v : Vector α n) (f : α → β) (j : Nat) (d : α) (e : β) :
    vget (v.map f) j e = if j < n then f (vget v j d) else e := by
  unfold vget
  by_cases h : j < n
  · simp only [h, dif_pos, Vector.getElem_map, if_true]
  · simp only [h, dif_neg, not_false_eq_true, if_false]

/-- The line at t_k of its next cycle. -/
def nextCycle (tb busy : Nat) (b : BusLine) : BusLine :=
  freshCycle { b with cycle := (b.cycle + 1) % 0x100000000, tk := tb, cycleRunning := true, busy }

theorem nextCycle_station (tb busy : Nat) (b : BusLine) (j : Nat) :
    let x := vget (nextCycle tb busy b).stations j Station.reset
    x.confirmed = false ∧ x.publishedNow = false ∧ x.state = (vget b.stations j Station.reset).state := by
  intro x
  have hx : x = if j < 64 then _ else Station.reset := vget_map b.stations _ j Station.reset Station.reset
  rw [hx]
  split
  · exact ⟨rfl, rfl, rfl⟩
  next h =>
    refine ⟨rfl, rfl, ?_⟩
    rw [vget, dif_neg h]

/-- The frames that a cycle's start gives the sequencer. -/
def cycleFrames (s : State) (l : Line) : List TxFrame :=
  let sync := seqFrame s l 0 (le 8 0 ++ le 4 (lineOfBus s l).cycle) true false
  let time := seqFrame s l 0x40 (List.replicate 8 0) false true
  if !lineReceives s l then [] else if carriesTime s l (lineOfBus s l).cycle then [sync, time] else [sync]

/-- The line that drives the exchange takes its snapshot and its frames. -/
def driveCycle (s : State) (l : Line) (b : BusLine) : BusLine :=
  fillTx { b with
    snap := takeSnap s l, snapSafe := safeStations s l,
    snapHold := decide (s.pstate = .stopped ∧ s.sched.stopMode = .hold),
    outQueue := b.outQueue.filter isService ++ cycleFrames s l }

theorem driveCycle_cycle (s : State) (l : Line) (b : BusLine) : (driveCycle s l b).cycle = b.cycle :=
  fillTx_keeps BusLine.cycle (fun _ _ _ => rfl) _

theorem cycleStartOp_eq (s : State) (l : Line) : ∃ busy, busy ≤ 1000 ∧
    let u := modLine { s with freeIdx := s.freeIdx + 1 } l (nextCycle s.tb busy)
    cycleStartOp s l = if busP s l 0 ≠ 2 then u else modLine u l (driveCycle u l) :=
  ⟨(Config.freeValue s.freeIdx).toNat % 1001, Nat.le_of_lt_succ (Nat.mod_lt _ (by decide)), by cases l <;> rfl⟩

theorem cycleFrames_sync (h : lineReceives s l = true) :
    ∃ r, cycleFrames s l = seqFrame s l 0 (le 8 0 ++ le 4 (lineOfBus s l).cycle) true false :: r := by
  unfold cycleFrames
  simp only [h, Bool.not_true, Bool.false_eq_true, if_false]
  split
  · exact ⟨_, rfl⟩
  · exact ⟨[], rfl⟩

/-- What a cycle's start leaves of its line (R496, R499, R505). -/
theorem cycleStartOp_starts (s : State) (l : Line) :
    let t := cycleStartOp s l
    let b := lineOfBus s l
    (∀ j, j ≠ l → lineOfBus t j = lineOfBus s j) ∧
    (let u := lineOfBus t l
     u.cycle = (b.cycle + 1) % 2 ^ 32 ∧ u.tk = s.tb ∧ u.cycleRunning = true ∧ u.busy ≤ 1000 ∧ u.fifo = b.fifo ∧
     (∀ j, (station t l j).confirmed = false ∧ (station t l j).publishedNow = false ∧
       (station t l j).state = (station s l j).state) ∧
     (busP s l 0 ≠ 2 → u.outQueue = b.outQueue ∧ u.txb = b.txb) ∧
     (busP s l 0 = 2 → lineReceives s l = true → vget b.txb 0 none = none →
       ∃ y, vget u.txb 0 none = some y ∧ y.sync = true ∧ y.frame.id = 0 ∧ y.frame.data = le 8 0 ++ le 4 u.cycle ∧
         u.snapSafe = safeStations s l)) ∧
    { t with busA := s.busA, busB := s.busB, freeIdx := s.freeIdx } = s := by
  intro t b
  obtain ⟨busy, hbusy, ht⟩ := cycleStartOp_eq s l
  have hu : lineOfBus (modLine { s with freeIdx := s.freeIdx + 1 } l (nextCycle s.tb busy)) l = nextCycle s.tb busy b :=
    lineOfBus_modLine ..
  have hu' : ∀ j, j ≠ l → lineOfBus (modLine { s with freeIdx := s.freeIdx + 1 } l (nextCycle s.tb busy)) j =
      lineOfBus s j := fun j hj => lineOfBus_modLine_ne _ _ hj
  have hrest : { modLine { s with freeIdx := s.freeIdx + 1 } l (nextCycle s.tb busy) with
      busA := s.busA, busB := s.busB, freeIdx := s.freeIdx } = s := by cases l <;> rfl
  have hsafe : safeStations (modLine { s with freeIdx := s.freeIdx + 1 } l (nextCycle s.tb busy)) l = safeStations s l := by
    cases l <;> rfl
  have hrec : lineReceives (modLine { s with freeIdx := s.freeIdx + 1 } l (nextCycle s.tb busy)) l = lineReceives s l := by
    cases l <;> rfl
  generalize modLine { s with freeIdx := s.freeIdx + 1 } l (nextCycle s.tb busy) = u at *
  by_cases h2 : busP s l 0 = 2
  · have ht : t = modLine u l (driveCycle u l) := ht.trans (if_neg (not_not.mpr h2))
    have hline : lineOfBus t l = driveCycle u l (nextCycle s.tb busy b) := by rw [ht, lineOfBus_modLine, hu]
    refine ⟨fun j hj => ?_, ⟨?_, ?_, ?_, ?_, ?_, fun j => ?_, fun h => absurd h2 h, fun _ hr hfree => ?_⟩, ?_⟩
    · rw [ht, lineOfBus_modLine_ne _ _ hj, hu' j hj]
    · exact (congrArg BusLine.cycle hline).trans (fillTx_keeps BusLine.cycle (fun _ _ _ => rfl) _)
    · exact (congrArg BusLine.tk hline).trans (fillTx_keeps BusLine.tk (fun _ _ _ => rfl) _)
    · exact (congrArg BusLine.cycleRunning hline).trans (fillTx_keeps BusLine.cycleRunning (fun _ _ _ => rfl) _)
    · exact Nat.le_trans (Nat.le_of_eq ((congrArg BusLine.busy hline).trans (fillTx_keeps BusLine.busy (fun _ _ _ => rfl) _))) hbusy
    · exact (congrArg BusLine.fifo hline).trans (fillTx_keeps BusLine.fifo (fun _ _ _ => rfl) _)
    · have hst : station t l j = vget (nextCycle s.tb busy b).stations j Station.reset :=
        (congrArg (fun x : BusLine => vget x.stations j Station.reset) hline).trans
          (fillTx_keeps (fun x => vget x.stations j Station.reset) (fun _ _ _ => rfl) _)
      rw [hst]
      exact nextCycle_station ..
    · obtain ⟨r, hr'⟩ := cycleFrames_sync (hrec.trans hr)
      rw [hline]
      refine ⟨seqFrame u l 0 (le 8 0 ++ le 4 (lineOfBus u l).cycle) true false, ?_, rfl, rfl, ?_, ?_⟩
      · refine (fillOne_other (by decide) _).trans (fillOne_takes (by decide) hfree (q := b.outQueue.filter isService)
          (congrArg (_ ++ ·) hr') (fun g hg => (List.mem_filter.mp hg).2) rfl)
      · refine congrArg (fun k => le 8 0 ++ le 4 k) ?_
        rw [hu]
        exact (driveCycle_cycle ..).symm
      · exact (fillTx_keeps BusLine.snapSafe (fun _ _ _ => rfl) _).trans hsafe
    · rw [ht]
      exact (congrArg (fun t : State => { t with freeIdx := s.freeIdx }) (modLine_rest u l _ s.busA s.busB) :).trans hrest
  · have ht : t = u := ht.trans (if_pos h2)
    rw [ht, hu]
    refine ⟨hu', ⟨rfl, rfl, rfl, hbusy, rfl, fun j => ?_, fun _ => ⟨rfl, rfl⟩, fun h => absurd h h2⟩, hrest⟩
    rw [station, hu]
    exact nextCycle_station ..

/-! ### Transmit outcomes -/

theorem transmitOp_none {k : Nat} (h : vget (lineOfBus s l).txb k none = none) (o : TxOutcome) : transmitOp s l k o = s := by
  simp only [transmitOp, h]

theorem transmitOp_notOffered {k : Nat} (h : offered s l ≠ some k) : transmitOp s l k .started = s := by
  unfold transmitOp
  split
  · rfl
  · exact if_pos h

/-- The frame that the controller starts is stamped (R485, R492). -/
theorem transmitOp_started {k : Nat} {f : TxFrame} (h : vget (lineOfBus s l).txb k none = some f)
    (ho : offered s l = some k)
    (hlate : f.sync = true → s.tb ≤ (lineOfBus s l).tk + psToTb (windows s l).slot) :
    transmitOp s l k .started = modLine s l (fun b => { b with txb := vset b.txb k (some (stamped s f)) }) := by
  have hno : ¬ offered s l ≠ some k := not_not.mpr ho
  simp only [transmitOp, h, hno, if_false]
  split
  next hsync =>
    have htk : (lineOfBus (modLine s l (fun b => { b with txb := vset b.txb k (some (stamped s f)) })) l).tk =
        (lineOfBus s l).tk := by rw [lineOfBus_modLine]
    have htb : (modLine s l (fun b => { b with txb := vset b.txb k (some (stamped s f)) })).tb = s.tb := by cases l <;> rfl
    have hwin : windows (modLine s l (fun b => { b with txb := vset b.txb k (some (stamped s f)) })) l = windows s l := by
      cases l <;> rfl
    refine if_pos ?_
    rw [htk, htb, hwin]
    exact hlate hsync
  next => rfl

theorem transmitOp_lost {k : Nat} {f : TxFrame} (h : vget (lineOfBus s l).txb k none = some f) :
    transmitOp s l k .lostArbitration =
      modLine s l (fun b => { b with txb := vset b.txb k (some { f with lost := true, err := false }) }) := by
  simp only [transmitOp, h]

theorem transmitOp_error {k : Nat} {f : TxFrame} (h : vget (lineOfBus s l).txb k none = some f) :
    transmitOp s l k .error =
      modLine s l (fun b => { b with txb := vset b.txb k (some { f with err := true, lost := false }) }) := by
  simp only [transmitOp, h]

theorem transmitOp_acknowledged {k : Nat} {f : TxFrame} (h : vget (lineOfBus s l).txb k none = some f) :
    transmitOp s l k .acknowledged = ackFrame s l k f := by
  simp only [transmitOp, h]

theorem stamped_plain {f : TxFrame} (hs : f.sync = false) (ht : f.time = false) :
    stamped s f = { f with postmark := s.tb / 5 * 5, lost := false, err := false } := by
  simp only [stamped, hs, ht, Bool.false_eq_true, if_false]
  rfl

theorem stamped_sync {f : TxFrame} (hs : f.sync = true) : stamped s f = { f with
    postmark := s.tb / 5 * 5, lost := false, err := false,
    frame := { f.frame with data := le 8 (s.tb / 5 * 5) ++ f.frame.data.drop 8 } } := by
  simp only [stamped, hs, if_true]
  rfl

/-- Leaving error passive is only put on record. -/
theorem noteActive_keeps (was : Bool) (s : State) (l : Line) : ∃ lg, noteActive was s l = { s with log := lg } := by
  unfold noteActive
  simp only
  split
  · exact log_rest ..
  · exact ⟨s.log, rfl⟩

/-- The line of a frame other than SYNC, once it is acknowledged. -/
def ackLine (k : Nat) (b : BusLine) : BusLine := fillTx { b with txb := vset b.txb k none, tec := b.tec - 1 }

theorem ackLine_slot (b : BusLine) : vget (ackLine 2 b).txb 2 none = none := by
  rw [ackLine, fillTx, fillOne_other (by decide), fillOne_other (by decide)]
  exact (vget_vset ..).trans (if_pos ⟨rfl, by decide⟩)

/-- A host frame that is acknowledged ends its command (R513). -/
theorem ackFrame_host {f : TxFrame} {c : CmdRef} (href : f.ref = some c) (hsync : f.sync = false)
    (hbeat : f.heartbeat = false) : ∃ lg, ackFrame s l 2 f =
      doneNow (unbook { modLine s l (ackLine 2) with log := lg } l c) c ([1, 0] ++ le 8 f.postmark) := by
  obtain ⟨lg, hlg⟩ := noteActive_keeps (errorPassive (lineOfBus s l)) (modLine s l (ackLine 2)) l
  refine ⟨lg, ?_⟩
  rw [← hlg]
  simp only [ackFrame, href, hsync, hbeat, Bool.false_eq_true, if_false]
  rfl

theorem ackFrame_ends {f : TxFrame} {c : CmdRef} (href : f.ref = some c) (hsync : f.sync = false)
    (hbeat : f.heartbeat = false) :
    let t := ackFrame s l 2 f
    endsDone s t c ([1, 0] ++ le 8 f.postmark) ∧ vget (lineOfBus t l).txb 2 none = none ∧
      (lineOfBus t l).tec = (lineOfBus s l).tec - 1 ∧ ∀ j, j ≠ l → lineOfBus t j = lineOfBus s j := by
  intro t
  obtain ⟨lg, hlg⟩ := ackFrame_host (s := s) (l := l) href hsync hbeat
  have ht : t = doneNow (unbook { modLine s l (ackLine 2) with log := lg } l c) c ([1, 0] ++ le 8 f.postmark) := hlg
  have hlines : ∀ j, lineOfBus t j = lineOfBus (modLine s l (ackLine 2)) j := fun j => by
    rw [ht, lineOfBus_doneNow]
    cases j <;> rfl
  have hend := finishNow_endsDone (unbook { modLine s l (ackLine 2) with log := lg } l c) c ([1, 0] ++ le 8 f.postmark)
  refine ⟨?_, ?_, ?_, fun j hj => (hlines j).trans (lineOfBus_modLine_ne _ _ hj)⟩
  · rw [ht]
    cases l <;> exact hend
  · rw [hlines, lineOfBus_modLine, ackLine_slot]
  · rw [hlines, lineOfBus_modLine]
    exact fillTx_keeps BusLine.tec (fun _ _ _ => rfl) _

/-! ### The end of a window -/

theorem txb_mem {b : BusLine} {f : TxFrame} (h : f ∈ b.txb.toList.filterMap id) : ∃ j, vget b.txb j none = some f := by
  obtain ⟨x, hx, hid⟩ := List.mem_filterMap.mp h
  obtain ⟨j, hj, hget⟩ := List.getElem_of_mem hx
  have hj : j < 3 := by simpa using hj
  refine ⟨j, ?_⟩
  rw [vget, dif_pos hj]
  rw [Vector.getElem_toList] at hget
  exact hget.trans hid

/-- The end of a frame that a window's end takes out of its buffer (R487, R513). -/
def abortFrame (b : BusLine) (l : Line) (s : State) (f : TxFrame) : State :=
  match f.ref with
  | none => s
  | some c => notSent (unbook s l c) c (if b.busOff then 3 else if f.err then 2 else 1)

/-- The line whose buffers and queue a window's end has cleared. -/
def clearedLine (b : BusLine) : BusLine :=
  { b with
    txb := Vector.replicate 3 none, outQueue := b.outQueue.filter isService,
    aborted := b.aborted + (b.txb.toList.filterMap id).length + (b.outQueue.filter (fun f => !isService f)).length }

theorem windowEnd_eq (s : State) (l : Line) : windowEnd s l =
    ((lineOfBus s l).txb.toList.filterMap id).foldl (abortFrame (lineOfBus s l) l) (modLine s l clearedLine) := by
  cases l <;> rfl

theorem foldl_abortFrame (b : BusLine) (l : Line) {fs : List TxFrame} (h : ∀ f ∈ fs, f.ref = none) (u : State) :
    fs.foldl (abortFrame b l) u = u := by
  induction fs with
  | nil => rfl
  | cons f fs ih =>
    rw [List.forall_mem_cons] at h
    have hf : abortFrame b l u f = u := by rw [abortFrame, h.1]
    rw [List.foldl_cons, hf]
    exact ih h.2

/-- A window's end with no host frame in a buffer only clears buffers and queue. -/
theorem windowEnd_clears (h : ∀ j y, vget (lineOfBus s l).txb j none = some y → y.ref = none) :
    windowEnd s l = modLine s l clearedLine := by
  rw [windowEnd_eq]
  refine foldl_abortFrame _ _ (fun f hf => ?_) _
  obtain ⟨j, hj⟩ := txb_mem hf
  exact h j f hj

/-- A host frame alone in its slot is aborted with its reason. -/
theorem windowEnd_host {f : TxFrame} {c : CmdRef}
    (hb : (lineOfBus s l).txb = Vector.ofFn (fun j => if j.val = 2 then some f else none)) (href : f.ref = some c) :
    endsDone s (windowEnd s l) c ([0, if (lineOfBus s l).busOff then 3 else if f.err then 2 else 1] ++ le 8 0) := by
  have hfs : (lineOfBus s l).txb.toList.filterMap id = [f] := by
    rw [hb]
    rfl
  have hreason : BitVec.ofNat 8 (if (lineOfBus s l).busOff then 3 else if f.err then 2 else 1) =
      (if (lineOfBus s l).busOff then 3 else if f.err then 2 else 1 : Byte) := by
    split
    · rfl
    · split <;> rfl
  have hend : abortFrame (lineOfBus s l) l (modLine s l clearedLine) f =
      doneNow (unbook (modLine s l clearedLine) l c) c
        ([0, if (lineOfBus s l).busOff then 3 else if f.err then 2 else 1] ++ le 8 0) := by
    rw [abortFrame, href, ← hreason]
    rfl
  have hdone := finishNow_endsDone (unbook (modLine s l clearedLine) l c) c
    ([0, if (lineOfBus s l).busOff then 3 else if f.err then 2 else 1] ++ le 8 0)
  rw [windowEnd_eq, hfs, List.foldl_cons, List.foldl_nil, hend]
  cases l <;> exact hdone

/-! ### Errors -/

/-- The line whose error counts have taken an error (R483). -/
def errLine (e : BusErr) (b : BusLine) : BusLine :=
  match e with
  | .transmit => { b with tec := b.tec + 8 }
  | .receive => { b with recErr := Nat.min (b.recErr + 1) 255 }

/-- Becoming error passive is put on record. -/
def notePassive (was : Bool) (s : State) (l : Line) : State :=
  if !was && errorPassive (lineOfBus s l) then
    log s 0x80 sevWarning (busUnit l) (64 * lineNo l) 0 (errCounts (lineOfBus s l))
  else s

theorem notePassive_keeps (was : Bool) (s : State) (l : Line) : ∃ lg, notePassive was s l = { s with log := lg } := by
  unfold notePassive
  split
  · exact log_rest ..
  · exact ⟨s.log, rfl⟩

theorem busErrorOp_eq (s : State) (l : Line) (e : BusErr) : busErrorOp s l e =
    if 255 < (lineOfBus (modLine s l (errLine e)) l).tec then
      goBusOff (notePassive (errorPassive (lineOfBus s l)) (modLine s l (errLine e)) l) l
    else notePassive (errorPassive (lineOfBus s l)) (modLine s l (errLine e)) l := rfl

theorem modLine_logged (s : State) (l : Line) (f : BusLine → BusLine) (lg : Logbook) :
    let t : State := { modLine s l f with log := lg }
    lineOfBus t l = f (lineOfBus s l) ∧ (∀ j, j ≠ l → lineOfBus t j = lineOfBus s j) ∧
      { t with busA := s.busA, busB := s.busB, log := s.log } = s :=
  ⟨by cases l <;> rfl, fun j hj => by cases l <;> cases j <;> trivial, by cases l <;> rfl⟩

/-- An error that leaves the controller on the bus is counted. -/
theorem busErrorOp_counts {e : BusErr} (h : (errLine e (lineOfBus s l)).tec ≤ 255) :
    let t := busErrorOp s l e
    lineOfBus t l = errLine e (lineOfBus s l) ∧ (∀ j, j ≠ l → lineOfBus t j = lineOfBus s j) ∧
      { t with busA := s.busA, busB := s.busB, log := s.log } = s := by
  obtain ⟨lg, hlg⟩ := notePassive_keeps (errorPassive (lineOfBus s l)) (modLine s l (errLine e)) l
  have hno : ¬ 255 < (lineOfBus (modLine s l (errLine e)) l).tec := by rw [lineOfBus_modLine]; exact Nat.not_lt.mpr h
  rw [busErrorOp_eq, if_neg hno, hlg]
  exact modLine_logged ..

/-- Taking every frame off a line leaves it without frames, and the other line as it is. -/
theorem dropFrames_lines (s : State) (l : Line) (reason : Nat) :
    lineOfBus (dropFrames s l reason) l = { lineOfBus s l with txb := Vector.replicate 3 none, outQueue := [] } ∧
      ∀ j, j ≠ l → lineOfBus (dropFrames s l reason) j = lineOfBus s j := by
  have hfold : ∀ (refs : List CmdRef) (u : State) j, lineOfBus (refs.foldl (fun s c =>
      doneNow s c ([0, BitVec.ofNat 8 reason] ++ le 8 0)) u) j = lineOfBus u j :=
    fun refs u j => foldl_keeps (lineOfBus · j) _ (fun _ _ => lineOfBus_doneNow ..) refs u
  refine ⟨(hfold ..).trans ?_, fun j hj => (hfold ..).trans ?_⟩
  · cases l <;> rfl
  · cases l <;> cases j <;> trivial

/-- A transmit error above the limit takes the controller off the bus (R483, R513). -/
theorem busErrorOp_off (h : 255 < (lineOfBus s l).tec + 8) :
    let t := busErrorOp s l .transmit
    (lineOfBus t l).busOff = true ∧ (lineOfBus t l).busOffs = (lineOfBus s l).busOffs + 1 ∧ (lineOfBus t l).outQueue = [] ∧
      (lineOfBus t l).txb = Vector.replicate 3 none ∧ ∀ j, j ≠ l → lineOfBus t j = lineOfBus s j := by
  obtain ⟨lg, hlg⟩ := notePassive_keeps (errorPassive (lineOfBus s l)) (modLine s l (errLine .transmit)) l
  have hgo : 255 < (lineOfBus (modLine s l (errLine .transmit)) l).tec := by rw [lineOfBus_modLine]; exact h
  obtain ⟨hline, hother, -⟩ := modLine_logged s l (errLine .transmit) lg
  rw [busErrorOp_eq, if_pos hgo, hlg]
  generalize ({ modLine s l (errLine .transmit) with log := lg } : State) = u at *
  obtain ⟨hline', hother', -⟩ := logged_modLine (s := u) (l := l) (f := fun b => { b with
    busOff := true, busOffs := b.busOffs + 1 }) rfl 0x82 sevAlarm (busUnit l) (64 * lineNo l) 0
    (errCounts (lineOfBus (modLine u l (fun b => { b with busOff := true, busOffs := b.busOffs + 1 })) l))
  obtain ⟨hdrop, hdrop'⟩ := dropFrames_lines (log (modLine u l (fun b => { b with busOff := true, busOffs := b.busOffs + 1 }))
    0x82 sevAlarm (busUnit l) (64 * lineNo l) 0
    (errCounts (lineOfBus (modLine u l (fun b => { b with busOff := true, busOffs := b.busOffs + 1 })) l))) l 3
  rw [hline', hline] at hdrop
  have hoff : lineOfBus (goBusOff u l) l = _ := hdrop
  exact ⟨congrArg BusLine.busOff hoff, congrArg BusLine.busOffs hoff, congrArg BusLine.outQueue hoff,
    congrArg BusLine.txb hoff, fun j hj => (hdrop' j hj).trans ((hother' j hj).trans (hother j hj))⟩

end

section
variable {s : State} {now : Tb} {l : Line} {k : Fin 3}

theorem busFrameTransmitted_row {o : TxOutcome} (h : lineReceives s l = true) :
    exec (.busFrameTransmitted now l k o) s = .next (transmitOp (s.at now) l k.val o) :=
  congrArg Host.Outcome.next (if_pos h)

/-- A window or slot of the sequencer that begins. -/
theorem busWindowStart_row {w : BusWindow} (hr : lineReceives s l = true) (hc : (lineOfBus s l).cycleRunning = true)
    (hd : drives s = true) : exec (.busWindowStart now l w) s = .next (match w with
      | .output =>
        if busP s l 0 = 2 then
          modLine (s.at now) l (fun b => fillTx { b with outQueue := b.outQueue ++ outputFrames s l })
        else s.at now
      | .slot n => if n < (windows s l).slots then slotStart (s.at now) l n else s.at now) := by
  have hgo : ¬ (!lineReceives (s.at now) l || !(lineOfBus (s.at now) l).cycleRunning || !drives (s.at now)) = true := by
    rw [show lineReceives (s.at now) l = true from hr, show (lineOfBus (s.at now) l).cycleRunning = true by cases l <;> exact hc,
      show drives (s.at now) = true from hd]
    exact Bool.false_ne_true
  refine congrArg Host.Outcome.next ((if_neg hgo).trans ?_)
  cases w <;> cases l <;> rfl

theorem busWindowStart_idle {w : BusWindow}
    (h : lineReceives s l = false ∨ (lineOfBus s l).cycleRunning = false ∨ drives s = false) :
    exec (.busWindowStart now l w) s = .next (s.at now) := by
  refine congrArg Host.Outcome.next (if_pos ?_)
  rw [Bool.or_eq_true, Bool.or_eq_true, Bool.not_eq_true', Bool.not_eq_true', Bool.not_eq_true', or_assoc]
  cases l <;> exact h

theorem slotStart_takes {n : Nat} {f : TxFrame} (h : slotFrame s l n = some f) : slotStart s l n =
    modLine s l (fun b => { b with txb := vset b.txb 2 (some f), outQueue := b.outQueue.erase f }) := by
  simp only [slotStart, h]

theorem slotStart_none {n : Nat} (h : slotFrame s l n = none) : slotStart s l n = s := by
  simp only [slotStart, h]

end

/-- Settles O45: the cycle's start, its windows and slots, transmit outcomes, window ends and errors, line by line. -/
theorem busCycleAndTransmission : Obligations.BusCycleAndTransmission := by
  intro s now l k f c sl n b becomes others logged sent
  have hb : lineOfBus n l = b := by cases l <;> rfl
  have hothers : ∀ j, lineOfBus n j = lineOfBus s j := fun j => by cases j <;> rfl
  refine ⟨fun h => ?_, fun hup hd hsleep hdue => ?_, fun h => ⟨busWindowStart_idle h, busWindowStart_idle h⟩,
    fun hr hc hd => ⟨fun h2 => ?_, fun hlt hf => ?_, fun h => ?_⟩, fun h o => ?_, fun hr hf => ⟨fun ho => ?_,
      fun ho hs ht => ?_, fun ho hs htb => ?_, ?_, ?_, fun href hs hbeat hk => ?_⟩, fun h => ?_, fun hup hno => ?_,
    fun hup htxb href => ?_, fun h e => ?_, fun hr htec => ?_, fun hr htec => ?_, fun hr htec => ?_, fun h => ?_,
    fun hup hoff hrec => ?_⟩
  · refine congrArg Host.Outcome.next (if_neg ?_)
    show ¬ (lineUp n l && drives n && (lineOfBus n l).sleepReq.isNone && cycleDue n l) = true
    have hup : lineUp n l = lineUp s l := by cases l <;> rfl
    rw [hup, hb, show drives n = drives s from rfl]
    rcases h with h | h | h | ⟨hrun, hnot⟩
    · simp [h]
    · simp [h]
    · have hsl : b.sleepReq.isNone = false := by rw [← Option.not_isSome, h]; rfl
      simp [hsl]
    · have hdue : cycleDue n l = false := by
        have hnone : ¬ (b.tk < n.tb ∧ (n.tb - b.tk) % usToTb (busP s l 7) = 0) := fun ⟨h1, h2⟩ =>
          hnot.elim (Nat.not_le.mpr h1) fun h => h h2
        show (!(lineOfBus n l).cycleRunning || decide ((lineOfBus n l).tk < n.tb ∧
          (n.tb - (lineOfBus n l).tk) % usToTb (busP s l 7) = 0)) = false
        rw [hb, hrun, Bool.not_true, Bool.false_or]
        exact decide_eq_false hnone
      simp [hdue]
  · refine ⟨_, congrArg Host.Outcome.next (if_pos ?_), ?_⟩
    · show (lineUp n l && drives n && (lineOfBus n l).sleepReq.isNone && cycleDue n l) = true
      have hup' : lineUp n l = true := by cases l <;> exact hup
      have hsl : b.sleepReq.isNone = true := by rw [show b.sleepReq = none from hsleep]; rfl
      have hdue' : cycleDue n l = true := by
        show (!(lineOfBus n l).cycleRunning || decide ((lineOfBus n l).tk < n.tb ∧
          (n.tb - (lineOfBus n l).tk) % usToTb (busP s l 7) = 0)) = true
        rw [hb, Bool.or_eq_true, Bool.not_eq_true', decide_eq_true_eq]
        exact hdue
      rw [hup', hb, hsl, hdue', show drives n = true from hd]
      rfl
    · obtain ⟨h1, h2, h3⟩ := cycleStartOp_starts n l
      refine ⟨fun j hj => (h1 j hj).trans (hothers j), ?_, h3⟩
      have hst : ∀ j, station n l j = station s l j := fun j => by cases l <;> rfl
      have hrec : lineReceives n l = lineReceives s l := by cases l <;> rfl
      have hsafe : safeStations n l = safeStations s l := by cases l <;> rfl
      simp only [hb, hst, hrec, hsafe] at h2
      exact h2
  · refine (busWindowStart_row hr hc hd).trans (congrArg Host.Outcome.next (if_pos h2))
  · exact (busWindowStart_row hr hc hd).trans (congrArg Host.Outcome.next ((if_pos hlt).trans
      (slotStart_takes (by cases l <;> exact hf))))
  · refine (busWindowStart_row hr hc hd).trans (congrArg Host.Outcome.next ?_)
    rcases h with h | h
    · show (if _ then slotStart n l sl else n) = n
      rw [slotStart_none (by cases l <;> exact h), ite_self]
    · exact if_neg (Nat.not_lt.mpr h)
  · rcases h with h | h
    · exact congrArg Host.Outcome.next (if_neg (by
        rw [show lineReceives (s.at now) l = false by cases l <;> exact h]
        exact Bool.false_ne_true))
    · refine congrArg Host.Outcome.next ?_
      rw [transmitOp_none (by exact (congrArg (fun b : BusLine => vget b.txb k.val none) hb).trans h), ite_self]
  · exact (busFrameTransmitted_row hr).trans (congrArg Host.Outcome.next (transmitOp_notOffered (by cases l <;> exact ho)))
  · refine (busFrameTransmitted_row hr).trans (congrArg Host.Outcome.next ((transmitOp_started (s := n) (by rw [hb]; exact hf)
      (by cases l <;> exact ho) (fun h => absurd (hs.symm.trans h) Bool.false_ne_true)).trans ?_))
    rw [stamped_plain hs ht]
  · refine (busFrameTransmitted_row hr).trans (congrArg Host.Outcome.next ((transmitOp_started (s := n) (by rw [hb]; exact hf)
      (by cases l <;> exact ho) (fun _ => by rw [hb]; exact htb)).trans ?_))
    rw [stamped_sync hs]
  · exact (busFrameTransmitted_row hr).trans (congrArg Host.Outcome.next (transmitOp_lost (by rw [hb]; exact hf)))
  · exact (busFrameTransmitted_row hr).trans (congrArg Host.Outcome.next (transmitOp_error (by rw [hb]; exact hf)))
  · subst hk
    have hack := (busFrameTransmitted_row (now := now) (k := 2) hr).trans (congrArg Host.Outcome.next
      (transmitOp_acknowledged (s := n) (l := l) (by rw [hb]; exact hf)))
    obtain ⟨h1, h2, h3, h4⟩ := ackFrame_ends (s := n) (l := l) href hs hbeat
    exact ⟨_, hack, h1, h2, h3.trans (by rw [hb]), fun j hj => (h4 j hj).trans (hothers j)⟩
  · exact congrArg Host.Outcome.next (if_neg (by
      rw [show lineUp (s.at now) l = false by cases l <;> exact h]
      exact Bool.false_ne_true))
  · refine ⟨_, congrArg Host.Outcome.next ((if_pos (by cases l <;> exact hup)).trans
      (windowEnd_clears (s := n) (l := l) (by rw [hb]; exact hno))),
      fun j hj => (lineOfBus_modLine_ne _ _ hj).trans (hothers j), ?_, ?_⟩
    · rw [lineOfBus_modLine, hb]
      rfl
    · rw [lineOfBus_modLine, hb]
      rfl
  · refine ⟨_, congrArg Host.Outcome.next (if_pos (by cases l <;> exact hup)), ?_⟩
    have hend := windowEnd_host (s := n) (l := l) (f := f) (c := c) (by rw [hb]; exact htxb) href
    rw [hb] at hend
    exact hend
  · exact congrArg Host.Outcome.next (if_neg (by
      rw [show lineReceives (s.at now) l = false by cases l <;> exact h]
      exact Bool.false_ne_true))
  · obtain ⟨h1, h2, h3⟩ := busErrorOp_counts (s := n) (l := l) (e := .receive) (by rw [hb]; exact htec)
    exact ⟨_, congrArg Host.Outcome.next (if_pos (by cases l <;> exact hr)), h1.trans (by rw [hb]; rfl),
      fun j hj => (h2 j hj).trans (hothers j), h3⟩
  · obtain ⟨h1, h2, h3⟩ := busErrorOp_counts (s := n) (l := l) (e := .transmit) (by rw [hb]; exact htec)
    exact ⟨_, congrArg Host.Outcome.next (if_pos (by cases l <;> exact hr)), h1.trans (by rw [hb]; rfl),
      fun j hj => (h2 j hj).trans (hothers j), h3⟩
  · obtain ⟨h1, h2, h3, h4, h5⟩ := busErrorOp_off (s := n) (l := l) (by rw [hb]; exact htec)
    exact ⟨_, congrArg Host.Outcome.next (if_pos (by cases l <;> exact hr)), h1, h2.trans (by rw [hb]), h3, h4,
      fun j hj => (h5 j hj).trans (hothers j)⟩
  · refine congrArg Host.Outcome.next (if_neg ?_)
    show ¬ (lineUp n l && (lineOfBus n l).busOff && decide (busP s l 0xF = 1)) = true
    rw [show lineUp n l = lineUp s l by cases l <;> rfl, hb]
    rcases h with h | h | h <;> simp [h]
  · have hgo : (lineUp n l && (lineOfBus n l).busOff && decide (busP n l 0xF = 1)) = true := by
      rw [show lineUp n l = true by cases l <;> exact hup, hb, show b.busOff = true from hoff,
        show decide (busP n l 0xF = 1) = true from decide_eq_true hrec]
      rfl
    obtain ⟨h1, h2, h3⟩ := logged_modLine (s := n) (l := l) (f := fun b => { b with busOff := false, tec := 0, recErr := 0 })
      rfl 0x83 sevNotice (busUnit l) (64 * lineNo l) 0 [0, 0]
    exact ⟨_, congrArg Host.Outcome.next (if_pos hgo), h1.trans (by rw [hb]), fun j hj => (h2 j hj).trans (hothers j), h3⟩

end Sys2Proof.Machine
end

section
/-!
PROOFS. Reception on a bus line and the judgement of its stations (R488-R490, R504-R512).
-/
namespace Sys2Proof.Machine

open Sys2Proof

/-! ### Stations of a line -/

section
variable {s : State} {l : Line}

theorem station_modStation {n : Nat} (h : n < 64) (s : State) (l : Line) (f : Station → Station) :
    station (modStation s l n f) l n = f (station s l n) := by
  rw [station, modStation, lineOfBus_modLine]
  exact (vget_vmod ..).trans (if_pos ⟨rfl, h⟩)

theorem station_modStation_ne {n j : Nat} (h : j ≠ n) (s : State) (l : Line) (f : Station → Station) :
    station (modStation s l n f) l j = station s l j := by
  rw [station, modStation, lineOfBus_modLine]
  exact (vget_vmod ..).trans (if_neg fun hj => h hj.1.symm)

/-- Everything of the state but one line's stations and the logbook. -/
def exceptStations (l : Line) (s : State) : State :=
  { modLine s l (fun b => { b with stations := Vector.replicate 64 Station.reset }) with log := State.reset.log }

theorem exceptStations_modStation (s : State) (l : Line) (n : Nat) (f : Station → Station) :
    exceptStations l (modStation s l n f) = exceptStations l s := by cases l <;> rfl

theorem exceptStations_log (s : State) (l : Line) (type sev src subject code : Nat) (vals : List Byte) :
    exceptStations l (log s type sev src subject code vals) = exceptStations l s := by
  obtain ⟨lg, hlg⟩ := log_rest s type sev src subject code vals
  rw [hlg]
  cases l <;> rfl

theorem station_log (s : State) (l : Line) (n : Nat) (type sev src subject code : Nat) (vals : List Byte) :
    station (log s type sev src subject code vals) l n = station s l n := by
  obtain ⟨lg, hlg⟩ := log_rest s type sev src subject code vals
  rw [hlg]
  cases l <;> rfl

/-- States alike but for a line's stations and the logbook have the other line alike. -/
theorem lineOfBus_of_exceptStations {t : State} (h : exceptStations l t = exceptStations l s) {j : Line} (hj : j ≠ l) :
    lineOfBus t j = lineOfBus s j := by
  cases l <;> cases j
  · exact absurd rfl hj
  · exact (congrArg State.busB h :)
  · exact (congrArg State.busA h :)
  · exact absurd rfl hj

theorem image_of_exceptStations {t : State} (h : exceptStations l t = exceptStations l s) : t.image = s.image := by
  cases l <;> exact (congrArg State.image h :)

theorem params_of_exceptStations {t : State} (h : exceptStations l t = exceptStations l s) : t.params = s.params := by
  cases l <;> exact (congrArg State.params h :)

/-- Stations taken in turn, each by a step that touches it alone: a station that is not among them stays, and one among them,
once, is as its own step leaves it. -/
theorem foldl_stations {f : State → Nat → State} (hkeep : ∀ s n, exceptStations l (f s n) = exceptStations l s)
    (hother : ∀ s n j, j ≠ n → station (f s n) l j = station s l j) {st : Nat} (P : Station → Prop)
    (hstep : ∀ u, exceptStations l u = exceptStations l s → station u l st = station s l st → P (station (f u st) l st)) :
    ∀ (ns : List Nat) (u : State), ns.Nodup → exceptStations l u = exceptStations l s →
      (st ∈ ns → station u l st = station s l st → P (station (ns.foldl f u) l st)) ∧
      (st ∉ ns → station (ns.foldl f u) l st = station u l st) ∧
      exceptStations l (ns.foldl f u) = exceptStations l s := by
  intro ns
  induction ns with
  | nil => exact fun u _ hu => ⟨fun h => absurd h List.not_mem_nil, fun _ => rfl, hu⟩
  | cons n ns ih =>
    intro u hnd hu
    obtain ⟨hn, hnd⟩ := List.nodup_cons.mp hnd
    obtain ⟨hin, hout, hex⟩ := ih (f u n) hnd ((hkeep u n).trans hu)
    refine ⟨fun hmem hst => ?_, fun hmem => ?_, hex⟩
    · by_cases hs : st = n
      · subst hs
        rw [List.foldl_cons, hout hn]
        exact hstep u hu hst
      · exact hin ((List.mem_cons.mp hmem).resolve_left hs) ((hother u n st hs).trans hst)
    · rw [List.mem_cons, not_or] at hmem
      exact (hout hmem.2).trans (hother u n st hmem.1)

theorem exchangeStations_nodup (s : State) (l : Line) : (exchangeStations s l).Nodup := by
  refine List.Nodup.filter _ (List.Nodup.map (fun a b h => Nat.succ.inj h) List.nodup_range)

theorem exchangeStations_lt {n : Nat} (h : n ∈ exchangeStations s l) : n < 64 := by
  obtain ⟨k, hk, rfl⟩ := List.mem_map.mp (List.mem_filter.mp h).1
  have := List.mem_range.mp hk
  omega

/-! ### Reception -/

/-- What a received frame does when no rule of its own takes it: the filters decide it (R488, R511). -/
def filtered (s : State) (l : Line) (f : CanFrame) : Prop :=
  f.ext = true ∨ (f.id ≠ 0x780 ∧ f.id ≠ 0x7C0 ∧ (busP s l 0 ≠ 2 ∨ f.id / 512 = 3 ∨
    (f.id / 512 = 1 ∧ isExchange s l (f.id % 64) = false)))

theorem receiveFrame_filtered {f : CanFrame} (h : filtered s l f) : receiveFrame s l f = filterFrame s l f := by
  unfold receiveFrame
  simp only
  split
  · rfl
  next hext =>
    obtain ⟨h1, h2, h3⟩ := h.resolve_left hext
    rw [if_neg (not_or.mpr ⟨h1, h2⟩)]
    refine if_pos ?_
    rw [Bool.or_eq_true, Bool.or_eq_true, Bool.and_eq_true, Bool.not_eq_true', Bool.not_eq_true', decide_eq_true_eq,
      decide_eq_true_eq, decide_eq_false_iff_not, or_assoc]
    exact h3

/-- An input frame of an exchange station goes to its station (R490). -/
theorem receiveFrame_input {f : CanFrame} {k st : Nat} (h2 : busP s l 0 = 2) (hext : f.ext = false)
    (hid : f.id = 512 + 64 * k + st) (hk : k < 7) (hst : st < 64) (hex : isExchange s l st = true) :
    receiveFrame s l f = inputFrame s l st k f := by
  have hfunc : f.id / 512 = 1 := by omega
  have hidx : f.id / 64 % 8 = k := by omega
  have hn : f.id % 64 = st := by omega
  have h780 : ¬ (f.id = 0x780 ∨ f.id = 0x7C0) := by omega
  have h0 : ¬ f.id = 0 := by omega
  have hk7 : ¬ k = 7 := by omega
  simp only [receiveFrame, hext, h780, hfunc, hidx, hn, h2, hex, h0, hk7, Bool.false_eq_true, if_false, decide_true,
    Bool.not_true, Bool.and_false, Bool.or_self, OfNat.one_ne_ofNat, decide_false, if_true]

/-- The line after a reception that succeeds. -/
def heardLine (b : BusLine) : BusLine := { b with recErr := if 127 < b.recErr then 127 else b.recErr - 1 }

/-- What the filters do with a frame: the first that matches takes it to the FIFO or counts its overflow. -/
theorem filterFrame_none {f : CanFrame} (h : (List.range 32).find? (fun k => filterMatches s l k f) = none) :
    filterFrame s l f = s := by
  simp only [filterFrame, h]

theorem filterFrame_some {f : CanFrame} {k : Nat} (h : (List.range 32).find? (fun k => filterMatches s l k f) = some k) :
    filterFrame s l f = modLine s l (fun b =>
      if b.fifo.length < 64 then
        { b with filterAt := vset b.filterAt k (some s.tb), fifo := b.fifo ++ [(f, k, s.tb / 5 * 5)] }
      else { b with filterAt := vset b.filterAt k (some s.tb), fifoOvf := b.fifoOvf + 1 }) := by
  simp only [filterFrame, h]
  rfl

/-- An input frame of another cycle, or of a station whose set is published, is discarded and counted (R490). -/
theorem inputFrame_discards {f : CanFrame} {n idx : Nat}
    (h : field f.data 0 1 % 16 ≠ (lineOfBus s l).cycle % 16 ∨ (station s l n).publishedNow = true) :
    inputFrame s l n idx f = modLine s l (fun b => { b with discarded := b.discarded + 1 }) := by
  refine if_pos ?_
  rw [Bool.or_eq_true, Bool.or_eq_true, decide_eq_true_eq]
  exact h.imp id .inr

/-- The station after an input frame of the cycle: it keeps the frame, or shows a wrong map (R490, R507). -/
def inputStation (s : State) (l : Line) (n idx : Nat) (f : CanFrame) : Station :=
  if field f.data 2 2 = stP s l n 2 then
    { station s l n with frames := (station s l n).frames.filter (fun y => y.1 ≠ idx) ++ [(idx, f.data)] }
  else { station s l n with mapBad := true }

theorem inputFrame_keeps {f : CanFrame} {n idx : Nat} (hn : n < 64)
    (htag : field f.data 0 1 % 16 = (lineOfBus s l).cycle % 16) (hpub : (station s l n).publishedNow = false)
    (hat : s.tb ≤ (lineOfBus s l).tk + psToTb (inputEnd s l (lineOfBus s l).cycle)) :
    inputFrame s l n idx f = modLine s l (fun b => { b with stations := vset b.stations n (inputStation s l n idx f) }) := by
  have hset : ∀ g : Station → Station, modStation s l n g =
      modLine s l (fun b => { b with stations := vset b.stations n (g (station s l n)) }) := fun g => by
    refine modLine_congr (congrArg (fun v => { lineOfBus s l with stations := v }) ?_)
    rw [station, vmod, vset, vget]
    simp only [hn, dif_pos]
  have hno : ¬ (decide (field f.data 0 1 % 16 ≠ (lineOfBus s l).cycle % 16) ||
      (decide ((lineOfBus s l).tk + psToTb (inputEnd s l (lineOfBus s l).cycle) < s.tb) ||
        (station s l n).publishedNow)) = true := by
    rw [hpub, decide_eq_false (not_not.mpr htag), decide_eq_false (Nat.not_lt.mpr hat)]
    exact Bool.false_ne_true
  refine (if_neg hno).trans ?_
  by_cases hmap : field f.data 2 2 = stP s l n 2
  · rw [inputStation, if_pos hmap]
    exact (if_neg (not_not.mpr hmap)).trans (hset _)
  · rw [inputStation, if_neg hmap]
    exact (if_pos hmap).trans (hset _)

/-- The state in which a received frame finds its place: the reception is counted, the leaving of error passive on record. -/
def heard (s : State) (now : Tb) (l : Line) (lg : Logbook) : State := { modLine (s.at now) l heardLine with log := lg }

/-- What a received frame finds is what stood before, but for the count of the reception. -/
theorem heard_finds (s : State) (now : Tb) (l : Line) (lg : Logbook) :
    lineOfBus (heard s now l lg) l = heardLine (lineOfBus s l) ∧ station (heard s now l lg) l = station s l ∧
      busP (heard s now l lg) l = busP s l ∧ stP (heard s now l lg) l = stP s l ∧
      inputEnd (heard s now l lg) l = inputEnd s l ∧ isExchange (heard s now l lg) l = isExchange s l ∧
      filterMatches (heard s now l lg) l = filterMatches s l ∧ (heard s now l lg).tb = (s.at now).tb := by
  cases l <;> exact ⟨rfl, rfl, rfl, rfl, rfl, rfl, rfl, rfl⟩

/-- A received frame whose handling changes its line alone. -/
theorem busFrameReceived_changes {now : Tb} {f : CanFrame} (g : BusLine → BusLine) (hr : lineReceives s l = true)
    (h : ∀ lg, receiveFrame (heard s now l lg) l f = modLine (heard s now l lg) l g) :
    ∃ t, exec (.busFrameReceived now l f) s = .next t ∧ lineOfBus t l = g (heardLine (lineOfBus s l)) ∧
      (∀ j, j ≠ l → lineOfBus t j = lineOfBus s j) ∧
      { t with busA := s.busA, busB := s.busB, log := s.log } = s.at now := by
  obtain ⟨lg, hlg⟩ := noteActive_keeps (errorPassive (lineOfBus (s.at now) l)) (modLine (s.at now) l heardLine) l
  have hrow : exec (.busFrameReceived now l f) s =
      .next (receiveFrame (noteActive (errorPassive (lineOfBus (s.at now) l)) (modLine (s.at now) l heardLine) l) l f) :=
    congrArg Host.Outcome.next (if_pos (by cases l <;> exact hr))
  rw [hlg] at hrow
  refine ⟨_, hrow.trans (congrArg Host.Outcome.next (h lg)), ?_, fun j hj => ?_, ?_⟩
  · cases l <;> rfl
  · cases l <;> cases j <;> trivial
  · cases l <;> rfl

section
variable {now : Tb} {f : CanFrame} {k st : Nat}

theorem received_unmatched (hr : lineReceives s l = true) (hf : filtered s l f)
    (hno : (List.range 32).find? (fun k => filterMatches s l k f) = none) :
    ∃ t, exec (.busFrameReceived now l f) s = .next t ∧ lineOfBus t l = heardLine (lineOfBus s l) ∧
      (∀ j, j ≠ l → lineOfBus t j = lineOfBus s j) ∧
      { t with busA := s.busA, busB := s.busB, log := s.log } = s.at now := by
  refine busFrameReceived_changes id hr fun lg => ?_
  obtain ⟨-, -, hpar, -, -, hex, hm, -⟩ := heard_finds s now l lg
  rw [receiveFrame_filtered (by rw [filtered, hpar, hex]; exact hf), filterFrame_none (by rw [hm]; exact hno)]
  cases l <;> rfl

theorem received_matched (hr : lineReceives s l = true) (hf : filtered s l f)
    (hk : (List.range 32).find? (fun k => filterMatches s l k f) = some k) :
    ∃ t, exec (.busFrameReceived now l f) s = .next t ∧
      lineOfBus t l = (if (lineOfBus s l).fifo.length < 64 then
        { heardLine (lineOfBus s l) with
          filterAt := vset (lineOfBus s l).filterAt k (some (s.at now).tb),
          fifo := (lineOfBus s l).fifo ++ [(f, k, (s.at now).tb / 5 * 5)] }
        else { heardLine (lineOfBus s l) with
          filterAt := vset (lineOfBus s l).filterAt k (some (s.at now).tb), fifoOvf := (lineOfBus s l).fifoOvf + 1 }) ∧
      (∀ j, j ≠ l → lineOfBus t j = lineOfBus s j) ∧
      { t with busA := s.busA, busB := s.busB, log := s.log } = s.at now := by
  refine busFrameReceived_changes (fun b => if b.fifo.length < 64 then
    { b with filterAt := vset b.filterAt k (some (s.at now).tb), fifo := b.fifo ++ [(f, k, (s.at now).tb / 5 * 5)] }
    else { b with filterAt := vset b.filterAt k (some (s.at now).tb), fifoOvf := b.fifoOvf + 1 }) hr fun lg => ?_
  obtain ⟨-, -, hpar, -, -, hex, hm, htb⟩ := heard_finds s now l lg
  rw [receiveFrame_filtered (by rw [filtered, hpar, hex]; exact hf), filterFrame_some (k := k) (by rw [hm]; exact hk), htb]

/-- A frame of an input identifier of an exchange station. -/
def isInput (s : State) (l : Line) (f : CanFrame) (k st : Nat) : Prop :=
  busP s l 0 = 2 ∧ f.ext = false ∧ f.id = 512 + 64 * k + st ∧ k < 7 ∧ st < 64 ∧ isExchange s l st = true

theorem received_input (h : isInput s l f k st) (lg : Logbook) :
    receiveFrame (heard s now l lg) l f = inputFrame (heard s now l lg) l st k f := by
  obtain ⟨h2, hext, hid, hk, hst, hex⟩ := h
  obtain ⟨-, -, hpar, -, -, hex', -, -⟩ := heard_finds s now l lg
  exact receiveFrame_input (by rw [hpar]; exact h2) hext hid hk hst (by rw [hex']; exact hex)

theorem received_discarded (hr : lineReceives s l = true) (hi : isInput s l f k st)
    (h : field f.data 0 1 % 16 ≠ (lineOfBus s l).cycle % 16 ∨ (station s l st).publishedNow = true) :
    ∃ t, exec (.busFrameReceived now l f) s = .next t ∧
      lineOfBus t l = { heardLine (lineOfBus s l) with discarded := (lineOfBus s l).discarded + 1 } ∧
      (∀ j, j ≠ l → lineOfBus t j = lineOfBus s j) ∧
      { t with busA := s.busA, busB := s.busB, log := s.log } = s.at now := by
  refine busFrameReceived_changes (fun b => { b with discarded := b.discarded + 1 }) hr fun lg => ?_
  obtain ⟨hline, hst, -, -, -, -, -, -⟩ := heard_finds s now l lg
  rw [received_input hi, inputFrame_discards (by rw [hline, hst]; exact h)]

theorem received_kept (hr : lineReceives s l = true) (hi : isInput s l f k st)
    (htag : field f.data 0 1 % 16 = (lineOfBus s l).cycle % 16) (hpub : (station s l st).publishedNow = false)
    (hat : (s.at now).tb ≤ (lineOfBus s l).tk + psToTb (inputEnd s l (lineOfBus s l).cycle)) :
    ∃ t, exec (.busFrameReceived now l f) s = .next t ∧
      lineOfBus t l = { heardLine (lineOfBus s l) with
        stations := vset (lineOfBus s l).stations st (inputStation s l st k f) } ∧
      (∀ j, j ≠ l → lineOfBus t j = lineOfBus s j) ∧
      { t with busA := s.busA, busB := s.busB, log := s.log } = s.at now := by
  have hst64 : st < 64 := hi.2.2.2.2.1
  refine busFrameReceived_changes (fun b => { b with stations := vset b.stations st (inputStation s l st k f) }) hr fun lg => ?_
  obtain ⟨hline, hst, -, hstp, hend, -, -, htb⟩ := heard_finds s now l lg
  rw [received_input hi, inputFrame_keeps hst64 (by rw [hline]; exact htag) (by rw [hst]; exact hpub)
    (by rw [htb, hline, hend]; exact hat), inputStation, hst, hstp]
  rfl

end

/-! ### Publication and judgement -/

theorem publish_exceptStations (s : State) (l : Line) (n : Nat) :
    exceptStations l (publish l s n) = exceptStations l s := by
  unfold publish
  simp only
  split
  · rfl
  · exact exceptStations_modStation ..

theorem publish_other (s : State) (n j : Nat) (h : j ≠ n) : station (publish l s n) l j = station s l j := by
  unfold publish
  simp only
  split
  · rfl
  · exact station_modStation_ne h ..

/-- Whether a station's set of input frames is whole. -/
def wholeSet (s : State) (l : Line) (n : Nat) : Bool :=
  (inFrames (stMap s l n)).all (fun y => (station s l n).frames.any (fun z => z.1 = y.1))

theorem publish_nothing {n : Nat} (h : inFrames (stMap s l n) = [] ∨ wholeSet s l n = false) : publish l s n = s := by
  refine if_pos ?_
  rw [Bool.or_eq_true, List.isEmpty_iff, Bool.not_eq_true']
  exact h

/-- A complete set is published (R504). -/
theorem publish_whole {n : Nat} (hn : n < 64) (h : inFrames (stMap s l n) ≠ []) (hw : wholeSet s l n = true) :
    let x := station (publish l s n) l n
    x.hasPub = true ∧ x.publishedNow = true ∧ x.frames = (station s l n).frames ∧ x.state = (station s l n).state := by
  have hno : ¬ ((inFrames (stMap s l n)).isEmpty ||
      !(inFrames (stMap s l n)).all (fun y => (station s l n).frames.any (fun z => z.1 = y.1))) = true := by
    rw [show (inFrames (stMap s l n)).all (fun y => (station s l n).frames.any (fun z => z.1 = y.1)) = true from hw,
      Bool.not_true, Bool.or_false, List.isEmpty_iff]
    exact h
  have hp : publish l s n = _ := if_neg hno
  rw [hp, station_modStation hn]
  exact ⟨rfl, rfl, rfl, rfl⟩

theorem setStation_exceptStations (s : State) (l : Line) (n : Nat) (x : StState) :
    exceptStations l (setStation s l n x) = exceptStations l s := by
  unfold setStation
  simp only
  split
  · rfl
  · split <;> split <;> simp only [exceptStations_log, exceptStations_modStation]

theorem setStation_other (n j : Nat) (h : j ≠ n) (x : StState) : station (setStation s l n x) l j = station s l j := by
  unfold setStation
  simp only
  split
  · rfl
  · split <;> split <;> simp only [station_log, station_modStation_ne h]

/-- A station changes its state and nothing else. -/
theorem station_setStation {n : Nat} (hn : n < 64) (x : StState) :
    station (setStation s l n x) l n = { station s l n with state := x } := by
  unfold setStation
  simp only
  split
  next h => rw [← h]
  · split <;> split <;> simp only [station_log, station_modStation hn]

/-- A station's cycle was good (R506). -/
def goodCycle (s : State) (l : Line) (n : Nat) : Bool :=
  !(station s l n).mapBad && ((inFrames (stMap s l n)).isEmpty || (station s l n).publishedNow)
    && ((outFrames (stMap s l n)).isEmpty || (station s l n).confirmed)

/-- The counts of a station after a cycle. -/
def counted (good : Bool) (st : Station) : Station :=
  if good then { st with missed := 0, good := st.good + 1, sinceComplete := 0 }
  else { st with missed := st.missed + 1, good := 0, sinceComplete := st.sinceComplete + 1 }

/-- The judgement, after the counts. -/
def judged (s : State) (l : Line) (n : Nat) (good : Bool) (st x : Station) : State :=
  if st.state = .asleep then s
  else if st.mapBad then setStation s l n .mapErr
  else if good then (if st.state = .missing ∨ busP s l 0xA ≤ x.good then setStation s l n .ok else s)
  else if st.state = .mapErr then s
  else if busP s l 9 ≤ x.missed then setStation s l n .lost
  else if st.state = .ok then setStation s l n .missing else s

theorem judgeStation_eq (s : State) (l : Line) (n : Nat) : judgeStation l s n =
    judged (modStation s l n (counted (goodCycle s l n))) l n (goodCycle s l n) (station s l n)
      (station (modStation s l n (counted (goodCycle s l n))) l n) := rfl

theorem judged_exceptStations (s : State) (l : Line) (n : Nat) (good : Bool) (st x : Station) :
    exceptStations l (judged s l n good st x) = exceptStations l s := by
  unfold judged
  split
  · rfl
  split
  · exact setStation_exceptStations ..
  split
  · split
    · exact setStation_exceptStations ..
    · rfl
  split
  · rfl
  split
  · exact setStation_exceptStations ..
  split
  · exact setStation_exceptStations ..
  · rfl

theorem judged_other (n j : Nat) (h : j ≠ n) (good : Bool) (st x : Station) :
    station (judged s l n good st x) l j = station s l j := by
  unfold judged
  split
  · rfl
  split
  · exact setStation_other _ _ h _
  split
  · split
    · exact setStation_other _ _ h _
    · rfl
  split
  · rfl
  split
  · exact setStation_other _ _ h _
  split
  · exact setStation_other _ _ h _
  · rfl

theorem judgeStation_exceptStations (s : State) (l : Line) (n : Nat) :
    exceptStations l (judgeStation l s n) = exceptStations l s := by
  rw [judgeStation_eq, judged_exceptStations, exceptStations_modStation]

theorem judgeStation_other (s : State) (n j : Nat) (h : j ≠ n) : station (judgeStation l s n) l j = station s l j := by
  rw [judgeStation_eq, judged_other _ _ h, station_modStation_ne h]

/-- The state that a cycle's judgement gives a station, from its counts after the cycle (R507). -/
def verdict (good : Bool) (st x : Station) (lostAt okAt : Nat) : StState :=
  if st.state = .asleep then .asleep
  else if st.mapBad then .mapErr
  else if good then (if st.state = .missing ∨ okAt ≤ x.good then .ok else st.state)
  else if st.state = .mapErr then .mapErr
  else if lostAt ≤ x.missed then .lost
  else if st.state = .ok then .missing else st.state

theorem station_judged {n : Nat} (hn : n < 64) (good : Bool) {st : Station} (hst : (station s l n).state = st.state)
    (x : Station) : station (judged s l n good st x) l n =
      { station s l n with state := verdict good st x (busP s l 9) (busP s l 0xA) } := by
  have hself : ∀ v, v = st.state → station s l n = { station s l n with state := v } := fun v hv => by rw [hv, ← hst]
  unfold judged verdict
  split
  next h => exact hself _ h.symm
  split
  · exact station_setStation hn _
  split
  · split
    · exact station_setStation hn _
    · exact hself _ rfl
  split
  next h => exact hself _ h.symm
  split
  · exact station_setStation hn _
  split
  · exact station_setStation hn _
  · exact hself _ rfl

theorem counted_state (good : Bool) (st : Station) : (counted good st).state = st.state := by
  cases good <;> rfl

theorem station_judgeStation {n : Nat} (hn : n < 64) : station (judgeStation l s n) l n =
    { counted (goodCycle s l n) (station s l n) with
      state := verdict (goodCycle s l n) (station s l n) (counted (goodCycle s l n) (station s l n)) (busP s l 9)
        (busP s l 0xA) } := by
  have hpar : ∀ k, busP (modStation s l n (counted (goodCycle s l n))) l k = busP s l k := fun k => by cases l <;> rfl
  rw [judgeStation_eq, station_modStation hn, station_judged hn _ (by rw [station_modStation hn, counted_state]), hpar, hpar,
    station_modStation hn]

/-- What a confirmation window's end makes of a station (R506, R507). -/
def judgement (s : State) (l : Line) (x u : Station) (good : Prop) : Prop :=
  (good → u.missed = 0 ∧ u.good = x.good + 1) ∧ (¬ good → u.missed = x.missed + 1 ∧ u.good = 0) ∧
  (x.state = .asleep → u.state = .asleep) ∧
  (x.state ≠ .asleep → x.mapBad = true → u.state = .mapErr) ∧
  (x.state = .missing → good → u.state = .ok) ∧
  (x.state = .ok ∨ x.state = .missing → x.mapBad = false → ¬ good → busP s l 9 ≤ x.missed + 1 → u.state = .lost) ∧
  (x.state = .ok → x.mapBad = false → ¬ good → x.missed + 1 < busP s l 9 → u.state = .missing)

theorem judgement_verdict {good : Bool} {x : Station} (hgood : good = true → x.mapBad = false) :
    judgement s l x { counted good x with state := verdict good x (counted good x) (busP s l 9) (busP s l 0xA) }
      (good = true) := by
  refine ⟨fun h => ?_, fun h => ?_, fun h => ?_, fun h hm => ?_, fun h hg => ?_, fun h hm hg hl => ?_, fun h hm hg hl => ?_⟩
  · rw [h]
    exact ⟨rfl, rfl⟩
  · rw [Bool.not_eq_true] at h
    rw [h]
    exact ⟨rfl, rfl⟩
  · exact if_pos h
  · exact (if_neg h).trans (if_pos hm)
  · have hm : ¬ x.mapBad = true := by rw [hgood hg]; exact Bool.false_ne_true
    exact (if_neg (by rw [h]; decide)).trans ((if_neg hm).trans ((if_pos hg).trans (if_pos (.inl h))))
  · rw [Bool.not_eq_true] at hg
    subst hg
    have ha : ¬ x.state = .asleep := by rcases h with h | h <;> rw [h] <;> decide
    have hme : ¬ x.state = .mapErr := by rcases h with h | h <;> rw [h] <;> decide
    exact (if_neg ha).trans ((if_neg (ne_true_of_eq_false hm)).trans ((if_neg Bool.false_ne_true).trans
      ((if_neg hme).trans (if_pos hl))))
  · rw [Bool.not_eq_true] at hg
    subst hg
    exact (if_neg (by rw [h]; decide)).trans ((if_neg (ne_true_of_eq_false hm)).trans ((if_neg Bool.false_ne_true).trans
      ((if_neg (by rw [h]; decide)).trans ((if_neg (Nat.not_le.mpr hl)).trans (if_pos h)))))

theorem goodCycle_iff (s : State) (l : Line) (n : Nat) : goodCycle s l n = true ↔
    (station s l n).mapBad = false ∧ (inFrames (stMap s l n) = [] ∨ (station s l n).publishedNow = true) ∧
      (outFrames (stMap s l n) = [] ∨ (station s l n).confirmed = true) := by
  unfold goodCycle
  rw [Bool.and_eq_true, Bool.and_eq_true, Bool.or_eq_true, Bool.or_eq_true, Bool.not_eq_true', List.isEmpty_iff,
    List.isEmpty_iff, and_assoc]

/-- Whether a set is published at the end of the input window, and what a publication leaves (R504). -/
def publication (s : State) (l : Line) (n : Nat) (u : Station) : Prop :=
  (inFrames (stMap s l n) = [] ∨ wholeSet s l n = false → u = station s l n) ∧
  (inFrames (stMap s l n) ≠ [] → wholeSet s l n = true → u.hasPub = true ∧ u.publishedNow = true ∧
    u.frames = (station s l n).frames ∧ u.state = (station s l n).state)

theorem publish_publication {n : Nat} (hn : n < 64) : publication s l n (station (publish l s n) l n) :=
  ⟨fun h => by rw [publish_nothing h], publish_whole hn⟩

theorem stMap_of_params {t : State} (h : t.params = s.params) (n : Nat) : stMap t l n = stMap s l n := by
  rw [stMap, stP, par, h]
  rfl

theorem busP_of_params {t : State} (h : t.params = s.params) (k : Nat) : busP t l k = busP s l k := by
  rw [busP, par, h]
  rfl

/-- The end of an input window publishes each exchange station whose set is whole. -/
theorem foldl_publish {n : Nat} (h : n ∈ exchangeStations s l) :
    publication s l n (station ((exchangeStations s l).foldl (publish l) s) l n) ∧
      exceptStations l ((exchangeStations s l).foldl (publish l) s) = exceptStations l s := by
  have hstep : ∀ u, exceptStations l u = exceptStations l s → station u l n = station s l n →
      publication s l n (station (publish l u n) l n) := fun u hu hst => by
    have hmap := stMap_of_params (l := l) (params_of_exceptStations hu) n
    have hpub := publish_publication (s := u) (l := l) (exchangeStations_lt h)
    rw [publication, wholeSet, hmap, hst] at hpub
    exact hpub
  obtain ⟨hin, -, hex⟩ := foldl_stations (fun s n => publish_exceptStations s l n) publish_other (publication s l n) hstep
    _ s (exchangeStations_nodup s l) rfl
  exact ⟨hin h rfl, hex⟩

/-- The end of a confirmation window judges each exchange station. -/
theorem foldl_judgeStation {n : Nat} (h : n ∈ exchangeStations s l) :
    judgement s l (station s l n) (station ((exchangeStations s l).foldl (judgeStation l) s) l n)
        (goodCycle s l n = true) ∧
      exceptStations l ((exchangeStations s l).foldl (judgeStation l) s) = exceptStations l s := by
  have hstep : ∀ u, exceptStations l u = exceptStations l s → station u l n = station s l n →
      judgement s l (station s l n) (station (judgeStation l u n) l n) (goodCycle s l n = true) := fun u hu hst => by
    have hpar := params_of_exceptStations hu
    have hgood : goodCycle u l n = goodCycle s l n := by rw [goodCycle, goodCycle, stMap_of_params hpar, hst]
    rw [station_judgeStation (exchangeStations_lt h), hgood, hst, busP_of_params hpar, busP_of_params hpar]
    exact judgement_verdict fun hg => ((goodCycle_iff s l n).mp hg).1
  obtain ⟨hin, -, hex⟩ := foldl_stations (fun s n => judgeStation_exceptStations s l n) judgeStation_other
    (fun u => judgement s l (station s l n) u (goodCycle s l n = true)) hstep _ s (exchangeStations_nodup s l) rfl
  exact ⟨hin h rfl, hex⟩

/-! ### The FIFO and foreign stations -/

/-- The words of a foreign station take the data of a frame, one after the other. -/
theorem foreignWords_puts {n j : Nat} (hn : n < 64) (t : Nat → Tagged) :
    ∀ (m : Nat) (u : State),
      let w := (List.range m).foldl (fun s i => modStation s l n (fun st => { st with
        pub := smInsert st.pub (stInWord l n (j + i)) (t i), hasPub := true })) u
      exceptStations l w = exceptStations l u ∧ w.log = u.log ∧
        ∀ i, i < m → smGet itemDefault (station w l n).pub (stInWord l n (j + i)) = t i := by
  intro m
  induction m with
  | zero => exact fun u => ⟨rfl, rfl, nofun⟩
  | succ m ih =>
    intro u
    obtain ⟨hex, hlog, hget⟩ := ih u
    rw [List.range_succ, List.foldl_append, List.foldl_cons, List.foldl_nil]
    refine ⟨(exceptStations_modStation ..).trans hex, ?_, fun i hi => ?_⟩
    · rw [← hlog]
      cases l <;> rfl
    · rw [station_modStation hn]
      show smGet itemDefault (smInsert _ _ _) _ = _
      rw [smGet_smInsert]
      by_cases him : i = m
      · rw [him, if_pos rfl]
      · have hne : ¬ stInWord l n (j + i) = stInWord l n (j + m) := by
          unfold stInWord wKey
          omega
        rw [if_neg hne]
        exact hget i (by omega)

/-- The word of a foreign station that a frame carries at place i, bad beyond the frame's end (R511). -/
def carriedWord (f : CanFrame) (i : Nat) : Tagged :=
  if 4 * i + 4 ≤ f.data.length then ⟨BitVec.ofNat 40 (field f.data (4 * i) 4), 0⟩
  else ⟨0, mkTag false false false false false qBad false⟩

theorem foreignWords_eq (s : State) (l : Line) (k : Nat) (f : CanFrame) : foreignWords s l k f =
    (List.range (filterWords s l k).2.2).foldl (fun u i => modStation u l (filterWords s l k).1 (fun st => { st with
      pub := smInsert st.pub (stInWord l (filterWords s l k).1 ((filterWords s l k).2.1 + i)) (carriedWord f i),
      hasPub := true })) s := by
  rfl

theorem drainOne_empty (h : (lineOfBus s l).fifo = []) : drainOne s l = s := by
  simp only [drainOne, h]

theorem drainOne_words {f : CanFrame} {k mark : Nat} {rest : List (CanFrame × Nat × Nat)}
    (h : (lineOfBus s l).fifo = (f, k, mark) :: rest) (hk : busP s l (0x22 + 4 * k) % 4 = 1) :
    drainOne s l = foreignWords (modLine s l (fun b => { b with fifo := rest })) l k f := by
  have hk' : busP (modLine s l (fun b => { b with fifo := rest })) l (0x22 + 4 * k) % 4 = 1 := by cases l <;> exact hk
  simp only [drainOne, h, hk']

/-- A frame for the words of a foreign station leaves the FIFO and puts its words there (R511). -/
theorem drainOne_carries {f : CanFrame} {k mark : Nat} {rest : List (CanFrame × Nat × Nat)}
    (h : (lineOfBus s l).fifo = (f, k, mark) :: rest) (hk : busP s l (0x22 + 4 * k) % 4 = 1) :
    let w := filterWords s l k
    (lineOfBus (drainOne s l) l).fifo = rest ∧ (drainOne s l).log = s.log ∧ (drainOne s l).image = s.image ∧
      ∀ i, i < w.2.2 → smGet itemDefault (station (drainOne s l) l w.1).pub (stInWord l w.1 (w.2.1 + i)) = carriedWord f i := by
  have hwords : filterWords (modLine s l (fun b => { b with fifo := rest })) l k = filterWords s l k := by cases l <;> rfl
  obtain ⟨hex, hlog, hget⟩ := foreignWords_puts (l := l) (n := (filterWords s l k).1) (j := (filterWords s l k).2.1)
    (Nat.mod_lt _ (by decide)) (carriedWord f) (filterWords s l k).2.2 (modLine s l (fun b => { b with fifo := rest }))
  rw [drainOne_words h hk, foreignWords_eq, hwords]
  refine ⟨?_, hlog.trans (by cases l <;> rfl), (image_of_exceptStations hex).trans (by cases l <;> rfl), hget⟩
  cases l
  · exact (congrArg (fun u => u.busA.fifo) hex :)
  · exact (congrArg (fun u => u.busB.fifo) hex :)

theorem drainOne_other {f : CanFrame} {k mark : Nat} {rest : List (CanFrame × Nat × Nat)}
    (h : (lineOfBus s l).fifo = (f, k, mark) :: rest) (hk : busP s l (0x22 + 4 * k) % 4 ≠ 1) :
    ∃ lg, drainOne s l = { modLine s l (fun b => { b with fifo := rest }) with log := lg } := by
  have hk' : busP (modLine s l (fun b => { b with fifo := rest })) l (0x22 + 4 * k) % 4 ≠ 1 := by cases l <;> exact hk
  simp only [drainOne, h]
  split
  next h1 => exact absurd h1 hk'
  · exact log_rest ..
  · exact ⟨_, rfl⟩

/-! ### Filters that age -/

theorem getD_toList {α : Type} {n : Nat} (v : Vector α n) (k : Nat) (d : α) : v.toList.getD k d = vget v k d := by
  unfold vget
  by_cases h : k < n
  · rw [dif_pos h, List.getD_eq_getElem _ _ (by simpa using h), Vector.getElem_toList]
  · rw [dif_neg h, List.getD_eq_default _ _ (by simpa using h)]

/-- Whether a filter has gone without a match for its age (R512). -/
def filterOld (s : State) (l : Line) (k : Nat) : Bool :=
  (vget (lineOfBus s l).filterAt k none).any (fun t => decide (t + msToTb (busP s l (0x23 + 4 * k)) ≤ s.tb))

theorem filterAged_idle {k : Nat} (h : busP s l (0x23 + 4 * k) = 0 ∨ filterOld s l k = false) : filterAged s l k = s := by
  refine if_pos (h.imp id fun h => .inr ?_)
  rw [getD_toList]
  exact ne_true_of_eq_false h

theorem tagQ_setQ (t : Byte) (q : Quality) : tagQ (setQ t q) = q := tagQ_mkTag ..

/-- The station whose words under some keys are stale. -/
def staleWords (keys : List Nat) (st : Station) : Station :=
  { st with pub := st.pub.map (fun e => if keys.contains e.1 then (e.1, ⟨e.2.val, setQ e.2.tag qStale⟩) else e) }

theorem staleWords_stale {keys : List Nat} {st : Station} {e : Nat × Tagged} (he : e ∈ (staleWords keys st).pub)
    (hk : e.1 ∈ keys) : tagQ e.2.tag = qStale := by
  obtain ⟨e0, -, rfl⟩ := List.mem_map.mp he
  have hkey : keys.contains e0.1 = true := by
    rw [List.contains_iff_mem]
    split at hk <;> exact hk
  rw [if_pos hkey]
  exact tagQ_setQ ..

/-- The words of an aged filter are stale (R512). -/
theorem filterAged_stale {k : Nat} (hage : busP s l (0x23 + 4 * k) ≠ 0) (hold : filterOld s l k = true)
    (h1 : busP s l (0x22 + 4 * k) % 4 = 1) :
    exceptStations l (filterAged s l k) = exceptStations l s ∧
      let w := filterWords s l k
      ∀ e ∈ (station (filterAged s l k) l w.1).pub, (∃ i, i < w.2.2 ∧ e.1 = stInWord l w.1 (w.2.1 + i)) →
        tagQ e.2.tag = qStale := by
  have hno : ¬ (busP s l (0x23 + 4 * k) = 0 ∨ busP s l (0x22 + 4 * k) % 4 ≠ 1 ∨
      ¬ ((lineOfBus s l).filterAt.toList.getD k none).any
        (fun t => decide (t + msToTb (busP s l (0x23 + 4 * k)) ≤ s.tb)) = true) := by
    rw [getD_toList, not_or, not_or, not_not, not_not]
    exact ⟨hage, h1, hold⟩
  have hrow : filterAged s l k = modStation s l (filterWords s l k).1 (staleWords ((List.range (filterWords s l k).2.2).map
      (fun i => stInWord l (filterWords s l k).1 ((filterWords s l k).2.1 + i)))) := if_neg hno
  have hw : (filterWords s l k).1 < 64 := Nat.mod_lt _ (by decide)
  rw [hrow]
  refine ⟨exceptStations_modStation .., ?_⟩
  intro w e he hi
  rw [station_modStation hw] at he
  obtain ⟨i, hi, hkey⟩ := hi
  exact staleWords_stale he (List.mem_map.mpr ⟨i, List.mem_range.mpr hi, hkey.symm⟩)

end

/-- Settles O46: filters, input frames, publication, the judgement of stations, the FIFO and ageing filters. -/
theorem busReceptionAndStations : Obligations.BusReceptionAndStations := by
  intro s now l f k st rest mark flt n b others got filt first x exchanging whole
  have hb : lineOfBus n l = b := by cases l <;> rfl
  have hothers : ∀ j, lineOfBus n j = lineOfBus s j := fun j => by cases j <;> rfl
  have hdown : lineReceives s l = false → ¬ lineReceives n l = true := fun h => by
    rw [show lineReceives n l = lineReceives s l by cases l <;> rfl, h]
    exact Bool.false_ne_true
  have hrow : lineReceives s l = true → exec (.fifoDrain now l) s = .next (drainOne n l) := fun h =>
    congrArg Host.Outcome.next (if_pos (by cases l <;> exact h))
  have hst : station n l st = x := by cases l <;> rfl
  have hup : (lineUp n l && decide (busP n l 0 = 2) && (lineOfBus n l).cycleRunning) = true ↔ exchanging := by
    rw [show lineUp n l = lineUp s l by cases l <;> rfl, hb, Bool.and_eq_true, Bool.and_eq_true, decide_eq_true_eq, and_assoc]
    exact Iff.rfl
  have hmem : st ∈ exchangeStations s l → st ∈ exchangeStations n l := fun h => by cases l <;> exact h
  refine ⟨fun h => ⟨congrArg Host.Outcome.next (if_neg (hdown h)), congrArg Host.Outcome.next (if_neg (hdown h))⟩,
    received_unmatched, fun hr hf hk => ⟨fun hlen => ?_, fun hlen => ?_⟩, fun hr h2 hext hid hk hst64 hexch =>
      ⟨received_discarded hr ⟨h2, hext, hid, hk, hst64, hexch⟩,
       fun htag hpub hat => received_kept hr ⟨h2, hext, hid, hk, hst64, hexch⟩ htag hpub hat⟩,
    fun h => ⟨congrArg Host.Outcome.next (if_neg fun hgo => h (hup.mp hgo)),
      congrArg Host.Outcome.next (if_neg fun hgo => h (hup.mp hgo))⟩, fun h hmem' => ?_, fun h hmem' => ?_, fun hr hfifo => ?_,
    fun hr hfifo h1 => ?_, fun hr hfifo h1 => ?_, ?_⟩
  · obtain ⟨t, h1, h2, h3, h4⟩ := received_matched (now := now) hr hf hk
    exact ⟨t, h1, h2.trans (if_pos hlen), h3, h4⟩
  · obtain ⟨t, h1, h2, h3, h4⟩ := received_matched (now := now) hr hf hk
    exact ⟨t, h1, h2.trans (if_neg (Nat.not_lt.mpr hlen)), h3, h4⟩
  · obtain ⟨⟨hno, hyes⟩, hex⟩ := foldl_publish (hmem hmem')
    have hmap : stMap n l st = stMap s l st := by cases l <;> rfl
    rw [hmap, hst] at hno hyes
    rw [wholeSet, hmap, hst] at hno hyes
    exact ⟨_, congrArg Host.Outcome.next (if_pos (hup.mpr h)),
      fun j hj => (lineOfBus_of_exceptStations hex hj).trans (hothers j),
      hno, hyes, (image_of_exceptStations hex :)⟩
  · obtain ⟨hj, hex⟩ := foldl_judgeStation (hmem hmem')
    rw [goodCycle_iff, judgement, hst, stMap_of_params (t := n) (s := s) rfl, busP_of_params (t := n) (s := s) rfl] at hj
    exact ⟨_, _, congrArg Host.Outcome.next (if_pos (hup.mpr h)),
      fun j hj => (lineOfBus_of_exceptStations hex hj).trans (hothers j),
      rfl, hj⟩
  · rw [hrow hr, drainOne_empty (by rw [hb]; exact hfifo)]
  · obtain ⟨lg, hlg⟩ := drainOne_other (s := n) (l := l) (by rw [hb]; exact hfifo) h1
    refine ⟨_, hrow hr, ?_, fun j hj => ?_, ?_⟩
    · rw [hlg, ← hb]
      cases l <;> rfl
    · rw [hlg]
      cases l <;> cases j <;> trivial
    · rw [hlg]
      cases l <;> rfl
  · obtain ⟨hf, hlog, himg, hget⟩ := drainOne_carries (s := n) (l := l) (by rw [hb]; exact hfifo) h1
    exact ⟨_, hrow hr, hf, hlog, himg, fun _ i hi hlen => (hget i hi).trans (if_pos hlen)⟩
  · refine ⟨fun h => ?_, fun hlu hage hold h1 => ?_⟩
    · rcases h with hlu | h
      · exact congrArg Host.Outcome.next (if_neg (ne_true_of_eq_false (by cases l <;> exact hlu)))
      · have haged : filterAged n l flt.val = n := filterAged_idle (h.imp id fun h => by rw [filterOld, hb]; exact h)
        exact congrArg Host.Outcome.next (by rw [haged]; exact ite_self n)
    · obtain ⟨hex, hstale⟩ := filterAged_stale (s := n) (l := l) (k := flt.val) hage (by rw [filterOld, hb]; exact hold) h1
      exact ⟨_, congrArg Host.Outcome.next (if_pos (by cases l <;> exact hlu)),
        fun j hj => (lineOfBus_of_exceptStations hex hj).trans (hothers j), (image_of_exceptStations hex :), hstale⟩

end Sys2Proof.Machine
end

section
/-!
PROOFS. BUS.SEND, BUS.SLEEP, the sleep and the wake of a line, bus heartbeats (R392, R502, R510-R516).
-/
namespace Sys2Proof.Machine

open Sys2Proof

section
variable {s : State} {now : Tb} {c : CmdRef} {l : Line}

theorem lineOfBus_done (s : State) (c : CmdRef) (p : List Byte) (l : Line) : lineOfBus (done s c p) l = lineOfBus s l :=
  setResult_keeps (lineOfBus · l) (fun _ _ => by cases l <;> rfl) ..

theorem lineOfBus_waitFor (s : State) (c : CmdRef) (l : Line) : lineOfBus (waitFor s c) l = lineOfBus s l := by
  cases l <;> rfl

theorem lineOfBus_unbook (s : State) (k : Line) (c : CmdRef) (l : Line) : lineOfBus (unbook s k c) l = lineOfBus s l := by
  cases l <;> rfl

theorem findCmd_modLine (s : State) (l : Line) (f : BusLine → BusLine) (c : CmdRef) :
    findCmd (modLine s l f) c = findCmd s c := by cases l <;> rfl

theorem waits_modLine {s : State} {f : BusLine → BusLine} (h : waits s c) : waits (modLine s l f) c := by
  rw [waits, findCmd_modLine]
  exact h

/-- A frame of BUS.SEND on its line. -/
def sentFrame (frame : CanFrame) (c : CmdRef) : TxFrame :=
  { frame, ref := some c, heartbeat := false, sync := false, time := false, postmark := 0, lost := false, err := false }

/-- Whether a slot of the cycle under way or of a later one is booked for a command. -/
def bookedSlot (s : State) (c : CmdRef) (l : Line) : Bool :=
  s.book.bus.any (fun y => y.1 = l && y.2.2 = c && decide (slotId (lineOfBus s l).cycle 0 ≤ y.2.1))

/-- BUS.SEND answers why its frame does not go out. -/
theorem miss_answers {x : Cmd} (h : findCmd s c = some x) (reason : Byte) :
    answers (done (unbook s l c) c ([0, reason] ++ le 8 0)) c ([0, reason] ++ le 8 0) ∧
      lineOfBus (done (unbook s l c) c ([0, reason] ++ le 8 0)) l = lineOfBus s l :=
  ⟨done_answers (s := unbook s l c) h _, (lineOfBus_done ..).trans (lineOfBus_unbook ..)⟩

theorem busSendOp_unbooked {frame : CanFrame} (h1 : (lineOfBus s l).busOff = false) (h2 : (lineOfBus s l).asleep = false)
    (h3 : bookedSlot s c l = false) : busSendOp s c l frame = done (unbook s l c) c ([0, 5] ++ le 8 0) := by
  refine (if_neg (ne_true_of_eq_false h1)).trans ((if_neg (ne_true_of_eq_false h2)).trans (if_pos ?_))
  show (!bookedSlot s c l) = true
  rw [h3]
  rfl

theorem busSendOp_waits {frame : CanFrame} (h1 : (lineOfBus s l).busOff = false) (h2 : (lineOfBus s l).asleep = false)
    (h3 : bookedSlot s c l = true) : busSendOp s c l frame =
      modLine (waitFor s c) l (fun b => { b with outQueue := b.outQueue ++ [sentFrame frame c] }) := by
  refine (if_neg (ne_true_of_eq_false h1)).trans ((if_neg (ne_true_of_eq_false h2)).trans (if_neg ?_))
  show ¬ (!bookedSlot s c l) = true
  rw [h3]
  exact Bool.false_ne_true

theorem works_busSend (frame : CanFrame) : works s now c (.busSend now c l frame) (fun x b t =>
    let u := lineOfBus b l
    let misses := fun (reason : Byte) => answers t c ([0, reason] ++ le 8 0) ∧ lineOfBus t l = u
    (∀ e, closingEntry b (busUnit l) = some e → endsAs b t c x stFault (BitVec.ofNat 8 (busUnit l)) e.2.1 []) ∧
    (closingEntry b (busUnit l) = none →
      let booked := b.book.bus.any (fun y => y.1 = l && y.2.2 = c && decide (slotId u.cycle 0 ≤ y.2.1))
      (u.busOff = true → misses 3) ∧ (u.busOff = false → u.asleep = true → misses 4) ∧
      (u.busOff = false → u.asleep = false → booked = false → misses 5) ∧
      (u.busOff = false → u.asleep = false → booked = true → waits t c ∧ ∃ y, y.frame = frame ∧ y.ref = some c ∧
        lineOfBus t l = { u with outQueue := u.outQueue ++ [y] } ∧ t.book = b.book))) := by
  refine works_of (Eq.refl (execBusSend now c l frame s)) fun x hx => ⟨fun e he => ?_, fun hopen => ?_⟩
  · simp only [lineClosed, he, Option.map_some]
    exact abortedBy_endsAs hx ..
  · have hc := findCmd_workState hx
    generalize workState s now c x = b at hc hopen
    simp only [lineClosed, hopen, Option.map_none]
    refine ⟨fun h1 => ?_, fun h1 h2 => ?_, fun h1 h2 h3 => ?_, fun h1 h2 h3 => ?_⟩
    · rw [busSendOp, if_pos h1]
      exact miss_answers hc 3
    · rw [busSendOp, if_neg (ne_true_of_eq_false h1), if_pos h2]
      exact miss_answers hc 4
    · rw [busSendOp_unbooked h1 h2 h3]
      exact miss_answers hc 5
    · rw [busSendOp_waits h1 h2 h3]
      refine ⟨waits_modLine (waits_waitFor hc), sentFrame frame c, rfl, rfl, ?_, by cases l <;> rfl⟩
      rw [lineOfBus_modLine, lineOfBus_waitFor]

/-! ### BUS.SLEEP and wake (R514-R516) -/

/-- A waking line, as far as the commands that wait for it. -/
theorem wakeOp_drives (h : (lineOfBus s l).asleep = true) (h2 : busP s l 0 = 2) (hd : drives s = true) :
    ∃ lg, wakeOp s l = startLine { s with log := lg } l := by
  obtain ⟨lg, hlg⟩ := log_rest s 0x88 sevInfo (busUnit l) (64 * lineNo l) 0 []
  have hawake : ¬ (!(lineOfBus s l).asleep) = true := by
    rw [h]
    exact Bool.false_ne_true
  refine ⟨lg, (if_neg hawake).trans ?_⟩
  rw [hlg]
  exact if_pos ⟨by cases l <;> exact h2, by cases l <;> exact hd⟩

theorem wakeOp_line (h : (lineOfBus s l).asleep = true) :
    let u := lineOfBus (wakeOp s l) l
    (u.asleep = false ∧ u.started = true ∧ u.cycleRunning = false ∧ u.stations = Vector.replicate 64 Station.fresh) ∧
      ∀ j, j ≠ l → lineOfBus (wakeOp s l) j = lineOfBus s j := by
  obtain ⟨lg, hlg⟩ := log_rest s 0x88 sevInfo (busUnit l) (64 * lineNo l) 0 []
  have hawake : ¬ (!(lineOfBus s l).asleep) = true := by
    rw [h]
    exact Bool.false_ne_true
  have hfold : ∀ (refs : List CmdRef) (u : State) j, lineOfBus (refs.foldl (fun s c => doneNow s c (le 8 s.tb)) u) j =
      lineOfBus u j := fun refs u j => foldl_keeps (lineOfBus · j) _ (fun _ _ => lineOfBus_doneNow ..) refs u
  have hstart : ∀ j, j ≠ l → lineOfBus (startLine { s with log := lg } l) j = lineOfBus s j := fun j hj => by
    rw [startLine, lineOfBus_modLine_ne _ _ hj]
    cases j <;> rfl
  rw [show wakeOp s l = _ from if_neg hawake, hlg]
  simp only
  split
  · exact ⟨by cases l <;> exact ⟨rfl, rfl, rfl, rfl⟩, hstart⟩
  · refine ⟨?_, fun j hj => ?_⟩
    · rw [hfold]
      cases l <;> exact ⟨rfl, rfl, rfl, rfl⟩
    · rw [hfold, lineOfBus_modLine_ne _ _ hj, hstart j hj]

theorem works_busSleep (mode : Nat) : works s now c (.busSleep now c l mode) (fun x b t =>
    let u := lineOfBus b l
    (∀ e, closingEntry b (busUnit l) = some e → endsAs b t c x stFault (BitVec.ofNat 8 (busUnit l)) e.2.1 []) ∧
    (closingEntry b (busUnit l) = none →
      (mode ≠ 2 → u.asleep = false → waits t c ∧ lineOfBus t l = { u with sleepReq := some (mode, some c) }) ∧
      (mode ≠ 2 → u.asleep = true → answers t c (le 8 b.tb) ∧ lineOfBus t l = { u with wakeMode := mode }) ∧
      (mode = 2 → u.asleep = false → answers t c (le 8 b.tb) ∧ lineOfBus t l = { u with sleepReq := none }) ∧
      (mode = 2 → u.asleep = true → busP b l 0 = 2 → drives b = true → waits t c ∧ (lineOfBus t l).asleep = false ∧
        (lineOfBus t l).wakeRef = some c ∧ (lineOfBus t l).started = true))) := by
  refine works_of (Eq.refl (execBusSleep now c l mode s)) fun x hx => ⟨fun e he => ?_, fun hopen => ?_⟩
  · simp only [lineClosed, he, Option.map_some]
    exact abortedBy_endsAs hx ..
  · have hc := findCmd_workState hx
    generalize workState s now c x = b at hc hopen
    have hcl : ∀ f, findCmd (modLine b l f) c = _ := fun f => (findCmd_modLine b l f c).trans hc
    simp only [lineClosed, hopen, Option.map_none]
    refine ⟨fun hm ha => ?_, fun hm ha => ?_, fun hm ha => ?_, fun hm ha h2 hd => ?_⟩
    · rw [busSleepOp, if_neg hm, if_neg (ne_true_of_eq_false ha)]
      exact ⟨waits_modLine (waits_waitFor hc), by rw [lineOfBus_modLine, lineOfBus_waitFor]⟩
    · rw [busSleepOp, if_neg hm, if_pos ha]
      exact ⟨done_answers (hcl _) _, by rw [lineOfBus_done, lineOfBus_modLine]⟩
    · rw [busSleepOp, if_pos hm, if_neg (ne_true_of_eq_false ha)]
      by_cases hr : (lineOfBus b l).sleepReq.isSome = true
      · rw [if_pos hr]
        exact ⟨done_answers (hcl _) _, by rw [lineOfBus_done, lineOfBus_modLine]⟩
      · have hnone : (lineOfBus b l).sleepReq = none := by simpa using hr
        rw [if_neg hr]
        refine ⟨done_answers hc _, ?_⟩
        rw [lineOfBus_done, ← hnone]
    · rw [busSleepOp, if_pos hm, if_pos ha]
      obtain ⟨lg, hlg⟩ := wakeOp_drives (s := modLine (waitFor b c) l (fun b => { b with wakeRef := some c })) (l := l)
        (by cases l <;> exact ha) (by cases l <;> exact h2) (by cases l <;> exact hd)
      rw [hlg]
      refine ⟨?_, by cases l <;> exact ⟨rfl, rfl, rfl⟩⟩
      obtain ⟨y, hy, hw⟩ := waits_waitFor hc
      exact ⟨y, (by cases l <;> exact hy), hw⟩

/-! ### Sleep entry (R514) -/

/-- A line that falls asleep. -/
def sleepingLine (mode : Nat) (b : BusLine) : BusLine :=
  { b with asleep := true, sleepReq := none, wakeMode := mode, cycleRunning := false }

theorem sleepEntry_none (h : (lineOfBus s l).sleepReq = none) : sleepEntry s l = s := by
  simp only [sleepEntry, h]

theorem sleepEntry_some {mode : Nat} {r : Option CmdRef} (h : (lineOfBus s l).sleepReq = some (mode, r)) :
    sleepEntry s l = (sleepers (stationNumbers.foldl (fun s n => setStation s l n .asleep)
        (modLine (dropFrames s l 4) l (sleepingLine mode))) l).foldl (fun s c => doneNow s c (le 8 s.tb))
      (stationNumbers.foldl (fun s n => setStation s l n .asleep) (modLine (dropFrames s l 4) l (sleepingLine mode))) := by
  simp only [sleepEntry, h]
  rfl

theorem stationNumbers_nodup : stationNumbers.Nodup := List.Nodup.map (fun _ _ h => Nat.succ.inj h) List.nodup_range

theorem stationNumbers_lt {n : Nat} (h : n ∈ stationNumbers) : n < 64 := by
  obtain ⟨k, hk, rfl⟩ := List.mem_map.mp h
  have := List.mem_range.mp hk
  omega

/-- Every station of a line is ASLEEP, and nothing else of the line changed. -/
theorem foldl_asleep (s : State) (l : Line) {n : Nat} (h : n ∈ stationNumbers) :
    (station (stationNumbers.foldl (fun s n => setStation s l n .asleep) s) l n).state = .asleep ∧
      exceptStations l (stationNumbers.foldl (fun s n => setStation s l n .asleep) s) = exceptStations l s := by
  obtain ⟨hin, -, hex⟩ := foldl_stations (s := s) (l := l) (f := fun s n => setStation s l n .asleep) (st := n)
    (fun s n => setStation_exceptStations s l n .asleep) (fun s n j h => setStation_other n j h .asleep)
    (fun u => u.state = .asleep) (fun u _ _ => by rw [station_setStation (stationNumbers_lt h)]) _ s stationNumbers_nodup rfl
  exact ⟨hin h rfl, hex⟩

theorem line_of_exceptStations {t : State} (h : exceptStations l t = exceptStations l s) :
    { lineOfBus t l with stations := Vector.replicate 64 Station.reset } =
      { lineOfBus s l with stations := Vector.replicate 64 Station.reset } := by
  cases l
  · exact (congrArg State.busA h :)
  · exact (congrArg State.busB h :)

theorem sleepEntry_sleeps {mode : Nat} {r : Option CmdRef} (h : (lineOfBus s l).sleepReq = some (mode, r)) :
    (∀ j, j ≠ l → lineOfBus (sleepEntry s l) j = lineOfBus s j) ∧
    (let u := lineOfBus (sleepEntry s l) l
     u.asleep = true ∧ u.sleepReq = none ∧ u.wakeMode = mode ∧ u.cycleRunning = false ∧ u.outQueue = [] ∧
       u.txb = Vector.replicate 3 none) ∧
    ∀ j ∈ stationNumbers, (station (sleepEntry s l) l j).state = .asleep := by
  have hfold : ∀ (refs : List CmdRef) (u : State) j, lineOfBus (refs.foldl (fun s c => doneNow s c (le 8 s.tb)) u) j =
      lineOfBus u j := fun refs u j => foldl_keeps (lineOfBus · j) _ (fun _ _ => lineOfBus_doneNow ..) refs u
  obtain ⟨hline, hother⟩ := dropFrames_lines s l 4
  have hex := (foldl_asleep (modLine (dropFrames s l 4) l (sleepingLine mode)) l (n := 1) (by decide)).2
  rw [sleepEntry_some h]
  refine ⟨fun j hj => ?_, ?_, fun j hj => ?_⟩
  · rw [hfold, lineOfBus_of_exceptStations hex hj, lineOfBus_modLine_ne _ _ hj, hother j hj]
  · have hline' := line_of_exceptStations hex
    rw [lineOfBus_modLine, hline] at hline'
    rw [hfold]
    exact ⟨(congrArg BusLine.asleep hline' :), (congrArg BusLine.sleepReq hline' :), (congrArg BusLine.wakeMode hline' :),
      (congrArg BusLine.cycleRunning hline' :), (congrArg BusLine.outQueue hline' :), (congrArg BusLine.txb hline' :)⟩
  · rw [station, hfold]
    exact (foldl_asleep _ l hj).1

/-! ### Heartbeats (R392) -/

theorem heartbeatDueOp_drives (h : drives s = true) : heartbeatDueOp s l = modLine s l (fun b =>
    { b with outQueue := heartbeatFrame s :: b.outQueue.filter (fun g => !g.heartbeat) }) :=
  if_pos (by cases l <;> exact h)

end

/-- Settles O47: BUS.SEND, BUS.SLEEP, the sleep and the wake of a line, and its heartbeats. -/
theorem busServiceCommands : Obligations.BusServiceCommands := by
  intro s now l c frame mode side role term seq r n b others
  have hb : lineOfBus n l = b := by cases l <;> rfl
  have hothers : ∀ j, lineOfBus n j = lineOfBus s j := fun j => by cases j <;> rfl
  refine ⟨works_busSend frame, works_busSleep mode, fun h => ?_, fun h => ?_, fun h => ?_, fun hd ha => ?_, fun h => ?_,
    fun hp hr hd => ?_, fun h => ?_, fun hp hd hl hs hw => ?_⟩
  · exact congrArg Host.Outcome.next (sleepEntry_none (s := n) (by rw [hb]; exact h))
  · obtain ⟨h1, h2, h3⟩ := sleepEntry_sleeps (s := n) (l := l) (by rw [hb]; exact h)
    exact ⟨_, rfl, fun j hj => (h1 j hj).trans (hothers j), h2, h3⟩
  · rcases h with hd | ha
    · exact congrArg Host.Outcome.next (if_neg (ne_true_of_eq_false hd))
    · have hw : wakeOp n l = n := if_pos (by rw [hb, ha]; rfl)
      exact congrArg Host.Outcome.next (by rw [hw]; exact ite_self n)
  · obtain ⟨h1, h2⟩ := wakeOp_line (s := n) (l := l) (by rw [hb]; exact ha)
    exact ⟨_, congrArg Host.Outcome.next (if_pos hd), fun j hj => (h2 j hj).trans (hothers j), h1⟩
  · refine congrArg Host.Outcome.next (if_neg fun hgo => ?_)
    rw [Bool.and_eq_true] at hgo
    exact h.elim (fun h => absurd hgo.1 (ne_true_of_eq_false h))
      (fun h => absurd hgo.2 (ne_true_of_eq_false (by cases l <;> exact h)))
  · refine congrArg Host.Outcome.next ((if_pos ?_).trans (heartbeatDueOp_drives hd))
    rw [Bool.and_eq_true]
    exact ⟨hp, by cases l <;> exact hr⟩
  · refine congrArg Host.Outcome.next (if_neg fun hgo => ?_)
    rw [Bool.and_eq_true, Bool.and_eq_true, Bool.and_eq_true, decide_eq_true_eq] at hgo
    obtain ⟨⟨⟨h1, h2⟩, h3⟩, h4⟩ := hgo
    rcases h with h | h | h | h
    · exact absurd h1 (ne_true_of_eq_false h)
    · exact absurd h2 (ne_true_of_eq_false h)
    · exact absurd h3 (ne_true_of_eq_false (by cases l <;> exact h))
    · exact h4 h
  · refine congrArg Host.Outcome.next ((if_pos ?_).trans (if_neg fun h => absurd (hw.symm.trans h.1) (by decide)))
    rw [Bool.and_eq_true, Bool.and_eq_true, Bool.and_eq_true, decide_eq_true_eq]
    exact ⟨⟨⟨hp, hd⟩, by cases l <;> exact hl⟩, hs⟩

end Sys2Proof.Machine
end

section
/-!
PROOFS. The supply VFLD and the safe state of the field die (R425-R432).
-/
namespace Sys2Proof.Machine

open Sys2Proof

/-- A field die in lockout whose link has fallen silent. -/
def silentInLockout : State :=
  { State.reset with field := { State.reset.field with lockout := true, linkAlive := false, pauseAt := none } }

/-- A field die in lockout applies no safe state, but the frames of the stations carry the safe values (R181, R505). -/
theorem applySafe_lockout {s : State} (h : s.field.lockout = true) (cause : Nat) :
    applySafe s cause = modSched s (fun x => { x with safeAreas := stationAreas }) := by
  refine if_pos ?_
  show (s.field.lockout || s.field.safe.isSome) = true
  rw [h, Bool.true_or]

/-- Refutes O41: silence of the field link in lockout puts the stations' frames on their safe values, so the state does not stay
as the statement says. -/
theorem not_fieldSupplyAndSafeState : ¬ Obligations.FieldSupplyAndSafeState := by
  unfold Obligations.FieldSupplyAndSafeState
  intro h
  obtain ⟨-, -, -, -, -, -, -, -, -, -, hstays, -⟩ := h silentInLockout 0 0 0 0 []
  have hrow : exec (.fieldLinkSilence 0) silentInLockout = .next (applySafe (silentInLockout.at 0) 1) :=
    congrArg Host.Outcome.next (if_neg (by decide))
  have hsame := Host.Outcome.next.inj (hrow.symm.trans (hstays (.inl rfl)))
  rw [applySafe_lockout rfl] at hsame
  have hareas : stationAreas = [] := congrArg (fun t => t.sched.safeAreas) hsame
  exact absurd hareas (by decide)

end Sys2Proof.Machine
end

section
/-!
PROOFS. Digital inputs, the diagnosis of outputs and the tests of the field die (R412-R435).
-/
namespace Sys2Proof.Machine

open Sys2Proof

/-! ### Places taken in turn -/

/-- Places taken in turn, each once, by a step that changes its own place alone: the places taken are as their step leaves them,
the others stay, and so does what no step touches. -/
theorem foldl_places {α β : Type} {view : State → β} {get : State → Nat → α} {step : State → Nat → State} {F : Nat → α → α}
    {s : State} {N : Nat} (hview : ∀ u n, view (step u n) = view u)
    (hself : ∀ u n, view u = view s → n < N → get (step u n) n = F n (get u n))
    (hother : ∀ u n j, j ≠ n → get (step u n) j = get u j) :
    ∀ (ns : List Nat) (u : State), ns.Nodup → view u = view s →
      (∀ j, j < N → j ∈ ns → get (ns.foldl step u) j = F j (get u j)) ∧
      (∀ j, j ∉ ns → get (ns.foldl step u) j = get u j) ∧ view (ns.foldl step u) = view s := by
  intro ns
  induction ns with
  | nil => exact fun u _ hu => ⟨fun j _ h => absurd h List.not_mem_nil, fun _ _ => rfl, hu⟩
  | cons n ns ih =>
    intro u hnd hu
    obtain ⟨hn, hnd⟩ := List.nodup_cons.mp hnd
    obtain ⟨hin, hout, hv⟩ := ih (step u n) hnd ((hview u n).trans hu)
    refine ⟨fun j hj hmem => ?_, fun j hmem => ?_, hv⟩
    · by_cases hjn : j = n
      · subst hjn
        exact (hout j hn).trans (hself u j hu hj)
      · rw [← hother u n j hjn]
        exact hin j hj ((List.mem_cons.mp hmem).resolve_left hjn)
    · rw [List.mem_cons, not_or] at hmem
      exact (hout j hmem.2).trans (hother u n j hmem.1)

/-! ### Inputs (R412-R415) -/

section
variable {s : State} {now : Tb}

/-- The input channel of the field die. -/
def diAt (s : State) (n : Nat) : DiCh := vget s.field.di n DiCh.reset

theorem diAt_setDi {n : Nat} (h : n < 48) (s : State) (f : DiCh → DiCh) : diAt (setDi s n f) n = f (diAt s n) :=
  (vget_vmod ..).trans (if_pos ⟨rfl, h⟩)

theorem diAt_setDi_ne {n j : Nat} (h : j ≠ n) (s : State) (f : DiCh → DiCh) : diAt (setDi s n f) j = diAt s j :=
  (vget_vmod ..).trans (if_neg fun hj => h hj.1.symm)

/-- Everything of the state but the input channels. -/
def exceptDi (s : State) : State := { s with field := { s.field with di := Vector.replicate 48 DiCh.reset } }

theorem eq_of_exceptDi {t : State} (h : exceptDi t = exceptDi s) :
    { t with field := { t.field with di := s.field.di } } = s :=
  (congrArg (fun u : State => { u with field := { u.field with di := s.field.di } }) h :)

/-- What a tick makes of an input (R412, R414, R415, R435). -/
def sampledDi (s : State) (us : List Nat) (g n : Nat) (d : DiCh) : DiCh :=
  if d.underTest then { d with raw := .between, sampled := true }
  else filterStep (diP s n 1) (rawClass s n (us.getD (n - 8 * g) 0)) d

theorem sampledDi_place (s : State) (us : List Nat) (g k : Nat) (d : DiCh) : sampledDi s us g (8 * g + k) d =
    if d.underTest then { d with raw := .between, sampled := true }
    else filterStep (diP s (8 * g + k) 1) (rawClass s (8 * g + k) (us.getD k 0)) d := by
  rw [sampledDi, Nat.add_sub_cancel_left]

/-- A tick's step at one input. -/
def sampleOne (us : List Nat) (g : Nat) (s : State) (n : Nat) : State :=
  if (diAt s n).underTest then setDi s n (fun d => { d with raw := .between, sampled := true })
  else setDi s n (filterStep (diP s n 1) (rawClass s n (us.getD (n - 8 * g) 0)))

theorem sampleGroup_eq (s : State) (g : Fin 6) (us : List Nat) :
    sampleGroup s g us = ((List.range 8).map (8 * g.val + ·)).foldl (sampleOne us g.val) s := by
  rw [List.foldl_map]
  refine congrArg (fun f => (List.range 8).foldl f s) (funext fun u => funext fun k => ?_)
  rw [sampleOne, Nat.add_sub_cancel_left]
  rfl

theorem sampleOne_view (us : List Nat) (g : Nat) (u : State) (n : Nat) : exceptDi (sampleOne us g u n) = exceptDi u := by
  unfold sampleOne
  split <;> rfl

theorem sampleOne_other (us : List Nat) (g : Nat) (u : State) (n j : Nat) (h : j ≠ n) :
    diAt (sampleOne us g u n) j = diAt u j := by
  unfold sampleOne
  split <;> exact diAt_setDi_ne h ..

theorem sampleOne_self (us : List Nat) (g : Nat) (u : State) (n : Nat) (hu : exceptDi u = exceptDi s) (hn : n < 48) :
    diAt (sampleOne us g u n) n = sampledDi s us g n (diAt u n) := by
  have hp : ∀ k, diP u n k = diP s n k := fun k => (congrArg (fun s => diP s n k) hu :)
  have hraw : ∀ i, rawClass u n i = rawClass s n i := fun i => (congrArg (fun s => rawClass s n i) hu :)
  unfold sampleOne sampledDi
  split
  · exact diAt_setDi hn ..
  · rw [diAt_setDi hn, hp, hraw]

theorem sampleGroup_samples (s : State) (g : Fin 6) (us : List Nat) :
    let t := sampleGroup s g us
    (∀ k, k < 8 → diAt t (8 * g.val + k) = sampledDi s us g.val (8 * g.val + k) (diAt s (8 * g.val + k))) ∧
      (∀ j, j < 8 * g.val ∨ 8 * g.val + 8 ≤ j → diAt t j = diAt s j) ∧ exceptDi t = exceptDi s := by
  have hnd : ((List.range 8).map (8 * g.val + ·)).Nodup :=
    List.Nodup.map (fun _ _ h => Nat.add_left_cancel h) List.nodup_range
  obtain ⟨hin, hout, hview⟩ := foldl_places (sampleOne_view us g.val) (sampleOne_self us g.val) (sampleOne_other us g.val)
    _ s hnd rfl
  rw [sampleGroup_eq]
  have hg := g.isLt
  refine ⟨fun k hk => hin _ (by omega) (List.mem_map.mpr ⟨k, List.mem_range.mpr hk, rfl⟩), fun j hj => hout j fun hmem => ?_,
    hview⟩
  obtain ⟨k, hk, rfl⟩ := List.mem_map.mp hmem
  have := List.mem_range.mp hk
  omega

/-! ### Output diagnosis (R420-R424) -/

theorem doAt_setDo {n : Nat} (h : n < 24) (s : State) (f : DoCh → DoCh) : doAt (setDo s n f) n = f (doAt s n) :=
  (vget_vmod ..).trans (if_pos ⟨rfl, h⟩)

theorem doAt_setDo_ne {n j : Nat} (h : j ≠ n) (s : State) (f : DoCh → DoCh) : doAt (setDo s n f) j = doAt s j :=
  (vget_vmod ..).trans (if_neg fun hj => h hj.1.symm)

/-- Everything of the state but the output channels and the logbook. -/
def exceptDo (s : State) : State :=
  { s with field := { s.field with do_ := Vector.replicate 24 DoCh.reset }, log := State.reset.log }

theorem eq_of_exceptDo {t : State} (h : exceptDo t = exceptDo s) :
    { t with field := { t.field with do_ := s.field.do_ }, log := s.log } = s :=
  (congrArg (fun u : State => { u with field := { u.field with do_ := s.field.do_ }, log := s.log }) h :)

theorem gangMembers_nodup (s : State) (lead : Nat) : (gangMembers s lead).Nodup := by
  unfold gangMembers
  split <;> simp

/-- Every member of a gang changes, and nothing else. -/
theorem setGang_changes (s : State) (lead : Nat) (f : DoCh → DoCh) :
    (∀ j, j < 24 → j ∈ gangMembers s lead → doAt (setGang s lead f) j = f (doAt s j)) ∧
      (∀ j, j ∉ gangMembers s lead → doAt (setGang s lead f) j = doAt s j) ∧ exceptDo (setGang s lead f) = exceptDo s :=
  foldl_places (view := exceptDo) (get := doAt) (step := fun s n => setDo s n f) (F := fun _ => f) (fun _ _ => rfl)
    (fun _ _ _ hn => doAt_setDo hn ..) (fun _ _ _ h => doAt_setDo_ne h ..) _ s (gangMembers_nodup s lead) rfl

/-- A gang that changes, with its record. -/
theorem diagnosed (s : State) (lead : Nat) (f : DoCh → DoCh) (type sev code : Nat) :
    let t := log (setGang s lead f) type sev 0x06 lead code []
    (∀ j, j < 24 → j ∈ gangMembers s lead → doAt t j = f (doAt s j)) ∧
      (∀ j, j ∉ gangMembers s lead → doAt t j = doAt s j) ∧
      { t with field := { t.field with do_ := s.field.do_ }, log := s.log } = s := by
  obtain ⟨hin, hout, hview⟩ := setGang_changes s lead f
  obtain ⟨lg, hlg⟩ := log_rest (setGang s lead f) type sev 0x06 lead code []
  rw [hlg]
  exact ⟨hin, hout, eq_of_exceptDo hview⟩

theorem diagnoseOp_stays {n : Nat} {cond : OutCond} {present : Bool}
    (h : s.field.lockout = true ∨ condNow (doAt s (gangLead s n)) cond = present) : diagnoseOp s n cond present = s := by
  refine if_pos ?_
  rw [Bool.or_eq_true, decide_eq_true_eq]
  exact h

theorem diagnoseOp_enters {n : Nat} {cond : OutCond} (hl : s.field.lockout = false)
    (hno : condNow (doAt s (gangLead s n)) cond = false) (hlook : condLooked s (gangLead s n) cond = true) :
    diagnoseOp s n cond true =
      log (setGang s (gangLead s n) (condEnter cond)) 0x67 sevWarning 0x06 (gangLead s n) (condCode cond) [] := by
  simp only [diagnoseOp, hl, hno, hlook, Bool.false_or, decide_eq_true_eq, Bool.false_eq_true, if_false, if_true]

theorem diagnoseOp_latched (s : State) (n : Nat) : diagnoseOp s n .limit false = s := by
  simp only [diagnoseOp, Bool.false_eq_true, if_false, ite_self]

theorem diagnoseOp_leaves {n : Nat} (hl : s.field.lockout = false) (h : (doAt s (gangLead s n)).openLoad = true) :
    diagnoseOp s n .openLoad false =
      log (setGang s (gangLead s n) (condLeave .openLoad)) 0x68 sevNotice 0x06 (gangLead s n) (condCode .openLoad) [] := by
  simp only [diagnoseOp, hl, condNow, h, Bool.false_or, decide_eq_true_eq, Bool.true_eq_false, Bool.false_eq_true, if_false]

/-! ### DIO.TEST (R435) -/

theorem dioTestOp_none {c : CmdRef} {kind ch : Nat}
    (h : s.field.test.isSome = true ∨ kind = 0 ∧ (latched (doAt s ch) = true ∨ s.field.cut = true)) :
    dioTestOp s c kind ch = done s c testNone := by
  unfold dioTestOp
  split
  · rfl
  next hno => exact if_pos (h.resolve_left hno)

theorem dioTestOp_output {c : CmdRef} {ch : Nat} (ht : s.field.test = none) (hl : latched (doAt s ch) = false)
    (hc : s.field.cut = false) : dioTestOp s c 0 ch =
      modField (waitFor s c) (fun f => { f with test := some { ref := c, kind := 0, channel := ch } }) := by
  simp [dioTestOp, ht, hl, hc]

theorem dioTestOp_input {c : CmdRef} {ch : Nat} (ht : s.field.test = none) : dioTestOp s c 1 ch =
    setDi (modField (waitFor s c) (fun f => { f with test := some { ref := c, kind := 1, channel := ch } })) ch
      (fun d => { d with underTest := true }) := by
  simp [dioTestOp, ht]

theorem works_dioTest (c : CmdRef) (kind ch : Nat) : works s now c (.dioTest now c kind ch) (fun x b t => lastStage x = true →
    (∀ e, closingEntry b 6 = some e → endsAs b t c x stFault 6 e.2.1 []) ∧
    (closingEntry b 6 = none → b.field.test.isSome = true ∨ kind = 0 ∧ (latched (doAt b ch) = true ∨ b.field.cut = true) →
      onlyAnswers b t c [2, 0, 0, 0]) ∧
    (closingEntry b 6 = none → b.field.test = none → kind = 0 → latched (doAt b ch) = false → b.field.cut = false →
      waits t c ∧ t.field = { b.field with test := some { ref := c, kind := 0, channel := ch } }) ∧
    (closingEntry b 6 = none → b.field.test = none → kind = 1 → ch < 48 →
      waits t c ∧ t.field.test = some { ref := c, kind := 1, channel := ch } ∧ (diAt t ch).underTest = true ∧
      ∀ j, j ≠ ch → diAt t j = diAt b j)) := by
  refine works_last (Eq.refl (execDioTest now c kind ch s)) fun x hx _ => ⟨fun e he => ?_, ?_⟩
  · simp only [he]
    exact abortedBy_endsAs hx 6 e.2.1
  · have hc := findCmd_workState hx
    generalize workState s now c x = b at hc
    refine ⟨fun hopen h => ?_, fun hopen ht hk hl hcut => ?_, fun hopen ht hk hch => ?_⟩ <;> simp only [hopen]
    · rw [dioTestOp_none h]
      exact done_onlyAnswers hc _
    · rw [hk, dioTestOp_output ht hl hcut]
      exact ⟨waits_waitFor hc, rfl⟩
    · rw [hk, dioTestOp_input ht]
      refine ⟨waits_waitFor hc, rfl, ?_, fun j hj => diAt_setDi_ne hj ..⟩
      rw [diAt_setDi hch]

theorem doneNow_field (s : State) (c : CmdRef) (p : List Byte) : (doneNow s c p).field = s.field :=
  (congrArg State.field (finishNow_hostOnly s c stDone 0 0 p) :)

/-- A field test that ends, its command answered. -/
theorem doneNow_endsTest {f : FieldSt} (h : f.test = none) (c : CmdRef) (p : List Byte) :
    (doneNow { s with field := f } c p).field.test = none ∧ endsDone s (doneNow { s with field := f } c p) c p :=
  ⟨(congrArg FieldSt.test (doneNow_field ..)).trans h, finishNow_endsDone { s with field := f } c p⟩

theorem testEndOp_none (h : s.field.test = none) (v : Int) (off on : Bool) : testEndOp s v off on = s := by
  simp only [testEndOp, h]

theorem testEndOp_latched {z : DioTest} (h : s.field.test = some z) (hk : z.kind = 0) (hl : latched (doAt s z.channel) = true)
    (v : Int) (off on : Bool) :
    testEndOp s v off on = doneNow { s with field := { s.field with test := none } } z.ref testNone := by
  simp only [testEndOp, h, hk, if_true]
  exact if_pos hl

theorem testEndOp_output {z : DioTest} (h : s.field.test = some z) (hk : z.kind = 0) (hl : latched (doAt s z.channel) = false)
    (v : Int) (off on : Bool) :
    testEndOp s v off on = doneNow { s with field := { s.field with test := none } } z.ref
      ((if (if (doAt s z.channel).on then v < 3000 else (s.field.vfld : Int) - 1500 < v) then 0 else 1) :: leInt 3 v) := by
  simp only [testEndOp, h, hk, if_true]
  refine (if_neg (ne_true_of_eq_false hl)).trans (congrArg (fun b => doneNow _ z.ref (b :: leInt 3 v)) ?_)
  show (if (if (doAt s z.channel).on then decide (v < 3000) else decide ((s.field.vfld : Int) - 1500 < v)) = true then _ else _) = _
  cases (doAt s z.channel).on <;> simp

theorem testEndOp_input {z : DioTest} (h : s.field.test = some z) (hk : z.kind ≠ 0) (v : Int) (off on : Bool) :
    testEndOp s v off on = doneNow (setDi { s with field := { s.field with test := none } } z.channel
      (fun d => { d with underTest := false })) z.ref
      ((if off = true ∧ on = true then 0 else 1) :: leInt 2 v ++ [BitVec.ofNat 8 (boolBit off + 2 * boolBit on)]) := by
  simp only [testEndOp, h, hk, if_false, Bool.and_eq_true]
  rfl

end

/-- Settles O40: the ticks of an input group, the diagnosis of outputs, DIO.TEST and its end. -/
theorem fieldInputsAndTests : Obligations.FieldInputsAndTests := by
  intro s now c g us o cond present off on kind ch z v n di
  refine ⟨fun hl => ⟨?_, ?_⟩, fun hl hg => ?_, fun hl hg => ?_, ?_, works_dioTest c kind ch, fun h => ?_, fun h => ?_⟩
  · exact congrArg Host.Outcome.next (if_pos (by rw [show (s.at now).field.lockout = true from hl, Bool.true_or]))
  · exact congrArg Host.Outcome.next (diagnoseOp_stays (s := n) (.inl hl))
  · exact congrArg Host.Outcome.next (if_pos (by rw [show onGrid (s.at now) g = false from hg, Bool.not_false, Bool.or_true]))
  · have hgo : ¬ ((s.at now).field.lockout || !onGrid (s.at now) g) = true := by
      rw [show (s.at now).field.lockout = false from hl, show onGrid (s.at now) g = true from hg]
      exact Bool.false_ne_true
    obtain ⟨hin, hout, hview⟩ := sampleGroup_samples n g us
    refine ⟨_, congrArg Host.Outcome.next (if_neg hgo), fun k hk => ?_, fun j hj => ?_, ?_⟩
    · exact (hin k hk).trans (sampledDi_place n us g.val k _)
    · exact hout j hj
    · exact eq_of_exceptDi hview
  · refine ⟨fun h => congrArg Host.Outcome.next (diagnoseOp_stays (s := n) (.inr h)), fun hl hno hlook => ?_, fun hl _ =>
      congrArg Host.Outcome.next (diagnoseOp_latched n o.val), fun hl h => ?_⟩
    · obtain ⟨hin, hout, hkeep⟩ := diagnosed n (gangLead n o.val) (condEnter cond) 0x67 sevWarning (condCode cond)
      exact ⟨_, congrArg Host.Outcome.next (diagnoseOp_enters (s := n) hl hno hlook), hin, hout, hkeep⟩
    · obtain ⟨hin, -, hkeep⟩ := diagnosed n (gangLead n o.val) (condLeave .openLoad) 0x68 sevNotice (condCode .openLoad)
      exact ⟨_, congrArg Host.Outcome.next (diagnoseOp_leaves (s := n) hl h), hin, hkeep⟩
  · exact congrArg Host.Outcome.next (testEndOp_none (s := n) h ..)
  · by_cases hk : z.kind = 0
    · have hend := fun p => doneNow_endsTest (s := n) (f := { s.field with test := none }) rfl z.ref p
      by_cases hl : latched (doAt s z.channel) = true
      · exact ⟨_, congrArg Host.Outcome.next (testEndOp_latched (s := n) h hk hl ..), (hend _).1, fun _ _ => (hend _).2,
          fun _ hno => absurd hl (ne_true_of_eq_false hno), fun hno => absurd hk hno⟩
      · rw [Bool.not_eq_true] at hl
        exact ⟨_, congrArg Host.Outcome.next (testEndOp_output (s := n) h hk hl ..), (hend _).1,
          fun _ hyes => absurd hyes (ne_true_of_eq_false hl), fun _ _ => (hend _).2, fun hno => absurd hk hno⟩
    · obtain ⟨ht, he⟩ := doneNow_endsTest (s := n) (f := (setDi { n with field := { s.field with test := none } } z.channel
        (fun d => { d with underTest := false })).field) rfl z.ref
        ((if off = true ∧ on = true then 0 else 1) :: leInt 2 v ++ [BitVec.ofNat 8 (boolBit off + 2 * boolBit on)])
      exact ⟨_, congrArg Host.Outcome.next (testEndOp_input (s := n) h hk ..), ht, fun hno => absurd hno hk,
        fun hno => absurd hno hk, fun _ => he⟩

end Sys2Proof.Machine
end

section
/-!
PROOFS. ACQUIRE and the start of scans: rounds, releases, what a scan begins with (R154-R161, R204).
-/
namespace Sys2Proof.Machine

open Sys2Proof

/-! ### ACQUIRE (R161-R164) -/

section
variable {s : State} {now : Tb}

/-- What an ACQUIRE may write: input items and system input points, no data word and no output. -/
def acquirable (k : Nat) : Prop := k < 0x10000 ∨ 0x40800000 ≤ k

/-- Everything of the state but the image and what the last ACQUIRE froze. -/
def exceptImage (s : State) : State := { s with image := [], sysPhase := 0, sched := { s.sched with frozen := [] } }

theorem acquireItem_other (s : State) {k j : Nat} (src : Tagged) (h : j ≠ k) :
    smGet itemDefault (acquireItem s k src).image j = smGet itemDefault s.image j := smGet_smSet_ne _ _ _ h

theorem stInKeys_acquirable {l : Line} {n k : Nat} (hn : n < 64) (h : k ∈ stInKeys l n) : acquirable k := by
  have hl : lineNo l ≤ 1 := by cases l <;> decide
  unfold stInKeys at h
  rcases List.mem_append.mp h with h | h
  · obtain ⟨i, hi, rfl⟩ := List.mem_map.mp h
    have := List.mem_range.mp hi
    unfold acquirable stInPoint
    omega
  · obtain ⟨i, hi, rfl⟩ := List.mem_map.mp h
    unfold acquirable stInWord wKey
    omega

theorem areaItems_acquirable {a : Nat} (ha : a < 135) {x : Nat × Tagged} (h : x ∈ areaItems s a) : acquirable x.1 := by
  unfold areaItems at h
  split at h
  · rcases List.mem_append.mp h with h | h
    · obtain ⟨n, hn, rfl⟩ := List.mem_map.mp h
      have := List.mem_range.mp hn
      unfold acquirable
      omega
    · rcases List.mem_cons.mp h with rfl | h
      · exact .inr (show 0x40800000 ≤ wKey 0x800028 by decide)
      · rw [List.mem_singleton.mp h]
        exact .inr (show 0x40800000 ≤ wKey 0x800029 by decide)
  split at h
  · rcases List.mem_cons.mp h with rfl | h
    · unfold acquirable wKey
      omega
    · obtain ⟨n, hn, rfl⟩ := List.mem_map.mp h
      unfold acquirable wKey
      omega
  · split at h
    next l n heq =>
    obtain ⟨k, hk, hx⟩ := List.mem_filterMap.mp h
    obtain ⟨t, -, rfl⟩ := Option.map_eq_some_iff.mp hx
    refine stInKeys_acquirable (n := n) ?_ hk
    split at heq <;> (cases heq; omega)

/-- The items of an ACQUIRE, written one after the other. -/
theorem foldl_acquireItem (items : List (Nat × Tagged)) (h : ∀ x ∈ items, acquirable x.1) (s : State) :
    let u := items.foldl (fun s x => acquireItem s x.1 x.2) s
    exceptImage u = exceptImage s ∧
      ∀ j, ¬ acquirable j → smGet itemDefault u.image j = smGet itemDefault s.image j := by
  induction items generalizing s with
  | nil => exact ⟨rfl, fun _ _ => rfl⟩
  | cons x xs ih =>
    obtain ⟨hview, hother⟩ := ih (fun y hy => h y (List.mem_cons_of_mem _ hy)) (acquireItem s x.1 x.2)
    refine ⟨hview, fun j hj => (hother j hj).trans (acquireItem_other s x.2 fun he => hj ?_)⟩
    rw [he]
    exact h x List.mem_cons_self

theorem sysDefined_acquirable {k : Nat} (h : k ∈ sysDefined) : acquirable k := by
  simp only [sysDefined, List.mem_append, List.mem_map, List.mem_range, or_assoc] at h
  left
  rcases h with ⟨n, hn, rfl⟩ | ⟨n, hn, rfl⟩ | ⟨n, hn, rfl⟩ | ⟨n, hn, rfl⟩ | ⟨n, hn, rfl⟩ | ⟨n, hn, rfl⟩ | ⟨n, hn, rfl⟩ |
    ⟨n, hn, rfl⟩ | ⟨n, hn, rfl⟩ | ⟨n, hn, rfl⟩ | ⟨n, hn, rfl⟩ | ⟨n, hn, rfl⟩ | ⟨n, hn, rfl⟩ | ⟨n, hn, rfl⟩ <;> omega

/-- The system input points of an ACQUIRE, written one after the other. -/
def systemPoints (s : State) (pts : List (Nat × Bool)) : State :=
  pts.foldl (fun s x =>
    putItem s x.1 ⟨0, mkTag (decide (tagV (getItem s x.1).tag ≠ x.2)) false false false false qGood x.2⟩) s

theorem acquireSystem_eq (s : State) (t : Nat) : ∃ pts : List (Nat × Bool), (∀ x ∈ pts, acquirable x.1) ∧
    acquireSystem s t = { systemPoints s pts with sysPhase := min 2 ((systemPoints s pts).sysPhase + 1) } := by
  unfold acquireSystem
  refine ⟨sysDefined.map (fun p => (p, sysPoint s t p)), fun x hx => ?_, ?_⟩
  · obtain ⟨p, hp, rfl⟩ := List.mem_map.mp hx
    exact sysDefined_acquirable hp
  · generalize sysDefined.map (fun p => (p, sysPoint s t p)) = pts
    rfl

theorem acquireSystem_changes (s : State) (t : Nat) :
    exceptImage (acquireSystem s t) = exceptImage s ∧
      ∀ j, ¬ acquirable j → smGet itemDefault (acquireSystem s t).image j = smGet itemDefault s.image j := by
  have hfold : ∀ (pts : List (Nat × Bool)), (∀ x ∈ pts, acquirable x.1) → ∀ u : State,
      exceptImage (systemPoints u pts) = exceptImage u ∧
        ∀ j, ¬ acquirable j → smGet itemDefault (systemPoints u pts).image j = smGet itemDefault u.image j := by
    intro pts
    induction pts with
    | nil => exact fun _ _ => ⟨rfl, fun _ _ => rfl⟩
    | cons x xs ih =>
      intro h u
      obtain ⟨hview, hother⟩ := ih (fun y hy => h y (List.mem_cons_of_mem _ hy)) (putItem u x.1
        ⟨0, mkTag (decide (tagV (getItem u x.1).tag ≠ x.2)) false false false false qGood x.2⟩)
      refine ⟨hview, fun j hj => (hother j hj).trans (smGet_smSet_ne _ _ _ fun he => hj ?_)⟩
      rw [he]
      exact h x List.mem_cons_self
  obtain ⟨pts, hpts, heq⟩ := acquireSystem_eq s t
  obtain ⟨h1, h2⟩ := hfold pts hpts s
  rw [heq]
  exact ⟨h1, h2⟩

/-- The items of an ACQUIRE with what their sources give. -/
def acquiredItems (s : State) (t : Nat) : List (Nat × Tagged) := (maskAreas (taskDef s t).acq).flatMap (areaItems s)

theorem acquire_eq (s : State) (t : Nat) : acquire s t =
    takeMarks (acquireSystem ((acquiredItems s t).foldl (fun s x => acquireItem s x.1 x.2) s) t) t := rfl

theorem takeMarks_changes {v : State} (h : exceptImage v = exceptImage s)
    (hk : ∀ j, ¬ acquirable j → smGet itemDefault v.image j = smGet itemDefault s.image j) (t : Nat) :
    exceptImage { takeMarks v t with tasks := s.tasks } = exceptImage s ∧
      (∀ j, ¬ acquirable j → smGet itemDefault (takeMarks v t).image j = smGet itemDefault s.image j) ∧
      (t < 16 → (taskRt (takeMarks v t) t).firstScan = false) := by
  refine ⟨(congrArg (fun u : State => { u with tasks := s.tasks }) h :), hk, fun ht => ?_⟩
  rw [takeMarks, taskRt_modTask, if_pos ⟨rfl, ht⟩]

/-- An ACQUIRE: it leaves data words and outputs, and of the rest what is not frozen and not the marks of its task. -/
theorem acquire_changes (s : State) (t : Nat) :
    exceptImage { acquire s t with tasks := s.tasks } = exceptImage s ∧
      (∀ j, ¬ acquirable j → smGet itemDefault (acquire s t).image j = smGet itemDefault s.image j) ∧
      (t < 16 → (taskRt (acquire s t) t).firstScan = false) := by
  have hitems : ∀ x ∈ acquiredItems s t, acquirable x.1 := fun x hx => by
    obtain ⟨a, ha, hx⟩ := List.mem_flatMap.mp hx
    exact areaItems_acquirable (List.mem_range.mp (List.mem_filter.mp ha).1) hx
  obtain ⟨h1, h2⟩ := foldl_acquireItem _ hitems s
  obtain ⟨h3, h4⟩ := acquireSystem_changes ((acquiredItems s t).foldl (fun s x => acquireItem s x.1 x.2) s) t
  rw [acquire_eq]
  exact takeMarks_changes (h3.trans h1) (fun j hj => (h4 j hj).trans (h2 j hj)) t

/-! ### The start of EXECUTE (R204, R232) -/

theorem wdSyncMode_keeps (s : State) : ∃ w, wdSyncMode s = { s with wd := w } := by
  unfold wdSyncMode
  dsimp only
  split
  · exact ⟨s.wd, rfl⟩
  · split <;> exact ⟨_, rfl⟩

/-- The owner of a window position once a task's windows are dropped. -/
def dropOwner (t : Nat) : Option (Nat × Nat) → Option (Nat × Nat)
  | some (u, d) => if u = t then none else some (u, d)
  | none => none

theorem dropOwner_ne (t d : Nat) (o : Option (Nat × Nat)) : dropOwner t o ≠ some (t, d) := by
  cases o with
  | none => nofun
  | some o =>
    obtain ⟨u, e⟩ := o
    show (if u = t then none else some (u, e)) ≠ some (t, d)
    split
    · nofun
    next hne => exact fun h => hne (congrArg Prod.fst (Option.some.inj h))

theorem dropWindows_owners (s : State) (t : Nat) : (dropWindows s t).eng.owner = s.eng.owner.map (dropOwner t) := by
  refine congrArg (fun f => s.eng.owner.map f) (funext fun o => ?_)
  cases o <;> rfl

/-- Windows that are dropped are no longer their task's. -/
theorem dropWindows_owner (s : State) (t pos d : Nat) : vget (dropWindows s t).eng.owner pos none ≠ some (t, d) := by
  rw [dropWindows_owners, vget_map _ _ _ none]
  split
  · exact dropOwner_ne _ _ _
  · nofun

theorem dropWindows_task {t : Nat} (h : t < 16) (s : State) :
    taskRt (dropWindows s t) t = { taskRt s t with stack := [] } := (taskRt_modTask ..).trans (if_pos ⟨rfl, h⟩)

/-- A spill changes the owners of window positions and the window stack of the owner alone (R207). -/
theorem spillAt_changes (s : State) (pos : Nat) :
    { (spillAt s pos).2 with eng := s.eng, tasks := s.tasks } = s ∧
      ∀ t, (∀ d, vget s.eng.owner pos none ≠ some (t, d)) → taskRt (spillAt s pos).2 t = taskRt s t := by
  unfold spillAt
  split
  · exact ⟨rfl, fun _ _ => rfl⟩
  next u d heq => exact ⟨rfl, fun t ht => (taskRt_modTask ..).trans (if_neg fun hu => ht d (by rw [heq, hu.1]))⟩

/-- The engine with which a scan begins EXECUTE (R204, R232). -/
theorem beginExecute_eng (s : State) (t : Nat) (w : BitVec 4) :
    let e := (beginExecute s t w).eng
    e = { Engine.reset with win := e.win, owner := e.owner, pc := (taskDef s t).entry, wpos := w,
                            ctrl := BitVec.ofNat 40 ((taskDef s t).ctrl.toNat % 8 / 2 * 2) } ∧
    vget e.win w.toNat Window.reset = Window.reset ∧ vget e.owner w.toNat none = some (t, 0) :=
  ⟨rfl, (vget_vset ..).trans (if_pos ⟨rfl, w.isLt⟩), (vget_vset ..).trans (if_pos ⟨rfl, w.isLt⟩)⟩

theorem beginExecute_rest (s : State) (t : Nat) (w : BitVec 4) :
    { beginExecute s t w with eng := s.eng, tasks := s.tasks } = s ∧
    (t < 16 → (taskRt (beginExecute s t w) t).firstScan = (taskRt s t).firstScan ∧
      (taskRt (beginExecute s t w) t).stack = []) := by
  obtain ⟨hrest, htask⟩ := spillAt_changes (dropWindows s t) w.toNat
  refine ⟨(congrArg (fun u : State => { u with eng := s.eng, tasks := s.tasks }) hrest :), fun ht => ?_⟩
  have hrt : taskRt (beginExecute s t w) t = { taskRt s t with stack := [] } :=
    (htask t fun d => dropWindows_owner s t _ d).trans (dropWindows_task ht s)
  rw [hrt]
  exact ⟨rfl, rfl⟩

/-! ### The start of a scan (R58, R157, R161) -/

theorem getItem_kept {t : State} {j : Nat} (h : ¬ acquirable j)
    (hj : smGet itemDefault t.image j = smGet itemDefault s.image j) : getItem t j = getItem s j := by
  have hsys : sysInPoint j = false := by
    unfold acquirable at h
    unfold sysInPoint
    rw [decide_eq_false_iff_not]
    omega
  simp only [getItem, hsys, Bool.false_eq_true, if_false]
  exact hj

/-- The state that goes into the ACQUIRE of a scan: the scan is on record, and PROG.RUN is answered. -/
theorem answerRun_hostRest (s : State) (t : Nat) : hostRest (answerRun s (some t)) = hostRest s := by
  unfold answerRun
  split
  · rfl
  · exact hostRest_finishNow ..

/-- The scan that starts. -/
def newScan (s : State) (k ready pr : Nat) : Scan :=
  { id := s.sched.nextScanId, task := k, stamp := pairTb s (if (taskDef s k).fixed then ready else s.tb), promise := pr,
    phase := .execute, dirty := [], shadowDirty := (taskRt s k).shadowDirty, firstDiscard := none, pmovr := false,
    rtcAtAcquire := s.clock.sec * 32768 + s.clock.sub, flagsAtAcquire := rtcFlags s, chgBefore := none, chgMine := none,
    isChange := false, isEdit := false, isHandover := false, sealBegun := 0, sealSeq := 0 }

/-- The state with the scan on record. -/
def enrolled (s : State) (k ready pr : Nat) : State :=
  modSched s (fun x => { x with
    running := some (newScan s k ready pr), nextScanId := x.nextScanId + 1,
    aheadPs := if (taskDef s k).fixed then x.aheadPs else 0, slotDone := false, sliceDone := false,
    firstStart := x.firstStart.orElse (fun _ => some s.tb), trun := x.trun.orElse (fun _ => some s.tb),
    roundLast := if (taskDef s k).fixed then x.roundLast else some k })

theorem startScan_eq (s : State) (k ready pr : Nat) (w : BitVec 4) : startScan s k ready pr w =
    wdSyncMode (beginExecute (acquire (answerRun (enrolled s k ready pr) (some s.tb)) k) k w) := rfl

/-- Everything of the state that the start of a scan leaves, its own record apart. -/
def scanRest (s : State) : State :=
  exceptImage (hostRest { s with eng := Engine.reset, tasks := State.reset.tasks, wd := State.reset.wd })

theorem scanRest_answerRun (s : State) (t : Nat) : scanRest (answerRun s (some t)) = scanRest s :=
  (congrArg scanRest (answerRun_hostRest s t) :)

theorem scanRest_of_exceptImage {t : State} (h : exceptImage { t with tasks := s.tasks } = exceptImage s) :
    scanRest t = scanRest s := (congrArg scanRest h :)

theorem scanRest_acquire (s : State) (t : Nat) : scanRest (acquire s t) = scanRest s :=
  scanRest_of_exceptImage (acquire_changes s t).1

theorem scanRest_beginExecute (s : State) (t : Nat) (w : BitVec 4) : scanRest (beginExecute s t w) = scanRest s :=
  (congrArg scanRest (beginExecute_rest s t w).1 :)

theorem taskDef_of_prog {t : State} (h : t.prog = s.prog) (k : Nat) : taskDef t k = taskDef s k := by
  rw [taskDef, taskDef, h]

/-- What the start of a scan leaves at its end. -/
def scanBegun (s : State) (k pr : Nat) (w : BitVec 4) (t : State) : Prop :=
    (∃ sc, t.sched.running = some sc ∧ sc.task = k ∧ sc.phase = .execute ∧ sc.dirty = [] ∧ sc.chgBefore = none ∧
      sc.promise = pr) ∧
    t.eng = { Engine.reset with win := t.eng.win, owner := t.eng.owner, pc := (taskDef s k).entry, wpos := w,
                                ctrl := BitVec.ofNat 40 ((taskDef s k).ctrl.toNat % 8 / 2 * 2) } ∧
    vget t.eng.win w.toNat Window.reset = Window.reset ∧ vget t.eng.owner w.toNat none = some (k, 0) ∧
    (k < 16 → (taskRt t k).firstScan = false ∧ (taskRt t k).stack = []) ∧ t.prog = s.prog ∧ t.forces = s.forces ∧
    (∀ a, a < 0x200000 → getItem t (wKey a) = getItem s (wKey a)) ∧
    ∀ p, 0x10000 ≤ p → p < 0x20000 → getItem t p = getItem s p

/-- A scan that has acquired begins EXECUTE. -/
theorem begun_of_acquired {b : State} {k ready pr : Nat} (hview : scanRest b = scanRest (enrolled s k ready pr))
    (himg : ∀ j, ¬ acquirable j → smGet itemDefault b.image j = smGet itemDefault s.image j)
    (hfirst : k < 16 → (taskRt b k).firstScan = false) (w : BitVec 4) :
    scanBegun s k pr w (wdSyncMode (beginExecute b k w)) := by
  have hprog : b.prog = s.prog := (congrArg State.prog hview :)
  obtain ⟨hrest, htask⟩ := beginExecute_rest b k w
  obtain ⟨heng, hwin, hown⟩ := beginExecute_eng b k w
  have hview' := (scanRest_beginExecute b k w).trans hview
  obtain ⟨wd, hwd⟩ := wdSyncMode_keeps (beginExecute b k w)
  rw [hwd]
  rw [taskDef_of_prog hprog] at heng
  have hitem : ∀ j, ¬ acquirable j → getItem { beginExecute b k w with wd := wd } j = getItem s j := fun j hj =>
    getItem_kept hj ((congrArg (fun t => smGet itemDefault t.image j) hrest :).trans (himg j hj))
  refine ⟨⟨newScan s k ready pr, (congrArg (fun t => t.sched.running) hview' :), rfl, rfl, rfl, rfl, rfl⟩, heng, hwin, hown,
    fun hk => ?_, (congrArg State.prog hview' :), (congrArg State.forces hview' :), fun a ha => hitem _ fun h => ?_,
    fun p hp hp' => hitem _ fun h => ?_⟩
  · obtain ⟨hf, hst⟩ := htask hk
    exact ⟨hf.trans (hfirst hk), hst⟩
  · unfold acquirable wKey at h
    omega
  · unfold acquirable at h
    omega

theorem startScan_begun (s : State) (k ready pr : Nat) (w : BitVec 4) : scanBegun s k pr w (startScan s k ready pr w) := by
  obtain ⟨-, himg, hfirst⟩ := acquire_changes (answerRun (enrolled s k ready pr) (some s.tb)) k
  have hans : (answerRun (enrolled s k ready pr) (some s.tb)).image = s.image :=
    (congrArg State.image (answerRun_hostRest (enrolled s k ready pr) s.tb) :)
  rw [hans] at himg
  rw [startScan_eq]
  exact begun_of_acquired ((scanRest_acquire ..).trans (scanRest_answerRun ..)) himg hfirst w

/-! ### Rounds and releases (R154-R159) -/

theorem scanReadyOp_stays (h : noScan s = false ∨ scansAllowed s = false) : scanReadyOp s = s := by
  refine if_pos ?_
  rw [Bool.or_eq_true, Bool.not_eq_true', Bool.not_eq_true']
  exact h

theorem scanReadyOp_next {k : Nat} {rest : List Nat} (hn : noScan s = true) (hw : s.sched.waiting = [])
    (ha : scansAllowed s = true) (ho : s.sched.roundOpen = true) (hl : s.sched.roundLeft = k :: rest) :
    scanReadyOp s = if (taskRt s k).skipNext then
        closeRound (modSched (skipScan s k) (fun x => { x with roundLeft := rest, roundLast := some k }))
      else startScan s k s.tb (scanPromise s k s.tb s.sched.aheadPs) 0 := by
  simp only [scanReadyOp, hn, hw, ha, ho, hl, Bool.not_true, Bool.or_self, Bool.false_eq_true, if_false, if_true,
    List.isEmpty_nil]

theorem scanReadyOp_noRound (hn : noScan s = true) (hw : s.sched.waiting = []) (ho : s.sched.roundOpen = false)
    (h : s.tb < s.sched.roundReady ∨ enabledFree s = []) : scanReadyOp s = s := by
  have h' : s.tb < s.sched.roundReady ∨ (enabledFree s).isEmpty = true := h.imp id List.isEmpty_iff.mpr
  by_cases ha : scansAllowed s = true
  · simp only [scanReadyOp, hn, hw, ha, ho, h', Bool.not_true, Bool.or_self, Bool.false_eq_true, if_false, if_true,
      List.isEmpty_nil, Bool.not_false]
    split <;> rfl
  · exact scanReadyOp_stays (.inr (by simpa using ha))

theorem closeRound_keeps (s : State) : ∃ o r, closeRound s =
    { s with sched := { s.sched with roundOpen := o, roundReady := r } } := by
  unfold closeRound
  split
  · exact ⟨_, _, rfl⟩
  · exact ⟨s.sched.roundOpen, s.sched.roundReady, rfl⟩

/-- A task that skips its scan (R176). -/
theorem skipScan_task {k : Nat} (hk : k < 16) (s : State) :
    taskRt (skipScan s k) k = { taskRt s k with skipNext := false, skipped := true } :=
  (taskRt_modTask ..).trans (if_pos ⟨rfl, hk⟩)

theorem running_of_noScan (h : noScan s = true) : s.sched.running = none ∧ s.sched.suspended = [] := by
  rw [noScan, Bool.and_eq_true, Option.isNone_iff_eq_none, List.isEmpty_iff] at h
  exact h

/-- The release instants of a task that HANDOVER has given no phase (R157). -/
theorem isRelease_iff {k b : Nat} (hp : s.sched.phases = []) (ht : s.sched.trun = some b) :
    isRelease s k = true ↔ b ≤ s.tb ∧ (s.tb - b) % msToTb (taskDef s k).periodMs = 0 := by
  simp only [isRelease, hp, ht, List.find?_nil, Option.map_none, Option.none_or, decide_eq_true_eq]

theorem releaseOp_stays {k : Nat} (h : (taskDef s k).fixed = false ∨ k ∉ enabledTasks s ∨ scansAllowed s = false ∨
    ¬ isRelease s k = true) : releaseOp s k = s := by
  refine if_pos ?_
  rw [Bool.or_eq_true, Bool.or_eq_true, Bool.or_eq_true, Bool.not_eq_true', Bool.not_eq_true', Bool.not_eq_true',
    Bool.not_eq_true', or_assoc, or_assoc]
  refine h.imp id (Or.imp (fun h => ?_) (Or.imp id fun h => by simpa using h))
  simpa using h

/-- A release that counts. -/
theorem releaseOp_counts {k : Nat} (hf : (taskDef s k).fixed = true) (he : k ∈ enabledTasks s) (ha : scansAllowed s = true)
    (hr : isRelease s k = true) : releaseOp s k = if (taskRt s k).skipNext then skipScan s k
      else if s.sched.waiting.any (fun w => w.1 = k) ||
          (match s.sched.running with | some sc => decide (sc.task = k) | none => false) ||
          s.sched.suspended.any (fun x => x.1.task = k) then s
      else
        let u := modSched s (fun x => { x with waiting := x.waiting ++ [(k, s.tb, scanPromise s k s.tb 0)] })
        if noScan u then runNext u else preemptNow u := by
  refine if_neg ?_
  have hc : (enabledTasks s).contains k = true := List.contains_iff_mem.mpr he
  rw [hf, hc, ha, hr]
  exact Bool.false_ne_true

/-- A release that waits alone. -/
def waitsAlone (s : State) (e : Nat × Nat × Nat) : State := { s with sched := { s.sched with waiting := [e] } }

theorem modSched_waitsAlone (hw : s.sched.waiting = []) (e : Nat × Nat × Nat) :
    modSched s (fun x => { x with waiting := x.waiting ++ [e] }) = waitsAlone s e := by
  show ({ s with sched := { s.sched with waiting := s.sched.waiting ++ [e] } } : State) = _
  rw [hw]
  rfl

theorem dropWaiting_waitsAlone (hw : s.sched.waiting = []) (e : Nat × Nat × Nat) : dropWaiting (waitsAlone s e) e.1 = s := by
  have hfilter : [e].filter (fun w => w.1 ≠ e.1) = s.sched.waiting := by rw [hw]; simp
  exact (congrArg (fun w => ({ s with sched := { s.sched with waiting := w } } : State)) hfilter :)

theorem releaseOp_starts {k : Nat} (hf : (taskDef s k).fixed = true) (he : k ∈ enabledTasks s) (ha : scansAllowed s = true)
    (hr : isRelease s k = true) (hs : (taskRt s k).skipNext = false) (hn : noScan s = true) (hw : s.sched.waiting = []) :
    releaseOp s k = startScan s k s.tb (scanPromise s k s.tb 0) 0 := by
  obtain ⟨hrun, hsusp⟩ := running_of_noScan hn
  have hnext : runNext (waitsAlone s (k, s.tb, scanPromise s k s.tb 0)) = startScan s k s.tb (scanPromise s k s.tb 0) 0 := by
    have hususp : (waitsAlone s (k, s.tb, scanPromise s k s.tb 0)).sched.suspended = [] := hsusp
    have hw1 : nextWaiting (waitsAlone s (k, s.tb, scanPromise s k s.tb 0)) = some (k, s.tb, scanPromise s k s.tb 0) := rfl
    have hua : scansAllowed (waitsAlone s (k, s.tb, scanPromise s k s.tb 0)) = true := ha
    have hdrop : dropWaiting (waitsAlone s (k, s.tb, scanPromise s k s.tb 0)) k = s := dropWaiting_waitsAlone hw _
    simp only [runNext, hususp, hw1, hua, if_true, hdrop]
  rw [releaseOp_counts hf he ha hr, if_neg (ne_true_of_eq_false hs), if_neg (by simp [hw, hrun, hsusp]),
    modSched_waitsAlone hw]
  exact (if_pos hn).trans hnext

theorem releaseOp_waits {k : Nat} (hf : (taskDef s k).fixed = true) (he : k ∈ enabledTasks s) (ha : scansAllowed s = true)
    (hr : isRelease s k = true) (hs : (taskRt s k).skipNext = false) (hw : s.sched.waiting = []) {sc : Scan}
    (hsc : s.sched.running = some sc) (hph : sc.phase ≠ .execute) (htask : sc.task ≠ k)
    (hsusp : ∀ x ∈ s.sched.suspended, x.1.task ≠ k) : releaseOp s k =
      { s with sched := { s.sched with waiting := [(k, s.tb, scanPromise s k s.tb 0)] } } := by
  have hbusy : ¬ noScan (waitsAlone s (k, s.tb, scanPromise s k s.tb 0)) = true := by
    show ¬ (s.sched.running.isNone && s.sched.suspended.isEmpty) = true
    rw [hsc]
    exact Bool.false_ne_true
  have hnew : ¬ (s.sched.waiting.any (fun w => w.1 = k) ||
      (match s.sched.running with | some sc => decide (sc.task = k) | none => false) ||
      s.sched.suspended.any (fun x => x.1.task = k)) = true := by
    simp only [hw, hsc, htask, List.any_nil, decide_false, Bool.or_self, Bool.false_or, List.any_eq_true, decide_eq_true_eq,
      not_exists, not_and]
    exact hsusp
  have hpre : preemptNow (waitsAlone s (k, s.tb, scanPromise s k s.tb 0)) = waitsAlone s (k, s.tb, scanPromise s k s.tb 0) := by
    have hrun : (waitsAlone s (k, s.tb, scanPromise s k s.tb 0)).sched.running = some sc := hsc
    have hw1 : nextWaiting (waitsAlone s (k, s.tb, scanPromise s k s.tb 0)) = some (k, s.tb, scanPromise s k s.tb 0) := rfl
    simp only [preemptNow, hrun, hw1, decide_eq_false hph, Bool.false_and, Bool.false_eq_true, if_false]
  rw [releaseOp_counts hf he ha hr, if_neg (ne_true_of_eq_false hs), if_neg hnew, modSched_waitsAlone hw]
  exact (if_neg hbusy).trans hpre

end

/-- Settles O37: rounds, releases and what a scan begins with. -/
theorem scanStarts : Obligations.ScanStarts := by
  intro s now k ready pr rest w k4 n rel released idle
  refine ⟨fun h => ?_, fun hi ha ho hl => ⟨fun hs => ?_, fun hs hk => ?_⟩, fun hi ho h => ?_, fun ha ho hr he => ?_,
    fun h => ?_, fun h => ?_, fun b hp ht => ?_, fun hf hen ha hrel => ⟨fun hs => ?_, fun hs hi => ?_,
      fun hs hw sc hsc hph htask hsusp => ?_⟩, ?_⟩
  · exact congrArg Host.Outcome.next (scanReadyOp_stays (s := n) h)
  · exact congrArg Host.Outcome.next ((scanReadyOp_next (s := n) hi.1 hi.2 ha ho hl).trans (if_neg (ne_true_of_eq_false hs)))
  · refine ⟨_, congrArg Host.Outcome.next ((scanReadyOp_next (s := n) hi.1 hi.2 ha ho hl).trans (if_pos hs)), ?_⟩
    obtain ⟨o, r, hc⟩ := closeRound_keeps (modSched (skipScan n k) (fun x => { x with roundLeft := rest, roundLast := some k }))
    rw [hc]
    have hskip := skipScan_task hk n
    exact ⟨rfl, (running_of_noScan hi.1).1, (congrArg TaskRt.skipNext hskip :), (congrArg TaskRt.skipped hskip :), rfl⟩
  · exact congrArg Host.Outcome.next (scanReadyOp_noRound (s := n) hi.1 hi.2 ho h)
  · refine congrArg Host.Outcome.next (if_neg fun h => ?_)
    rw [show (s.at now).sched.roundOpen = false from ho, show scansAllowed (s.at now) = true from ha,
      show (enabledFree (s.at now)).isEmpty = false from List.isEmpty_eq_false_iff.mpr he,
      show decide ((s.at now).tb < (s.at now).sched.roundReady) = false from decide_eq_false (Nat.not_lt.mpr hr)] at h
    exact Bool.false_ne_true h
  · refine congrArg Host.Outcome.next (if_pos ?_)
    rw [Bool.or_eq_true, Bool.or_eq_true, Bool.or_eq_true, decide_eq_true_eq]
    exact h.elim (fun h => .inl (.inl (.inl h))) .inr
  · exact congrArg Host.Outcome.next (releaseOp_stays (s := n) h)
  · show isRelease n rel = true ↔ _
    rw [isRelease_iff (s := n) hp ht]
    rfl
  · refine ⟨_, congrArg Host.Outcome.next ((releaseOp_counts (s := n) hf hen ha hrel).trans (if_pos hs)), ?_⟩
    have hskip := skipScan_task k4.isLt n
    exact ⟨(congrArg TaskRt.skipNext hskip :), (congrArg TaskRt.skipped hskip :), rfl⟩
  · exact congrArg Host.Outcome.next (releaseOp_starts (s := n) hf hen ha hrel hs hi.1 hi.2)
  · exact congrArg Host.Outcome.next (releaseOp_waits (s := n) hf hen ha hrel hs hw hsc hph htask hsusp)
  · exact startScan_begun n k ready pr w

end Sys2Proof.Machine
end

section
/-!
PROOFS. The seal of a scan, EMIT, and the drop of a Watch (R166-R172, R382, R383).
-/
namespace Sys2Proof.Machine

open Sys2Proof

/-! ### Places marked in turn -/

section
variable {α β : Type} {view : State → β} {get : State → Nat → α} {g : Nat → α} {ok : Nat → Prop} {s : State}

/-- Between s and u places have at most taken their mark, and nothing that the view shows has changed. -/
def someMarked (view : State → β) (get : State → Nat → α) (g : Nat → α) (s u : State) : Prop :=
  view u = view s ∧ ∀ k, get u k = get s k ∨ get u k = g k

/-- A step that gives one place its mark and leaves the others. -/
def marks (view : State → β) (get : State → Nat → α) (g : Nat → α) (ok : Nat → Prop) (s : State)
    (step : State → Nat → State) : Prop :=
  ∀ u k, ok k → someMarked view get g s u → view (step u k) = view u ∧ get (step u k) k = g k ∧
    ∀ j, j ≠ k → get (step u k) j = get u j

theorem someMarked_refl : someMarked view get g s s := ⟨rfl, fun _ => .inl rfl⟩

theorem foldl_marks {step : State → Nat → State} (hstep : marks view get g ok s step) (ks : List Nat) (hok : ∀ k ∈ ks, ok k) :
    ∀ u, someMarked view get g s u → someMarked view get g s (ks.foldl step u) ∧
      (∀ k ∈ ks, get (ks.foldl step u) k = g k) ∧ ∀ k, k ∉ ks → get (ks.foldl step u) k = get u k := by
  induction ks with
  | nil => exact fun u hu => ⟨hu, nofun, fun _ _ => rfl⟩
  | cons x xs ih =>
    intro u hu
    obtain ⟨hv, hx, ho⟩ := hstep u x (hok x List.mem_cons_self) hu
    have hu' : someMarked view get g s (step u x) := ⟨hv.trans hu.1, fun k => by
      by_cases hk : k = x
      · exact .inr (hk ▸ hx)
      · rw [ho k hk]
        exact hu.2 k⟩
    obtain ⟨hm, hin, hout⟩ := ih (fun k hk => hok k (List.mem_cons_of_mem _ hk)) (step u x) hu'
    refine ⟨hm, fun k hk => ?_, fun k hk => ?_⟩
    · by_cases hxs : k ∈ xs
      · exact hin k hxs
      · rw [List.foldl_cons, hout k hxs, (List.mem_cons.mp hk).resolve_right hxs, hx]
    · rw [List.mem_cons, not_or] at hk
      rw [List.foldl_cons, hout k hk.2, ho k hk.1]

/-- The places of several areas, area by area. -/
theorem foldl_foldl_marks {step : State → Nat → State → Nat → State} {places : State → Nat → List Nat}
    (hplaces : ∀ u a, view u = view s → places u a = places s a) (hstep : ∀ w a, marks view get g ok s (step w a))
    (hok : ∀ a, ∀ k ∈ places s a, ok k) (as : List Nat) :
    ∀ u, someMarked view get g s u →
      let t := as.foldl (fun u a => (places u a).foldl (step u a) u) u
      someMarked view get g s t ∧ (∀ k ∈ as.flatMap (places s), get t k = g k) ∧
        ∀ k, k ∉ as.flatMap (places s) → get t k = get u k := by
  induction as with
  | nil => exact fun u hu => ⟨hu, nofun, fun _ _ => rfl⟩
  | cons a as ih =>
    intro u hu
    obtain ⟨h1, h2, h3⟩ := foldl_marks (hstep u a) (places s a) (hok a) u hu
    obtain ⟨h4, h5, h6⟩ := ih _ h1
    simp only [List.foldl_cons, hplaces u a hu.1, List.flatMap_cons]
    refine ⟨h4, fun k hk => ?_, fun k hk => ?_⟩
    · by_cases has : k ∈ as.flatMap (places s)
      · exact h5 k has
      · rw [h6 k has]
        exact h2 k ((List.mem_append.mp hk).resolve_right has)
    · rw [List.mem_append, not_or] at hk
      rw [h6 k hk.2, h3 k hk.1]

end

/-! ### The seal of lines (R166, R168) -/

section
variable {s : State} {now : Tb}

/-- Everything of the state but the image and its views at the last seal and EMIT. -/
def exceptSealed (s : State) : State := { s with image := [], sealedImg := [], emitted := [] }

/-- An item as a seal leaves it. -/
def sealedTagged (s : State) (k : Nat) : Tagged := ⟨(getItem s k).val, setE (getItem s k).tag false⟩

theorem setE_setE (t : Byte) (a b : Bool) : setE (setE t a) b = setE t b := by
  simp only [setE, tagL_mkTag, tagM_mkTag, tagS_mkTag, tagF_mkTag, tagQ_mkTag, tagV_mkTag]

/-- The seal of one item of a line. -/
def sealKey (e : Bool) (s : State) (k : Nat) : State :=
  { putItem s k (sealedTagged s k) with
    sealedImg := smSet itemDefault s.sealedImg k (sealedTagged s k),
    emitted := if e then smSet itemDefault s.emitted k (sealedTagged s k) else s.emitted }

theorem sealKey_marks (s : State) (e : Bool) :
    marks exceptSealed getItem (sealedTagged s) (fun k => sysInPoint k = false) s (sealKey e) := by
  intro u k hk hu
  refine ⟨rfl, ?_, fun j hj => getItem_putItem_ne u _ hj⟩
  refine (getItem_putItem_same u k _ hk).trans ?_
  unfold sealedTagged
  rcases hu.2 k with h | h
  · rw [h]
  · rw [h]
    simp only [sealedTagged, setE_setE]

theorem lineKeys_notSystem {l k : Nat} (h : k ∈ lineKeys l) : sysInPoint k = false := by
  have hlow : 0x10000 ≤ k := by
    unfold lineKeys at h
    split at h
    · obtain ⟨i, -, rfl⟩ := List.mem_map.mp h
      unfold wKey
      omega
    split at h
    · exact absurd h List.not_mem_nil
    · obtain ⟨i, -, rfl⟩ := List.mem_map.mp h
      omega
  unfold sysInPoint
  rw [decide_eq_false_iff_not]
  omega

/-- The lines of a seal: E of each of their items is cleared, and nothing else of image and state changes. -/
theorem foldl_sealLine (s : State) (lines : List Nat) :
    let t := lines.foldl sealLine s
    exceptSealed t = exceptSealed s ∧ (∀ l ∈ lines, ∀ k ∈ lineKeys l, getItem t k = sealedTagged s k) ∧
      ∀ k, (∀ l ∈ lines, k ∉ lineKeys l) → getItem t k = getItem s k := by
  obtain ⟨hm, hin, hout⟩ := foldl_foldl_marks (places := fun _ l => lineKeys l)
    (step := fun u l => sealKey (emittedLine (dspBase u) (ringLineOf u l))) (fun _ _ _ => rfl)
    (fun w l => sealKey_marks s _) (fun l k hk => lineKeys_notSystem hk) lines s someMarked_refl
  refine ⟨hm.1, fun l hl k hk => hin k (List.mem_flatMap.mpr ⟨l, hl, hk⟩), fun k hk => hout k fun hmem => ?_⟩
  obtain ⟨l, hl, hkl⟩ := List.mem_flatMap.mp hmem
  exact hk l hl hkl

/-- Everything of the state that a seal and the answers to its watches leave. -/
def sealRest (s : State) : State := exceptSealed (hostRest { s with sched := { s.sched with watches := [] } })

theorem sealRest_foldl_sealLine (s : State) (lines : List Nat) : sealRest (lines.foldl sealLine s) = sealRest s :=
  (congrArg sealRest (foldl_sealLine s lines).1 :)

/-- Watches are answered, and nothing else changes. -/
theorem answerWatches_changes (s : State) (t : Nat) (changed : Nat → Bool) :
    sealRest (answerWatches s t changed) = sealRest s ∧ (answerWatches s t changed).image = s.image ∧
      (answerWatches s t changed).sysPhase = s.sysPhase := by
  unfold answerWatches
  dsimp only
  have hrest : ∀ ws : List (CmdRef × Nat × List Nat × Nat), hostRest (ws.foldl (fun s x =>
      watchReply s s.tb x.1 (x.2.2.1.filter changed)) s) = hostRest s := fun ws =>
    foldl_keeps hostRest _ (fun _ _ => hostRest_finishNow ..) ws s
  generalize hu : List.foldl _ s _ = u
  have h : hostRest u = hostRest s := hu ▸ hrest _
  exact ⟨(congrArg sealRest h :), (congrArg State.image h :), (congrArg State.sysPhase h :)⟩

/-- The record of the discard that a scan reports at its seal point. -/
def discardRecord (s : State) (a : Option Nat) (t : Nat) : State :=
  match a with
  | none => s
  | some a => log s 0x22 sevWarning 0x1F t 0 (le 4 a)

theorem discardRecord_keeps (s : State) (a : Option Nat) (t : Nat) : ∃ lg, discardRecord s a t = { s with log := lg } := by
  cases a with
  | none => exact ⟨s.log, rfl⟩
  | some a => exact log_rest ..

/-- The marks that a sealed scan leaves: at its task, at the requests it made, in the ring's account. -/
def sealMarks (w : State) (sc : Scan) (n seq : Nat) : State :=
  modRing (modCharts (modTask w sc.task (fun r => { r with
      sealedOnce := true, sealRtcValid := w.clock.valid, sealRtc := w.clock.sec * 32768 + w.clock.sub,
      shadowDirty := r.shadowDirty.filter (fun l => !sc.shadowDirty.contains l) })) (fun c => { c with
      req := c.req.map (fun r => if r.kind = .chg ∧ r.madeBy = sc.id then { r with isSealed := true } else r) }))
    (fun g => { g with lastSealSeq := seq, lastSealTb := w.tb, carryOwed := g.carryOwed + n * retainedLines w })

/-- The scan once its seal is complete. -/
def sealedScan (w : State) (sc : Scan) (seq : Nat) : Scan :=
  { sc with phase := if tightK w = 0 then .emit else .waitAck, sealSeq := seq }

/-- The scan waits for its acknowledgement in tight mode, and goes on to EMIT else. -/
def sealDone (sc : Scan) (seq : Nat) (s : State) : State :=
  modSched s (fun x => { x with running := some (sealedScan s sc seq) })

/-- The items of a scan's watches that its seal changed. -/
def watchedChanges (u : State) (sc : Scan) : List Nat :=
  ((u.sched.watches.filter (fun x => decide (x.2.1 = sc.task))).flatMap (fun x => x.2.2.1)).filter
    (fun k => tagE (getItem u k).tag)

/-- The seal of a scan whose record is complete, up to its marks. -/
def sealAnswered (u : State) (sc : Scan) (lines : List Nat) : State :=
  answerWatches (lines.foldl sealLine u) sc.task (fun k => (watchedChanges u sc).contains k)

theorem sealedScan_eq (w : State) (sc : Scan) (seq : Nat) :
    sealedScan w sc seq = { sc with phase := if decide (tightK w ≠ 0) then .waitAck else .emit, sealSeq := seq } := by
  unfold sealedScan
  by_cases h : tightK w = 0 <;> simp [h]

theorem completeSeal_ok {sc : Scan} {u : State} (h : ringAppend s (scanRecord s sc (sealLines s sc)) = .ok u) :
    completeSeal s sc = sealDone sc (u.ring.nextSeq - 1) (discardRecord (sealMarks (sealAnswered u sc (sealLines s sc)) sc
      (sealLines s sc).length (u.ring.nextSeq - 1)) sc.firstDiscard sc.task) := by
  unfold completeSeal sealDone
  dsimp only
  rw [h, sealedScan_eq]
  cases sc.firstDiscard <;> rfl

theorem sendManifest_keeps (s : State) (seq : Nat) :
    ∃ xs n, sendManifest s seq = { s with twin := { s.twin with sent := xs, lastSent := n } } := by
  unfold sendManifest
  split
  · exact ⟨_, _, rfl⟩
  · exact ⟨s.twin.sent, s.twin.lastSent, rfl⟩

/-- A record is appended: the ring and the frames sent over the twin link alone change. -/
theorem ringAppend_keeps {r : RingRec} {u : State} (h : ringAppend s r = .ok u) :
    ∃ g xs n, u = { s with ring := g, twin := { s.twin with sent := xs, lastSent := n } } := by
  unfold ringAppend at h
  dsimp only at h
  split at h
  · exact nomatch h
  · obtain ⟨xs, n, hsent⟩ := sendManifest_keeps _ _
    exact ⟨_, xs, n, (Except.ok.inj h).symm.trans hsent⟩

theorem sealRest_sealAnswered (u : State) (sc : Scan) (lines : List Nat) : sealRest (sealAnswered u sc lines) = sealRest u :=
  (answerWatches_changes ..).1.trans (sealRest_foldl_sealLine u lines)

theorem getItem_sealAnswered (u : State) (sc : Scan) (lines : List Nat) (k : Nat) :
    getItem (sealAnswered u sc lines) k = getItem (lines.foldl sealLine u) k :=
  getItem_congr k (answerWatches_changes ..).2.1 (answerWatches_changes ..).2.2

theorem completeSeal_seals {sc : Scan} {u : State} (h : ringAppend s (scanRecord s sc (sealLines s sc)) = .ok u) :
    let t := completeSeal s sc
    let lines := sealLines s sc
    t.sched.running = some { sc with phase := if tightK u = 0 then .emit else .waitAck, sealSeq := u.ring.nextSeq - 1 } ∧
      t.ring = { u.ring with lastSealSeq := u.ring.nextSeq - 1, lastSealTb := s.tb,
                             carryOwed := u.ring.carryOwed + lines.length * retainedLines s } ∧
      (∀ l ∈ lines, ∀ k ∈ lineKeys l, getItem t k = sealedTagged s k) ∧
      (∀ k, (∀ l ∈ lines, k ∉ lineKeys l) → getItem t k = getItem s k) ∧ t.eng = s.eng ∧ t.sent = s.sent := by
  obtain ⟨g, xs, n, hkeep⟩ := ringAppend_keeps h
  have hitem : ∀ k, getItem u k = getItem s k := fun k =>
    getItem_congr k (congrArg State.image hkeep :) (congrArg State.sysPhase hkeep :)
  obtain ⟨-, hin, hout⟩ := foldl_sealLine u (sealLines s sc)
  have hrest := sealRest_sealAnswered u sc (sealLines s sc)
  have hget := getItem_sealAnswered u sc (sealLines s sc)
  rw [completeSeal_ok h]
  generalize sealAnswered u sc (sealLines s sc) = w at hrest hget
  obtain ⟨lg, hlg⟩ := discardRecord_keeps (sealMarks w sc (sealLines s sc).length (u.ring.nextSeq - 1)) sc.firstDiscard sc.task
  rw [hlg]
  have htight : tightK w = tightK u := (congrArg tightK hrest :)
  have hlines : retainedLines w = retainedLines s := (congrArg retainedLines hrest :).trans (congrArg retainedLines hkeep :)
  have hring : w.ring = u.ring := (congrArg State.ring hrest :)
  have htb : w.tb = s.tb := (congrArg State.tb hrest :).trans (congrArg State.tb hkeep :)
  refine ⟨?_, ?_, fun l hl k hk => ?_, fun k hk => ?_, (congrArg State.eng hrest :).trans (congrArg State.eng hkeep :),
    (congrArg State.sent hrest :).trans (congrArg State.sent hkeep :)⟩
  · show some (sealedScan _ sc (u.ring.nextSeq - 1)) = _
    rw [← htight]
    rfl
  · rw [← hring, ← htb, ← hlines]
    rfl
  · have hk' : getItem w k = sealedTagged u k := (hget k).trans (hin l hl k hk)
    refine Eq.trans ?_ (hk'.trans (by rw [sealedTagged, sealedTagged, hitem]))
    rfl
  · have hk' : getItem w k = getItem u k := (hget k).trans (hout k hk)
    refine Eq.trans ?_ (hk'.trans (hitem k))
    rfl

/-! ### EMIT (R170, R171, R320) -/

/-- Everything of the state but the image, the hold shadows and the tasks' records of them. -/
def exceptEmit (s : State) : State := { s with image := [], held := [], tasks := State.reset.tasks }

/-- The step of R170 that decides for an item, from its tag and its treatment. -/
def emitStep (t : Byte) (tr : Treat) : Nat :=
  if tagM t then 1 else if tagF t then 2 else if (tagQ t).toNat ≤ tr.qt.toNat then 3 else if !tr.hold then 4 else 5

theorem emitItem_step (s : State) (k : Nat) : (emitItem s k).step = emitStep (getItem s k).tag (itemTreat s k) := by
  unfold emitItem emitStep
  dsimp only
  split_ifs <;> rfl

theorem emitStep_setS (t : Byte) (b : Bool) (tr : Treat) : emitStep (setS t b) tr = emitStep t tr := by
  simp only [emitStep, setS, tagM_mkTag, tagF_mkTag, tagQ_mkTag]

theorem setS_setS (t : Byte) (a b : Bool) : setS (setS t a) b = setS t b := by
  simp only [setS, tagE_mkTag, tagL_mkTag, tagM_mkTag, tagF_mkTag, tagQ_mkTag, tagV_mkTag]

/-- An item with a step's S, simulated items apart (R171). -/
def withStep (t : Tagged) (step : Nat) : Tagged :=
  if step = 1 then t else ⟨t.val, setS t.tag (decide (4 ≤ step))⟩

/-- An item as its EMIT leaves it. -/
def emittedTagged (s : State) (k : Nat) : Tagged := withStep (getItem s k) (emitItem s k).step

theorem withStep_withStep (t : Tagged) (n : Nat) : withStep (withStep t n) n = withStep t n := by
  unfold withStep
  split
  · rfl
  · rw [setS_setS]

theorem emitStep_withStep (t : Tagged) (n : Nat) (tr : Treat) : emitStep (withStep t n).tag tr = emitStep t.tag tr := by
  unfold withStep
  split
  · rfl
  · exact emitStep_setS ..

/-- Without a display block the shadows of an EMIT lie outside the image. -/
theorem emitShadow_keeps (h : dspBase s = none) (owner : Option Nat) (k : Nat) (r : Sent) :
    ∃ x tk, emitShadow s owner k r = { s with held := x, tasks := tk } := by
  have hidx : dspIndex s k = none := by
    unfold dspIndex
    split
    · rw [h]
    · rfl
  unfold emitShadow
  split
  · exact ⟨s.held, s.tasks, rfl⟩
  · dsimp only
    split
    · exact ⟨s.held, s.tasks, rfl⟩
    · rw [hidx]
      unfold shadowChanged
      cases owner with
      | none => exact ⟨_, _, rfl⟩
      | some t => exact ⟨_, _, rfl⟩

theorem emitTag_changes {k : Nat} (hk : sysInPoint k = false) (r : Sent) :
    exceptEmit (emitTag s k r) = exceptEmit s ∧ getItem (emitTag s k r) k = withStep (getItem s k) r.step ∧
      ∀ j, j ≠ k → getItem (emitTag s k r) j = getItem s j := by
  unfold emitTag withStep
  dsimp only
  split
  · exact ⟨rfl, rfl, fun _ _ => rfl⟩
  · exact ⟨rfl, getItem_putItem_same s k _ hk, fun j hj => getItem_putItem_ne s _ hj⟩

theorem emitOne_marks (h : dspBase s = none) (owner : Option Nat) :
    marks exceptEmit getItem (emittedTagged s) (fun k => sysInPoint k = false) s (emitOne owner) := by
  intro u k hk ⟨hview, hget⟩
  have hbase : dspBase u = none := (congrArg dspBase hview :).trans h
  have htreat : itemTreat u k = itemTreat s k := (congrArg (fun u => itemTreat u k) hview :)
  have hstep : (emitItem u k).step = (emitItem s k).step := by
    rw [emitItem_step, emitItem_step, htreat]
    rcases hget k with hg | hg <;> rw [hg]
    exact emitStep_withStep ..
  have hitem : withStep (getItem u k) (emitItem u k).step = emittedTagged s k := by
    rw [hstep]
    rcases hget k with hg | hg <;> rw [hg]
    · rfl
    · exact withStep_withStep ..
  obtain ⟨hv, hs, ho⟩ := emitTag_changes (s := u) hk (emitItem u k)
  have hbase' : dspBase (emitTag u k (emitItem u k)) = none := (congrArg dspBase hv :).trans hbase
  obtain ⟨x, tk, hsh⟩ := emitShadow_keeps hbase' owner k (emitItem u k)
  have hone : emitOne owner u k = { emitTag u k (emitItem u k) with held := x, tasks := tk } := hsh
  rw [hone]
  exact ⟨hv, hs.trans hitem, ho⟩

theorem stOutItems_output {l : Line} {n k : Nat} (h : k ∈ stOutItems s l n) : 0x10000 ≤ k := by
  unfold stOutItems at h
  split at h
  · rcases List.mem_append.mp h with h | h
    · obtain ⟨i, -, rfl⟩ := List.mem_map.mp h
      unfold stOutPoint
      omega
    · obtain ⟨i, -, rfl⟩ := List.mem_map.mp h
      unfold stOutWord wKey
      omega
  · exact absurd h List.not_mem_nil

/-- No output item is a system input point. -/
theorem outItems_output {a k : Nat} (h : k ∈ outItems s a) : sysInPoint k = false := by
  have hlow : 0x10000 ≤ k := by
    unfold outItems at h
    split at h
    · obtain ⟨i, -, rfl⟩ := List.mem_map.mp h
      omega
    split at h
    · split at h
      · rw [List.mem_singleton.mp h]
        unfold wKey
        omega
      · exact absurd h List.not_mem_nil
    split at h
    · exact stOutItems_output h
    split at h
    · exact stOutItems_output h
    split at h
    · split at h
      · exact absurd h List.not_mem_nil
      · obtain ⟨i, -, rfl⟩ := List.mem_map.mp h
        unfold wKey
        omega
    · rcases List.mem_cons.mp h with rfl | h
      · decide
      rcases List.mem_cons.mp h with rfl | h
      · decide
      · rw [List.mem_singleton.mp h]
        decide
  unfold sysInPoint
  rw [decide_eq_false_iff_not]
  omega

/-- The EMIT of areas: S of their items, and no value (R171). -/
theorem emitAreas_changes (h : dspBase s = none) (areas : List Nat) :
    let t := emitAreas s areas
    exceptEmit t = exceptEmit s ∧ (∀ k ∈ areas.flatMap (outItems s), getItem t k = emittedTagged s k) ∧
      ∀ k, k ∉ areas.flatMap (outItems s) → getItem t k = getItem s k := by
  obtain ⟨hm, hin, hout⟩ := foldl_foldl_marks (view := exceptEmit) (places := outItems)
    (step := fun u a => emitOne (areaOwner u a))
    (fun u a hu => (congrArg (fun u => outItems u a) hu :)) (fun w a => emitOne_marks h _) (fun a k hk => outItems_output hk)
    areas s someMarked_refl
  exact ⟨hm.1, hin, hout⟩

/-! ### A Watch that is dropped (R382, R383) -/

/-- Everything of the state that the drop of a Watch leaves. -/
def dropRest (s : State) : State :=
  hostRest { s with twin := State.reset.twin, log := State.reset.log,
                    sched := { s.sched with handoverReq := none, noMoreScans := false } }

theorem dropRest_finishNow (s : State) (c : CmdRef) (status reason : BitVec 8) (detail : Nat) (payload : List Byte) :
    dropRest (finishNow s c status reason detail payload) = dropRest s :=
  (congrArg dropRest (hostRest_finishNow s c status reason detail payload) :)

theorem dropRest_log (s : State) (type sev src subject code : Nat) (vals : List Byte) :
    dropRest (log s type sev src subject code vals) = dropRest s := by
  obtain ⟨lg, hlg⟩ := log_rest s type sev src subject code vals
  rw [hlg]
  rfl

theorem twin_finishNow (s : State) (c : CmdRef) (status reason : BitVec 8) (detail : Nat) (payload : List Byte) :
    (finishNow s c status reason detail payload).twin = s.twin :=
  (congrArg State.twin (hostRest_finishNow s c status reason detail payload) :)

theorem twin_log (s : State) (type sev src subject code : Nat) (vals : List Byte) :
    (log s type sev src subject code vals).twin = s.twin := by
  obtain ⟨lg, hlg⟩ := log_rest s type sev src subject code vals
  rw [hlg]

theorem dropRest_endChange (s : State) : dropRest (endChange s) = dropRest s :=
  foldl_keeps dropRest _ (fun _ _ => dropRest_finishNow ..) _ _

theorem dropRest_setPair (s : State) (p : PairState) : dropRest (setPair s p) = dropRest s := by
  unfold setPair
  dsimp only
  split
  · rfl
  · rw [dropRest_log]
    split
    · exact dropRest_endChange s
    · rfl

/-- A pair state is entered (R408). -/
theorem setPair_pair (s : State) (p : PairState) : (setPair s p).twin.pair = p := by
  unfold setPair
  dsimp only
  split
  next h => exact h
  · rw [twin_log]
    rfl

theorem dropRest_endResync (s : State) : dropRest (endResync s) = dropRest s := by
  unfold endResync
  dsimp only
  split
  · exact dropRest_finishNow ..
  · rfl

theorem endResync_pair (s : State) : (endResync s).twin.pair = s.twin.pair := by
  unfold endResync
  dsimp only
  split
  · rw [twin_finishNow]
    rfl
  · rfl

theorem twinSend_keeps (s : State) (f : TwinFrame) :
    ∃ xs n, twinSend s f = { s with twin := { s.twin with sent := xs, lastSent := n } } := by
  unfold twinSend
  split
  · exact ⟨_, _, rfl⟩
  · exact ⟨s.twin.sent, s.twin.lastSent, rfl⟩

/-- The drop of a Watch, up to what goes out and on record. -/
theorem dropWatch_drops (reason : Nat) (h : s.twin.role = .helm ∧ (s.twin.pair = .inStep ∨ s.twin.pair = .resync)) :
    dropRest (dropWatch s reason) = dropRest s ∧ (dropWatch s reason).twin.pair = .outOfStep := by
  have hrest : dropRest (endResync (setPair s .outOfStep)) = dropRest s :=
    (dropRest_endResync _).trans (dropRest_setPair s _)
  have hpair : (endResync (setPair s .outOfStep)).twin.pair = .outOfStep := (endResync_pair _).trans (setPair_pair s _)
  rw [show dropWatch s reason = _ from if_pos h]
  generalize endResync (setPair s .outOfStep) = u at hrest hpair
  dsimp only
  split
  · obtain ⟨xs, n, hs⟩ := twinSend_keeps u (.drop reason)
    rw [dropRest_log, twin_log, hs]
    exact ⟨hrest, hpair⟩
  · exact ⟨hrest, hpair⟩

theorem dropWatch_other (reason : Nat) (h : ¬ (s.twin.role = .helm ∧ (s.twin.pair = .inStep ∨ s.twin.pair = .resync))) :
    dropWatch s reason = s := if_neg h

theorem dropWatch_rest (s : State) (reason : Nat) : dropRest (dropWatch s reason) = dropRest s := by
  by_cases h : s.twin.role = .helm ∧ (s.twin.pair = .inStep ∨ s.twin.pair = .resync)
  · exact (dropWatch_drops reason h).1
  · rw [dropWatch_other reason h]

end

end Sys2Proof.Machine
end

section
/-!
PROOFS. The end of a scan: what EMIT sends, SEAL values, and the rows of seal and EMIT (R170-R172, R382, R691).
-/
namespace Sys2Proof.Machine

open Sys2Proof

section
variable {s : State} {now : Tb}

/-! ### What EMIT sends (R170, R172) -/

/-- What EMIT sends of an item joins what was sent; a simulated item is not sent. -/
def recordOne (s : State) (k : Nat) : State :=
  let r := emitItem s k
  if r.step = 1 then s else recordSent s k r.item

/-- Everything of the state but what was sent. -/
def exceptSent (s : State) : State := { s with sent := [] }

/-- What stands as sent for an item after an EMIT of it. -/
def sentMark (s : State) (k : Nat) : Tagged :=
  if (emitItem s k).step = 1 then smGet itemDefault s.sent k else (emitItem s k).item

theorem recordOne_marks (s : State) :
    marks exceptSent (fun u k => smGet itemDefault u.sent k) (sentMark s) (fun _ => True) s recordOne := by
  intro u k _ ⟨hview, hget⟩
  have hitem : emitItem u k = emitItem s k := (congrArg (fun u => emitItem u k) hview :)
  unfold recordOne
  dsimp only
  rw [hitem]
  unfold sentMark at hget ⊢
  split
  next h =>
    refine ⟨rfl, ?_, fun _ _ => rfl⟩
    have hk := hget k
    rw [if_pos h] at hk
    exact hk.elim id id
  next h =>
    refine ⟨rfl, ?_, fun j hj => ?_⟩
    · show smGet itemDefault (smInsert u.sent k _) k = _
      rw [smGet_smInsert, if_pos rfl]
    · show smGet itemDefault (smInsert u.sent k _) j = _
      rw [smGet_smInsert, if_neg hj]

/-- The records of what areas send. -/
def recordAreas (s : State) (areas : List Nat) : State := areas.foldl (fun s a => (outItems s a).foldl recordOne s) s

theorem recordAreas_changes (s : State) (areas : List Nat) :
    exceptSent (recordAreas s areas) = exceptSent s ∧
      ∀ k ∈ areas.flatMap (outItems s), smGet itemDefault (recordAreas s areas).sent k = sentMark s k := by
  obtain ⟨hm, hin, -⟩ := foldl_foldl_marks (view := exceptSent) (places := outItems) (step := fun _ _ => recordOne)
    (fun u a hu => (congrArg (fun u => outItems u a) hu :)) (fun _ _ => recordOne_marks s) (fun _ _ _ => trivial)
    areas s someMarked_refl
  exact ⟨hm.1, hin⟩

/-- Everything of the state that the destinations of an EMIT leave. -/
def sendRest (s : State) : State :=
  hostRest { s with field := State.reset.field, ana := State.reset.ana, dsp := State.reset.dsp, log := State.reset.log,
                    power := { s.power with faultReq := false },
                    sched := { s.sched with handoverReq := none, safeAreas := [] } }

theorem sendRest_log (s : State) (type sev src subject code : Nat) (vals : List Byte) :
    sendRest (log s type sev src subject code vals) = sendRest s := by
  obtain ⟨lg, hlg⟩ := log_rest s type sev src subject code vals
  rw [hlg]
  rfl

theorem sendRest_setGang (s : State) (lead : Nat) (f : DoCh → DoCh) : sendRest (setGang s lead f) = sendRest s :=
  foldl_keeps sendRest (fun s n => setDo s n f) (fun _ _ => rfl) _ s

theorem sendRest_finishNow (s : State) (c : CmdRef) (status reason : BitVec 8) (detail : Nat) (payload : List Byte) :
    sendRest (finishNow s c status reason detail payload) = sendRest s :=
  (congrArg sendRest (hostRest_finishNow s c status reason detail payload) :)

theorem sendRest_endTest (s : State) (lead : Nat) (v : Bool) : sendRest (endTest s lead v) = sendRest s := by
  unfold endTest
  split
  · split
    · exact sendRest_finishNow ..
    · rfl
  · rfl

/-- A record that a latch may leave as it clears. -/
theorem sendRest_ite_log (b : Bool) (s : State) (type sev src subject code : Nat) (vals : List Byte) :
    sendRest (if b then log s type sev src subject code vals else s) = sendRest s := by
  split
  · exact sendRest_log ..
  · rfl

theorem sendRest_commandGang (s : State) (lead : Nat) (v : Bool) : sendRest (commandGang s lead v) = sendRest s := by
  unfold commandGang
  split
  · dsimp only
    rw [sendRest_setGang, sendRest_ite_log, sendRest_ite_log]
  · dsimp only
    split
    · split
      · exact sendRest_setGang ..
      · exact sendRest_setGang ..
    split
    · exact sendRest_setGang ..
    split
    · exact (sendRest_setGang ..).trans (sendRest_setGang ..)
    · exact sendRest_setGang ..

theorem sendRest_sendGroup (unsent : Nat → Bool) (s : State) (g : Nat) : sendRest (sendGroup unsent s g) = sendRest s :=
  foldl_keeps sendRest (fun s (x : Nat × Bool) => commandGang (endTest s x.1 x.2) x.1 x.2)
    (fun _ _ => (sendRest_commandGang ..).trans (sendRest_endTest ..)) _ s

theorem sendRest_sendSetPoint (s : State) (c : Nat) (w : Word) (subst : Bool) :
    sendRest (sendSetPoint s c w subst) = sendRest s := by
  unfold sendSetPoint
  dsimp only
  split
  · rfl
  · split <;> rfl

theorem sendRest_sendChannel (s : State) (c : Nat) : sendRest (sendChannel s c) = sendRest s := by
  unfold sendChannel
  dsimp only
  split
  · rfl
  split
  · split <;> rfl
  · exact sendRest_sendSetPoint ..

theorem sendRest_sendSystem (s : State) (before : SMap Tagged) : sendRest (sendSystem s before) = sendRest s := by
  unfold sendSystem
  dsimp only
  split
  · split
    · rfl
    · exact sendRest_log ..
  · rfl

theorem sendRest_sendArea (unsent : Nat → Bool) (before : SMap Tagged) (s : State) (a : Nat) :
    sendRest (sendArea unsent before s a) = sendRest s := by
  unfold sendArea
  split
  · rfl
  split
  · exact sendRest_sendGroup ..
  split
  · split
    · rfl
    · exact sendRest_sendChannel ..
  split
  · rfl
  split
  · exact sendRest_sendSystem ..
  · rfl

/-- What an EMIT's end sends: every item's outcome, and nothing changes but the destinations. -/
theorem sendAreas_sends (s : State) (areas : List Nat) :
    let t := sendAreas s areas
    sendRest { t with sent := s.sent } = sendRest s ∧
      ∀ k ∈ areas.flatMap (outItems s), (emitItem s k).step ≠ 1 → smGet itemDefault t.sent k = (emitItem s k).item := by
  obtain ⟨hview, hsent⟩ := recordAreas_changes s areas
  have hfold : sendAreas s areas = areas.foldl (sendArea (fun k => tagM (getItem (recordAreas s areas) k).tag) s.sent)
    (recordAreas s areas) := rfl
  have hrest : sendRest (sendAreas s areas) = sendRest (recordAreas s areas) := by
    rw [hfold]
    exact foldl_keeps sendRest _ (fun _ _ => sendRest_sendArea ..) areas _
  generalize sendAreas s areas = t at hrest
  refine ⟨?_, fun k hk hstep => ?_⟩
  · exact (congrArg (fun u : State => sendRest { u with sent := s.sent }) hrest :).trans
      (congrArg (fun u : State => sendRest { u with sent := s.sent }) hview :)
  · have hk' : t.sent = (recordAreas s areas).sent := (congrArg State.sent hrest :)
    rw [hk', hsent k hk]
    exact if_neg hstep

/-! ### SEAL values (R691, R694) -/

/-- Everything of the state but its parameters. -/
def exceptParams (s : State) : State := { s with params := State.reset.params }

theorem takeSealing_changes (s : State) :
    exceptParams (takeSealing s) = exceptParams s ∧ (takeSealing s).params.sealing = [] ∧
      ∀ pid v, s.params.sealing = [(pid, some v)] →
        par (takeSealing s) pid = v ∧ ∀ p, p ≠ pid → par (takeSealing s) p = par s p := by
  refine ⟨foldl_keeps exceptParams (fun s (e : Nat × Option Nat) => setPar s e.1 (waitValue s e.1 e.2)) (fun _ _ => rfl) _ _,
    foldl_keeps (fun s => s.params.sealing) (fun s (e : Nat × Option Nat) => setPar s e.1 (waitValue s e.1 e.2))
      (fun _ _ => rfl) _ _, fun pid v h => ?_⟩
  have ht : takeSealing s = setPar { s with params := { s.params with sealing := [] } } pid v := by
    rw [takeSealing, h]
    rfl
  rw [ht]
  exact ⟨by rw [par_setPar, if_pos rfl], fun p hp => by rw [par_setPar, if_neg hp]; rfl⟩

/-! ### The end of a scan (R172) -/

/-- Nothing waits for the end of the last scan. -/
theorem stopIfDue_nothing (hn : noScan s = true) (hstop : s.sched.stopping = none) (hrun : s.pstate = .running)
    (hen : enabledTasks s ≠ []) (hf : s.power.failing = false) (hs : s.power.stopping = false) : stopIfDue s = s := by
  have hhand : handoverIfIdle s = s := by
    refine if_neg fun h => ?_
    rw [Bool.and_eq_true, Bool.or_eq_true, decide_eq_true_eq, List.isEmpty_iff] at h
    exact h.2.elim (fun h => h hrun) hen
  simp only [stopIfDue, hn, hstop, hhand, finishStop, hf, hs, Bool.not_true, Bool.not_false, Bool.false_eq_true, if_false,
    if_true]

theorem runNext_nothing (hs : s.sched.suspended = []) (hw : s.sched.waiting = []) : runNext s = s := by
  simp only [runNext, nextWaiting, hs, hw, List.foldl_nil]

theorem idleChanges_nothing (hr : s.charts.req = none) (he : s.sched.editPending = none) : idleChanges s = s := by
  have hc : changeIfIdle s = s := by simp only [changeIfIdle, hr]
  rw [idleChanges, hc]
  simp only [editIfIdle, he]

theorem carryForSeals_nothing (h : s.ring.carryOwed < 4 * (390786 - retainedLines s)) : carryForSeals s = s := by
  have hstop : ∀ n, carryOwedLines (n + 1) s = s := fun n => by
    rw [carryOwedLines]
    exact if_pos (.inl h)
  exact hstop _

/-- The state once a scan's EMIT has sent its outputs: slack and completion are on record, and no scan runs. -/
def finishedScan (s : State) (sc : Scan) : State :=
  let u := takeSealing (sendAreas s (taskAreas s sc.task))
  modSched (modTask u sc.task (fun r => { r with slack := sc.promise - u.tb, done := u.tb, lastPromise := sc.promise }))
    (fun x => { x with
      running := none, roundLeft := if (taskDef u sc.task).fixed then x.roundLeft
        else x.roundLeft.filter (fun u => u ≠ sc.task) })

theorem endScan_plain {sc : Scan} (hc : sc.isChange = false) (he : sc.isEdit = false) (hh : sc.isHandover = false) :
    endScan s sc = stopIfDue (runNext (closeRound (finishedScan s sc))) := by
  simp only [endScan, hc, he, hh, Bool.false_eq_true, if_false]
  rfl

/-- What the end of a scan leaves, its own marks apart. -/
def endRest (s : State) : State :=
  sendRest { exceptParams s with
    sent := [], tasks := State.reset.tasks,
    sched := { s.sched with running := none, roundLeft := [], roundOpen := false, roundReady := 0 } }

theorem endRest_finishedScan (s : State) (sc : Scan) :
    endRest (closeRound (finishedScan s sc)) = endRest s ∧
    let t := closeRound (finishedScan s sc)
    t.sched.running = none ∧ t.sent = (sendAreas s (taskAreas s sc.task)).sent ∧
      t.params = (takeSealing (sendAreas s (taskAreas s sc.task))).params ∧
      (sc.task < 16 → taskRt t sc.task =
        { taskRt s sc.task with slack := sc.promise - s.tb, done := s.tb, lastPromise := sc.promise }) := by
  have hsend := (sendAreas_sends s (taskAreas s sc.task)).1
  have hseal := (takeSealing_changes (sendAreas s (taskAreas s sc.task))).1
  obtain ⟨o, r, hcl⟩ := closeRound_keeps (finishedScan s sc)
  rw [hcl, finishedScan]
  generalize sendAreas s (taskAreas s sc.task) = v at hsend hseal
  generalize takeSealing v = u at hseal
  have htb : u.tb = s.tb := (congrArg State.tb hseal :).trans (congrArg State.tb hsend :)
  have htask : taskRt u sc.task = taskRt s sc.task :=
    (congrArg (fun t => taskRt t sc.task) hseal :).trans (congrArg (fun t => taskRt t sc.task) hsend :)
  refine ⟨?_, rfl, (congrArg State.sent hseal :), rfl, fun hk => ?_⟩
  · exact (congrArg endRest hseal :).trans (congrArg endRest hsend :)
  · refine Eq.trans (b := taskRt (modTask u sc.task _) sc.task) rfl ((taskRt_modTask ..).trans ((if_pos ⟨rfl, hk⟩).trans ?_))
    rw [htask, htb]

/-- A scan for whose end nothing waits. -/
def endsAlone (s : State) (sc : Scan) : Prop :=
  s.sched.suspended = [] ∧ s.sched.waiting = [] ∧ sc.isChange = false ∧ sc.isEdit = false ∧ sc.isHandover = false ∧
    s.sched.stopping = none ∧ s.pstate = .running ∧ enabledTasks s ≠ [] ∧ s.power.failing = false ∧
    s.power.stopping = false ∧ s.charts.req = none ∧ s.sched.editPending = none ∧
    s.ring.carryOwed < 4 * (390786 - retainedLines s)

theorem emitEnd_alone {sc : Scan} (h : endsAlone s sc) :
    carryForSeals (idleChanges (endScan s sc)) = closeRound (finishedScan s sc) := by
  obtain ⟨hsusp, hwait, hc, he, hh, hstop, hrun, hen, hf, hs, hreq, hedit, howed⟩ := h
  obtain ⟨hrest, hnone, -⟩ := endRest_finishedScan s sc
  rw [endScan_plain hc he hh]
  generalize closeRound (finishedScan s sc) = t at hrest hnone
  have hsusp' : t.sched.suspended = [] := (congrArg (fun t => t.sched.suspended) hrest :).trans hsusp
  have hwait' : t.sched.waiting = [] := (congrArg (fun t => t.sched.waiting) hrest :).trans hwait
  have hno : noScan t = true := by
    rw [noScan, hnone, hsusp']
    rfl
  have hen' : enabledTasks t ≠ [] := by
    rw [show enabledTasks t = enabledTasks s from (congrArg enabledTasks hrest :)]
    exact hen
  have howed' : t.ring.carryOwed < 4 * (390786 - retainedLines t) := by
    rw [show t.ring = s.ring from (congrArg State.ring hrest :),
      show retainedLines t = retainedLines s from (congrArg retainedLines hrest :)]
    exact howed
  rw [runNext_nothing hsusp' hwait', stopIfDue_nothing hno ((congrArg (fun t => t.sched.stopping) hrest :).trans hstop)
    ((congrArg State.pstate hrest :).trans hrun) hen' ((congrArg (fun t => t.power.failing) hrest :).trans hf)
    ((congrArg (fun t => t.power.stopping) hrest :).trans hs), idleChanges_nothing (s := t)
    ((congrArg (fun t => t.charts.req) hrest :).trans hreq) ((congrArg (fun t => t.sched.editPending) hrest :).trans hedit),
    carryForSeals_nothing howed']

theorem finishedScan_ends (s : State) (sc : Scan) :
    let t := closeRound (finishedScan s sc)
    t.sched.running = none ∧
      (sc.task < 16 → taskRt t sc.task = { taskRt s sc.task with
        slack := sc.promise - s.tb, done := s.tb, lastPromise := sc.promise }) ∧
      (∀ k ∈ (taskAreas s sc.task).flatMap (outItems s), (emitItem s k).step ≠ 1 →
        smGet itemDefault t.sent k = (emitItem s k).item) ∧ t.ring = s.ring ∧ t.eng = s.eng ∧ t.params.sealing = [] ∧
      ∀ pid v, s.params.sealing = [(pid, some v)] → par t pid = v ∧ ∀ p, p ≠ pid → par t p = par s p := by
  obtain ⟨hrest, hnone, hsent, hpar, htask⟩ := endRest_finishedScan s sc
  obtain ⟨hview, hitems⟩ := sendAreas_sends s (taskAreas s sc.task)
  obtain ⟨-, hseal, hvals⟩ := takeSealing_changes (sendAreas s (taskAreas s sc.task))
  have hparams : (sendAreas s (taskAreas s sc.task)).params = s.params := (congrArg State.params hview :)
  generalize closeRound (finishedScan s sc) = t at hrest hnone hsent hpar htask
  refine ⟨hnone, htask, fun k hk hstep => ?_, (congrArg State.ring hrest :), (congrArg State.eng hrest :), ?_, fun pid v h => ?_⟩
  · rw [hsent]
    exact hitems k hk hstep
  · rw [hpar]
    exact hseal
  · obtain ⟨h1, h2⟩ := hvals pid v (hparams ▸ h)
    have hp : ∀ p, par t p = par (takeSealing (sendAreas s (taskAreas s sc.task))) p := fun p => by rw [par, par, hpar]
    refine ⟨(hp pid).trans h1, fun p hne => (hp p).trans ((h2 p hne).trans ?_)⟩
    rw [par, par, hparams]

/-! ### The rows -/

theorem sealPoint_row {sc : Scan} (h : s.sched.running = some sc) : exec (.sealPoint now) s =
    .next (if sc.phase = .seal then completeSeal (s.at now) sc else s.at now) := by
  refine Eq.trans (b := execSealPoint now s) rfl ?_
  simp only [execSealPoint, show (s.at now).sched.running = some sc from h]

theorem manifestAckDeadline_row {sc : Scan} (h : s.sched.running = some sc) : exec (.manifestAckDeadline now) s =
    .next (if sc.phase = .waitAck ∧ s.ring.lastSealTb + usToTb 3 ≤ (s.at now).tb then
        dropWatch (modSched (s.at now) (fun x => { x with running := some { sc with phase := .emit } })) 0
      else s.at now) := by
  refine Eq.trans (b := execManifestAckDeadline now s) rfl ?_
  simp only [execManifestAckDeadline, show (s.at now).sched.running = some sc from h]
  rfl

theorem emit_row {sc : Scan} (h : s.sched.running = some sc) : exec (.emit now) s =
    .next (if sc.phase = .emit then
        emitAreas (modSched (s.at now) (fun x => { x with running := some { sc with phase := .emitting } }))
          (taskAreas s sc.task)
      else s.at now) := by
  refine Eq.trans (b := execEmit now s) rfl ?_
  simp only [execEmit, show (s.at now).sched.running = some sc from h]
  rfl

theorem emitEnd_row {sc : Scan} (h : s.sched.running = some sc) : exec (.emitEnd now) s =
    .next (if sc.phase ≠ .emitting then s.at now
      else if sc.promise < (s.at now).tb then raiseFault (s.at now) 0x83 (0xFFFF0000 + sc.task)
      else carryForSeals (idleChanges (endScan (s.at now) sc))) := by
  refine Eq.trans (b := execEmitEnd now s) rfl ?_
  simp only [execEmitEnd, show (s.at now).sched.running = some sc from h]

theorem noScan_rows (h : s.sched.running = none) : exec (.sealPoint now) s = .next (s.at now) ∧
    exec (.manifestAckDeadline now) s = .next (s.at now) ∧ exec (.emit now) s = .next (s.at now) ∧
    exec (.emitEnd now) s = .next (s.at now) := by
  have h' : (s.at now).sched.running = none := h
  refine ⟨Eq.trans (b := execSealPoint now s) rfl ?_, Eq.trans (b := execManifestAckDeadline now s) rfl ?_,
    Eq.trans (b := execEmit now s) rfl ?_, Eq.trans (b := execEmitEnd now s) rfl ?_⟩
  · simp only [execSealPoint, h']
  · simp only [execManifestAckDeadline, h']
  · simp only [execEmit, h']
  · simp only [execEmitEnd, h']

theorem withStep_fields (t : Tagged) (n : Nat) :
    (withStep t n).val = t.val ∧ (withStep t n).tag = if n = 1 then t.tag else setS t.tag (decide (4 ≤ n)) := by
  unfold withStep
  split <;> exact ⟨rfl, rfl⟩

end

/-- Settles O38: the seal, the deadline of its acknowledgement, EMIT and the end of a scan. -/
theorem scanSealsAndEmits : Obligations.ScanSealsAndEmits := by
  intro s now sc n
  refine ⟨fun h => ?_, ?_, fun hsc ht => ?_, fun hsc hph ht => ?_, ?_,
    fun hsc hph htask h1 h2 h3 h4 h5 h6 h7 h8 h9 h10 h11 h12 hp ho => ?_, fun hsc hph hp => ?_⟩
  · rcases h with h | ⟨hsc, hph⟩
    · exact noScan_rows h
    · have hne : ∀ p, p ≠ Phase.execute → sc.phase ≠ p := fun p hp he => hp (he.symm.trans hph)
      exact ⟨(sealPoint_row hsc).trans (congrArg _ (if_neg (hne _ (by decide)))),
        (manifestAckDeadline_row hsc).trans (congrArg _ (if_neg fun h => hne _ (by decide) h.1)),
        (emit_row hsc).trans (congrArg _ (if_neg (hne _ (by decide)))),
        (emitEnd_row hsc).trans (congrArg _ (if_pos (hne _ (by decide))))⟩
  · intro hsc hph lines
    have hrow := (sealPoint_row (now := now) hsc).trans (congrArg Host.Outcome.next (if_pos hph))
    refine ⟨fun l hl => hrow.trans (congrArg _ ?_), fun u hu => ⟨_, hrow, completeSeal_seals hu⟩⟩
    unfold completeSeal
    dsimp only
    rw [hl]
  · refine (manifestAckDeadline_row hsc).trans (congrArg _ (if_neg fun h => ?_))
    exact Nat.not_le.mpr ht h.2
  · refine ⟨_, (manifestAckDeadline_row hsc).trans (congrArg _ (if_pos ⟨hph, ht⟩)), ?_⟩
    have hrest := dropWatch_rest (modSched n (fun x => { x with running := some { sc with phase := .emit } })) 0
    refine ⟨(congrArg (fun t => t.sched.running) hrest :), (congrArg State.image hrest :), fun hr hp => ?_, fun hr => ?_⟩
    · exact (dropWatch_drops 0 (s := modSched n (fun x => { x with running := some { sc with phase := .emit } }))
        ⟨hr, .inl hp⟩).2
    · rw [dropWatch_other 0 (s := modSched n (fun x => { x with running := some { sc with phase := .emit } })) fun h => hr h.1]
      rfl
  · intro hsc hph hd items
    obtain ⟨hview, hin, hout⟩ := emitAreas_changes
      (s := modSched n (fun x => { x with running := some { sc with phase := .emitting } })) hd (taskAreas s sc.task)
    refine ⟨_, (emit_row hsc).trans (congrArg _ (if_pos hph)), (congrArg (fun t => t.sched.running) hview :),
      (congrArg State.sent hview :), (congrArg State.eng hview :), hout, fun k hk => ?_⟩
    intro r
    rw [hin k hk]
    exact withStep_fields (getItem s k) r.step
  · refine ⟨_, (emitEnd_row hsc).trans (congrArg _ ((if_neg (not_not.mpr hph)).trans ((if_neg (Nat.not_lt.mpr hp)).trans
      (emitEnd_alone (s := n) ⟨h1, h2, h3, h4, h5, h6, h7, h8, h9, h10, h11, h12, ho⟩)))), ?_⟩
    obtain ⟨hrun, ht, hrest⟩ := finishedScan_ends n sc
    refine ⟨hrun, ?_, hrest⟩
    rw [ht htask]
    rfl
  · intro hm
    exact ⟨_, (emitEnd_row hsc).trans (congrArg _ ((if_neg (not_not.mpr hph)).trans (if_pos hp))),
      enterHalt_view n 0x83 (0xFFFF0000 + sc.task) false 1 hm⟩

end Sys2Proof.Machine
end

section
/-!
PROOFS. The end of a start, and the link to the field die in recovery (R606, R635, R660).
-/
namespace Sys2Proof.Machine

open Sys2Proof

/-! ### The end of a start leaves the field die's side (R606, R660) -/

theorem field_wdApply (s : State) : (wdApply s).field = s.field := by
  have hlock : ∀ b, (wdSetLock s b).field = s.field := fun b => by
    unfold wdSetLock
    split <;> rfl
  have henable : ∀ u : State, (wdEnable u).field = u.field := fun u => by
    unfold wdEnable
    split <;> rfl
  unfold wdApply
  dsimp only
  split
  · rw [henable, hlock]
  split
  · exact hlock _
  split
  · exact hlock _
  · exact hlock _

theorem field_wdSyncMode (s : State) : (wdSyncMode s).field = s.field := by
  obtain ⟨w, hw⟩ := wdSyncMode_keeps s
  rw [hw]

theorem field_syncMode (s : State) : (syncMode s).field = s.field := by
  unfold syncMode
  dsimp only
  rw [field_wdSyncMode]
  split
  · split <;> rfl
  · split <;> rfl
  · rfl

theorem field_startHealth (s : State) : (startHealth s).field = s.field := by
  unfold startHealth
  split <;> rfl

theorem field_openPorts (s : State) : (openPorts s).field = s.field := by
  unfold openPorts
  split <;> rfl

theorem field_startLine (s : State) (l : Line) : (startLine s l).field = s.field := by cases l <;> rfl

theorem field_finishStart (s : State) : (finishStart s).field = s.field := by
  unfold finishStart
  rw [field_openPorts, field_syncMode]
  show (wdApply _).field = _
  rw [field_wdApply, field_startLine, field_startLine, field_startHealth]

/-- A recovery leaves the field link as it found it: the boot code keeps the logic engine stopped (R635). -/
theorem resumeRecovery_linkAlive (s : State) : (resumeRecovery s).field.linkAlive = s.field.linkAlive :=
  (congrArg (fun t => t.field.linkAlive) (haltRest_applySafe ..) :)

/-- A device without program in recovery, its field link not driven yet, with energy for a seal. -/
def recoveryStart : State :=
  { State.reset with
    store := { State.reset.store with recovery := true },
    field := { State.reset.field with linkAlive := false },
    power := { State.reset.power with capMeasured := some 1000, holdupMv := 11000 } }

/-- Refutes O39: a start in recovery ends without driving the field link, program or not (R635). -/
theorem not_ringFaultsAndResume : ¬ Obligations.RingFaultsAndResume := by
  unfold Obligations.RingFaultsAndResume
  intro h
  obtain ⟨-, -, -, -, -, -, -, -, -, -, hend⟩ := h recoveryStart 0 0 .postage (newScan State.reset 0 0 0)
  obtain ⟨t, ht, -, hhelm, -⟩ := hend rfl rfl (by decide)
  have hlink : t.field.linkAlive = true := (hhelm (.inl rfl)).2 rfl
  have hrow : exec (.reEmit 0) recoveryStart = .next (finishStart (resumeRecovery (recoveryStart.at 0))) :=
    congrArg Host.Outcome.next ((if_neg (by decide)).trans ((if_pos (.inl rfl)).trans rfl))
  have hrun : t = finishStart (resumeRecovery (recoveryStart.at 0)) := (Host.Outcome.next.inj (hrow.symm.trans ht)).symm
  rw [hrun, field_finishStart, resumeRecovery_linkAlive] at hlink
  exact Bool.false_ne_true hlink

end Sys2Proof.Machine
end

section
/-!
PROOFS. A start begins a new time base, and what that leaves of the unit faults (R340, R670-R673).
-/
namespace Sys2Proof.Machine

open Sys2Proof

/-! ### A start begins a new time base (R340) -/

theorem startWatchdog_tb (s : State) (kind : Nat) : (startWatchdog s kind).tb = s.tb := by
  unfold startWatchdog
  dsimp only
  split
  · obtain ⟨l, hl⟩ := log_rest { s.draw.2 with wd := _ } 0xB2 sevFault 0x1B _ _ _
    rw [hl]
    rfl
  · rfl

/-- A start of whatever kind, with the backup registers kept, begins with the time base at 0. -/
theorem dieStart_tb (s : State) (kind : Nat) (h : s.power.powerCycles ≠ 0) : (dieStart s kind).tb = 0 := by
  have keeps : ∀ {t u : State}, resetView t = resetView u → t.tb = u.tb := fun h => congrArg Prod.fst h
  unfold dieStart
  extract_lets _ _ _ cut cleared _ _ _ _ _ _ _ started checked updated loaded counted opsec _ booked marked rebuilt forced
    watched shown timed
  have hchecked : checked = started := checkBackup_of_ne_zero _ ((cutUpdate_powerCycles s).trans_ne h)
  have hloaded : loaded.tb = started.tb := keeps (by
    simp only [loaded, updated, hchecked, resetView_loadGlobals, resetView_readPStore, resetView_closeUpdates,
      resetView_bootFirmware])
  have hbooked : booked.tb = loaded.tb := keeps
    ((resetView_setBook opsec _).trans ((resetView_setOpsec counted _).trans (resetView_countPowerCycle loaded)))
  have hmarked : marked.tb = booked.tb := keeps ((resetView_startTwin _).trans (resetView_loadMarks booked))
  have hrebuilt : rebuilt.tb = marked.tb :=
    keeps ((resetView_rebuild _).trans ((resetView_readCharts _).trans (resetView_readKeys marked)))
  have hforced : forced.tb = rebuilt.tb :=
    keeps ((resetView_applyForces _).trans ((resetView_loadForces _).trans (resetView_loadChartParams rebuilt _)))
  have hwatched : watched.tb = forced.tb := (keeps (resetView_loadSafeVals _)).trans (startWatchdog_tb forced kind)
  have hshown : shown.tb = watched.tb := by
    unfold shown
    split
    · exact keeps (resetView_markFieldSafe watched)
    · rfl
  have htimed : timed.tb = shown.tb := keeps (by
    simp only [timed, resetView_newWindow, resetView_refSync, resetView_modClock, resetView_startPanel])
  rw [keeps (resetView_anchor _ _), keeps (resetView_log ..), htimed, hshown, hwatched, hforced, hrebuilt, hmarked, hbooked,
    hloaded]

theorem gracefulReset_tb (s : State) (kind : Nat) (hd : s.dsp.update = none) (h : s.power.powerCycles ≠ 0) :
    (gracefulReset s kind).tb = 0 := by
  unfold gracefulReset
  rw [if_neg (by simp [hd])]
  refine dieStart_tb _ 4 ?_
  obtain ⟨l, hl⟩ := log_rest s 0xD9 sevNotice 0x1A kind 0 []
  rw [hl]
  exact h

/-- Once no scan is in progress, a stop that waits for nothing else restarts the die (R669). -/
theorem finishWaits_restarts (s : State) (hs : s.power.stopping = true) (hf : s.power.failing = false) (hn : noScan s = true)
    (hw : s.host.dormantWait = none) : finishWaits s = gracefulReset s (s.host.resetWait.getD 0) := by
  simp [finishWaits, finishStop, hs, hf, hn, hw]

/-- An idle device that stops for a DEV.RESET. -/
def stoppingState : State := { State.reset with power := { State.reset.power with stopping := true } }

theorem closeUnit_stopping_tb : (closeUnit (stoppingState.at 1) 8 1 none).tb = 0 := by
  unfold closeUnit
  rw [if_neg (by decide)]
  extract_lets refs answered down
  rw [finishWaits_restarts _ rfl rfl rfl rfl]
  exact gracefulReset_tb _ 0 rfl (by decide)

/-- A unit fault that the device answers by a reset is counted at the instant the closing of the collar leaves. -/
theorem unitFaultOp_counts (s : State) (u : Nat) (h1 : ¬ (u = 1 ∨ u = 2)) (hr : resetUnit u = true)
    (hn : ¬ 2 ≤ (s.power.unitResets.filter (fun x => decide (x.1 = u ∧ s.tb < x.2 + msToTb 60000))).length) :
    ∃ before, (unitFaultOp s u).power.unitResets = before ++ [(u, (closeUnit s u 1 none).tb)] := by
  unfold unitFaultOp
  rw [if_neg h1, if_neg (by simp [hr])]
  dsimp only
  rw [if_neg hn]
  generalize closeUnit s u 1 none = b
  refine ⟨b.power.unitResets.filter (fun x => decide (b.tb < x.2 + msToTb 60000)), ?_⟩
  rw [(log_rest (modPower b _) 0xD3 sevAlarm u u 0 _).choose_spec]
  rfl

/-- Refutes O56: the collar that closes as the last thing a stop waits for restarts the die, which forgets its unit resets. -/
theorem not_unitCollars : ¬ Obligations.UnitCollars := by
  unfold Obligations.UnitCollars
  intro h
  obtain ⟨-, -, hruns, -⟩ := h stoppingState 1 writingCmd.ref writingCmd.ref 8 0 (0, 0, none, 0) writingCmd
  obtain ⟨-, -, hcloses⟩ := hruns rfl
  obtain ⟨t, ht, -, -, hlast⟩ := hcloses (by decide) (by decide)
  have hop : unitFaultOp (stoppingState.at 1) 8 = t := Host.Outcome.next.inj ht
  obtain ⟨q, hq⟩ := unitFaultOp_counts (stoppingState.at 1) 8 (by decide) (by decide) (by decide)
  rw [← hop, hq, closeUnit_stopping_tb, List.getLast?_concat] at hlast
  exact absurd hlast (by decide)

end Sys2Proof.Machine
end

section
/-!
PROOFS. What a bistable update of the display holds up: leaving HALT and DEV.RESET (R669, R678).
-/
namespace Sys2Proof.Machine

open Sys2Proof

/-- A bistable update of the display that has begun. -/
def begunUpdate : DspUpdate := ⟨[], [], 0, none, 0⟩

/-- A reset waits for a bistable update that has begun (R669 step 3). -/
theorem gracefulReset_waits (s : State) (kind : Nat) (h : s.dsp.update.isSome = true) : gracefulReset s kind = s := if_pos h

/-! ### O54: leaving HALT -/

/-- In HALT, with a DEV.RESET that waits for the restart condition and an update of the display in progress. -/
def haltedUpdating : State :=
  { State.reset with
    power := { State.reset.power with mode := .halt, haltReset := some 0, resetKind := 1 },
    dsp := { State.reset.dsp with update := some begunUpdate } }

/-- With a DEV.RESET that waits, a restart from HALT is that of DEV.RESET (R678). -/
theorem haltRestartOp_reset (s : State) (k : Nat) (hm : s.power.mode = .halt) (hc : restartCondition s = true)
    (hr : s.power.haltReset = some k) : haltRestartOp s = gracefulReset s k := by
  simp [haltRestartOp, hm, hc, hr]

/-- Refutes O54: a restart from HALT for a DEV.RESET that waits does not begin while the display's update is in progress. -/
theorem not_powerAndFaults : ¬ Obligations.PowerAndFaults := by
  unfold Obligations.PowerAndFaults
  intro h
  obtain ⟨-, -, -, -, -, hrestart⟩ := h haltedUpdating 1 0 0 0 0 0 0 0 0
  obtain ⟨hreset, -⟩ := hrestart rfl (by decide)
  obtain ⟨t, ht, hkind, -⟩ := hreset rfl
  have hop : haltRestartOp (dieAt haltedUpdating 1) = t := Host.Outcome.next.inj ht
  rw [← hop, haltRestartOp_reset _ 0 rfl (by decide) rfl, gracefulReset_waits _ _ rfl] at hkind
  exact absurd hkind (by decide)

/-! ### O55: DEV.RESET after its receipt -/

/-- Idle, with a DEV.RESET that waits for its receipt to leave and an update of the display in progress. -/
def idleUpdating : State :=
  { State.reset with
    host := { State.reset.host with resetWait := some 0 },
    dsp := { State.reset.dsp with update := some begunUpdate } }

/-- With its receipt placed, DEV.RESET restarts a device that neither scans nor stops nor changes watch at once (R669). -/
theorem actAfterReceipt_idle (s : State) (k : Nat) (hm : s.power.mode ≠ .halt)
    (hq : s.host.cmds = []) (hd : s.host.dormantWait = none) (hk : s.host.resetWait = some k) (hn : noScan s = true)
    (hs : s.sched.stopping = none) (hh : s.sched.handoverReq = none) (hf : s.power.failing = false) :
    actAfterReceipt s = gracefulReset (modPower s (fun p => { p with stopping := true })) k := by
  have hscan : noScan (modPower s (fun p => { p with stopping := true })) = true := hn
  simp [actAfterReceipt, stopIfDue, finishStop, handoverIfIdle, hm, hq, hd, hk, hs, hh, hf, hscan]

/-- Refutes O55: a DEV.RESET does not restart the idle device while the display's update is in progress. -/
theorem not_startsAndStops : ¬ Obligations.StartsAndStops := by
  unfold Obligations.StartsAndStops
  intro h
  obtain ⟨-, -, -, -, -, -, -, -, -, -, -, -, -, -, -, -, hreset, -⟩ :=
    h idleUpdating 1 writingCmd.ref 0 0 0 0 .wake (newScan idleUpdating 0 0 0)
  obtain ⟨-, -, hstarts, -⟩ := hreset (fun _ hx => absurd hx (List.not_mem_nil (a := _))) rfl rfl
  obtain ⟨t, ht, -, -, -, htb, -⟩ := hstarts (by decide) ⟨rfl, rfl, rfl, rfl, rfl⟩
  have hop : actAfterReceipt (idleUpdating.at 1) = t := Host.Outcome.next.inj ht
  rw [← hop, actAfterReceipt_idle _ 0 (by decide) rfl rfl (by decide) rfl rfl rfl rfl, gracefulReset_waits _ _ rfl] at htb
  exact absurd htb (by decide)

end Sys2Proof.Machine
end

section
/-!
PROOFS. Updates of firmware and programs, step by step (R620-R636).
-/
namespace Sys2Proof.Machine

open Sys2Proof

/-! ### Slots -/

/-- A slot that is written reads what was put into it. -/
theorem fwSlot_setFwSlot (s : State) {i : Nat} (h : i < 2) (f : FwSlot → FwSlot) :
    fwSlot (setFwSlot s i f) i = f (fwSlot s i) := (vget_vmod ..).trans (if_pos ⟨rfl, h⟩)

theorem progSlot_setProgSlot (s : State) {i : Nat} (h : i < 2) (f : ProgSlot → ProgSlot) :
    progSlot (setProgSlot s i f) i = f (progSlot s i) := (vget_vmod ..).trans (if_pos ⟨rfl, h⟩)

theorem fwSlot_of_fw {s t : State} (h : t.store.fw = s.store.fw) (i : Nat) : fwSlot t i = fwSlot s i :=
  congrArg (fun v => vget v i FwSlot.blank) h

theorem progSlot_of_prog {s t : State} (h : t.store.prog = s.store.prog) (i : Nat) : progSlot t i = progSlot s i :=
  congrArg (fun v => vget v i ProgSlot.blank) h

@[simp] theorem done_store (s : State) (c : CmdRef) (p : List Byte) : (done s c p).store = s.store := setResult_store ..

@[simp] theorem findCmd_log (s : State) (type sev src subject code : Nat) (vals : List Byte) (c : CmdRef) :
    findCmd (log s type sev src subject code vals) c = findCmd s c := by
  rw [findCmd, log_host]
  rfl

@[simp] theorem findCmd_setFwSlot (s : State) (i : Nat) (f : FwSlot → FwSlot) (c : CmdRef) :
    findCmd (setFwSlot s i f) c = findCmd s c := rfl

@[simp] theorem findCmd_setProgSlot (s : State) (i : Nat) (f : ProgSlot → ProgSlot) (c : CmdRef) :
    findCmd (setProgSlot s i f) c = findCmd s c := rfl

/-! ### UPD.BEGIN, UPD.CHUNK -/

section
variable {b : State} {c : CmdRef} {y : Cmd} (hc : findCmd b c = some y)
include hc

/-- A command whose work left the host link alone has answered. -/
theorem done_after {w : State} (hw : w.host = b.host) (p : List Byte) : answers (done w c p) c p :=
  done_answers (x := y) (by rw [findCmd, hw]; exact hc) p

theorem updBeginOp_opens (target kind len : Nat) (hash : List Byte) :
    let t := updBeginOp b c target kind len hash
    answers t c (le 1 (targetSlot b (decide (target = 0)))) ∧ t.store = { b.store with
      snapshot := none,
      update := some { firmware := decide (target = 0), delta := decide (kind = 1), length := len, hash,
                       slot := targetSlot b (decide (target = 0)), staged := [], applying := false, applied := false } } := by
  refine ⟨done_answers (x := y) ?_ _, ?_⟩
  · rw [logUpdate, findCmd_log]
    exact hc
  · rw [updBeginOp, done_store, logUpdate, log_store]
    rfl

/-! ### UPD.APPLY -/

/-- A check that fails leaves the slot EMPTY and the update open for chunks from the beginning (R626). -/
theorem applyRefused_empties {u : Update} (hu : b.store.update = some u) (hslot : u.slot < 2) (f : BitVec 8 × Nat) :
    let t := applyRefused b c u f
    refuses t c stAuth f.1 ∧ t.store.update = some { u with staged := [], applying := false } ∧
      (u.firmware = true → fwSlot t u.slot = FwSlot.blank) ∧ (u.firmware = false → progSlot t u.slot = ProgSlot.blank) := by
  intro t
  have hstore : t.store = (emptyTarget b u).store := setResult_store ..
  have hfind : findCmd (emptyTarget b u) c = some y := by
    unfold emptyTarget
    split
    · exact hc
    · exact hc
  refine ⟨⟨_, findResult_setResult hfind .., rfl, rfl, rfl⟩, ?_, fun h => ?_, fun h => ?_⟩
  · rw [hstore, emptyTarget]
    split <;> simp [setFwSlot, setProgSlot, hu]
  · rw [fwSlot_of_fw (congrArg Store.fw hstore), emptyTarget, if_pos h]
    exact fwSlot_setFwSlot b hslot _
  · rw [progSlot_of_prog (congrArg Store.prog hstore), emptyTarget, if_neg (by simp [h])]
    exact progSlot_setProgSlot b hslot _

omit hc in
/-- A build that begins writes slots alone. -/
theorem beginBuild_slots (s : State) (u : Update) :
    ∃ fw prog, beginBuild s u = { s with store := { s.store with fw := fw, prog := prog } } := by
  unfold beginBuild
  dsimp only
  split
  · split
    · exact ⟨_, _, rfl⟩
    · exact ⟨_, s.store.prog, rfl⟩
  · split
    · exact ⟨_, _, rfl⟩
    · exact ⟨s.store.fw, _, rfl⟩

/-- The last stage of an apply that passes its checks: the slot is BUILT, and firmware keeps a snapshot (R625). -/
theorem finishApply_builds {u : Update} {bs : List Byte} {k : Container} (hslot : u.slot < 2)
    (hbs : builtImage b u = some bs) (hk : parseContainer bs = some k) :
    let t := finishApply b c u
    answers t c k.hash ∧ t.store.update = b.store.update ∧
      (u.firmware = true → (fwSlot t u.slot).built = true ∧ (fwSlot t u.slot).bytes = bs ∧ t.store.snapshot = some b.pstore) ∧
      (u.firmware = false → (progSlot t u.slot).built = true ∧ (progSlot t u.slot).bytes = bs ∧
        (progSlot t u.slot).edits = [] ∧ t.prog = b.prog) := by
  intro t
  obtain ⟨fw, prog, hbuild⟩ := beginBuild_slots b u
  cases hfw : u.firmware with
  | true =>
    have ht : t = done (modStore (setFwSlot (beginBuild b u) u.slot (fun x => { x with
        builtWord := markerSet, version := k.version, epoch := k.epoch, secVer := k.secVer, bytes := bs }))
          (fun x => { x with snapshot := some (beginBuild b u).pstore })) c k.hash := by
      simp only [t, finishApply, hbs, hk, hfw, if_true]
    generalize beginBuild b u = w at hbuild ht
    subst hbuild
    have hslot' : fwSlot t u.slot = _ :=
      (fwSlot_of_fw (congrArg Store.fw ((congrArg State.store ht).trans (done_store ..))) u.slot).trans
        (fwSlot_setFwSlot _ hslot _)
    refine ⟨by rw [ht]; exact done_after hc (by rfl) _, by rw [ht, done_store]; rfl, fun _ => ⟨?_, ?_, ?_⟩, nofun⟩
    · rw [hslot']; rfl
    · rw [hslot']
    · rw [ht, done_store]
      rfl
  | false =>
    have ht : t = done (setProgSlot (beginBuild b u) u.slot (fun x => { x with
        builtWord := markerSet, image := parseProgram k, bytes := bs, edits := [] })) c k.hash := by
      simp only [t, finishApply, hbs, hk, hfw, Bool.false_eq_true, if_false]
    generalize beginBuild b u = w at hbuild ht
    subst hbuild
    have hslot' : progSlot t u.slot = _ :=
      (progSlot_of_prog (congrArg Store.prog ((congrArg State.store ht).trans (done_store ..))) u.slot).trans
        (progSlot_setProgSlot _ hslot _)
    refine ⟨by rw [ht]; exact done_after hc (by rfl) _, by rw [ht, done_store]; rfl, nofun, fun _ => ⟨?_, ?_, ?_, ?_⟩⟩
    · rw [hslot']; rfl
    · rw [hslot']
    · rw [hslot']
    · rw [ht]; exact setResult_prog ..

omit hc in
/-- A stage of UPD.APPLY by the first check that fails (R625, R626). -/
theorem applyStage_fails {u : Update} (hu : b.store.update = some u) (x : Cmd) (f : BitVec 8 × Nat)
    (hf : stagedFail b u = some f) : applyStage b c x = applyRefused b c u f := by
  simp [applyStage, hu, applyFail, hf]

omit hc in
theorem applyStage_last {u : Update} (hu : b.store.update = some u) {x : Cmd} (hf : applyFail b u true = none)
    (hlast : lastStage x = true) :
    applyStage b c x = finishApply (modUpdate b (fun u => { u with applying := true })) c u := by
  have hlen : x.stages.length ≤ 1 := of_decide_eq_true hlast
  have htail : decide (x.stages.length ≤ if u.firmware = true then 4 else 3) = true := by
    split <;> simp <;> omega
  simp only [applyStage, hu, htail, hf, hlast, if_true]

/-! ### UPD.CONFIRM, UPD.ABANDON -/

theorem updConfirmOp_confirms (h : b.store.runFw < 2) :
    let t := updConfirmOp b c
    answers t c [] ∧ (fwSlot t b.store.runFw).confirmed = true ∧ { t.store with fw := b.store.fw } = b.store := by
  intro t
  have hstore : t.store = _ := done_store ..
  refine ⟨done_after hc (by rfl) _, ?_, by rw [hstore]; rfl⟩
  rw [fwSlot_of_fw (congrArg Store.fw hstore), fwSlot_setFwSlot b h]
  rfl

theorem updAbandonOp_rejects {u : Update} (hu : b.store.update = some u) (hslot : u.slot < 2) :
    let t := updAbandonOp b c
    answers t c [] ∧ { t.store with fw := b.store.fw, prog := b.store.prog } = b.store ∧
      (u.applied = true → u.firmware = true → (fwSlot t u.slot).rejected = true) ∧
      (u.applied = true → u.firmware = false → (progSlot t u.slot).rejected = true) ∧
      (u.applied = false → t.store.fw = b.store.fw ∧ t.store.prog = b.store.prog) := by
  intro t
  have ht : t = done (if u.applied && u.firmware then setFwSlot b u.slot (fun x => { x with rejectedWord := markerSet })
      else if u.applied then setProgSlot b u.slot (fun x => { x with rejectedWord := markerSet }) else b) c [] := by
    simp only [t, updAbandonOp, hu]
  have hstore : t.store = _ := (congrArg State.store ht).trans (done_store ..)
  cases ha : u.applied with
  | false =>
    rw [ha] at ht hstore
    refine ⟨by rw [ht]; exact done_after hc (by rfl) _, by rw [hstore]; rfl, nofun, nofun, fun _ => ?_⟩
    rw [hstore]
    exact ⟨rfl, rfl⟩
  | true =>
    cases hf : u.firmware with
    | true =>
      rw [ha, hf] at ht hstore
      refine ⟨by rw [ht]; exact done_after hc (by rfl) _, by rw [hstore]; rfl, fun _ _ => ?_, nofun, nofun⟩
      rw [fwSlot_of_fw (congrArg Store.fw hstore)]
      exact congrArg FwSlot.rejected (fwSlot_setFwSlot b hslot _)
    | false =>
      rw [ha, hf] at ht hstore
      refine ⟨by rw [ht]; exact done_after hc (by rfl) _, by rw [hstore]; rfl, nofun, fun _ _ => ?_, nofun⟩
      rw [progSlot_of_prog (congrArg Store.prog hstore)]
      exact congrArg ProgSlot.rejected (progSlot_setProgSlot b hslot _)

end

/-! ### The end of an update with its receipt (R625, R628, R629, R631, R636) -/

/-- What forgets nothing of the host link when an update's step ends. -/
theorem finishUpdate_host (s : State) (op : BitVec 16) : (finishUpdate s op).host = s.host := by
  unfold finishUpdate
  dsimp only
  split
  · exact log_host ..
  · split
    · rfl
    · split
      · refine (log_host ..).trans ?_
        split <;> rfl
      · split
        · exact log_host ..
        · rfl

/-- The end of UPD.APPLY: the slot is BUILDING no longer, and a program's update closes. -/
theorem finishUpdate_apply {s : State} {u : Update} (hu : s.store.update = some u) (hslot : u.slot < 2) :
    let t := finishUpdate s 0x1003
    (u.firmware = true → (fwSlot t u.slot).building = false ∧ fwSlot t u.slot = { fwSlot s u.slot with building := false } ∧
      t.store.update = some { u with applying := false, applied := true, staged := [] }) ∧
    (u.firmware = false → progSlot t u.slot = { progSlot s u.slot with building := false } ∧ t.store.update = none) := by
  intro t
  by_cases hfw : u.firmware = true
  · have ht : t.store = (modStore (setFwSlot s u.slot (fun x => { x with building := false })) (fun x => { x with
        update := some { u with applying := false, applied := true, staged := [] } })).store := by
      simp only [t, finishUpdate, hu, hfw, if_true]
      exact log_store ..
    have hslot' : fwSlot t u.slot = { fwSlot s u.slot with building := false } :=
      (fwSlot_of_fw (congrArg Store.fw ht) u.slot).trans (fwSlot_setFwSlot s hslot _)
    exact ⟨fun _ => ⟨by rw [hslot'], hslot', by rw [ht]; rfl⟩, fun h => absurd hfw (by simp [h])⟩
  · have ht : t.store = (modStore (setProgSlot s u.slot (fun x => { x with building := false })) (fun x => { x with
        update := none })).store := by
      simp only [t, finishUpdate, hu, hfw, if_true]
      exact log_store ..
    have hslot' : progSlot t u.slot = { progSlot s u.slot with building := false } :=
      (progSlot_of_prog (congrArg Store.prog ht) u.slot).trans (progSlot_setProgSlot s hslot _)
    exact ⟨fun h => absurd h hfw, fun _ => ⟨hslot', by rw [ht]; rfl⟩⟩

theorem finishUpdate_confirm (s : State) : (finishUpdate s 0x1004).store = { s.store with
    svfuse := max s.store.svfuse (fwSlot s s.store.runFw).secVer, snapshot := none, update := none, trial := false,
    healthAt := none } := by
  rw [finishUpdate, if_pos rfl]
  exact log_store ..

theorem finishUpdate_abandon {s : State} {u : Update} (hu : s.store.update = some u) :
    (finishUpdate s 0x1005).store = { s.store with
      update := none, healthAt := none, snapshot := if s.store.trial then s.store.snapshot else none } := by
  rw [finishUpdate, if_neg (by decide)]
  simp only [hu]
  exact log_store ..

/-- The stage of a command of an update that has ended with DONE places its receipt and then ends the update's step. -/
theorem stageComplete_update {s : State} {now : Tb} {c : CmdRef} {x : Cmd} {r : CmdResult} (h : endsStage s now c x r)
    (hop : x.opcode ∈ [0x1003#16, 0x1004#16, 0x1005#16]) :
    ∃ w, exec (.commandStageComplete now c) s = .next (finishUpdate w x.opcode) ∧ endsDone (s.at now) w c r.payload ∧
      w.store = s.store := by
  obtain ⟨hx, hheld, hbook, hdue, hf, hlast, hr, hst, hreason, htime⟩ := h
  have hno : x.opcode ≠ 0x0303 ∧ x.opcode ∉ [0x0001#16, 0x0002#16, 0x0004#16] := by
    simp only [List.mem_cons, List.not_mem_nil, or_false] at hop
    obtain h | h | h := hop <;> rw [h] <;> decide
  have hplace := placeResult_done (s := s.at now) hst hreason htime hno.2
  rw [ref_of_findCmd hx] at hplace
  have hends : endsDone (s.at now) (placeResult (s.at now) x r) c r.payload := by
    rw [hplace]
    exact finishNow_endsDone (s.at now) c r.payload
  refine ⟨placeResult (s.at now) x r, congrArg Host.Outcome.next ?_, hends, ?_⟩
  · rw [stageComplete_result hx hheld hbook hdue hf hr (.inl hlast), if_neg (fun h => hno.1 h.1), if_pos hst]
  · rw [hplace]
    exact (congrArg State.store (hostRest_finishNow ..) :)

/-- The receipt of an update's command stands when the update's step has ended. -/
theorem endsDone_finishUpdate {b w : State} {c : CmdRef} {p : List Byte} (h : endsDone b w c p) (op : BitVec 16) :
    endsDone b (finishUpdate w op) c p := by
  intro x hx hdue
  obtain ⟨hp, hc, hr⟩ := h x hx hdue
  have hh := finishUpdate_host w op
  refine ⟨?_, (congrArg HostSt.cmds hh).trans hc, ?_⟩
  · rw [placed] at hp ⊢
    rw [← hp]
    exact congrArg (fun h : HostSt => (portSt { w with host := h } c.port).tx) hh
  · rw [← hr, findResult, findResult, hh]

/-! ### The health window (R631) -/

theorem healthOp_waits {s : State}
    (h : s.store.healthAt = none ∨ inTrial s = false ∨ ∃ k, s.store.healthAt = some k ∧ s.tb < k) :
    healthOp s = s := by
  unfold healthOp
  cases hk : s.store.healthAt with
  | none => rfl
  | some k =>
    rw [hk] at h
    refine if_pos ?_
    obtain h | h | ⟨j, hj, hlt⟩ := h
    · cases h
    · simp [h]
    · cases hj
      simp [hlt]

theorem healthOp_rejects {s : State} {k : Nat} (hk : s.store.healthAt = some k) (hle : k ≤ s.tb) (ht : inTrial s = true)
    (hrun : s.store.runFw < 2) :
    let t := healthOp s
    (fwSlot t s.store.runFw).rejected = true ∧ t.store.update = none ∧ t.store.healthAt = none ∧ t.power = s.power ∧
      t.prog = s.prog := by
  intro t
  have hop : t = logUpdate (modStore (setFwSlot s s.store.runFw (fun x => { x with rejectedWord := markerSet }))
      (fun x => { x with update := none, healthAt := none })) s.store.runFw 5 := by
    simp only [t, healthOp, hk, ht]
    exact if_neg (by simp [hle])
  have hstore : t.store = _ := (congrArg State.store hop).trans (log_store ..)
  refine ⟨?_, by rw [hstore]; rfl, by rw [hstore]; rfl, by rw [hop]; exact log_power .., by rw [hop]; exact log_prog ..⟩
  rw [fwSlot_of_fw (congrArg Store.fw hstore)]
  exact congrArg FwSlot.rejected (fwSlot_setFwSlot s hrun _)

end Sys2Proof.Machine
end

section
/-!
PROOFS. Stages that the crypto engine or the hold-up energy refuses, keys, the self test, the update commands (R14, R29,
R640-R643).
-/
namespace Sys2Proof.Machine

open Sys2Proof

/-! ### A stage that the crypto engine or the hold-up energy refuses (R14, R29) -/

section
variable {s : State} {now : Tb} {c : CmdRef} {i : Instr} {x : Cmd} (h : hasTurn s now c i x)
include h

/-- A command whose turn has come begins before its stage is refused (R63). -/
theorem runWork_turn (f : State → Cmd → State) :
    runWork now c i s f = .next (
      if cryptoStage x && collarClosed (s.at now) 8 then requestAborted (beginWork (s.at now) c) 8 (.command c)
      else if stageDemand x ≠ 0 ∧ ¬ energyFor (s.at now) (stageDemand x) then energyRefused (beginWork (s.at now) c) c i
      else f (workState s now c x) x) := by
  obtain ⟨hfind, hmay, hfrank, hcheck⟩ := h
  have hturn : (!mayWork (s.at now) x || x.franked && !x.frankDone) = false := by rw [hmay, frank_settled hfrank]; rfl
  have hcheck' : (if x.begun = true then none else recheck (beginWork (s.at now) c) c i) = none := by
    cases hb : x.begun with
    | true => rfl
    | false => exact hcheck hb
  unfold runWork
  simp only [hfind, hturn, hcheck', Bool.false_eq_true, if_false]
  rfl

theorem findCmd_beginWork :
    findCmd (beginWork (s.at now) c) c = some { x with phase := .started, begun := true } := by
  have href : x.ref = c := ref_of_findCmd h.1
  exact findCmd_updCmd_some (f := fun y => { y with phase := .started, begun := true }) h.1 href

end

theorem collarClosed_of_closingEntry {s : State} {e : Nat × Nat × Option CmdRef × Nat} (h : closingEntry s 8 = some e) :
    collarClosed s 8 = true := by
  have hfind : s.power.closed.find? (fun e => decide (e.1 = 8)) = some e := by simpa [closingEntry] using h
  have hany : s.power.closed.any (fun e => decide (e.1 = 8)) = true :=
    List.any_eq_true.mpr ⟨e, List.mem_of_find?_eq_some hfind,
      List.find?_some (p := fun e : Nat × Nat × Option CmdRef × Nat => decide (e.1 = 8)) hfind⟩
  rw [collarClosed, hany]
  rfl

/-- A command that a closed collar aborts ends so whatever else the abort counts in the power domain. -/
theorem fault_endsAs {b : State} {c : CmdRef} {x y : Cmd} (h : findCmd b c = some y) (hop : y.opcode = x.opcode)
    (htok : y.token = x.token) (q : Power) (reason : BitVec 8) (detail : Nat) :
    endsAs b (finishNow { b with power := q } c stFault reason detail []) c x stFault reason detail [] := by
  obtain ⟨hp, hc, hr⟩ := finishNow_endsAs (s := { b with power := q }) h (status := stFault) (fun h => absurd h (by decide))
    reason detail []
  rw [hop, htok] at hp
  exact ⟨hp, hc, hr⟩

/-- A stage that asks a closed crypto engine ends its command with REQ_ABORTED. -/
theorem cryptoAborts_of {s : State} {now : Tb} {c : CmdRef} {i : Instr} {f : State → Cmd → State}
    (he : exec i s = runWork now c i s f) : cryptoAborts s now c i := by
  intro x e h hcrypto hclosed
  have hbegun := findCmd_beginWork h
  have hcond : (cryptoStage x && collarClosed (s.at now) 8) = true := by
    rw [hcrypto, collarClosed_of_closingEntry hclosed]
    rfl
  refine ⟨_, he.trans ((runWork_turn h f).trans (congrArg Host.Outcome.next (if_pos hcond))), ?_⟩
  have hentry : closingEntry (beginWork (s.at now) c) 8 = some e := hclosed
  generalize beginWork (s.at now) c = b at hbegun hentry
  simp only [requestAborted, hentry, abortedBy]
  exact fault_endsAs hbegun rfl rfl ..

@[simp] theorem emptyTarget_host (s : State) (u : Update) : (emptyTarget s u).host = s.host := by
  unfold emptyTarget
  split <;> rfl

/-- A flash operation without the energy for it is refused, whatever the command. -/
theorem lacksEnergy_of {s : State} {now : Tb} {c : CmdRef} {i : Instr} {f : State → Cmd → State}
    (he : exec i s = runWork now c i s f) : lacksEnergy s now c i := by
  intro x h hopen hdemand hlacks
  have hbegun := findCmd_beginWork h
  have hcond : ¬ (cryptoStage x && collarClosed (s.at now) 8) = true := by
    intro hcond
    rw [Bool.and_eq_true] at hcond
    rw [hopen hcond.1] at hcond
    exact absurd hcond.2 (by decide)
  refine ⟨_, he.trans ((runWork_turn h f).trans (congrArg Host.Outcome.next
    ((if_neg hcond).trans (if_pos ⟨hdemand, by simp [hlacks]⟩)))), ?_⟩
  generalize beginWork (s.at now) c = b at hbegun
  obtain ⟨r, hr, hst, hreason, hpay⟩ : refuses (refuseState b c 0x06) c stState 0x06 :=
    ⟨_, findResult_setResult hbegun .., rfl, rfl, rfl⟩
  have hresults : (energyRefused b c i).host.results = (refuseState b c 0x06).host.results := by
    have hafter : (afterRefusal (refuseState b c 0x06) i).host.results = (refuseState b c 0x06).host.results := by
      cases i <;> rfl
    rw [← hafter]
    unfold energyRefused
    dsimp only
    split
    · rw [emptyTarget_host]
    · rfl
  refine ⟨r, ?_, hst, hreason, hpay⟩
  rw [findResult, hresults]
  exact hr

theorem lacksEnergy_last {s : State} {now : Tb} {c : CmdRef} {i : Instr} {f : State → State}
    (he : exec i s = runLast now c i s f) : lacksEnergy s now c i :=
  lacksEnergy_of (f := fun b x => if lastStage x then f b else b) he

/-! ### Keys and fuses (R587, R641-R643) -/

/-- A slot's new state and certificate go into the next copy of the key store, and the other slots stay. -/
theorem ownerSlot_setOwner (s : State) (slot j : Nat) (o : OwnerSlot) :
    ownerSlot (setOwner s slot o) j = if slot = j ∧ slot < 4 then o else ownerSlot s j := vget_vset ..

theorem ownerSlot_of_owners {s t : State} (h : t.store.owners = s.store.owners) (j : Nat) : ownerSlot t j = ownerSlot s j :=
  congrArg (fun v => vget v j (⟨0, []⟩ : OwnerSlot)) h

theorem keysDone_store (s : State) (c : CmdRef) (op slot state : Nat) : (keysDone s c op slot state).store = s.store :=
  (done_store ..).trans (log_store ..)

theorem keysDone_answers {s : State} {c : CmdRef} {y : Cmd} (h : findCmd s c = some y) (op slot state : Nat) :
    answers (keysDone s c op slot state) c (le 1 slot ++ le 1 state) := by
  refine done_answers (x := y) ?_ _
  rw [findCmd_log]
  exact h

/-- What a key operation leaves in the owner slots. -/
theorem keysDone_setOwner {s : State} {c : CmdRef} {y : Cmd} (h : findCmd s c = some y) {slot : Nat} (hslot : slot < 4)
    (o : OwnerSlot) (op state : Nat) :
    let t := keysDone (setOwner s slot o) c op slot state
    answers t c (le 1 slot ++ le 1 state) ∧ ownerSlot t slot = o ∧ ∀ j, j ≠ slot → ownerSlot t j = ownerSlot s j := by
  intro t
  have howner : ∀ j, ownerSlot t j = if slot = j ∧ slot < 4 then o else ownerSlot s j := fun j =>
    (ownerSlot_of_owners (congrArg Store.owners (keysDone_store ..)) j).trans (ownerSlot_setOwner ..)
  have hans : answers t c (le 1 slot ++ le 1 state) := keysDone_answers (s := setOwner s slot o) h ..
  refine ⟨hans, (howner slot).trans (if_pos ⟨rfl, hslot⟩), fun j hj => ?_⟩
  exact (howner j).trans (if_neg fun hj' => hj hj'.1.symm)

/-- A revoked slot keeps its certificate. -/
theorem keysDone_setOwner_revoke {s : State} {c : CmdRef} {y : Cmd} (h : findCmd s c = some y) {slot : Nat} (hslot : slot < 4) :
    let t := keysDone (setOwner s slot { ownerSlot s slot with state := 2 }) c 1 slot 2
    answers t c (le 1 slot ++ le 1 2) ∧ (ownerSlot t slot).state = 2 ∧ (ownerSlot t slot).cert = (ownerSlot s slot).cert ∧
      ∀ j, j ≠ slot → ownerSlot t j = ownerSlot s j := by
  obtain ⟨hans, hown, hother⟩ := keysDone_setOwner h hslot { ownerSlot s slot with state := 2 } 1 2
  exact ⟨hans, by rw [hown], by rw [hown], hother⟩

/-- An install by what the crypto engine and the certificate allow (R640, R643). -/
theorem secKeysOp_install {s : State} {now : Tb} {c : CmdRef} {i : Instr} {x : Cmd} (hx : ready s now c i x) {slot : Nat}
    (hslot : slot < 4) (data : List Byte) :
    let b := workState s now c x
    let t := secKeysOp b c 0 slot data
    (∀ e, closingEntry b 8 = some e → endsAs b t c x stFault 8 e.2.1 []) ∧
      (closingEntry b 8 = none → certAccepted b (data.take 368) 4 = true →
        answers t c (le 1 slot ++ le 1 1) ∧ ownerSlot t slot = ⟨1, data.take 368⟩ ∧
        ∀ j, j ≠ slot → ownerSlot t j = ownerSlot b j) ∧
      (closingEntry b 8 = none → certAccepted b (data.take 368) 4 = false →
        refuses t c stAuth 0x02 ∧ sameButResults b t) := by
  have hc := findCmd_workState hx
  have haborts := fun cause => abortedBy_endsAs hx 8 cause
  intro b
  change findCmd b c = _ at hc
  change ∀ cause, endsAs b (abortedBy b c 8 cause) c x _ _ _ _ at haborts
  clear_value b
  intro t
  have ht : t = secKeysOp b c 0 slot data := rfl
  refine ⟨fun e he => ?_, fun hopen hok => ?_, fun hopen hbad => ?_⟩
  · simp only [ht, secKeysOp, he]
    exact haborts e.2.1
  · simp only [ht, secKeysOp, hopen, hok, if_true]
    exact keysDone_setOwner hc hslot _ 0 1
  · simp only [ht, secKeysOp, hopen, hbad, Bool.false_eq_true, if_false]
    exact ⟨⟨_, findResult_setResult hc .., rfl, rfl, rfl⟩, setResult_same ..⟩

/-- A fuse is burnt once (R587): what is programmed stays. -/
theorem programFuse_keeps (s : State) (fuse value : Nat) :
    let t := (programFuse s fuse value).2
    t.host = s.host ∧ t.store.owners = s.store.owners ∧ (s.store.wdlockf = true → t.store.wdlockf = true) ∧
      (s.store.wdwinSet = true → t.store.wdwin = s.store.wdwin) := by
  unfold programFuse
  split
  · split
    · exact ⟨rfl, rfl, id, fun _ => rfl⟩
    next h => exact ⟨rfl, rfl, id, fun hset => absurd hset h⟩
  · exact ⟨rfl, rfl, fun h => by simp [modStore, h], fun _ => rfl⟩

theorem programFuse_lock (s : State) : programFuse s 1 1 = (1, modStore s (fun x => { x with wdlockf := true })) := by
  simp [programFuse, boolBit]

/-- Programming a fuse leaves the owner slots. -/
theorem secKeysOp_fuse {s : State} {c : CmdRef} {y : Cmd} (h : findCmd s c = some y) (slot : Nat) (data : List Byte) :
    let t := secKeysOp s c 2 slot data
    t.store.owners = s.store.owners ∧ (s.store.wdlockf = true → t.store.wdlockf = true) ∧
      (s.store.wdwinSet = true → t.store.wdwin = s.store.wdwin) ∧
      (field data 0 1 = 1 → field data 1 1 = 1 → t.store.wdlockf = true ∧ answers t c (le 1 0xFF ++ le 1 1)) := by
  intro t
  obtain ⟨hhost, howners, hlock, hwin⟩ := programFuse_keeps s (field data 0 1) (field data 1 1)
  have hstore : t.store = (programFuse s (field data 0 1) (field data 1 1)).2.store := keysDone_store ..
  refine ⟨hstore ▸ howners, hstore ▸ hlock, hstore ▸ hwin, fun hf hv => ⟨?_, ?_⟩⟩
  · rw [hstore, hf, hv, programFuse_lock]
    rfl
  · show answers (keysDone (programFuse s (field data 0 1) (field data 1 1)).2 c 2 0xFF _) c _
    rw [hf, hv, programFuse_lock]
    exact keysDone_answers (y := y) (s := modStore s _) h ..

/-! ### The self test (R14) -/

/-- With every unit that it tests open, TEST.SELF answers four bytes and draws one free value. -/
theorem selfTestOp_open {s : State} {c : CmdRef} {y : Cmd} (h : findCmd s c = some y) {unit : Nat}
    (hopen : ∀ j ∈ testedUnits unit, closingEntry s j = none) :
    let t := selfTestOp s c unit
    (∃ p, p.length = 4 ∧ answers t c p) ∧ { t with host := s.host, freeIdx := s.freeIdx } = s ∧
      ((∀ j ∈ testedUnits unit, (Config.selfTest s.freeIdx j).toNat % 256 = 0) → answers t c [0, 0, 0, 0]) := by
  have hnone : (testedUnits unit).find? (fun u => (closingEntry s u).isSome) = none :=
    List.find?_eq_none.mpr fun j hj => by simp [hopen j hj]
  have hframe : ∀ p, { done { s with freeIdx := s.freeIdx + 1 } c p with host := s.host, freeIdx := s.freeIdx } = s :=
    fun p => setResult_keeps (fun t => { t with host := s.host, freeIdx := s.freeIdx }) (fun _ _ => rfl) ..
  intro t
  cases hfail : (testedUnits unit).find? (fun u => (Config.selfTest s.freeIdx u).toNat % 256 ≠ 0) with
  | none =>
    have ht : t = done { s with freeIdx := s.freeIdx + 1 } c (le 4 0) := by simp only [t, selfTestOp, hnone, hfail]
    rw [ht]
    have hans : answers (done { s with freeIdx := s.freeIdx + 1 } c (le 4 0)) c (le 4 0) := done_after h (by rfl) _
    exact ⟨⟨_, rfl, hans⟩, hframe _, fun _ => hans⟩
  | some u =>
    have ht : t = done { s with freeIdx := s.freeIdx + 1 } c ([BitVec.ofNat 8 (Config.selfTest s.freeIdx u).toNat,
        BitVec.ofNat 8 u] ++ le 2 ((Config.selfTest s.freeIdx u).toNat / 256)) := by
      simp only [t, selfTestOp, hnone, hfail]
    rw [ht]
    refine ⟨⟨_, rfl, done_after h (by rfl) _⟩, hframe _, fun hall => ?_⟩
    have hbad := List.find?_some hfail
    have hpass := hall u (List.mem_of_find?_eq_some hfail)
    simp [hpass] at hbad

/-! ### UPD.CHUNK and the cases of UPD.APPLY -/

section
variable {b : State} {c : CmdRef} {y : Cmd} (hc : findCmd b c = some y)
include hc

theorem updChunk_appends {u : Update} (hu : b.store.update = some u) (data : List Byte) :
    let w := modUpdate b (fun u => { u with staged := u.staged ++ data })
    let t := done w c (le 4 ((w.store.update.map (fun u => u.staged.length)).getD 0))
    answers t c (le 4 (u.staged.length + data.length)) ∧
      t.store = { b.store with update := some { u with staged := u.staged ++ data } } ∧
      { t with host := b.host, store := b.store } = b := by
  intro w t
  have hw : w.store.update = some { u with staged := u.staged ++ data } := congrArg (Option.map _) hu
  have hlen : ((w.store.update.map (fun u => u.staged.length)).getD 0) = u.staged.length + data.length := by simp [hw]
  refine ⟨hlen ▸ done_after hc (by rfl) _, (done_store ..).trans ?_, ?_⟩
  · rw [← hw]
    rfl
  · exact (setResult_keeps (fun t => { t with host := b.host, store := b.store }) (fun _ _ => rfl) w ..)

theorem applyStage_answers {x : Cmd} {bs : List Byte} {k : Container} :
    (b.store.update = none → refuses (applyStage b c x) c stState 0x01 ∧ sameButResults b (applyStage b c x)) ∧
    ∀ u, b.store.update = some u → u.slot < 2 →
      (∀ f, stagedFail b u = some f → refuses (applyStage b c x) c stAuth f.1 ∧
        (applyStage b c x).store.update = some { u with staged := [], applying := false } ∧
        (u.firmware = true → fwSlot (applyStage b c x) u.slot = FwSlot.blank) ∧
        (u.firmware = false → progSlot (applyStage b c x) u.slot = ProgSlot.blank)) ∧
      (applyFail b u true = none → lastStage x = true → builtImage b u = some bs → parseContainer bs = some k →
        answers (applyStage b c x) c k.hash ∧ (applyStage b c x).store.update = some { u with applying := true } ∧
        (u.firmware = true → (fwSlot (applyStage b c x) u.slot).built = true ∧
          (fwSlot (applyStage b c x) u.slot).bytes = bs ∧ (applyStage b c x).store.snapshot = some b.pstore) ∧
        (u.firmware = false → (progSlot (applyStage b c x) u.slot).built = true ∧
          (progSlot (applyStage b c x) u.slot).bytes = bs ∧ (progSlot (applyStage b c x) u.slot).edits = [] ∧
          (applyStage b c x).prog = b.prog)) := by
  refine ⟨fun hu => ?_, fun u hu hslot => ⟨fun f hf => ?_, fun hf hlast hbs hk => ?_⟩⟩
  · have hstage : applyStage b c x = refuseState b c 0x01 := by simp [applyStage, hu]
    exact hstage ▸ refuseState_refuses hc 0x01
  · rw [applyStage_fails hu x f hf]
    exact applyRefused_empties hc hu hslot f
  · rw [applyStage_last hu hf hlast]
    obtain ⟨hans, hupd, hfw, hprog⟩ :=
      finishApply_builds (b := modUpdate b (fun u => { u with applying := true })) hc hslot hbs hk
    exact ⟨hans, hupd.trans (congrArg (Option.map _) hu), hfw, hprog⟩

theorem updAbandonOp_none (hu : b.store.update = none) :
    refuses (updAbandonOp b c) c stState 0x01 ∧ sameButResults b (updAbandonOp b c) := by
  have hop : updAbandonOp b c = refuseState b c 0x01 := by simp [updAbandonOp, hu]
  exact hop ▸ refuseState_refuses hc 0x01

end

/-- Settles O52: each command of an update by its work and by the end of its stage, then the keys and the self test. -/
theorem updatesAndKeys : Obligations.UpdatesAndKeys := by
  unfold Obligations.UpdatesAndKeys
  intro s now c target kind len off op slot unit hash data bs k n
  refine ⟨?_, ?_, cryptoAborts_of (Eq.refl (execUpdApply now c s)), ?_, ?_, ?_, ?_, ?_, ?_, ?_, ?_, ?_⟩
  · refine works_last (Eq.refl (execUpdBegin now c target kind len hash s)) fun x hx _ => ?_
    exact updBeginOp_opens (findCmd_workState hx) target kind len hash
  · refine works_of (Eq.refl (execUpdChunk now c off data s)) fun x hx u hu => ?_
    have hc := findCmd_workState hx
    generalize workState s now c x = b at hc hu ⊢
    exact updChunk_appends hc hu data
  · rintro i (rfl | rfl | rfl | rfl)
    · exact lacksEnergy_of (Eq.refl (execUpdApply now c s))
    · exact lacksEnergy_last (Eq.refl (execUpdConfirm now c s))
    · exact lacksEnergy_last (Eq.refl (execUpdAbandon now c s))
    · exact lacksEnergy_last (Eq.refl (execSecKeys now c op slot data s))
  · refine works_of (Eq.refl (execUpdApply now c s)) fun x hx => ?_
    exact applyStage_answers (findCmd_workState hx)
  · refine works_last (Eq.refl (execUpdConfirm now c s)) fun x hx _ hrun => ?_
    exact updConfirmOp_confirms (findCmd_workState hx) hrun
  · refine works_last (Eq.refl (execUpdAbandon now c s)) fun x hx _ => ?_
    have hc := findCmd_workState hx
    generalize workState s now c x = b at hc ⊢
    exact ⟨fun hu => updAbandonOp_none hc hu, fun u hu hslot => updAbandonOp_rejects hc hu hslot⟩
  · intro x r u h hop hu hslot hrun
    obtain ⟨w, he, hends, hstore⟩ := stageComplete_update h hop
    refine ⟨_, he, endsDone_finishUpdate hends _, fun hx => ?_, fun hx => ?_, fun hx => ?_⟩
    · rw [hx]
      have hw := finishUpdate_apply (s := w) (hstore ▸ hu) hslot
      rw [fwSlot_of_fw (congrArg Store.fw hstore), progSlot_of_prog (congrArg Store.prog hstore)] at hw
      exact hw
    · rw [hx, finishUpdate_confirm, fwSlot_of_fw (congrArg Store.fw hstore), hstore]
    · rw [hx, finishUpdate_abandon (s := w) (hstore ▸ hu), hstore]
  · intro hoff
    exact congrArg Host.Outcome.next (if_neg (by simp [hoff]))
  · intro hon
    have he : exec (.healthWindowExpiry now) s = .next (healthOp n) := congrArg Host.Outcome.next (if_pos hon)
    exact ⟨fun h => he.trans (congrArg Host.Outcome.next (healthOp_waits h)),
      fun h hk hle ht hrun => ⟨_, he, healthOp_rejects (s := n) hk hle ht hrun⟩⟩
  · refine works_last (Eq.refl (execSecKeys now c op slot data s)) fun x hx _ => ⟨?_, ?_, ?_⟩
    · rintro rfl hslot
      exact secKeysOp_install hx hslot data
    · rintro rfl hslot
      exact keysDone_setOwner_revoke (findCmd_workState hx) hslot
    · rintro rfl
      exact secKeysOp_fuse (findCmd_workState hx) slot data
  · refine works_last (Eq.refl (execTestSelf now c unit s)) fun x hx _ hopen => ?_
    exact selfTestOp_open (findCmd_workState hx) hopen

end Sys2Proof.Machine
end

section
/-!
PROOFS. Charts: the copies of a load, the selection, the preload (R280-R288).
-/
namespace Sys2Proof.Machine

open Sys2Proof

/-! ### Bytes: a field in the middle, and the length of a hash -/

/-- A part of a list of bytes, read back where it lies. -/
theorem slice_mid (p m q : List Byte) {off n : Nat} (ho : p.length = off) (hn : m.length = n) :
    slice (p ++ (m ++ q)) off n = m := by
  subst ho hn
  simp [slice]

theorem shaRound_length (v : List (BitVec 64)) (w : BitVec 64) : (shaRound v w).length = v.length := by
  unfold shaRound
  split <;> rfl

theorem shaRounds_length (l v : List (BitVec 64)) : (l.foldl shaRound v).length = v.length := by
  induction l generalizing v with
  | nil => rfl
  | cons w l ih => exact (ih _).trans (shaRound_length v w)

theorem shaBlocks_length (n : Nat) (h : List (BitVec 64)) (bs : List Byte) : (shaBlocks n h bs).length = h.length := by
  induction n generalizing h bs with
  | zero => rfl
  | succ n ih => simp only [shaBlocks, ih, shaBlock, List.length_zipWith, shaRounds_length, Nat.min_self]

/-- A SHA-512 has 64 bytes. -/
theorem sha512_length (bs : List Byte) : (sha512 bs).length = 64 := by
  have hwords : ∀ l : List (BitVec 64), (l.flatMap (fun w => be64 w.toNat)).length = 8 * l.length := fun l => by
    induction l with
    | nil => rfl
    | cons w l ih =>
      rw [List.flatMap_cons, List.length_append, ih, List.length_cons, be64, List.length_reverse, length_le]
      omega
  rw [sha512, hwords, shaBlocks_length]
  rfl

/-! ### The store header of a chart's copy (R280, R281) -/

/-- The part of a chart's store header that its CRC covers. -/
def headerBody (chart k seq : Nat) (bs : List Byte) : List Byte :=
  padTo 508 (le 2 0x5E5C ++ [BitVec.ofNat 8 chart, BitVec.ofNat 8 k] ++ le 4 seq ++ le 4 bs.length ++ sha512 bs)

theorem headerBody_length (chart k seq : Nat) (bs : List Byte) : (headerBody chart k seq bs).length = 508 :=
  length_padTo (by simp [sha512_length, length_le])

theorem chartHeader_eq (chart k seq : Nat) (bs : List Byte) : chartHeader chart k seq bs =
    headerBody chart k seq bs ++ le 4 (crc32c (headerBody chart k seq bs)).toNat := rfl

theorem field_mid (p q : List Byte) (v : Nat) {off n : Nat} (ho : p.length = off) :
    field (p ++ (le n v ++ q)) off n = v % 256 ^ n := by
  rw [field, slice_mid p _ q ho (length_le n v), unle_le]

section
variable (chart k seq : Nat) (bs data : List Byte)

/-- The header that a load writes reads back whole: its marker stands and its CRC checks. -/
theorem headerOk_chartHeader : (ChartCopy.mk (chartHeader chart k seq bs) data).headerOk = true := by
  have hlen := headerBody_length chart k seq bs
  have hmark : field (chartHeader chart k seq bs) 0 2 = 0x5E5C := by
    simp only [chartHeader, withCrc, padTo, List.append_assoc]
    exact field_mid [] _ 0x5E5C (n := 2) rfl
  have hcrc : field (chartHeader chart k seq bs) 508 4 = (crc32c (headerBody chart k seq bs)).toNat := by
    rw [chartHeader_eq, ← List.append_nil (le 4 _)]
    exact (field_mid _ [] _ hlen).trans (Nat.mod_eq_of_lt (crc32c _).isLt)
  have htake : (chartHeader chart k seq bs).take 508 = headerBody chart k seq bs := by
    rw [chartHeader_eq, ← hlen, List.take_left]
  have hsize : (chartHeader chart k seq bs).length = 512 := by rw [chartHeader_eq, List.length_append, hlen, length_le]
  simp [ChartCopy.headerOk, hmark, hcrc, htake, hsize]

/-- The header that a load writes gives its sequence, and the length and hash of the image. -/
theorem seq_chartHeader (h : seq < 2 ^ 32) : (ChartCopy.mk (chartHeader chart k seq bs) data).seq = seq := by
  show field (chartHeader chart k seq bs) 4 4 = seq
  simp only [chartHeader, withCrc, padTo, List.append_assoc]
  refine Eq.trans ?_ (Nat.mod_eq_of_lt (b := 256 ^ 4) h)
  exact field_mid (le 2 0x5E5C ++ [BitVec.ofNat 8 chart, BitVec.ofNat 8 k]) _ seq rfl

theorem length_chartHeader (h : bs.length < 2 ^ 32) : field (chartHeader chart k seq bs) 8 4 = bs.length := by
  simp only [chartHeader, withCrc, padTo, List.append_assoc]
  refine Eq.trans ?_ (Nat.mod_eq_of_lt (b := 256 ^ 4) h)
  exact field_mid (le 2 0x5E5C ++ ([BitVec.ofNat 8 chart, BitVec.ofNat 8 k] ++ le 4 seq)) _ bs.length rfl

theorem hash_chartHeader : slice (chartHeader chart k seq bs) 12 64 = sha512 bs := by
  simp only [chartHeader, withCrc, padTo, List.append_assoc]
  exact slice_mid (le 2 0x5E5C ++ ([BitVec.ofNat 8 chart, BitVec.ofNat 8 k] ++ (le 4 seq ++ le 4 bs.length))) _ _ rfl
    (sha512_length bs)

end

/-- A copy whose data the header describes is valid, whatever it held before. -/
theorem copyValid_chartHeader (chart k seq : Nat) {bs : List Byte} {img : ChartImage} (hlen : bs.length < 2 ^ 32)
    (himg : (parseContainer bs).bind parseChart = some img) : copyValid ⟨chartHeader chart k seq bs, bs⟩ = true := by
  have himage : (ChartCopy.mk (chartHeader chart k seq bs) bs).image = some img := by
    unfold ChartCopy.image
    dsimp only
    rw [headerOk_chartHeader, length_chartHeader _ _ _ _ hlen, hash_chartHeader]
    simpa using himg
  rw [copyValid, himage]
  rfl

/-- n + 1 becomes the sequence of a chart whose copy gets its store header (R281). -/
theorem chartSeq_putCopy (chart : Nat) (x : ChartSlot) {bs : List Byte} {img : ChartImage} (hlen : bs.length < 2 ^ 32)
    (himg : (parseContainer bs).bind parseChart = some img) (hseq : chartSeq x + 1 < 2 ^ 32) (k : Nat) :
    chartSeq (putCopy (chartSeq x) ⟨chartHeader chart k (chartSeq x + 1) bs, bs⟩ x) = chartSeq x + 1 := by
  have hvalid := copyValid_chartHeader chart k (chartSeq x + 1) hlen himg
  have hq := seq_chartHeader chart k (chartSeq x + 1) bs bs hseq
  have h0 : (if copyValid x.copy0 then x.copy0.seq else 0) ≤ chartSeq x := Nat.le_max_left ..
  have h1 : (if copyValid x.copy1 then x.copy1.seq else 0) ≤ chartSeq x := Nat.le_max_right ..
  unfold putCopy
  generalize chartSeq x = n at h0 h1 hvalid hq
  split
  · simp only [chartSeq, hvalid, hq, if_true]
    exact Nat.max_eq_left (Nat.le_succ_of_le h1)
  · simp only [chartSeq, hvalid, hq, if_true]
    exact Nat.max_eq_right (Nat.le_succ_of_le h0)

/-! ### Charts of a state -/

theorem chartSlot_setChart (s : State) (k j : Nat) (f : ChartSlot → ChartSlot) :
    chartSlot (setChart s k f) j = if k = j ∧ k < 8 then f (chartSlot s j) else chartSlot s j := vget_vmod ..

theorem chartSlot_of_charts {s t : State} (h : t.charts = s.charts) (j : Nat) : chartSlot t j = chartSlot s j :=
  congrArg (fun x : Charts => vget x.slots j ChartSlot.blank) h

/-- The store header of a load (R281). -/
theorem writeHeader_seq {s : State} {k : Nat} {bs : List Byte} {img : ChartImage} (hk : k < 8)
    (himg : (parseContainer bs).bind parseChart = some img) (hdata : (targetCopy (chartSlot s k)).data = bs)
    (hseq : chartSeq (chartSlot s k) + 1 < 2 ^ 32) (hlen : bs.length < 2 ^ 32) :
    chartSeq (chartSlot (writeHeader s k bs) k) = chartSeq (chartSlot s k) + 1 ∧
      (∀ j, j ≠ k → chartSlot (writeHeader s k bs) j = chartSlot s j) ∧
      { writeHeader s k bs with charts := s.charts } = s := by
  refine ⟨?_, fun j hj => (chartSlot_setChart ..).trans (if_neg fun h => hj h.1.symm), rfl⟩
  have hslot : chartSlot (writeHeader s k bs) k = putCopy (chartSeq (chartSlot s k))
      { targetCopy (chartSlot s k) with
        header := chartHeader k ((chartSeq (chartSlot s k) + 1) % 2) (chartSeq (chartSlot s k) + 1) bs } (chartSlot s k) :=
    (chartSlot_setChart ..).trans (if_pos ⟨rfl, hk⟩)
  rw [hslot]
  dsimp only
  rw [hdata]
  exact chartSeq_putCopy k _ hlen himg hseq _

/-! ### CHART.LOAD (R280-R284) -/

/-- A mirrored image changes what goes out over the twin link alone. -/
theorem mirrorImage_keeps (s : State) (kind : Nat) (bytes : List Byte) :
    { mirrorImage s kind bytes with twin := s.twin } = s := by
  unfold mirrorImage
  split
  · refine foldl_keeps (fun t => { t with twin := s.twin }) _ (fun t f => ?_) _ s
    obtain ⟨xs, n, h⟩ := twinSend_keeps t (.config kind f)
    rw [h]
  · rfl

section
variable {b : State} {c : CmdRef} {y : Cmd} (hc : findCmd b c = some y)
include hc

theorem storeSegment_stores (op : BitVec 16) (g : Segment) :
    let tr := addSegment b.host.transfer op g b.tb
    let t := storeSegment b c op g
    t.host.transfer = tr ∧ answers t c (le 4 ((tr.map (fun x => x.data.length)).getD 0)) ∧ { t with host := b.host } = b := by
  intro tr t
  have hans : answers t c (le 4 ((tr.map (fun x => x.data.length)).getD 0)) :=
    done_answers (s := modHost b (fun h => { h with transfer := tr })) hc _
  refine ⟨?_, hans, ?_⟩
  · exact (setResult_keeps (fun t => t.host.transfer) (fun _ _ => rfl) ..)
  · exact (setResult_keeps (fun t => { t with host := b.host }) (fun _ _ => rfl) ..)

/-- The last stage of CHART.LOAD without the energy for the deletes of the chart's records. -/
theorem finishLoad_lacks {k : Nat} {img : ChartImage} (hws : chartDeletes b k ≠ [])
    (he : energyFor b (eGroup (groupPages (chartDeletes b k))) = false) :
    refuses (finishLoad b c k img) c stState 0x06 ∧ (finishLoad b c k img).charts = b.charts := by
  have hload : finishLoad b c k img = refuseState b c 0x06 := by
    simp only [finishLoad, List.isEmpty_iff, hws, if_false, groupWrite_lacks he]
  rw [hload]
  exact ⟨(refuseState_refuses hc 0x06).1, setResult_charts ..⟩

/-- The last stage of CHART.LOAD: the image becomes the chart's working copy. -/
theorem finishLoad_loads {k : Nat} {img : ChartImage} (hk : k < 8)
    (h : chartDeletes b k = [] ∨ energyFor b (eGroup (groupPages (chartDeletes b k))) = true) :
    let t := finishLoad b c k img
    answers t c img.hash ∧ t.host.transfer = b.host.transfer ∧
      chartSlot t k = { chartSlot b k with state := .valid, image := some img } ∧
      (∀ j, j ≠ k → chartSlot t j = chartSlot b j) ∧ t.charts.active = b.charts.active ∧ t.params = b.params ∧
      t.image = b.image := by
  intro t
  obtain ⟨u, hu, hkeep⟩ : ∃ u, (if (chartDeletes b k).isEmpty then some b else groupWrite b (chartDeletes b k)) = some u ∧
      { u with pstore := b.pstore, store := b.store, twin := b.twin } = b := by
    by_cases hws : chartDeletes b k = []
    · exact ⟨b, by simp [hws], rfl⟩
    · obtain ⟨u, hu, -, hkeep⟩ := groupWrite_written (h.resolve_left hws)
      exact ⟨u, by simp [hws, hu], hkeep⟩
  have ht : t = done (mirrorImage (setChart u k (fun x => { x with state := .valid, image := some img })) 3 img.bytes)
      c img.hash := by
    simp only [t, finishLoad, hu]
  have hm := mirrorImage_keeps (setChart u k (fun x => { x with state := .valid, image := some img })) 3 img.bytes
  generalize mirrorImage _ 3 img.bytes = m at hm ht
  have hhost : m.host = b.host := (congrArg State.host hm :).trans (congrArg State.host hkeep :)
  have hcharts : t.charts = _ := (congrArg State.charts ht).trans ((setResult_charts ..).trans (congrArg State.charts hm :))
  have hslots : ∀ j, chartSlot t j = if k = j ∧ k < 8 then { chartSlot b j with state := .valid, image := some img }
      else chartSlot b j := fun j => by
    rw [chartSlot_of_charts hcharts, chartSlot_setChart, chartSlot_of_charts (t := u) (congrArg State.charts hkeep :)]
  refine ⟨by rw [ht]; exact done_after hc hhost _, ?_, (hslots k).trans (if_pos ⟨rfl, hk⟩),
    fun j hj => (hslots j).trans (if_neg fun h => hj h.1.symm), ?_, ?_, ?_⟩
  · rw [ht]
    exact (setResult_keeps (fun t => t.host.transfer) (fun _ _ => rfl) ..).trans (congrArg HostSt.transfer hhost)
  · rw [hcharts]
    exact (congrArg (fun t => t.charts.active) hkeep :)
  · rw [ht]
    exact (setResult_params ..).trans ((congrArg State.params hm :).trans (congrArg State.params hkeep :))
  · rw [ht]
    exact (setResult_image ..).trans ((congrArg State.image hm :).trans (congrArg State.image hkeep :))

/-! ### CHART.SELECT (R287) -/

/-- The request that a CHART.SELECT makes. -/
def selectReq (k : Nat) (c : CmdRef) : ChgReq :=
  { chart := k, kind := .select, ref := some c, madeBy := 0, isSealed := true, preloaded := false }

/-- A selection that meets no request and no committed change. -/
theorem requestSelect_pending {k : Nat} (hcom : b.charts.committed = none) (hreq : b.charts.req = none)
    (hk : k ≠ b.charts.active) :
    let t := requestSelect (waitFor b c) k c
    waits t c ∧ t.charts = { b.charts with reqField := k, req := some (selectReq k c) } ∧
      { t with host := b.host, charts := b.charts } = b := by
  intro t
  have ht : t = setReq (waitFor b c) (selectReq k c) := by
    have hcom' : (waitFor b c).charts.committed = none := hcom
    have hreq' : (waitFor b c).charts.req = none := hreq
    have hk' : k ≠ (waitFor b c).charts.active := hk
    simp only [t, requestSelect, hcom', hreq', Option.isSome_none, Bool.false_eq_true, hk', if_false, selectReq]
  have hw : waits t c := ht ▸ waits_waitFor hc
  exact ⟨hw, by rw [ht]; rfl, by rw [ht]; rfl⟩

omit hc in
/-- A selection of the active chart ends at once. -/
theorem requestSelect_active {k : Nat} (hcom : b.charts.committed = none) (hreq : b.charts.req = none)
    (hk : k = b.charts.active) :
    endsDone b (requestSelect (waitFor b c) k c) c (le 8 0) ∧ hostOnly b (requestSelect (waitFor b c) k c) := by
  have ht : requestSelect (waitFor b c) k c = doneNow (waitFor b c) c (le 8 0) := by
    have hcom' : (waitFor b c).charts.committed = none := hcom
    have hreq' : (waitFor b c).charts.req = none := hreq
    have hk' : k = (waitFor b c).charts.active := hk
    simp only [requestSelect, hcom', cancelReq, hreq', Option.isSome_none, Bool.false_eq_true, if_pos hk', if_false]
  rw [ht]
  exact ⟨endsDone_of_waitFor (finishNow_endsDone (waitFor b c) c (le 8 0)), (hostOnly_iff ..).mpr (hostRest_finishNow ..)⟩

/-- A selection while a change is committed is put off until the swap. -/
theorem requestSelect_deferred {k : Nat} (hcom : b.charts.committed ≠ none) :
    let t := requestSelect (waitFor b c) k c
    waits t c ∧ t.charts.req = b.charts.req ∧ t.charts.committed = b.charts.committed ∧
      t.charts.deferred = b.charts.deferred ++ [selectReq k c] := by
  intro t
  have hcom' : (waitFor b c).charts.committed.isSome = true := Option.isSome_iff_ne_none.mpr hcom
  have ht : t = _ := if_pos hcom'
  have hw : waits t c := ht ▸ waits_waitFor hc
  exact ⟨hw, by rw [ht]; rfl, by rw [ht]; rfl, by rw [ht]; rfl⟩

end

/-! ### The preload (R287, R288) -/

/-- While a running program has a task enabled, the device makes no seal point by itself (R292). -/
theorem idleChanges_running {s : State} (hrun : s.pstate = .running) (he : enabledTasks s ≠ []) : idleChanges s = s := by
  have hidle : (decide (s.pstate = .stopped) || (decide (s.pstate = .running) && (enabledTasks s).isEmpty)) = false := by
    simp [hrun, he]
  have hc : changeIfIdle s = s := by
    unfold changeIfIdle
    simp only [hidle, Bool.false_and, Bool.false_eq_true, if_false]
    split <;> rfl
  rw [idleChanges, hc]
  unfold editIfIdle
  simp only [hidle, Bool.false_and, Bool.false_eq_true, if_false]
  split <;> rfl

/-- A request for a chart found unusable goes, and its CHART.SELECT ends. -/
theorem cancelReq_only {s : State} {r : ChgReq} (hr : s.charts.req = some r) (hp : chartValuesPending s = false) :
    ∃ u, cancelReq s = u ∧ hostRest u = hostRest { s with charts := { s.charts with req := none } } := by
  have hdone : hostRest (doneNow? (modCharts s (fun c => { c with req := none })) r.ref (le 8 0)) =
      hostRest { s with charts := { s.charts with req := none } } := by
    cases r.ref with
    | none => rfl
    | some d => exact hostRest_finishNow ..
  refine ⟨_, rfl, ?_⟩
  simp only [cancelReq, hr]
  generalize doneNow? _ r.ref (le 8 0) = u at hdone
  have hpu : chartValuesPending u = false := by
    have hparams : u.params = s.params := (congrArg State.params hdone :)
    rw [chartValuesPending, hparams]
    exact hp
  rw [hpu]
  exact hdone

end Sys2Proof.Machine
end

section
/-!
PROOFS. RETAIN.CLEAR and the chart commands (R280-R288, R310, R343, R361).
-/
namespace Sys2Proof.Machine

open Sys2Proof

/-! ### RETAIN.CLEAR, bit 0: data and image (R361) -/

/-- Whether the ring takes a record is a matter of the segments that its head would enter (R336). -/
theorem ringAppend_ok_iff (s : State) (r : RingRec) : (∃ t, ringAppend s r = .ok t) ↔
    (advanceHead s.ring.head (recSize r)).2.find?
      (fun x => ((liveLines (dspBase s) s.ring.recs).map (·.1)).contains x) = none := by
  unfold ringAppend
  dsimp only
  cases hf : (advanceHead s.ring.head (recSize r)).2.find?
    (fun x => ((liveLines (dspBase s) s.ring.recs).map (·.1)).contains x) with
  | some x => exact ⟨fun ⟨_, h⟩ => (nomatch h), nofun⟩
  | none => exact ⟨fun _ => rfl, fun _ => ⟨_, rfl⟩⟩

theorem ringAppend_broken {s u : State} {r : RingRec} (h : ringAppend s r = .ok u) : u.ring.broken = s.ring.broken := by
  unfold ringAppend at h
  dsimp only at h
  split at h
  · exact nomatch h
  · obtain ⟨xs, n, hsent⟩ := sendManifest_keeps _ _
    rw [← Except.ok.inj h, hsent]
    rfl

theorem findCmd_finishNow_ne (s : State) {c d : CmdRef} (h : d ≠ c) (status reason : BitVec 8) (detail : Nat)
    (payload : List Byte) : findCmd (finishNow s c status reason detail payload) d = findCmd s d := by
  unfold finishNow
  split
  · rfl
  · split
    · rfl
    · rw [findCmd_removeCmd_ne _ h, findCmd_place]
      split
      · rfl
      · rfl

/-- The commands of a list end, and no other. -/
theorem findCmd_foldl_finishNow {c : CmdRef} (status reason : BitVec 8) (refs : List CmdRef) (h : c ∉ refs) (s : State) :
    findCmd (refs.foldl (fun s d => finishNow s d status reason 0 []) s) c = findCmd s c := by
  induction refs generalizing s with
  | nil => rfl
  | cons d refs ih =>
    rw [List.mem_cons, not_or] at h
    exact (ih h.2 _).trans (findCmd_finishNow_ne s h.1 ..)

/-- The end of a change of watch, and of a resynchronisation, ends no command but those that wait on it. -/
theorem findCmd_setPair {s : State} {c : CmdRef} (hc : c ∉ s.twin.changeRefs) (p : PairState) :
    findCmd (setPair s p) c = findCmd s c ∧ (setPair s p).twin.resyncRef = s.twin.resyncRef := by
  have hend : findCmd (endChange s) c = findCmd s c := findCmd_foldl_finishNow _ _ _ hc _
  have href : (endChange s).twin.resyncRef = s.twin.resyncRef :=
    foldl_keeps (fun t => t.twin.resyncRef) _ (fun t d => congrArg Twin.resyncRef (twin_finishNow t d ..)) _ _
  unfold setPair
  dsimp only
  split
  · exact ⟨rfl, rfl⟩
  · rw [findCmd_log, twin_log]
    split
    · exact ⟨hend, href⟩
    · exact ⟨rfl, rfl⟩

theorem findCmd_endResync {s : State} {c : CmdRef} (hr : s.twin.resyncRef ≠ some c) : findCmd (endResync s) c = findCmd s c := by
  unfold endResync
  dsimp only
  split
  next d hd =>
    have hne : c ≠ d := fun h => hr (h ▸ hd)
    exact findCmd_finishNow_ne _ hne ..
  · rfl

/-- A Watch that is dropped ends no command but those that wait on the pair. -/
theorem findCmd_dropWatch {s : State} {c : CmdRef} (hr : s.twin.resyncRef ≠ some c) (hc : c ∉ s.twin.changeRefs) (reason : Nat) :
    findCmd (dropWatch s reason) c = findCmd s c := by
  obtain ⟨hpair, href⟩ := findCmd_setPair hc .outOfStep
  have hends : findCmd (endResync (setPair s .outOfStep)) c = findCmd s c :=
    (findCmd_endResync (href ▸ hr)).trans hpair
  unfold dropWatch
  dsimp only
  split
  · generalize endResync (setPair s .outOfStep) = u at hends
    split
    · obtain ⟨xs, n, hs⟩ := twinSend_keeps u (.drop reason)
      rw [findCmd_log, hs]
      exact hends
    · exact hends
  · rfl

/-- With no force in the table and room in the ring, bit 0 leaves the initial data, no shadow and no break; the Watch of a Helm
in step is dropped (R343, R361, R386). -/
theorem clearRing_clears {b : State} {c : CmdRef} (hforces : b.forces = []) (hr : b.twin.resyncRef ≠ some c)
    (hc : c ∉ b.twin.changeRefs) (hring : ringTakes b 0) :
    let t := clearRing b
    (b.twin.role = .helm → b.twin.pair = .inStep → t.twin.pair = .outOfStep) ∧ findCmd t c = findCmd b c ∧
      t.image = (b.prog.map baseImage).getD [] ∧ t.held = [] ∧ t.ring.broken = false ∧ t.pstore = b.pstore ∧
      t.prog = b.prog := by
  intro t
  have hfind := findCmd_dropWatch hr hc 2
  have hrest := dropWatch_rest b 2
  have hdrop : b.twin.role = .helm → b.twin.pair = .inStep → (dropWatch b 2).twin.pair = .outOfStep := fun h1 h2 =>
    (dropWatch_drops 2 ⟨h1, .inl h2⟩).2
  have ht : t = clearRing b := rfl
  unfold clearRing at ht
  dsimp only at ht
  generalize dropWatch b 2 = w at hfind hrest hdrop ht
  have hprog : w.prog = b.prog := (congrArg State.prog hrest :)
  have hwforces : w.forces = [] := (congrArg State.forces hrest :).trans hforces
  have hwring : w.ring = b.ring := (congrArg State.ring hrest :)
  have hpstore : w.pstore = b.pstore := (congrArg State.pstore hrest :)
  generalize hbase : (w.prog.map baseImage).getD [] = base at ht
  generalize hv : modRing { w with image := base, sealedImg := base, emitted := base, held := [], sysPhase := 0 }
    (fun g => { g with broken := false }) = v at ht
  have hvring : v.ring = { b.ring with broken := false } := by
    rw [← hv, ← hwring]
    rfl
  have hdsp : dspBase v = dspBase b := by
    rw [dspBase, dspBase, ← hv, ← hprog]
    rfl
  obtain ⟨u, hu⟩ : ∃ u, ringAppend v (recHeader v .state .clear []) = .ok u := by
    rw [ringAppend_ok_iff, hvring, hdsp]
    exact (ringAppend_ok_iff ..).mp (hring (recHeader v .state .clear []) (Nat.le_refl 0))
  have hbroken := ringAppend_broken hu
  obtain ⟨g, xs, n, hkeep⟩ := ringAppend_keeps hu
  have htu : t = applyForces u := by
    rw [ht, stateRecord, hu]
  have huf : u.forces = [] := by
    rw [hkeep, ← hv]
    exact hwforces
  have htu' : t = u := by
    rw [htu, applyForces, huf]
    rfl
  rw [htu']
  refine ⟨fun h1 h2 => ?_, ?_, ?_, ?_, ?_, ?_, ?_⟩
  · rw [hkeep, ← hv]
    exact hdrop h1 h2
  · rw [hkeep, ← hv]
    exact hfind
  · rw [hkeep, ← hv, ← hprog, hbase]
    rfl
  · rw [hkeep, ← hv]
    rfl
  · rw [hbroken, hvring]
  · rw [hkeep, ← hv]
    exact hpstore
  · rw [hkeep, ← hv]
    exact hprog

/-! ### RETAIN.CLEAR, bits 1 and 2: the parameter store and the forces (R310, R361) -/

/-- The host link, the parameter store, the ring and the twin link, which no force touches. -/
def storeView (s : State) : HostSt × PStore × Ring × Twin := (s.host, s.pstore, s.ring, s.twin)

theorem storeView_log (s : State) (type sev src subject code : Nat) (vals : List Byte) :
    storeView (log s type sev src subject code vals) = storeView s := by
  obtain ⟨lg, hlg⟩ := log_rest s type sev src subject code vals
  rw [hlg]
  rfl

theorem forces_log (s : State) (type sev src subject code : Nat) (vals : List Byte) :
    (log s type sev src subject code vals).forces = s.forces := by
  obtain ⟨lg, hlg⟩ := log_rest s type sev src subject code vals
  rw [hlg]

theorem dropForces_storeView (s : State) (owner : Nat) : storeView (dropForces s owner) = storeView s :=
  foldl_keeps storeView _ (fun t k => (storeView_log (releaseForce t k) ..).trans rfl) _ _

/-- Every entry that is released leaves the table. -/
theorem dropForces_forces (s : State) (owner : Nat) : (dropForces s owner).forces = [] := by
  have hfold : ∀ (ks : List Nat) (t : State),
      (ks.foldl (fun s k => logForceRelease (releaseForce s k) owner k) t).forces = t.forces.filter (fun f => f.addr ∉ ks) := by
    intro ks
    induction ks with
    | nil => exact fun t => by simp
    | cons k ks ih =>
      intro t
      rw [List.foldl_cons, ih, logForceRelease, forces_log]
      show (t.forces.filter (fun f => f.addr ≠ k)).filter _ = _
      rw [List.filter_filter]
      refine List.filter_congr fun f _ => ?_
      by_cases hk : f.addr = k <;> simp [hk]
  rw [dropForces, hfold, List.filter_eq_nil_iff]
  intro f hf
  simp only [decide_eq_true_eq, not_not]
  exact List.mem_map_of_mem hf

/-- The force table, the parameter store, the base of the ring and the Helm's mark. -/
def markView (s : State) : List Force × PStore × Option (Nat × Nat) × Option (Nat × Nat × List Byte) :=
  (s.forces, s.pstore, s.ring.base, s.twin.mark)

theorem markView_log (s : State) (type sev src subject code : Nat) (vals : List Byte) :
    markView (log s type sev src subject code vals) = markView s := by
  obtain ⟨lg, hlg⟩ := log_rest s type sev src subject code vals
  rw [hlg]
  rfl

theorem markView_wdApply (s : State) : markView (wdApply s) = markView s := by
  have hlock : ∀ b, markView (wdSetLock s b) = markView s := fun b => by
    unfold wdSetLock
    split <;> rfl
  have henable : ∀ u : State, markView (wdEnable u) = markView u := fun u => by
    unfold wdEnable
    split <;> rfl
  unfold wdApply
  dsimp only
  split
  · rw [henable, hlock]
  split
  · exact hlock _
  split
  · exact hlock _
  · exact hlock _

theorem markView_takeValue (s : State) (pid : Nat) (v : Option Nat) : markView (takeValue s pid v) = markView s := by
  unfold takeValue
  dsimp only
  split
  · rfl
  · split
    · exact markView_wdApply _
    · rfl

theorem markView_takeValues (s : State) (k : Applies) : markView (takeValues s k) = markView s :=
  foldl_keeps markView (fun t (w : Applies × Nat × Option Nat) => takeValue t w.2.1 w.2.2)
    (fun t w => markView_takeValue t w.2.1 w.2.2) _ _

theorem markView_committedNow (s : State) : markView (committedNow s) = markView s := by
  have hseal : ∀ u : State, markView (commitSeal u) = markView u := fun u => by
    unfold commitSeal
    split
    · rfl
    · exact markView_takeValues u _
  have hrefresh : ∀ u : State, markView (requestRefresh u) = markView u := fun u => by
    unfold requestRefresh
    split
    · rfl
    · split
      · split <;> rfl
      · rfl
  have hboth : markView (commitSeal (takeValues s .now)) = markView s := (hseal _).trans (markView_takeValues s _)
  unfold committedNow
  dsimp only
  split
  · exact (hrefresh _).trans hboth
  · exact hboth

/-- Bit 1 leaves no record, no mark and no force. -/
theorem clearStore_clears (s : State) (owner : Nat) : markView (clearStore s owner) =
    ([], { PStore.reset with nextGroup := s.pstore.nextGroup }, none, none) := by
  unfold clearStore
  extract_lets keys es _ erased unmarked cleared
  refine (markView_committedNow _).trans ?_
  show markView (dropForces (loadTrims cleared) owner) = _
  have hview := dropForces_storeView (loadTrims cleared) owner
  have htrims : storeView (loadTrims cleared) = storeView cleared := foldl_keeps storeView loadTrim (fun _ _ => rfl) _ _
  have hforces := dropForces_forces (loadTrims cleared) owner
  have hall := hview.trans htrims
  generalize dropForces (loadTrims cleared) owner = u at hall hforces
  rw [markView, hforces, show u.pstore = cleared.pstore from congrArg (fun v => v.2.1) hall,
    show u.ring = cleared.ring from congrArg (fun v => v.2.2.1) hall,
    show u.twin = cleared.twin from congrArg (fun v => v.2.2.2) hall]
  rfl

/-! ### RETAIN.CLEAR by its parts -/

section
variable {b : State} {c : CmdRef} {x : Cmd} (hlen : x.stages.length = 1)
include hlen

theorem retainStage_ring :
    retainStage b c 1 x = done (log (clearRing b) 0x44 sevNotice 0x19 0 1 (le 1 (frankSlotOf b c))) c [] := by
  simp [retainStage, hlen, boolBit]

theorem retainStage_store : retainStage b c 2 x =
    done (log (clearStore b (frankSlotOf b c)) 0x44 sevNotice 0x19 0 2 (le 1 (frankSlotOf b c))) c [] := by
  simp [retainStage, hlen, boolBit]

theorem retainStage_forces : retainStage b c 4 x =
    match (if b.forces.isEmpty then some b else groupWrite b (b.forces.map (fun f => forceDelete (forceAddr f.addr)))) with
    | none => refuseState b c 0x06
    | some s => done (log (dropForces s (frankSlotOf b c)) 0x44 sevNotice 0x19 0 4 (le 1 (frankSlotOf b c))) c [] := by
  simp [retainStage, hlen, boolBit] <;> rfl

omit hlen in
/-- A record and an answer change the logbook and the outcomes alone. -/
theorem done_log_keeps {α : Type} (p : State → α) (hl : ∀ s l, p { s with log := l } = p s)
    (hr : ∀ s rs, p { s with host := { s.host with results := rs } } = p s) (v : State) (type sev src subject code : Nat)
    (vals : List Byte) (c : CmdRef) (payload : List Byte) :
    p (done (log v type sev src subject code vals) c payload) = p v := by
  obtain ⟨lg, hlg⟩ := log_rest v type sev src subject code vals
  exact (setResult_keeps p hr ..).trans ((congrArg p hlg).trans (hl ..))

theorem retainStage_ring_clears {y : Cmd} (hc : findCmd b c = some y) (hforces : b.forces = [])
    (hr : b.twin.resyncRef ≠ some c) (hcr : c ∉ b.twin.changeRefs) (hring : ringTakes b 0) :
    let t := retainStage b c 1 x
    (b.twin.role = .helm → b.twin.pair = .inStep → t.twin.pair = .outOfStep) ∧ answers t c [] ∧
      t.image = (b.prog.map baseImage).getD [] ∧ t.held = [] ∧ t.ring.broken = false ∧ t.pstore = b.pstore ∧
      t.prog = b.prog := by
  intro t
  obtain ⟨hpair, hfind, himage, hheld, hbroken, hpstore, hprog⟩ := clearRing_clears hforces hr hcr hring
  have ht : t = _ := retainStage_ring (b := b) (c := c) hlen
  generalize clearRing b = v at hpair hfind himage hheld hbroken hpstore hprog ht
  rw [ht]
  have hans := done_answers (c := c) (s := log v 0x44 sevNotice 0x19 0 1 (le 1 (frankSlotOf b c)))
    ((findCmd_log ..).trans (hfind.trans hc)) []
  exact ⟨fun h1 h2 => (done_log_keeps (fun t => t.twin.pair) (fun _ _ => rfl) (fun _ _ => rfl) ..).trans (hpair h1 h2), hans,
    (done_log_keeps State.image (fun _ _ => rfl) (fun _ _ => rfl) ..).trans himage,
    (done_log_keeps State.held (fun _ _ => rfl) (fun _ _ => rfl) ..).trans hheld,
    (done_log_keeps (fun t => t.ring.broken) (fun _ _ => rfl) (fun _ _ => rfl) ..).trans hbroken,
    (done_log_keeps State.pstore (fun _ _ => rfl) (fun _ _ => rfl) ..).trans hpstore,
    (done_log_keeps State.prog (fun _ _ => rfl) (fun _ _ => rfl) ..).trans hprog⟩

theorem retainStage_store_clears : (retainStage b c 2 x).forces = [] ∧ (retainStage b c 2 x).ring.base = none ∧
    (retainStage b c 2 x).twin.mark = none ∧
    (retainStage b c 2 x).pstore = { PStore.reset with nextGroup := (retainStage b c 2 x).pstore.nextGroup } := by
  have hview : markView (retainStage b c 2 x) = ([], { PStore.reset with nextGroup := b.pstore.nextGroup }, none, none) := by
    rw [retainStage_store hlen]
    exact (setResult_keeps markView (fun _ _ => rfl) ..).trans ((markView_log ..).trans (clearStore_clears b _))
  generalize retainStage b c 2 x = t at hview
  have hp : t.pstore = { PStore.reset with nextGroup := b.pstore.nextGroup } := congrArg (fun v => v.2.1) hview
  refine ⟨congrArg (fun v => v.1) hview, congrArg (fun v => v.2.2.1) hview, congrArg (fun v => v.2.2.2) hview, ?_⟩
  rw [hp]

theorem retainStage_forces_clears {y : Cmd} (hc : findCmd b c = some y) :
    let ws := b.forces.map (fun f => forceDelete (forceAddr f.addr))
    (ws ≠ [] → energyFor b (eGroup (groupPages ws)) = false →
      refuses (retainStage b c 4 x) c stState 0x06 ∧ sameButResults b (retainStage b c 4 x)) ∧
    (ws = [] ∨ energyFor b (eGroup (groupPages ws)) = true →
      answers (retainStage b c 4 x) c [] ∧ (retainStage b c 4 x).forces = []) := by
  intro ws
  have hempty : b.forces.isEmpty = true ↔ ws = [] := by rw [List.isEmpty_iff, List.map_eq_nil_iff]
  refine ⟨fun hws he => ?_, fun h => ?_⟩
  · have hstage : retainStage b c 4 x = refuseState b c 0x06 := by
      rw [retainStage_forces hlen, if_neg (fun h => hws (hempty.mp h)), groupWrite_lacks he]
    exact hstage ▸ refuseState_refuses hc 0x06
  · obtain ⟨u, hu, hkeep⟩ : ∃ u, (if b.forces.isEmpty then some b else groupWrite b ws) = some u ∧
        { u with pstore := b.pstore, store := b.store, twin := b.twin } = b := by
      by_cases hws : ws = []
      · exact ⟨b, if_pos (hempty.mpr hws), rfl⟩
      · obtain ⟨u, hu, -, hkeep⟩ := groupWrite_written (h.resolve_left hws)
        exact ⟨u, (if_neg (fun h => hws (hempty.mp h))).trans hu, hkeep⟩
    have hhost : (dropForces u (frankSlotOf b c)).host = b.host :=
      (congrArg Prod.fst (dropForces_storeView u _)).trans (congrArg State.host hkeep :)
    have hforces := dropForces_forces u (frankSlotOf b c)
    have hstage := retainStage_forces (b := b) (c := c) hlen
    rw [hu] at hstage
    rw [hstage]
    dsimp only
    generalize dropForces u (frankSlotOf b c) = v at hhost hforces
    refine ⟨done_after hc ((log_host ..).trans hhost) _, ?_⟩
    exact (setResult_forces ..).trans ((forces_log ..).trans hforces)

end

/-! ### CHART.LOAD by its stages -/

theorem chartLoadStage_last {b : State} {c : CmdRef} {x y : Cmd} {g : Segment} (hc : findCmd b c = some y) (hk : g.target < 8)
    (hlast : lastStage x = true) :
    let t := chartLoadStage b c g x
    let parsed := (parseContainer (wholeImage b.host.transfer g)).bind parseChart
    let ws := chartDeletes b g.target
    (parsed = none → refuses t c stState 0x01 ∧ sameButResults b t) ∧
    ∀ img, parsed = some img →
      (ws ≠ [] → energyFor b (eGroup (groupPages ws)) = false → refuses t c stState 0x06 ∧ t.charts = b.charts) ∧
      (ws = [] ∨ energyFor b (eGroup (groupPages ws)) = true →
        answers t c img.hash ∧ t.host.transfer = none ∧
        chartSlot t g.target = { chartSlot b g.target with state := .valid, image := some img } ∧
        (∀ j, j ≠ g.target → chartSlot t j = chartSlot b j) ∧ t.charts.active = b.charts.active ∧
        t.params = b.params ∧ t.image = b.image) := by
  intro t parsed ws
  refine ⟨fun hnone => ?_, fun img himg => ?_⟩
  · have ht : t = refuseState b c 0x01 := by
      have hnone' : (parseContainer (wholeImage b.host.transfer g)).bind parseChart = none := hnone
      simp only [t, chartLoadStage, hnone']
    exact ht ▸ refuseState_refuses hc 0x01
  · have ht : t = finishLoad (modHost b (fun h => { h with transfer := none })) c g.target img := by
      have himg' : (parseContainer (wholeImage b.host.transfer g)).bind parseChart = some img := himg
      simp only [t, chartLoadStage, himg', hlast, if_true]
    rw [ht]
    exact ⟨fun hws he => finishLoad_lacks (b := modHost b (fun h => { h with transfer := none })) hc hws he,
      fun h => finishLoad_loads (b := modHost b (fun h => { h with transfer := none })) hc hk h⟩

/-- The stage before the last writes the store header (R284). -/
theorem chartLoadStage_header {b : State} {c : CmdRef} {x : Cmd} {g : Segment} {img : ChartImage} (hlen : x.stages.length = 2)
    (himg : (parseContainer (wholeImage b.host.transfer g)).bind parseChart = some img) :
    chartLoadStage b c g x = writeHeader b g.target (wholeImage b.host.transfer g) := by
  have hlast : lastStage x = false := by simp [lastStage, hlen]
  have hn : 1 ≤ Nat.max 1 (cdiv g.total 65536) := Nat.le_max_left ..
  unfold chartLoadStage
  dsimp only
  rw [himg, hlast, hlen]
  generalize Nat.max 1 (cdiv g.total 65536) = n at hn
  dsimp only
  rw [if_neg (by decide), if_neg (by omega), if_neg (by omega), if_neg (by omega), if_neg (by omega), if_pos rfl]

/-- Settles O36: by the stages of CHART.LOAD, the meetings of CHART.SELECT, the preload, and the parts of RETAIN.CLEAR. -/
theorem chartCommands : Obligations.ChartCommands := by
  unfold Obligations.ChartCommands
  intro s now c k g r sel
  refine ⟨fun hmore => ?_, fun hmore hk => ?_, fun hmore hk => ?_, ?_, ?_, ?_, ?_, ?_⟩
  · refine works_of (f := fun b _ => storeSegment b c 0x0601 g) (by simp [exec, execChartLoad, hmore]) fun x hx => ?_
    exact storeSegment_stores (findCmd_workState hx) 0x0601 g
  · refine works_of (f := fun b x => chartLoadStage b c g x) (by simp [exec, execChartLoad, hmore]) fun x hx hlast => ?_
    have hc := findCmd_workState hx
    generalize workState s now c x = b at hc ⊢
    exact chartLoadStage_last hc hk hlast
  · refine works_of (f := fun b x => chartLoadStage b c g x) (by simp [exec, execChartLoad, hmore]) fun x hx hlen => ?_
    generalize workState s now c x = b
    intro bs q img himg hdata hq hbs
    rw [chartLoadStage_header hlen himg]
    exact writeHeader_seq hk himg hdata hq hbs
  · refine works_of (Eq.refl (execChartSelect now c k s)) fun x hx => ?_
    have hc := findCmd_workState hx
    generalize workState s now c x = b at hc ⊢
    exact ⟨fun h1 h2 h3 => requestSelect_pending hc h1 h2 h3, fun h1 h2 h3 => requestSelect_active h1 h2 h3,
      fun h => requestSelect_deferred hc h⟩
  · intro n
    refine ⟨fun hr => ?_, fun hr hu hrun he => ?_, fun hr hu hp => ?_⟩
    · have hr' : (s.at now).charts.req = none := hr
      simp only [exec, execChartPreloadComplete, hr']
      rfl
    · have hr' : n.charts.req = some r := hr
      have hu' : chartUsable n r.chart = true := hu
      have he' : exec (.chartPreloadComplete now) s =
          .next (idleChanges (modCharts n (fun c => { c with req := some { r with preloaded := true } }))) := by
        simp only [exec, execChartPreloadComplete, n] at hr' hu' ⊢
        simp only [hr', hu', if_true]
      exact he'.trans (congrArg Host.Outcome.next (idleChanges_running hrun he))
    · have hr' : n.charts.req = some r := hr
      have hu' : chartUsable n r.chart = false := hu
      obtain ⟨u, hcancel, hrest⟩ := cancelReq_only hr' hp
      have he' : exec (.chartPreloadComplete now) s = .next (logDiscard u r.chart 3) := by
        rw [← hcancel]
        simp only [exec, execChartPreloadComplete, n] at hr' hu' ⊢
        simp only [hr', hu', Bool.false_eq_true, if_false]
      obtain ⟨lg, hlg⟩ := log_rest u 0x31 sevWarning 0x1F r.chart 3 []
      refine ⟨_, he', ?_, (hostOnly_iff ..).mpr ?_⟩
      · rw [logDiscard, hlg]
        exact (congrArg State.charts hrest :)
      · rw [logDiscard, hlg]
        exact (congrArg (fun t : State => { t with charts := s.charts, log := s.log }) hrest :)
  · refine works_of (Eq.refl (execRetainClear now c 1 s)) fun x hx hlen hforces hr hcr hring => ?_
    have hc := findCmd_workState hx
    exact retainStage_ring_clears hlen hc hforces hr hcr hring
  · exact works_of (Eq.refl (execRetainClear now c 2 s)) fun x hx hlen => retainStage_store_clears hlen
  · exact works_of (Eq.refl (execRetainClear now c 4 s)) fun x hx hlen => retainStage_forces_clears hlen (findCmd_workState hx)

end Sys2Proof.Machine
end

section
/-!
PROOFS. PROG.LOAD: what the settings of a chart, a seal fault and the end of a load leave (R178, R290, R336, R362).
-/
namespace Sys2Proof.Machine

open Sys2Proof

/-! ### What a load leaves standing while a chart's settings come into effect (R290) -/

/-- The program and its tables, the charts, the pair state, and the data items: what no setting of a chart touches. -/
def loadedView (s : State) : (Option Program × ProgState × SMap Word × List Force × SMap Word) ×
    (Vector ProgSlot 2 × Charts × Vector TaskRt 16 × PairState) × (Nat → Tagged) :=
  ((s.prog, s.pstate, s.code, s.forces, s.held), (s.store.prog, s.charts, s.tasks, s.twin.pair),
    fun a => if a < 0x200000 then smGet itemDefault s.image (wKey a) else ⟨0, 0⟩)

theorem loadedView_hostRest {s t : State} (h : hostRest t = hostRest s) : loadedView t = loadedView s :=
  (congrArg loadedView h :)

theorem loadedView_log (s : State) (type sev src subject code : Nat) (vals : List Byte) :
    loadedView (log s type sev src subject code vals) = loadedView s := by
  obtain ⟨lg, hlg⟩ := log_rest s type sev src subject code vals
  rw [hlg]
  rfl

theorem loadedView_modLine (s : State) (l : Line) (f : BusLine → BusLine) : loadedView (modLine s l f) = loadedView s := by
  cases l <;> rfl

/-- An item outside data SRAM leaves the data. -/
theorem loadedView_setItem (s : State) {k : Nat} (hk : ∀ a, a < 0x200000 → wKey a ≠ k) (t : Tagged) :
    loadedView (setItem s k t) = loadedView s := by
  have hfrozen : loadedView (keepFrozen s k) = loadedView s := by
    unfold keepFrozen
    split <;> rfl
  rw [← hfrozen]
  refine Prod.ext rfl (Prod.ext rfl (funext fun a => ?_))
  show (if a < 0x200000 then smGet itemDefault (smSet itemDefault (keepFrozen s k).image k _) (wKey a) else _) = _
  by_cases ha : a < 0x200000
  · rw [smGet_smSet_ne _ _ _ (hk a ha)]
    rfl
  · rw [if_neg ha]
    exact (if_neg ha).symm

/-- A pass over a list whose steps all leave a view leaves it. -/
theorem foldl_keeps_on {α β : Type} (view : State → β) (f : State → α → State) (l : List α)
    (h : ∀ s, ∀ a ∈ l, view (f s a) = view s) (s : State) : view (l.foldl f s) = view s := by
  induction l generalizing s with
  | nil => rfl
  | cons a l ih =>
    exact (ih (fun s b hb => h s b (List.mem_cons_of_mem a hb)) _).trans (h s a List.mem_cons_self)

/-- The input items of a station lie outside data SRAM (R190, R192). -/
theorem stInKeys_outside {l : Line} {n k : Nat} (hn : n < 64) (h : k ∈ stInKeys l n) (a : Nat) (ha : a < 0x200000) :
    wKey a ≠ k := by
  have hl : lineNo l ≤ 1 := by cases l <;> decide
  rw [stInKeys, List.mem_append, List.mem_map, List.mem_map] at h
  obtain ⟨i, hi, rfl⟩ | ⟨j, -, rfl⟩ := h
  · rw [List.mem_range] at hi
    rw [wKey, stInPoint]
    omega
  · rw [stInWord, wKey, wKey]
    omega

theorem loadedView_inKeys {l : Line} {n : Nat} (hn : n < 64) (g : State → Nat → Tagged) (s : State) :
    loadedView ((stInKeys l n).foldl (fun s k => setItem s k (g s k)) s) = loadedView s :=
  foldl_keeps_on loadedView _ _ (fun t _ hk => loadedView_setItem t (stInKeys_outside hn hk) _) s

theorem loadedView_busSwap (old : Nat → Nat) (s : State) (l : Line) : loadedView (busSwap old s l) = loadedView s := by
  have hstations : ∀ t : State, loadedView (stationNumbers.foldl (fun s n =>
      if old (stPid l n 0) ≠ 0 ∧ stP s l n 0 = 0 then removeStation s l n
      else if old (stPid l n 0) = 0 ∧ stP s l n 0 ≠ 0 then addStation s l n else s) t) = loadedView t := by
    refine foldl_keeps_on loadedView _ _ fun t n hn => ?_
    have hn : n < 64 := by
      obtain ⟨m, hm, rfl⟩ := List.mem_map.mp hn
      have := List.mem_range.mp hm
      omega
    split
    · rw [removeStation, loadedView_modLine, modStation, loadedView_modLine]
      exact loadedView_inKeys hn _ t
    · split
      · rw [addStation, modStation, loadedView_modLine]
        exact loadedView_inKeys hn _ t
      · rfl
  have hdrop : ∀ t : State, loadedView (dropFrames t l 5) = loadedView t := fun t => by
    refine (foldl_keeps loadedView _ (fun u d => loadedView_hostRest (hostRest_finishNow ..)) _ _).trans ?_
    exact (loadedView_modLine t l _)
  unfold busSwap
  dsimp only
  split
  · split
    · rw [loadedView_log, loadedView_modLine, hdrop, hstations]
    · rw [loadedView_modLine, hdrop, hstations]
  · split
    · rw [loadedView_log, loadedView_modLine, hstations]
    · exact hstations s

theorem loadedView_swapDisplay (was s : State) : loadedView (swapDisplay was s) = loadedView s := by
  unfold swapDisplay
  split
  · rfl
  · split
    · rfl
    · split <;> rfl

theorem loadedView_anaSwap (old : Nat → Nat) (s : State) (c : Nat) : loadedView (anaSwap old s c) = loadedView s := by
  unfold anaSwap
  dsimp only
  split
  · rfl
  · split <;> rfl

theorem loadedView_holdSealValues (before s : State) : loadedView (holdSealValues before s) = loadedView s := by
  unfold holdSealValues
  split
  · rfl
  · exact foldl_keeps loadedView (fun s pid => setPar s pid (par before pid)) (fun _ _ => rfl) _ _

theorem loadedView_swapGangs (old : Nat → Nat) (s : State) : loadedView (swapGangs old s) = loadedView s := by
  refine foldl_keeps loadedView _ (fun t n => ?_) _ _
  split <;> rfl

theorem loadedView_loadSafeVals (s : State) : loadedView (loadSafeVals s) = loadedView s := by
  simp only [loadedView, loadSafeVals, modField]

theorem loadedView_swapInputs (old : Nat → Nat) (s : State) : loadedView (swapInputs old s) = loadedView s := by
  simp only [loadedView, swapInputs, modField]

/-- With no force in the table, the settings of a chart leave the program, its tables and its data (R290). -/
theorem loadedView_swapSettings {s : State} (hforces : s.forces = []) (c : Nat) :
    loadedView (swapSettings s c) = loadedView { s with charts := { s.charts with active := c } } := by
  unfold swapSettings
  extract_lets before old was loaded _ held outs islands lines
  have hheld : loadedView held = loadedView { s with charts := { s.charts with active := c } } :=
    loadedView_holdSealValues ..
  clear_value held
  have houts : loadedView outs = loadedView held := 
    (loadedView_swapGangs ..).trans ((loadedView_swapInputs old _).trans (loadedView_loadSafeVals held))
  clear_value outs
  have hislands : loadedView islands = loadedView outs := foldl_keeps loadedView _ (loadedView_anaSwap old) _ _
  clear_value islands
  have hlines : loadedView lines = loadedView islands := (loadedView_busSwap ..).trans (loadedView_busSwap ..)
  clear_value lines
  have hall := hlines.trans (hislands.trans (houts.trans hheld))
  have hnone : lines.forces = [] := (congrArg (fun v => v.1.2.2.2.1) hall).trans hforces
  rw [loadedView_swapDisplay, hnone]
  exact hall

/-! ### What a seal fault leaves of a load (R336, R674) -/

theorem loadedView_wdSyncMode (s : State) : loadedView (wdSyncMode s) = loadedView s := by
  obtain ⟨w, hw⟩ := wdSyncMode_keeps s
  rw [hw]
  rfl

theorem loadedView_syncMode (s : State) : loadedView (syncMode s) = loadedView s := by
  unfold syncMode
  dsimp only
  rw [loadedView_wdSyncMode]
  split
  · split <;> rfl
  · split <;> rfl
  · rfl

theorem loadedView_twinSend (s : State) (f : TwinFrame) : loadedView (twinSend s f) = loadedView s := by
  obtain ⟨xs, n, h⟩ := twinSend_keeps s f
  rw [h]
  rfl

theorem loadedView_sendHandover (s : State) (cause : Nat) : loadedView (sendHandover s cause) = loadedView s := by
  unfold sendHandover
  split
  · exact loadedView_twinSend s _
  · rfl

/-- No request for a chart stands, neither pending nor committed nor put off. -/
def noRequest (s : State) : Prop := s.charts.req = none ∧ s.charts.committed = none ∧ s.charts.deferred = []

theorem loadedView_clearWaits {s : State} (h : noRequest s) : loadedView (clearWaits s) = loadedView s := by
  obtain ⟨hreq, hcom, hdef⟩ := h
  have hcharts : (clearWaits s).charts = s.charts := by
    simp only [clearWaits]
    generalize s.charts = charts at hreq hcom hdef
    cases charts
    subst hreq hcom hdef
    rfl
  rw [loadedView, hcharts]
  rfl

theorem charts_of_loadedView {s t : State} (h : loadedView t = loadedView s) : t.charts = s.charts :=
  congrArg (fun v => v.2.1.2.1) h

theorem noRequest_of_charts {s t : State} (h : t.charts = s.charts) (hs : noRequest s) : noRequest t := by
  rw [noRequest, h]
  exact hs

/-- A fault leaves the program and its data where they are (R675). -/
theorem loadedView_raiseFault {s : State} (h : noRequest s) (code detail : Nat) :
    loadedView (raiseFault s code detail) = loadedView s := by
  have hdiscard : loadedView (discardCommands (stopEngine s) (BitVec.ofNat 8 code) detail) = loadedView s :=
    foldl_keeps loadedView (fun t (x : Cmd) => finishNow t x.ref stFault (BitVec.ofNat 8 code) detail [])
      (fun t x => loadedView_hostRest (hostRest_finishNow ..)) _ (stopEngine s)
  unfold raiseFault enterHalt
  extract_lets halted known stopped cleared logged halts handed silent safe
  have hcleared : loadedView cleared = loadedView s :=
    (loadedView_clearWaits (noRequest_of_charts (charts_of_loadedView hdiscard) h)).trans hdiscard
  clear_value cleared
  have hlogged : loadedView logged = loadedView s := by
    unfold logged
    split
    · exact hcleared
    · exact (loadedView_log ..).trans hcleared
  clear_value logged
  split
  · exact hlogged
  · exact (loadedView_wdSyncMode _).trans ((loadedView_sendHandover ..).trans hlogged)

theorem loadedView_stateRecord {s : State} (h : noRequest s) (sub : StateKind) (lines : List (Nat × RingLine)) :
    loadedView (stateRecord s sub lines) = loadedView s := by
  unfold stateRecord
  split
  next u hu =>
    obtain ⟨g, xs, n, hkeep⟩ := ringAppend_keeps hu
    rw [hkeep]
    rfl
  · exact loadedView_raiseFault h ..

/-! ### PROG.LOAD (R178, R362) -/

/-- The state of a load before the settings of its chart take effect. -/
def loadedBase (s : State) (slot : Nat) (img : ProgImage) : State :=
  let base := baseImage (mkProgram slot img [])
  let s := setProgSlot s slot (fun x => { x with edits := [] })
  { s with
    prog := some (mkProgram slot img []), pstate := .stopped, code := buildCode img [], image := base, sealedImg := base,
    emitted := base, held := [], sysPhase := 0, tasks := Vector.replicate 16 TaskRt.reset }

/-- What a load leaves, once forces and requests are gone. -/
theorem loadedView_loadProgram {s : State} (hforces : s.forces = []) (slot : Nat) (img : ProgImage) :
    loadedView (loadProgram s slot img) =
      loadedView { loadedBase s slot img with charts := { s.charts with active := par s 0x0401 } } := by
  unfold loadProgram
  dsimp only
  rw [loadedView_swapSettings]
  · rfl
  · exact hforces

theorem mirrorGroup_pair (s : State) (ws : List PWrite) : (mirrorGroup s ws).params = s.params ∧
    (mirrorGroup s ws).twin.role = s.twin.role ∧ (mirrorGroup s ws).twin.pair = s.twin.pair := by
  unfold mirrorGroup
  split <;> exact ⟨rfl, rfl, rfl⟩

/-- Emptying the force table keeps the parameters and the pair. -/
theorem emptyForces_some {b : State} (owner : Nat)
    (h : b.forces.map (fun f => forceDelete (forceAddr f.addr)) = [] ∨
      energyFor b (eGroup (groupPages (b.forces.map (fun f => forceDelete (forceAddr f.addr))))) = true) :
    ∃ u, emptyForces b owner = some u ∧ u.forces = [] ∧ u.params = b.params ∧ u.twin.role = b.twin.role ∧
      u.twin.pair = b.twin.pair := by
  have hempty : ((b.forces.map (fun f => f.addr)).isEmpty = true) ↔
      b.forces.map (fun f => forceDelete (forceAddr f.addr)) = [] := by
    rw [List.isEmpty_iff, List.map_eq_nil_iff, List.map_eq_nil_iff]
  have hws : (b.forces.map (fun f => f.addr)).map (fun k => forceDelete (forceAddr k)) =
      b.forces.map (fun f => forceDelete (forceAddr f.addr)) := List.map_map
  obtain ⟨w, hw, hkeep⟩ : ∃ w, (if (b.forces.map (fun f => f.addr)).isEmpty then some b else
      groupWrite b ((b.forces.map (fun f => f.addr)).map (fun k => forceDelete (forceAddr k)))) = some w ∧
      w.params = b.params ∧ w.twin.role = b.twin.role ∧ w.twin.pair = b.twin.pair := by
    rw [hws]
    by_cases hnil : b.forces.map (fun f => forceDelete (forceAddr f.addr)) = []
    · exact ⟨b, if_pos (hempty.mpr hnil), rfl, rfl, rfl⟩
    · exact ⟨_, (if_neg (fun h => hnil (hempty.mp h))).trans (if_pos (h.resolve_left hnil)), mirrorGroup_pair ..⟩
  have he : emptyForces b owner = some ((b.forces.map (fun f => f.addr)).foldl (fun s k => logForceRelease s owner k)
      { w with forces := [] }) := by
    unfold emptyForces
    dsimp only
    rw [hw]
  refine ⟨_, he, ?_⟩
  have hlog : ∀ t k, (fun t : State => (t.forces, t.params, t.twin)) (logForceRelease t owner k) =
      (t.forces, t.params, t.twin) := fun t k => by
    obtain ⟨lg, hlg⟩ := log_rest t 0x35 sevNotice 0x1F (forceAddr k % 65536) owner (le 4 (forceAddr k))
    simp only [logForceRelease, hlg]
  have hfold := foldl_keeps (fun t : State => (t.forces, t.params, t.twin)) (fun s k => logForceRelease s owner k) hlog
    (b.forces.map (fun f => f.addr)) { w with forces := [] }
  obtain ⟨hp, hr, hpair⟩ := hkeep
  generalize List.foldl _ _ _ = u at hfold
  obtain ⟨hf, hpar, htwin⟩ : u.forces = [] ∧ u.params = w.params ∧ u.twin = w.twin := by
    simpa only [Prod.mk.injEq] using hfold
  exact ⟨hf, hpar.trans hp, htwin ▸ hr, htwin ▸ hpair⟩

theorem emptyForces_lacks {b : State} (owner : Nat) (hws : b.forces.map (fun f => forceDelete (forceAddr f.addr)) ≠ [])
    (h : energyFor b (eGroup (groupPages (b.forces.map (fun f => forceDelete (forceAddr f.addr))))) = false) :
    emptyForces b owner = none := by
  have hne : ¬ (b.forces.map (fun f => f.addr)).isEmpty = true := by
    rw [List.isEmpty_iff, List.map_eq_nil_iff]
    exact fun h => hws (by rw [h]; rfl)
  have hws' : (b.forces.map (fun f => f.addr)).map (fun k => forceDelete (forceAddr k)) =
      b.forces.map (fun f => forceDelete (forceAddr f.addr)) := List.map_map
  simp only [emptyForces, hne, Bool.false_eq_true, if_false, hws', groupWrite_lacks h]

/-- Dropping the requests for a chart leaves none, and no more than the host link changes besides. -/
theorem dropRequests_none (s : State) : noRequest (dropRequests s) ∧
    hostRest (dropRequests s) = hostRest { s with charts := { s.charts with
      req := none, reqField := 0, committed := none, deferred := [] } } := by
  have h : hostRest (dropRequests s) = hostRest { s with charts := { s.charts with
      req := none, reqField := 0, committed := none, deferred := [] } } :=
    foldl_keeps hostRest _ (fun t r => hostRest_finishNow t r stDone 0 0 (le 8 0)) _ _
  have hc : (dropRequests s).charts = _ := (congrArg State.charts h :)
  exact ⟨by rw [noRequest, hc]; exact ⟨rfl, rfl, rfl⟩, h⟩

/-- A loaded program, once the record of its load is on its way (R178). -/
theorem loaded_of_requests {w : State} (hforces : w.forces = []) (slot : Nat) (img : ProgImage) (c : CmdRef)
    (payload : List Byte) :
    loadedView (done (syncMode (stateRecord (loadProgram (dropRequests w) slot img) .load [])) c payload) =
      loadedView { loadedBase (dropRequests w) slot img with
        charts := { (dropRequests w).charts with active := par (dropRequests w) 0x0401 } } := by
  obtain ⟨hnone, hrest⟩ := dropRequests_none w
  generalize dropRequests w = x at hnone hrest
  have hx : x.forces = [] := (congrArg State.forces hrest :).trans hforces
  have hload := loadedView_loadProgram hx slot img
  have hload' : noRequest (loadProgram x slot img) := by
    rw [noRequest, charts_of_loadedView hload]
    exact hnone
  refine (setResult_keeps loadedView (fun _ _ => rfl) ..).trans ?_
  exact (loadedView_syncMode _).trans ((loadedView_stateRecord hload' ..).trans hload)

/-- PROG.LOAD of an image that matches its hash, with the energy to empty the force table. -/
theorem progLoadOp_loads {b : State} (c : CmdRef) {slot : Nat} {img : ProgImage} (himg : (progSlot b slot).image = some img)
    (hhash : imageHash (progSlot b slot).bytes = img.hash)
    (h : b.forces.map (fun f => forceDelete (forceAddr f.addr)) = [] ∨
      energyFor b (eGroup (groupPages (b.forces.map (fun f => forceDelete (forceAddr f.addr))))) = true) :
    let t := progLoadOp b c slot
    t.prog = some (mkProgram slot img []) ∧ t.pstate = .stopped ∧ t.code = buildCode img [] ∧ t.forces = [] ∧ t.held = [] ∧
      (progSlot t slot).edits = [] ∧ t.charts.active = par b 0x0401 ∧ t.charts.req = none ∧
      (b.twin.role = .helm → b.twin.pair = .inStep → t.twin.pair = .outOfStep) ∧
      (∀ a, a < 0x200000 → getItem t (wKey a) = smGet itemDefault (baseImage (mkProgram slot img [])) (wKey a)) ∧
      ∀ k, taskRt t k = TaskRt.reset := by
  intro t
  obtain ⟨u, hu, hforces, hparams, hrole, hpair⟩ := emptyForces_some (frankSlotOf b c) h
  generalize hv : (match u.sched.editPending with
    | some (ref, _, _) => finishNow u ref stState 0x01 0 []
    | none => u) = v
  have hvrest : hostRest v = hostRest u := by
    rw [← hv]
    split
    · exact hostRest_finishNow ..
    · rfl
  have ht : t = done (syncMode (stateRecord (loadProgram (dropRequests (dropWatch v 2)) slot img) .load [])) c (img.hash ++
      [BitVec.ofNat 8 (taskCount (stateRecord (loadProgram (dropRequests (dropWatch v 2)) slot img) .load []))]) := by
    simp only [t, progLoadOp, himg, hhash, hu, ne_eq, not_true, if_false]
    rw [← hv] <;> rfl
  have hvf : v.forces = [] := (congrArg State.forces hvrest :).trans hforces
  have hwrest := dropWatch_rest v 2
  have hpairs : b.twin.role = .helm → b.twin.pair = .inStep → (dropWatch v 2).twin.pair = .outOfStep := fun h1 h2 =>
    (dropWatch_drops (s := v) 2 ⟨(congrArg (fun t => t.twin.role) hvrest :).trans (hrole.trans h1),
      .inl ((congrArg (fun t => t.twin.pair) hvrest :).trans (hpair.trans h2))⟩).2
  generalize dropWatch v 2 = w at hwrest hpairs ht
  have hwf : w.forces = [] := (congrArg State.forces hwrest :).trans hvf
  have hwp : w.params = b.params :=
    (congrArg State.params hwrest :).trans ((congrArg State.params hvrest :).trans hparams)
  have hview := loaded_of_requests hwf slot img c
    (img.hash ++ [BitVec.ofNat 8 (taskCount (stateRecord (loadProgram (dropRequests w) slot img) .load []))])
  obtain ⟨hnone, hxrest⟩ := dropRequests_none w
  rw [← ht] at hview
  clear_value t
  clear ht
  generalize dropRequests w = x at hnone hxrest hview
  have hxp : par x 0x0401 = par b 0x0401 :=
    congrArg (fun p : Params => smGet paramDefault p.eff 0x0401) ((congrArg State.params hxrest :).trans hwp)
  have hxf : x.forces = [] := (congrArg State.forces hxrest :).trans hwf
  have hxt : x.twin.pair = w.twin.pair := (congrArg (fun t => t.twin.pair) hxrest :)
  have hslot : slot < 2 := by
    by_contra hno
    rw [progSlot, vget, dif_neg hno] at himg
    exact nomatch himg
  refine ⟨congrArg (fun v => v.1.1) hview, congrArg (fun v => v.1.2.1) hview, congrArg (fun v => v.1.2.2.1) hview,
    (congrArg (fun v => v.1.2.2.2.1) hview).trans hxf, congrArg (fun v => v.1.2.2.2.2) hview, ?_,
    (congrArg (fun v => v.2.1.2.1.active) hview).trans hxp, (congrArg (fun v => v.2.1.2.1.req) hview).trans hnone.1,
    fun h1 h2 => (congrArg (fun v => v.2.1.2.2.2) hview).trans (hxt.trans (hpairs h1 h2)), fun a ha => ?_, fun k => ?_⟩
  · have hp : t.store.prog = vmod x.store.prog slot (fun y => { y with edits := [] }) := congrArg (fun v => v.2.1.1) hview
    rw [progSlot, hp, vget_vmod, if_pos ⟨rfl, hslot⟩]
  · have hdata := congrFun (congrArg (fun v => v.2.2) hview) a
    have hno : sysInPoint (wKey a) = false := by
      rw [sysInPoint, wKey, decide_eq_false_iff_not]
      omega
    simp only [loadedView, ha, if_true] at hdata
    simp only [getItem, hno, Bool.false_eq_true, if_false]
    exact hdata
  · have htasks : t.tasks = Vector.replicate 16 TaskRt.reset := congrArg (fun v => v.2.1.2.2.1) hview
    rw [taskRt, htasks, vget]
    split
    · exact Vector.getElem_replicate ..
    · rfl

end Sys2Proof.Machine
end

section
/-!
PROOFS. PROG.EDIT, PROG.RUN, PROG.STOP and the program commands (R178-R182, R300-R305, R320, R362).
-/
namespace Sys2Proof.Machine

open Sys2Proof

/-! ### PROG.EDIT (R300-R305) -/

section
variable {b : State} {c : CmdRef} {y : Cmd} (hc : findCmd b c = some y)
include hc

theorem beginEdit_refuses {g : Segment} (h : (parseContainer (wholeImage b.host.transfer g)).bind parseEdit = none) :
    let t := beginEdit b c g
    refuses t c stState 0x01 ∧ t.host.transfer = none ∧ { t with host := b.host } = b := by
  intro t
  have ht : t = refuseState (modHost b (fun h => { h with transfer := none })) c 0x01 := by
    simp only [t, beginEdit, h]
  rw [ht]
  refine ⟨(refuseState_refuses (s := modHost b (fun h => { h with transfer := none })) hc 0x01).1, ?_, ?_⟩
  · exact (setResult_keeps (fun t => t.host.transfer) (fun _ _ => rfl) ..)
  · exact (setResult_keeps (fun t => { t with host := b.host }) (fun _ _ => rfl) ..)

/-- An edit of a running program waits for its seal point with the code patched. -/
theorem beginEdit_waits {g : Segment} {e : EditImage} {p : Program}
    (he : (parseContainer (wholeImage b.host.transfer g)).bind parseEdit = some e) (hp : b.prog = some p)
    (hrun : b.pstate = .running) (hen : enabledTasks b ≠ []) :
    let t := beginEdit b c g
    waits t c ∧ t.code = putWords b.code e.patchBase e.patch ∧ t.prog = b.prog ∧ t.image = b.image ∧
      t.sched.editPending = some (c, e, e.inits.isEmpty) ∧ t.host.transfer = none := by
  intro t
  have hm := mirrorImage_keeps
    { modHost b (fun h => { h with transfer := none }) with code := putWords b.code e.patchBase e.patch } 2 e.bytes
  have ht : t = idleChanges (waitFor (if e.inits.isEmpty then pendEdit (modSched (mirrorImage
      { modHost b (fun h => { h with transfer := none }) with code := putWords b.code e.patchBase e.patch } 2 e.bytes)
        (fun x => { x with editPending := some (c, e, e.inits.isEmpty) })) p.slot e
      else queueSlot (modSched (mirrorImage
      { modHost b (fun h => { h with transfer := none }) with code := putWords b.code e.patchBase e.patch } 2 e.bytes)
        (fun x => { x with editPending := some (c, e, e.inits.isEmpty) })) (.editInit c e.inits)) c) := by
    have hp' : (modHost b (fun h => { h with transfer := none })).prog = some p := hp
    simp only [t, beginEdit, he, hp']
    rfl
  generalize mirrorImage _ 2 e.bytes = m at hm ht
  generalize hu : (if e.inits.isEmpty then pendEdit (modSched m (fun x => { x with
    editPending := some (c, e, e.inits.isEmpty) })) p.slot e
    else queueSlot (modSched m (fun x => { x with editPending := some (c, e, e.inits.isEmpty) })) (.editInit c e.inits)) = u
    at ht
  have hum : { u with sched := m.sched, store := m.store } = m ∧ u.sched.editPending = some (c, e, e.inits.isEmpty) := by
    rw [← hu]
    split
    · exact ⟨rfl, rfl⟩
    · unfold queueSlot
      split <;> exact ⟨rfl, rfl⟩
  obtain ⟨hum, hpending⟩ := hum
  have hkeep : { u with sched := b.sched, store := b.store, twin := b.twin } =
      { modHost b (fun h => { h with transfer := none }) with code := putWords b.code e.patchBase e.patch } :=
    (congrArg (fun t : State => { t with sched := b.sched, store := b.store, twin := b.twin }) hum :).trans
      (congrArg (fun t : State => { t with sched := b.sched, store := b.store }) hm :)
  clear hm hum hu
  have hrun' : (waitFor u c).pstate = .running := (congrArg State.pstate hkeep :).trans hrun
  have hen' : enabledTasks (waitFor u c) ≠ [] := by
    have heq : enabledTasks (waitFor u c) = enabledTasks b := (congrArg enabledTasks hkeep :)
    rw [heq]
    exact hen
  have htu : t = waitFor u c := ht.trans (idleChanges_running hrun' hen')
  have hfind : findCmd u c = some y := (congrArg (fun t => findCmd t c) hkeep :).trans hc
  rw [htu]
  exact ⟨waits_waitFor hfind, (congrArg State.code hkeep :), (congrArg State.prog hkeep :), (congrArg State.image hkeep :),
    hpending, (congrArg (fun t => t.host.transfer) hkeep :)⟩

/-! ### PROG.RUN (R182, R320) -/

omit hc in
/-- A record goes to the ring where its lines have room, whatever else of the state is newer. -/
theorem stateRecord_appends {s w : State} {lines : List (Nat × RingLine)} (hring : ringTakes s lines.length)
    (hw : w.ring = s.ring) (hp : w.prog = s.prog) (sub : StateKind) :
    ∃ g xs n, stateRecord w sub lines = { w with ring := g, twin := { w.twin with sent := xs, lastSent := n } } := by
  have hdsp : dspBase w = dspBase s := by rw [dspBase, dspBase, hp]
  obtain ⟨u, hu⟩ : ∃ u, ringAppend w (recHeader w .state sub lines) = .ok u := by
    rw [ringAppend_ok_iff, hw, hdsp]
    exact (ringAppend_ok_iff ..).mp (hring (recHeader w .state sub lines) (Nat.le_refl _))
  obtain ⟨g, xs, n, hkeep⟩ := ringAppend_keeps hu
  exact ⟨g, xs, n, by rw [stateRecord, hu]; exact hkeep⟩

omit hc in
/-- The mode of the device and of the watchdog follows the program's state, and nothing else does. -/
theorem syncMode_keeps (s : State) : ∃ w m, syncMode s = { s with wd := w, power := { s.power with mode := m } } := by
  unfold syncMode
  dsimp only
  split
  · split
    · obtain ⟨w, hw⟩ := wdSyncMode_keeps s
      exact ⟨w, _, hw⟩
    · obtain ⟨w, hw⟩ := wdSyncMode_keeps (modPower s (fun p => { p with mode := .idle }))
      exact ⟨w, _, hw⟩
  · split
    · obtain ⟨w, hw⟩ := wdSyncMode_keeps (modPower s (fun p => { p with mode := .run }))
      exact ⟨w, _, hw⟩
    · obtain ⟨w, hw⟩ := wdSyncMode_keeps s
      exact ⟨w, _, hw⟩
  · obtain ⟨w, hw⟩ := wdSyncMode_keeps s
    exact ⟨w, _, hw⟩

omit hc in
theorem clearHeld_keeps (s : State) : ∃ img, clearHeld s = { s with held := [], image := img } ∧
    (dspBase s = none → img = s.image) := by
  unfold clearHeld
  cases hd : dspBase s with
  | none =>
    have hd' : dspBase { s with held := [] } = none := hd
    exact ⟨s.image, by simp only [hd'], fun _ => rfl⟩
  | some d =>
    have hd' : dspBase { s with held := [] } = some d := hd
    exact ⟨_, by simp only [hd']; rfl, nofun⟩

/-- A program that runs from now: every task shows its first scan, and the next round begins at once. -/
theorem progRunOp_runs (hen : enabledTasks b ≠ []) (hring : ringTakes b (clearedLines b).length) :
    let t := progRunOp b c
    waits t c ∧ t.pstate = .running ∧ (∀ k, k < 16 → (taskRt t k).firstScan = true ∧ (taskRt t k).skipNext = false) ∧
      t.held = [] ∧ t.sched.roundReady = b.tb ∧ t.sched.roundOpen = false ∧ t.prog = b.prog ∧ t.code = b.code ∧
      (dspBase b = none → t.image = b.image) := by
  intro t
  obtain ⟨img, hheld, himg⟩ := clearHeld_keeps b
  have ht : t = progRunOp b c := rfl
  unfold progRunOp at ht
  extract_lets lines cleared ran tasks sched recorded waited at ht
  have hsched : { sched with sched := b.sched, tasks := b.tasks } = { b with held := [], image := img, pstate := .running } := by
    simp only [sched, tasks, ran, cleared, hheld]
    rfl
  have htasks : sched.tasks = b.tasks.map (fun t => { t with
      firstScan := true, resumed := false, skipNext := false, skipCount := 0 }) := by
    simp only [sched, tasks, ran, cleared, hheld]
    rfl
  have hready : sched.sched.roundReady = b.tb ∧ sched.sched.roundOpen = false := by
    simp only [sched, tasks, ran, cleared, hheld]
    exact ⟨rfl, rfl⟩
  obtain ⟨g, xs, n, hrec⟩ := stateRecord_appends (s := b) (w := sched) (lines := lines.map (fun l => (0, ringLineOf sched l)))
    (by rw [List.length_map]; exact hring) (congrArg State.ring hsched :) (congrArg State.prog hsched :) .run
  obtain ⟨w, m, hsync⟩ := syncMode_keeps (waitFor recorded c)
  have hrec' : recorded = _ := hrec
  have hwaited : waited = _ := hsync
  have hen' : enabledTasks waited = enabledTasks b := by
    rw [hwaited, hrec']
    exact (congrArg enabledTasks hsched :)
  have htw : t = waited := by
    rw [ht, hen']
    exact if_neg (by simp [hen])
  have hfind : findCmd recorded c = some y := by
    rw [hrec']
    exact (congrArg (fun t => findCmd t c) hsched :).trans hc
  have hwait : waits (waitFor recorded c) c := waits_waitFor hfind
  have hk : { waited with wd := b.wd, power := b.power, ring := b.ring, twin := b.twin, host := b.host } =
      { sched with wd := b.wd, power := b.power, ring := b.ring, twin := b.twin, host := b.host } := by
    rw [hwaited, hrec']
    rfl
  have hk' := (congrArg (fun t : State => { t with sched := b.sched, tasks := b.tasks }) hk :).trans
    (congrArg (fun t : State => { t with wd := b.wd, power := b.power, ring := b.ring, twin := b.twin, host := b.host })
      hsched :)
  rw [htw]
  refine ⟨by rw [hwaited]; exact hwait, (congrArg State.pstate hk' :), fun k hk16 => ?_, (congrArg State.held hk' :),
    (congrArg (fun t => t.sched.roundReady) hk :).trans hready.1, (congrArg (fun t => t.sched.roundOpen) hk :).trans hready.2,
    (congrArg State.prog hk' :), (congrArg State.code hk' :), fun hd => (congrArg State.image hk' :).trans (himg hd)⟩
  have hw : waited.tasks = _ := (congrArg State.tasks hk :).trans htasks
  rw [taskRt, hw, vget, dif_pos hk16, Vector.getElem_map]
  exact ⟨rfl, rfl⟩

end

/-! ### PROG.STOP (R178-R181) -/

theorem applySafe_again {s : State} (h : s.field.safe.isSome = true) (cause : Nat) :
    (applySafe s cause).field = s.field := by
  unfold applySafe
  extract_lets areas
  have h' : (areas.field.lockout || areas.field.safe.isSome) = true := Bool.or_eq_true_iff.mpr (.inr h)
  rw [if_pos h']
  rfl

/-- The channels, the display and the record of a safe state leave the field die's outputs. -/
theorem field_safeEnd (s : State) (logic : Bool) (cause : Nat) (vals : List Byte) :
    (log (markFieldSafe (dspSafe (anaSafeAll s) logic)) 0x66 sevAlarm 0x06 0 cause vals).field = s.field := by
  obtain ⟨lg, hlg⟩ := log_rest (markFieldSafe (dspSafe (anaSafeAll s) logic)) 0x66 sevAlarm 0x06 0 cause vals
  have hkeep := (powerWdField_dspSafe (anaSafeAll s) logic).trans (powerWdField_anaSafeAll s)
  rw [hlg]
  generalize dspSafe (anaSafeAll s) logic = u at hkeep
  exact congrArg (fun v => v.2.2) hkeep

/-- Outputs that are commanded in turn, those on staying on where they are commanded on. -/
theorem foldl_setDo_cmd (want : Nat → Bool) (s : State) :
    let t := (List.range 24).foldl (fun s n => setDo s n (fun d => { d with cmd := want n, on := d.on && want n })) s
    t.tb = s.tb ∧ ∀ k, k < 24 → (doAt t k).cmd = want k := by
  intro t
  have hfold := foldl_places (view := State.tb) (get := doAt) (s := s) (N := 24)
    (F := fun n d => { d with cmd := want n, on := d.on && want n })
    (step := fun s n => setDo s n (fun d => { d with cmd := want n, on := d.on && want n }))
    (fun _ _ => rfl) (fun u n _ hn => doAt_setDo hn u _) (fun u n j hj => doAt_setDo_ne hj u _) (List.range 24) s
    List.nodup_range rfl
  refine ⟨hfold.2.2, fun k hk => ?_⟩
  rw [show doAt t k = _ from hfold.1 k hk (List.mem_range.mpr hk)]

/-- The outputs at the safe values of the chart, with their gangs. -/
def safeOutputs (s : State) : State :=
  (List.range 24).foldl (fun u n => setDo u n (fun d => { d with
    cmd := s.field.safeVals.getLsbD (gangLead s n), on := d.on && s.field.safeVals.getLsbD (gangLead s n) })) s

theorem field_applySafe {s : State} (h : s.field.safe = none) (hl : s.field.lockout = false) (cause : Nat) :
    ∃ turns w, w = modSched s (fun x => { x with safeAreas := stationAreas }) ∧
      (applySafe s cause).field = { (safeOutputs w).field with
        safe := some ((safeOutputs w).tb, cause), safeTurns := turns, turns := [], restoring := false } := by
  unfold applySafe
  dsimp only
  generalize hw : modSched s (fun x => { x with safeAreas := stationAreas }) = w
  have hno : (w.field.lockout || w.field.safe.isSome) = false := by simp [← hw, modSched, h, hl]
  rw [hno, if_neg Bool.false_ne_true, field_safeEnd]
  exact ⟨_, w, rfl, rfl⟩

/-- The safe state gives every output its safe value of the chart, with its gang (R426). -/
theorem applySafe_outputs {s : State} (h : s.field.safe = none) (hl : s.field.lockout = false) (cause : Nat) :
    (applySafe s cause).field.safe = some (s.tb, cause) ∧
      ∀ k, k < 24 → (doAt (applySafe s cause) k).cmd = s.field.safeVals.getLsbD (gangLead s k) := by
  obtain ⟨turns, w, hw, hfield⟩ := field_applySafe h hl cause
  obtain ⟨htb, hcmd⟩ : (safeOutputs w).tb = w.tb ∧
      ∀ k, k < 24 → (doAt (safeOutputs w) k).cmd = w.field.safeVals.getLsbD (gangLead w k) := foldl_setDo_cmd _ w
  generalize safeOutputs w = u at hfield htb hcmd
  generalize applySafe s cause = t at hfield
  subst hw
  refine ⟨by rw [hfield, htb]; rfl, fun k hk => ?_⟩
  exact (congrArg (fun f : FieldSt => (vget f.do_ k DoCh.reset).cmd) hfield).trans (hcmd k hk)

section
variable {b : State} {c : CmdRef} {y : Cmd} (hc : findCmd b c = some y)
include hc

theorem progStopOp_notLoaded (h : b.pstate = .notLoaded) (mode : Nat) :
    refuses (progStopOp b c mode) c stState 0x01 ∧ sameButResults b (progStopOp b c mode) := by
  have hop : progStopOp b c mode = refuseState b c 0x01 := by simp only [progStopOp, h]
  exact hop ▸ refuseState_refuses hc 0x01

/-- A stopped program whose outputs stand as the command asks answers at once. -/
theorem progStopOp_stopped (h : b.pstate = .stopped) {mode : Nat} (hm : mode = 0 ∨ b.sched.stopMode = .safe) :
    onlyAnswers b (progStopOp b c mode) c (le 8 b.ring.lastSealTb) := by
  have hop : progStopOp b c mode = done b c (le 8 b.ring.lastSealTb) := by simp only [progStopOp, h, hm, if_true]
  exact hop ▸ done_onlyAnswers hc _

/-- A stopped program that held its outputs gives them their safe states (R181). -/
theorem progStopOp_safe (h : b.pstate = .stopped) {mode : Nat} (hm : mode ≠ 0) (hs : b.sched.stopMode ≠ .safe)
    (hring : ringTakes b 0) :
    let t := progStopOp b c mode
    answers t c (le 8 b.ring.lastSealTb) ∧ t.sched.stopMode = .safe ∧ t.pstate = .stopped ∧
      (b.field.safe.isSome = true → t.field = b.field) ∧
      (b.field.safe = none → b.field.lockout = false → t.field.safe = some (b.tb, 3) ∧
        ∀ k, k < 24 → (doAt t k).cmd = b.field.safeVals.getLsbD (gangLead b k)) := by
  intro t
  obtain ⟨g, xs, n, hrec⟩ := stateRecord_appends (s := b) (w := modSched b (fun x => { x with stopMode := .safe }))
    (lines := []) hring rfl rfl .stopSafe
  have ht : t = done (applySafe (stateRecord (modSched b (fun x => { x with stopMode := .safe })) .stopSafe []) 3) c
      (le 8 b.ring.lastSealTb) := by
    have hno : ¬ (mode = 0 ∨ b.sched.stopMode = .safe) := by simp [hm, hs]
    simp only [t, progStopOp, h, hno, if_false]
    rfl
  rw [hrec] at ht
  generalize hu : ({ modSched b (fun x => { x with stopMode := .safe }) with
    ring := g, twin := { (modSched b (fun x => { x with stopMode := .safe })).twin with sent := xs, lastSent := n } } : State) = u
    at ht
  have hub : { u with ring := b.ring, twin := b.twin, sched := b.sched } = b := by
    rw [← hu]
    rfl
  have hmode : u.sched.stopMode = .safe := by
    rw [← hu]
    rfl
  clear hu hrec
  have huf : u.field = b.field := (congrArg State.field hub :)
  have hrest := haltRest_applySafe u 3
  have hhost : (applySafe u 3).host = b.host := (congrArg State.host hrest :).trans (congrArg State.host hub :)
  have hans : answers t c (le 8 b.ring.lastSealTb) := ht ▸ done_after hc hhost _
  have hfield : t.field = (applySafe u 3).field := (congrArg State.field ht).trans (setResult_field ..)
  refine ⟨hans, ?_, ?_, fun hsome => ?_, fun hnone hl => ?_⟩
  · have hsched : t.sched = (applySafe u 3).sched := (congrArg State.sched ht).trans (setResult_sched ..)
    rw [hsched]
    exact (congrArg (fun t => t.sched.stopMode) hrest :).trans hmode
  · rw [ht]
    exact (setResult_pstate ..).trans ((congrArg State.pstate hrest :).trans ((congrArg State.pstate hub :).trans h))
  · rw [hfield, applySafe_again (huf ▸ hsome), huf]
  · obtain ⟨hsafe, houts⟩ := applySafe_outputs (huf ▸ hnone) (huf ▸ hl) 3
    refine ⟨?_, fun k hk => ?_⟩
    · rw [hfield, hsafe, show u.tb = b.tb from (congrArg State.tb hub :)]
    · have hdo : doAt t k = doAt (applySafe u 3) k := congrArg (fun f : FieldSt => vget f.do_ k DoCh.reset) hfield
      have hlead : gangLead u k = gangLead b k := (congrArg (fun t => gangLead t k) hub :)
      rw [hdo, houts k hk, huf, hlead]

omit hc in
/-- While a scan is in progress the device makes no seal point by itself. -/
theorem idleChanges_scanning {s : State} (h : noScan s = false) : idleChanges s = s := by
  have hc : changeIfIdle s = s := by
    unfold changeIfIdle
    dsimp only
    split
    · refine if_neg fun hif => ?_
      simp only [Bool.and_eq_true] at hif
      exact absurd ((Bool.and_eq_true _ _).mpr ⟨hif.1.2, hif.2⟩) (by rw [← noScan, h]; decide)
    · rfl
  rw [idleChanges, hc]
  unfold editIfIdle
  dsimp only
  split
  · refine if_neg fun hif => ?_
    simp only [Bool.and_eq_true] at hif
    exact absurd ((Bool.and_eq_true _ _).mpr ⟨hif.1.2, hif.2⟩) (by rw [← noScan, h]; decide)
  · rfl

/-- A running program is asked to stop while a scan is in progress (R179). -/
theorem progStopOp_running (h : b.pstate = .running) (hn : noScan b = false) (mode : Nat) :
    let t := progStopOp b c mode
    waits t c ∧
      (b.sched.stopping = none →
        t.sched = { b.sched with stopping := some (if mode = 1 then .safe else .hold, [c]) }) ∧
      { t with host := b.host, sched := b.sched } = b := by
  intro t
  generalize hstop : (match b.sched.stopping with
    | none => (if mode = 1 then StopMode.safe else .hold, [c])
    | some (m', refs) =>
      (if m' = StopMode.safe then StopMode.safe else if mode = 1 then StopMode.safe else .hold, refs ++ [c])) = stop
  have ht : t = modSched (waitFor b c) (fun x => { x with stopping := some stop }) := by
    have hscan : noScan (modSched (waitFor b c) (fun x => { x with stopping := some stop })) = false := hn
    have hop : t = idleChanges (stopIfDue (modSched (waitFor b c) (fun x => { x with stopping := some stop }))) := by
      rw [← hstop]
      simp only [t, progStopOp, h] <;> rfl
    rw [hop, stopIfDue, if_pos (by rw [hscan]; rfl), idleChanges_scanning hscan]
  refine ⟨ht ▸ waits_waitFor hc, fun hnone => ?_, by rw [ht]; rfl⟩
  rw [ht, ← hstop, hnone]
  rfl

end

/-- PROG.LOAD by its slot, the hash of its image and the energy to empty the force table (R28, R29, R362). -/
theorem progLoadOp_answers {b : State} {c : CmdRef} {y : Cmd} (hc : findCmd b c = some y) (slot : Nat) :
    let t := progLoadOp b c slot
    let ws := b.forces.map (fun f => forceDelete (forceAddr f.addr))
    ((progSlot b slot).image = none → refuses t c stState 0x01 ∧ sameButResults b t) ∧
    (∀ img, (progSlot b slot).image = some img → imageHash (progSlot b slot).bytes ≠ img.hash →
      refuses t c stState 0x01 ∧ sameButResults b t) ∧
    ∀ img, (progSlot b slot).image = some img → imageHash (progSlot b slot).bytes = img.hash →
      (ws ≠ [] → energyFor b (eGroup (groupPages ws)) = false → refuses t c stState 0x06 ∧ sameButResults b t) ∧
      (ws = [] ∨ energyFor b (eGroup (groupPages ws)) = true →
        let p : Program := { slot, img, tasks := img.tasks, edits := [], chained := chainHash img.hash [] }
        t.prog = some p ∧ t.pstate = .stopped ∧ t.code = buildCode img [] ∧ t.forces = [] ∧ t.held = [] ∧
        (progSlot t slot).edits = [] ∧ t.charts.active = par b 0x0401 ∧ t.charts.req = none ∧
        (b.twin.role = .helm → b.twin.pair = .inStep → t.twin.pair = .outOfStep) ∧
        (∀ a, a < 0x200000 → getItem t (wKey a) = smGet itemDefault (baseImage p) (wKey a)) ∧
        ∀ k, taskRt t k = TaskRt.reset) := by
  intro t ws
  have hrefuses : ∀ r, t = refuseState b c r → refuses t c stState r ∧ sameButResults b t := fun r ht =>
    ht ▸ refuseState_refuses hc r
  refine ⟨fun hnone => hrefuses _ ?_, fun img himg hhash => hrefuses _ ?_, fun img himg hhash =>
    ⟨fun hws he => hrefuses _ ?_, fun h => progLoadOp_loads c himg hhash h⟩⟩
  · simp only [t, progLoadOp, hnone]
  · simp only [t, progLoadOp, himg, ne_eq, hhash, not_false_eq_true, if_true]
  · simp only [t, progLoadOp, himg, ne_eq, hhash, not_true, if_false, emptyForces_lacks _ hws he]

/-- Settles O35: the program commands by the state of the program. -/
theorem programCommands : Obligations.ProgramCommands := by
  unfold Obligations.ProgramCommands
  intro s now c slot mode g
  refine ⟨?_, fun hmore => ?_, fun hmore => ?_, ?_, ?_⟩
  · refine works_last (Eq.refl (execProgLoad now c slot s)) fun x hx _ => ?_
    have hc := findCmd_workState hx
    generalize workState s now c x = b at hc ⊢
    exact progLoadOp_answers hc slot
  · refine works_of (f := fun b _ => storeSegment b c 0x0402 g) (by simp [exec, execProgEdit, hmore]) fun x hx => ?_
    exact storeSegment_stores (findCmd_workState hx) 0x0402 g
  · refine works_of (f := fun b x => if lastStage x then beginEdit b c g else b) (by simp [exec, execProgEdit, hmore])
      fun x hx hlast => ?_
    have hc := findCmd_workState hx
    generalize workState s now c x = b at hc ⊢
    rw [if_pos hlast]
    exact ⟨fun h => beginEdit_refuses hc h, fun e p he hp _ hrun hen => beginEdit_waits hc he hp hrun hen⟩
  · exact works_of (Eq.refl (execProgRun now c s)) fun x hx hen hring => progRunOp_runs (findCmd_workState hx) hen hring
  · refine works_of (Eq.refl (execProgStop now c mode s)) fun x hx => ?_
    have hc := findCmd_workState hx
    generalize workState s now c x = b at hc ⊢
    exact ⟨fun h => progStopOp_notLoaded hc h mode, fun h hm => progStopOp_stopped hc h hm,
      fun h hm hs hring => progStopOp_safe hc h hm hs hring, fun h hn => progStopOp_running hc h hn mode⟩

end Sys2Proof.Machine
end

section
/-!
PROOFS. What the operations of the state, of links, charts and starts leave of the fuses (R9, R636, R643).
-/
namespace Sys2Proof.Machine

open Sys2Proof

/-- The fuses and the security version. -/
def fuses (s : State) : Nat × Bool × Bool × BitVec 2 :=
  (s.store.svfuse, s.store.wdlockf, s.store.wdwinSet, s.store.wdwin)

/-- A state given by its parts: what an update of other parts than the store leaves is then read off. -/
theorem fuses_mk (pending : List Instr) (tb : Tb) (eng : Engine) (sched : Sched) (prog : Option Program)
    (pstate : ProgState) (tasks : Vector TaskRt 16) (code : SMap Word) (image : SMap Tagged) (sysPhase : Nat)
    (sealedImg : SMap Tagged) (emitted : SMap Tagged) (held : SMap Word) (sent : SMap Tagged) (forces : List Force)
    (charts : Charts) (ring : Ring) (pstore : PStore) (spread : Vector SpreadCounter 3) (params : Params)
    (host : HostSt) (book : Bookings) (twin : Twin) (field : FieldSt) (ana : Vector Island 8) (busA : BusLine)
    (busB : BusLine) (dsp : Display) (clock : Clock) (log : Logbook) (wd : Watchdog) (store : Store) (power : Power)
    (freeIdx : Nat) :
    fuses ⟨pending, tb, eng, sched, prog, pstate, tasks, code, image, sysPhase, sealedImg, emitted, held, sent, forces,
      charts, ring, pstore, spread, params, host, book, twin, field, ana, busA, busB, dsp, clock, log, wd, store,
      power, freeIdx⟩ =
      (store.svfuse, store.wdlockf, store.wdwinSet, store.wdwin) := (rfl)

theorem fuses_fold (s : State) : (s.store.svfuse, s.store.wdlockf, s.store.wdwinSet, s.store.wdwin) = fuses s := (rfl)

theorem fuses_ite (p : Prop) [Decidable p] (a b : State) : fuses (if p then a else b) = if p then fuses a else fuses b :=
  apply_ite fuses p a b

theorem fuses_foldl {α : Type} {f : State → α → State} (h : ∀ s x, fuses (f s x) = fuses s) (l : List α) (s : State) :
    fuses (l.foldl f s) = fuses s := foldl_keeps fuses f h l s

/-- The next state, if there is one, keeps the fuses and the security version. -/
def nextKept (s : State) (o : Host.Outcome State Fault Refusal) : Prop := ∀ t, o = .next t → fuses t = fuses s

theorem nextKept_next (s t : State) : nextKept s (.next t) ↔ fuses t = fuses s :=
  ⟨fun h => h t rfl, fun h _ e => Host.Outcome.next.inj e ▸ h⟩

/-! ### Machine/Ops -/

theorem fuses_putItem (s : State) (k : Nat) (t : Tagged) : fuses (putItem s k t) = fuses s := (rfl)

theorem fuses_storeItem (s : State) (k : Nat) (t : Tagged) : fuses (storeItem s k t) = fuses s := (rfl)

theorem fuses_modSched (s : State) (f : Sched → Sched) : fuses (modSched s f) = fuses s := (rfl)

theorem fuses_at (s : State) (now : Tb) : fuses (State.at s now) = fuses s := (rfl)

theorem fuses_logRaw (s : State) (type sev src : Nat) (body : List Byte) :
    fuses (logRaw s type sev src body).2 = fuses s := by
  unfold logRaw
  dsimp only
  repeat' split
  all_goals simp only [↓fuses_mk, fuses_fold]

theorem fuses_log (s : State) (type sev src subject code : Nat) (vals : List Byte) :
    fuses (log s type sev src subject code vals) = fuses s := by
  unfold log
  simp only [↓fuses_logRaw]

/-! ### Machine/Params -/

theorem fuses_setPar (s : State) (pid v : Nat) : fuses (setPar s pid v) = fuses s := (rfl)

/-! ### Machine/Receipts -/

theorem fuses_setPort (s : State) (p : Port) (x : PortSt) : fuses (setPort s p x) = fuses s := by
  unfold setPort
  split
  all_goals simp only [↓fuses_mk, fuses_fold]

theorem fuses_place (s : State) (p : Port) (r : List Byte) : fuses (place s p r) = fuses s := by
  unfold place
  simp only [↓fuses_setPort]

theorem fuses_unreserve (s : State) (p : Port) (n : Nat) : fuses (unreserve s p n) = fuses s := by
  unfold unreserve
  simp only [↓fuses_setPort]

theorem fuses_updCmd (s : State) (c : CmdRef) (f : Cmd → Cmd) : fuses (updCmd s c f) = fuses s := (rfl)

theorem fuses_touchSession (s : State) (x : Cmd) : fuses (touchSession s x) = fuses s := by
  unfold touchSession
  split
  all_goals simp only [↓fuses_mk, fuses_fold]

theorem fuses_freeEnergy (s : State) (n : Nat) : fuses (freeEnergy s n) = fuses s := (rfl)

theorem fuses_removeCmd (s : State) (c : CmdRef) : fuses (removeCmd s c) = fuses s := by
  unfold removeCmd
  split
  all_goals simp only [↓fuses_touchSession, ↓fuses_unreserve, ↓fuses_freeEnergy, ↓fuses_mk, fuses_fold]

theorem fuses_setResult (s : State) (c : CmdRef) (status reason : BitVec 8) (detail : BitVec 32) (payload : List Byte) :
    fuses (setResult s c status reason detail payload) = fuses s := by
  unfold setResult
  split
  all_goals simp only [↓fuses_mk, fuses_fold]

theorem fuses_done (s : State) (c : CmdRef) (payload : List Byte) : fuses (done s c payload) = fuses s := by
  unfold done
  simp only [↓fuses_setResult]

theorem fuses_refuseState (s : State) (c : CmdRef) (reason : BitVec 8) : fuses (refuseState s c reason) = fuses s := by
  unfold refuseState
  simp only [↓fuses_setResult]

theorem fuses_finishNow (s : State) (c : CmdRef) (status reason : BitVec 8) (detail : Nat) (payload : List Byte) :
    fuses (finishNow s c status reason detail payload) = fuses s :=
  (congrArg fuses (hostRest_finishNow s c status reason detail payload) :)

theorem fuses_doneNow (s : State) (c : CmdRef) (payload : List Byte) : fuses (doneNow s c payload) = fuses s := by
  unfold doneNow
  simp only [↓fuses_finishNow]

theorem fuses_doneNowOpt (s : State) (c : Option CmdRef) (payload : List Byte) :
    fuses (doneNow? s c payload) = fuses s := by
  unfold doneNow?
  split
  all_goals simp only [↓fuses_doneNow]

theorem fuses_abortedBy (s : State) (c : CmdRef) (unit cause : Nat) : fuses (abortedBy s c unit cause) = fuses s := by
  unfold abortedBy
  simp only [↓fuses_finishNow]

theorem fuses_requestAborted (s : State) (u : Nat) (who : Requester) : fuses (requestAborted s u who) = fuses s := by
  unfold requestAborted
  repeat' split
  all_goals simp only [↓fuses_abortedBy, ↓fuses_mk, fuses_fold]

theorem fuses_waitFor (s : State) (c : CmdRef) : fuses (waitFor s c) = fuses s := (rfl)

theorem fuses_discardCommands (s : State) (reason : BitVec 8) (detail : Nat) :
    fuses (discardCommands s reason detail) = fuses s :=
  (congrArg fuses (hostRest_discardCommands s reason detail) :)

theorem fuses_reserveEnergy (s : State) (n : Nat) : fuses (reserveEnergy s n) = fuses s := (rfl)

/-! ### Machine/PStore -/

theorem fuses_mirrorGroup (s : State) (ws : List PWrite) : fuses (mirrorGroup s ws) = fuses s := by
  unfold mirrorGroup
  split
  all_goals simp only [↓fuses_mk, fuses_fold]

theorem fuses_recoverPStore (s : State) : fuses (recoverPStore s) = fuses s := by
  unfold recoverPStore
  simp only [↓fuses_log, ↓fuses_foldl, implies_true, ↓fuses_mk, fuses_fold, ↓fuses_ite, ite_self]

theorem fuses_readKey (s : State) (key : PKind × Nat × Nat) : fuses (readKey s key) = fuses s := by
  unfold readKey
  simp only [↓fuses_log, ↓fuses_foldl, implies_true, ↓fuses_mk, fuses_fold, ↓fuses_ite, ite_self]

theorem fuses_readPStore (s : State) : fuses (readPStore s) = fuses s := by
  unfold readPStore
  simp only [↓fuses_recoverPStore, ↓fuses_readKey, ↓fuses_foldl, implies_true, ↓fuses_mk, fuses_fold]

theorem fuses_spreadPut (s : State) (k v : Nat) : fuses (spreadPut s k v) = fuses s := (rfl)

/-! ### Machine/AnaCore -/

theorem fuses_modAna (s : State) (c : Nat) (f : Island → Island) : fuses (modAna s c f) = fuses s := (rfl)

theorem fuses_sendSetPoint (s : State) (c : Nat) (w : Word) (subst : Bool) :
    fuses (sendSetPoint s c w subst) = fuses s := by
  unfold sendSetPoint
  simp only [↓fuses_modAna, ↓fuses_ite, ite_self]

theorem fuses_anaSafe (s : State) (c : Nat) : fuses (anaSafe s c) = fuses s := by
  unfold anaSafe
  simp only [↓fuses_modAna, ↓fuses_ite, ite_self]

theorem fuses_anaSafeAll (s : State) : fuses (anaSafeAll s) = fuses s := by
  unfold anaSafeAll
  simp only [↓fuses_anaSafe, ↓fuses_foldl, implies_true]

theorem fuses_anaSwap (old : Nat → Nat) (s : State) (c : Nat) : fuses (anaSwap old s c) = fuses s := by
  unfold anaSwap
  simp only [↓fuses_modAna, ↓fuses_ite, ite_self]

theorem fuses_loadTrim (s : State) (c : Nat) : fuses (loadTrim s c) = fuses s := by
  unfold loadTrim
  simp only [↓fuses_modAna]

theorem fuses_loadTrims (s : State) : fuses (loadTrims s) = fuses s := by
  unfold loadTrims
  simp only [↓fuses_loadTrim, ↓fuses_foldl, implies_true]

theorem fuses_anaRestart (s : State) (c : Nat) : fuses (anaRestart s c) = fuses s := (rfl)

theorem fuses_anaLockout (s : State) : fuses (anaLockout s) = fuses s := by
  unfold anaLockout
  simp only [↓fuses_modAna, ↓fuses_foldl, implies_true]

/-! ### Machine/Ring -/

theorem fuses_ringAppend {s t : State} {r : RingRec} (h : ringAppend s r = .ok t) : fuses t = fuses s := by
  obtain ⟨g, xs, n, rfl⟩ := ringAppend_keeps h
  rfl

theorem fuses_restoreLine (s : State) (l : Nat) : fuses (restoreLine s l) = fuses s := by
  unfold restoreLine
  split
  all_goals simp only [↓fuses_putItem, ↓fuses_foldl, implies_true]

theorem fuses_sealLine (s : State) (l : Nat) : fuses (sealLine s l) = fuses s := by
  unfold sealLine
  simp only [↓fuses_putItem, ↓fuses_foldl, implies_true, ↓fuses_mk, fuses_fold]

/-! ### Machine/ChartCore -/

theorem fuses_loadChartParams (s : State) (c : Nat) : fuses (loadChartParams s c) = fuses s := by
  unfold loadChartParams
  simp only [↓fuses_mk, fuses_fold]

/-! ### Machine/BusCore -/

theorem fuses_modLine (s : State) (l : Line) (f : BusLine → BusLine) : fuses (modLine s l f) = fuses s := by
  unfold modLine
  split
  all_goals simp only [↓fuses_mk, fuses_fold]

theorem fuses_modStation (s : State) (l : Line) (n : Nat) (f : Station → Station) :
    fuses (modStation s l n f) = fuses s := by
  unfold modStation
  simp only [↓fuses_modLine]

theorem fuses_keepFrozen (s : State) (k : Nat) : fuses (keepFrozen s k) = fuses s := by
  unfold keepFrozen
  split
  all_goals simp only [↓fuses_modSched]

theorem fuses_setItem (s : State) (k : Nat) (t : Tagged) : fuses (setItem s k t) = fuses s := by
  unfold setItem
  simp only [↓fuses_storeItem, ↓fuses_keepFrozen]

theorem fuses_dropFrames (s : State) (l : Line) (reason : Nat) : fuses (dropFrames s l reason) = fuses s := by
  unfold dropFrames
  simp only [↓fuses_modLine, ↓fuses_doneNow, ↓fuses_foldl, implies_true, ↓fuses_mk, fuses_fold]

theorem fuses_startLine (s : State) (l : Line) : fuses (startLine s l) = fuses s := by
  unfold startLine
  simp only [↓fuses_modLine]

theorem fuses_removeStation (s : State) (l : Line) (n : Nat) : fuses (removeStation s l n) = fuses s := by
  unfold removeStation
  simp only [↓fuses_setItem, ↓fuses_modLine, ↓fuses_modStation, ↓fuses_foldl, implies_true]

theorem fuses_addStation (s : State) (l : Line) (n : Nat) : fuses (addStation s l n) = fuses s := by
  unfold addStation
  simp only [↓fuses_modStation, ↓fuses_setItem, ↓fuses_foldl, implies_true]

theorem fuses_busSwap (old : Nat → Nat) (s : State) (l : Line) : fuses (busSwap old s l) = fuses s := by
  unfold busSwap
  simp only [↓fuses_removeStation, ↓fuses_addStation, ↓fuses_dropFrames, ↓fuses_modLine, ↓fuses_log, ↓fuses_foldl,
    implies_true, ↓fuses_ite, ite_self]

/-! ### Machine/DspCore -/

theorem fuses_modDsp (s : State) (f : Display → Display) : fuses (modDsp s f) = fuses s := (rfl)

theorem fuses_sendFrame (s : State) (f : List Byte) : fuses (sendFrame s f) = fuses s := (rfl)

theorem fuses_dspSafe (s : State) (logic : Bool) : fuses (dspSafe s logic) = fuses s := by
  unfold dspSafe
  split
  all_goals simp only [↓fuses_modDsp]

theorem fuses_pulseDone (s : State) : fuses (pulseDone s) = fuses s := by
  unfold pulseDone
  repeat' split
  all_goals simp only [↓fuses_modDsp]

theorem fuses_cutUpdate (s : State) : fuses (cutUpdate s) = fuses s := by
  unfold cutUpdate
  split
  all_goals simp only [↓fuses_pulseDone, ↓fuses_mk, fuses_fold]

theorem fuses_startPanel (s : State) (cut : Bool) : fuses (startPanel s cut) = fuses s := by
  unfold startPanel
  split
  all_goals simp only [↓fuses_modDsp]

theorem fuses_setDspFault (s : State) (b : Bool) (code : Nat) : fuses (setDspFault s b code) = fuses s := by
  unfold setDspFault
  split
  all_goals simp only [↓fuses_log, ↓fuses_modDsp]

theorem fuses_dspCheckResult (s : State) (crc good : Bool) : fuses (dspCheckResult s crc good) = fuses s := by
  unfold dspCheckResult
  simp only [↓fuses_modDsp, ↓fuses_setDspFault, ↓fuses_ite, ite_self]

/-! ### Machine/FieldCore -/

theorem fuses_modField (s : State) (f : FieldSt → FieldSt) : fuses (modField s f) = fuses s := (rfl)

theorem fuses_setDo (s : State) (n : Nat) (f : DoCh → DoCh) : fuses (setDo s n f) = fuses s := (rfl)

theorem fuses_setGang (s : State) (lead : Nat) (f : DoCh → DoCh) : fuses (setGang s lead f) = fuses s := by
  unfold setGang
  simp only [↓fuses_setDo, ↓fuses_foldl, implies_true]

theorem fuses_markFieldSafe (s : State) : fuses (markFieldSafe s) = fuses s := (rfl)

theorem fuses_applySafe (s : State) (cause : Nat) : fuses (applySafe s cause) = fuses s := by
  unfold applySafe
  simp only [↓fuses_modSched, ↓fuses_setDo, ↓fuses_modField, ↓fuses_log, ↓fuses_markFieldSafe, ↓fuses_dspSafe,
    ↓fuses_anaSafeAll, ↓fuses_foldl, implies_true, ↓fuses_ite, ite_self]

theorem fuses_energiseTurn (s : State) (lead : Nat) : fuses (energiseTurn s lead) = fuses s := by
  unfold energiseTurn
  split
  all_goals simp only [↓fuses_setGang]

theorem fuses_loadSafeVals (s : State) : fuses (loadSafeVals s) = fuses s := by
  unfold loadSafeVals
  simp only [↓fuses_modField]

/-! ### Machine/WdCore -/

theorem fuses_modWd (s : State) (f : Watchdog → Watchdog) : fuses (modWd s f) = fuses s := (rfl)

theorem fuses_wdPeriodStart (s : State) : fuses (wdPeriodStart s) = fuses s := (rfl)

theorem fuses_wdSyncMode (s : State) : fuses (wdSyncMode s) = fuses s := by
  unfold wdSyncMode
  simp only [↓fuses_modWd, ↓fuses_wdPeriodStart, ↓fuses_ite, ite_self]

theorem fuses_wdCheckIn (s : State) (agent : Nat) : fuses (wdCheckIn s agent) = fuses s := by
  unfold wdCheckIn
  simp only [↓fuses_modWd]

theorem fuses_wdGood (s : State) (agent : Nat) : fuses (wdGood s agent) = fuses s := by
  unfold wdGood
  simp only [↓fuses_modWd, ↓fuses_log, ↓fuses_wdPeriodStart, ↓fuses_ite, ite_self]

theorem fuses_wdRecord (s : State) (c : WdClass) (agent : Nat) (value : Option (BitVec 32)) :
    fuses (wdRecord s c agent value) = fuses s := by
  unfold wdRecord
  split
  all_goals simp only [↓fuses_modWd]

theorem fuses_wdFirst (s : State) : fuses (wdFirst s) = fuses s := by
  unfold wdFirst
  simp only [↓fuses_modWd, ↓fuses_wdPeriodStart, ↓fuses_log, ↓fuses_mk, fuses_fold]

theorem fuses_wdBad (s : State) (c : WdClass) (agent : Nat) (value : Option (BitVec 32)) :
    fuses (wdBad s c agent value).1 = fuses s := by
  unfold wdBad
  split
  all_goals simp only [↓fuses_wdFirst, ↓fuses_wdRecord]

theorem fuses_wdReplyAt (s : State) (agent : Nat) (value : BitVec 32) (tick : Nat) :
    fuses (wdReplyAt s agent value tick).1 = fuses s := by
  unfold wdReplyAt
  dsimp only
  repeat' split
  all_goals simp only [↓fuses_modWd, ↓fuses_wdGood, ↓fuses_wdBad]

theorem fuses_wdWritePeriod (s : State) (p tick : Nat) : fuses (wdWritePeriod s p tick) = fuses s := by
  unfold wdWritePeriod
  split
  all_goals simp only [↓fuses_modWd]

theorem fuses_wdEnable (s : State) : fuses (wdEnable s) = fuses s := by
  unfold wdEnable
  split
  all_goals simp only [↓fuses_wdPeriodStart, ↓fuses_modWd]

theorem fuses_wdDisable (s : State) (tick : Nat) : fuses (wdDisable s tick) = fuses s := by
  unfold wdDisable
  repeat' split
  all_goals simp only [↓fuses_modWd]

theorem fuses_wdKey (s : State) (v : BitVec 32) (tick : Nat) : fuses (wdKey s v tick) = fuses s := by
  unfold wdKey
  simp only [↓fuses_modWd, ↓fuses_ite, ite_self]

theorem fuses_wdSetLock (s : State) (b : Bool) : fuses (wdSetLock s b) = fuses s := by
  unfold wdSetLock
  split
  all_goals simp only [↓fuses_modWd]

/-! ### Machine/TwinCore -/

theorem fuses_modTwin (s : State) (f : Twin → Twin) : fuses (modTwin s f) = fuses s := (rfl)

theorem fuses_twinSend (s : State) (f : TwinFrame) : fuses (twinSend s f) = fuses s := by
  unfold twinSend
  split
  all_goals simp only [↓fuses_modTwin]

theorem fuses_endChange (s : State) : fuses (endChange s) = fuses s := by
  unfold endChange
  simp only [↓fuses_modSched, ↓fuses_modTwin, ↓fuses_finishNow, ↓fuses_foldl, implies_true]

theorem fuses_setPair (s : State) (p : PairState) : fuses (setPair s p) = fuses s := by
  unfold setPair
  repeat' split
  all_goals simp only [↓fuses_endChange, ↓fuses_log, ↓fuses_modTwin]

theorem fuses_endResync (s : State) : fuses (endResync s) = fuses s := by
  unfold endResync
  dsimp only
  split
  all_goals simp only [↓fuses_modTwin, ↓fuses_finishNow]

theorem fuses_dropWatch (s : State) (reason : Nat) : fuses (dropWatch s reason) = fuses s := by
  unfold dropWatch
  simp only [↓fuses_endResync, ↓fuses_setPair, ↓fuses_log, ↓fuses_twinSend, ↓fuses_ite, ite_self]

theorem fuses_sendImage (s : State) (kind : Nat) (bytes : List Byte) : fuses (sendImage s kind bytes) = fuses s := by
  unfold sendImage
  simp only [↓fuses_twinSend, ↓fuses_foldl, implies_true]

theorem fuses_mirrorImage (s : State) (kind : Nat) (bytes : List Byte) : fuses (mirrorImage s kind bytes) = fuses s := by
  unfold mirrorImage
  split
  all_goals simp only [↓fuses_sendImage]

theorem fuses_sendHandover (s : State) (cause : Nat) : fuses (sendHandover s cause) = fuses s := by
  unfold sendHandover
  split
  all_goals simp only [↓fuses_modTwin, ↓fuses_twinSend]

/-! ### Machine/Faults -/

theorem fuses_modPower (s : State) (f : Power → Power) : fuses (modPower s f) = fuses s := (rfl)

theorem fuses_modHost (s : State) (f : HostSt → HostSt) : fuses (modHost s f) = fuses s := (rfl)

theorem fuses_syncMode (s : State) : fuses (syncMode s) = fuses s := by
  unfold syncMode
  dsimp only
  repeat' split
  all_goals simp only [↓fuses_wdSyncMode, ↓fuses_modPower]

theorem fuses_clearWaits (s : State) : fuses (clearWaits s) = fuses s := by
  unfold clearWaits
  split
  all_goals simp only [↓fuses_mk, fuses_fold]

theorem fuses_stopEngine (s : State) : fuses (stopEngine s) = fuses s := (rfl)

theorem fuses_enterHalt (s : State) (code detail : Nat) (atOnce : Bool) (cause : Nat) :
    fuses (enterHalt s code detail atOnce cause) = fuses s := by
  unfold enterHalt
  simp only [↓fuses_stopEngine, ↓fuses_clearWaits, ↓fuses_discardCommands, ↓fuses_log, ↓fuses_modPower,
    ↓fuses_sendHandover, ↓fuses_modField, ↓fuses_applySafe, ↓fuses_wdSyncMode, ↓fuses_ite, ite_self]

theorem fuses_openPorts (s : State) : fuses (openPorts s) = fuses s := by
  unfold openPorts
  split
  all_goals simp only [↓fuses_modHost, ↓fuses_modPower]

theorem fuses_raiseFault (s : State) (code detail : Nat) : fuses (raiseFault s code detail) = fuses s := by
  unfold raiseFault
  simp only [↓fuses_enterHalt]

theorem fuses_guardedStop (s : State) (task : Nat) : fuses (guardedStop s task) = fuses s := by
  unfold guardedStop
  simp only [↓fuses_enterHalt]

theorem fuses_wdResetSteps (s : State) : fuses (wdResetSteps s) = fuses s := by
  unfold wdResetSteps
  simp only [↓fuses_modWd, ↓fuses_spreadPut, ↓fuses_applySafe]

/-! ### Machine/ClockCore -/

theorem fuses_modClock (s : State) (f : Clock → Clock) : fuses (modClock s f) = fuses s := (rfl)

theorem fuses_anchor (s : State) (cause : Nat) : fuses (anchor s cause) = fuses s := by
  unfold anchor
  simp only [↓fuses_logRaw, ↓fuses_modClock]

theorem fuses_clockEvent (s : State) (code : Nat) : fuses (clockEvent s code) = fuses s := by
  unfold clockEvent
  split
  all_goals simp only [↓fuses_log]

theorem fuses_crystalTickOp (s : State) : fuses (crystalTickOp s) = fuses s := by
  unfold crystalTickOp
  dsimp only
  repeat' split
  all_goals simp only [↓fuses_modClock, ↓fuses_doneNowOpt, ↓fuses_anchor, ↓fuses_clockEvent, ↓fuses_mk, fuses_fold]

theorem fuses_trimSecondOp (s : State) : fuses (trimSecondOp s) = fuses s := by
  unfold trimSecondOp
  split
  all_goals simp only [↓fuses_modClock]

theorem fuses_shiftBy (s : State) (n : Int) (d : Nat) : fuses (shiftBy s n d) = fuses s := by
  unfold shiftBy
  simp only [↓fuses_modClock, ↓fuses_clockEvent, ↓fuses_ite, ite_self]

theorem fuses_refSync (s : State) : fuses (refSync s) = fuses s := by
  unfold refSync
  split
  all_goals simp only [↓fuses_modClock]

theorem fuses_newWindow (s : State) : fuses (newWindow s) = fuses s := (rfl)

theorem fuses_setLocked (s : State) (b : Bool) : fuses (setLocked s b) = fuses s := by
  unfold setLocked
  split
  all_goals simp only [↓fuses_clockEvent, ↓fuses_modClock]

theorem fuses_setFromBus (s : State) (sec sub : Nat) : fuses (setFromBus s sec sub) = fuses s := by
  unfold setFromBus
  simp only [↓fuses_modClock, ↓fuses_anchor, ↓fuses_clockEvent]

/-! ### Machine/Start -/

theorem fuses_setFwSlot (s : State) (i : Nat) (f : FwSlot → FwSlot) : fuses (setFwSlot s i f) = fuses s := (rfl)

theorem fuses_setProgSlot (s : State) (i : Nat) (f : ProgSlot → ProgSlot) : fuses (setProgSlot s i f) = fuses s := (rfl)

theorem fuses_tornWord (s : State) : fuses (tornWord s).2 = fuses s := (rfl)

theorem fuses_rejectTrial (s : State) (i : Nat) : fuses (rejectTrial s i) = fuses s := by
  unfold rejectTrial
  split
  all_goals simp only [↓fuses_log, ↓fuses_setFwSlot]

theorem fuses_restoreSnapshot (s : State) : fuses (restoreSnapshot s) = fuses s := by
  unfold restoreSnapshot
  repeat' split
  all_goals rfl

theorem fuses_tearKeys (s : State) : fuses (tearKeys s) = fuses s := by
  unfold tearKeys
  dsimp only [State.draw]
  repeat' split
  all_goals rfl

theorem fuses_tearMarkers (s : State) : fuses (tearMarkers s) = fuses s := by
  unfold tearMarkers
  dsimp only
  repeat' split
  all_goals simp only [↓fuses_tearKeys, ↓fuses_tornWord, ↓fuses_setFwSlot]

theorem fuses_unbuilt (s : State) (w : BitVec 32) : fuses (unbuilt s w).2 = fuses s := by
  unfold unbuilt
  dsimp only [State.draw]
  split
  · rfl
  · simp only []

theorem fuses_readChart (s : State) (c : Nat) : fuses (readChart s c) = fuses s := by
  unfold readChart
  dsimp only
  repeat' split
  all_goals simp only [↓fuses_log, ↓fuses_mk, fuses_fold]

theorem fuses_readCharts (s : State) : fuses (readCharts s) = fuses s := by
  unfold readCharts
  simp only [↓fuses_readChart, ↓fuses_foldl, implies_true]

theorem fuses_loadGlobals (s : State) : fuses (loadGlobals s) = fuses s := by
  unfold loadGlobals
  simp only [↓fuses_mk, fuses_fold]

theorem fuses_loadForces (s : State) : fuses (loadForces s) = fuses s := (rfl)

theorem fuses_applyForce (s : State) (f : Force) : fuses (applyForce s f) = fuses s := by
  unfold applyForce
  split
  all_goals simp only [↓fuses_setItem]

theorem fuses_applyForces (s : State) : fuses (applyForces s) = fuses s := by
  unfold applyForces
  simp only [↓fuses_applyForce, ↓fuses_foldl, implies_true]

theorem fuses_rebuildProgram (s : State) (p : Program) : fuses (rebuildProgram s p) = fuses s := by
  unfold rebuildProgram
  dsimp only
  repeat' split
  all_goals simp only [↓fuses_setProgSlot, ↓fuses_log, ↓fuses_mk, fuses_fold]

theorem fuses_rebuild (s : State) : fuses (rebuild s) = fuses s := by
  unfold rebuild
  repeat' split
  all_goals simp only [↓fuses_rebuildProgram, ↓fuses_mk, fuses_fold]

theorem fuses_checkBackup (s : State) : fuses (checkBackup s) = fuses s := by
  unfold checkBackup
  split
  all_goals simp only [↓fuses_modPower, ↓fuses_modWd, ↓fuses_log, ↓fuses_modClock]

theorem fuses_countPowerCycle (s : State) : fuses (countPowerCycle s) = fuses s := (rfl)

theorem fuses_startWatchdog (s : State) (kind : Nat) : fuses (startWatchdog s kind) = fuses s := by
  unfold startWatchdog
  dsimp only [State.draw]
  split
  all_goals simp only [↓fuses_log, ↓fuses_mk, fuses_fold]

theorem fuses_loadMarks (s : State) : fuses (loadMarks s) = fuses s := by
  unfold loadMarks
  dsimp only
  repeat' split
  all_goals simp only [↓fuses_modTwin, ↓fuses_modClock, ↓fuses_loadTrims, ↓fuses_mk, fuses_fold]

theorem fuses_startTwin (s : State) : fuses (startTwin s) = fuses s := by
  unfold startTwin
  split
  all_goals simp only [↓fuses_mk, fuses_fold]

theorem fuses_dieStop (s : State) : fuses (dieStop s) = fuses s := (rfl)

/-! ### Machine/Acquire -/

theorem fuses_modTask (s : State) (t : Nat) (f : TaskRt → TaskRt) : fuses (modTask s t f) = fuses s := (rfl)

theorem fuses_modTasks (s : State) (f : TaskRt → TaskRt) : fuses (modTasks s f) = fuses s := (rfl)

theorem fuses_acquireSystem (s : State) (t : Nat) : fuses (acquireSystem s t) = fuses s := by
  unfold acquireSystem
  simp only [↓fuses_putItem, ↓fuses_foldl, implies_true, ↓fuses_mk, fuses_fold]

theorem fuses_acquireItem (s : State) (k : Nat) (src : Tagged) : fuses (acquireItem s k src) = fuses s := by
  unfold acquireItem
  simp only [↓fuses_modSched, ↓fuses_putItem]

theorem fuses_takeMarks (s : State) (t : Nat) : fuses (takeMarks s t) = fuses s := (rfl)

theorem fuses_acquire (s : State) (t : Nat) : fuses (acquire s t) = fuses s := by
  unfold acquire
  simp only [↓fuses_acquireItem, ↓fuses_takeMarks, ↓fuses_acquireSystem, ↓fuses_foldl, implies_true]

/-! ### Machine/Emit -/

theorem fuses_emitTag (s : State) (k : Nat) (r : Sent) : fuses (emitTag s k r) = fuses s := by
  unfold emitTag
  split
  all_goals simp only [↓fuses_putItem]

theorem fuses_shadowChanged (s : State) (owner : Option Nat) (line : Nat) :
    fuses (shadowChanged s owner line) = fuses s := by
  unfold shadowChanged
  split
  all_goals simp only [↓fuses_modTask]

theorem fuses_emitShadow (s : State) (owner : Option Nat) (k : Nat) (r : Sent) :
    fuses (emitShadow s owner k r) = fuses s := by
  unfold emitShadow
  dsimp only
  repeat' split
  all_goals simp only [↓fuses_shadowChanged, ↓fuses_storeItem, ↓fuses_mk, fuses_fold]

theorem fuses_emitOne (owner : Option Nat) (s : State) (k : Nat) : fuses (emitOne owner s k) = fuses s := by
  unfold emitOne
  simp only [↓fuses_emitShadow, ↓fuses_emitTag]

theorem fuses_emitAreas (s : State) (areas : List Nat) : fuses (emitAreas s areas) = fuses s := by
  unfold emitAreas
  simp only [↓fuses_emitOne, ↓fuses_foldl, implies_true]

theorem fuses_recordSent (s : State) (k : Nat) (t : Tagged) : fuses (recordSent s k t) = fuses s := (rfl)

theorem fuses_commandGang (s : State) (lead : Nat) (v : Bool) : fuses (commandGang s lead v) = fuses s := by
  unfold commandGang
  simp only [↓fuses_log, ↓fuses_setGang, ↓fuses_modField, ↓fuses_ite, ite_self]

theorem fuses_endTest (s : State) (lead : Nat) (v : Bool) : fuses (endTest s lead v) = fuses s := by
  unfold endTest
  repeat' split
  all_goals simp only [↓fuses_doneNow, ↓fuses_modField]

theorem fuses_sendGroup (unsent : Nat → Bool) (s : State) (g : Nat) : fuses (sendGroup unsent s g) = fuses s := by
  unfold sendGroup
  simp only [↓fuses_commandGang, ↓fuses_endTest, ↓fuses_modField, ↓fuses_foldl, implies_true]

theorem fuses_sendChannel (s : State) (c : Nat) : fuses (sendChannel s c) = fuses s := by
  unfold sendChannel
  dsimp only
  repeat' split
  all_goals simp only [↓fuses_modAna, ↓fuses_sendSetPoint]

theorem fuses_sendSystem (s : State) (before : SMap Tagged) : fuses (sendSystem s before) = fuses s := by
  unfold sendSystem
  simp only [↓fuses_modPower, ↓fuses_modDsp, ↓fuses_modSched, ↓fuses_log, ↓fuses_ite, ite_self]

theorem fuses_sendArea (unsent : Nat → Bool) (before : SMap Tagged) (s : State) (a : Nat) :
    fuses (sendArea unsent before s a) = fuses s := by
  unfold sendArea
  repeat' split
  all_goals simp only [↓fuses_sendGroup, ↓fuses_sendChannel, ↓fuses_sendFrame, ↓fuses_sendSystem, ↓fuses_modSched]

theorem fuses_sendAreas (s : State) (areas : List Nat) : fuses (sendAreas s areas) = fuses s := by
  unfold sendAreas
  simp only [↓fuses_recordSent, ↓fuses_sendArea, ↓fuses_foldl, implies_true, ↓fuses_ite, ite_self]

theorem fuses_sendSafe (s : State) (areas : List Nat) : fuses (sendSafe s areas) = fuses s := by
  unfold sendSafe
  simp only [↓fuses_recordSent, ↓fuses_sendArea, ↓fuses_foldl, implies_true]

theorem fuses_emitUnowned (s : State) : fuses (emitUnowned s) = fuses s := by
  unfold emitUnowned
  simp only [↓fuses_sendSafe]

/-! ### Machine/ChartOps -/

theorem fuses_modCharts (s : State) (f : Charts → Charts) : fuses (modCharts s f) = fuses s := (rfl)

theorem fuses_raiseEvent (s : State) (b : Word) : fuses (raiseEvent s b) = fuses s := (rfl)

theorem fuses_setReq (s : State) (r : ChgReq) : fuses (setReq s r) = fuses s := (rfl)

theorem fuses_cancelReq (s : State) : fuses (cancelReq s) = fuses s := by
  unfold cancelReq
  dsimp only
  repeat' split
  all_goals simp only [↓fuses_doneNowOpt, ↓fuses_modCharts, ↓fuses_setReq]

theorem fuses_logDiscard (s : State) (chart code : Nat) : fuses (logDiscard s chart code) = fuses s := by
  unfold logDiscard
  simp only [↓fuses_log]

theorem fuses_requestChg (s : State) (c : Nat) : fuses (requestChg s c) = fuses s := by
  unfold requestChg
  repeat' split
  all_goals simp only [↓fuses_logDiscard, ↓fuses_cancelReq, ↓fuses_setReq, ↓fuses_modSched]

theorem fuses_requestSelect (s : State) (c : Nat) (ref : CmdRef) : fuses (requestSelect s c ref) = fuses s := by
  unfold requestSelect
  repeat' split
  all_goals simp only [↓fuses_modCharts, ↓fuses_doneNow, ↓fuses_cancelReq, ↓fuses_log, ↓fuses_doneNowOpt, ↓fuses_setReq]

theorem fuses_requestRefresh (s : State) : fuses (requestRefresh s) = fuses s := by
  unfold requestRefresh
  repeat' split
  all_goals simp only [↓fuses_modCharts, ↓fuses_setReq]

theorem fuses_withdrawChg (s : State) (sc : Scan) : fuses (withdrawChg s sc) = fuses s := by
  unfold withdrawChg
  dsimp only
  repeat' split
  all_goals simp only [↓fuses_modCharts]

theorem fuses_swapInputs (old : Nat → Nat) (s : State) : fuses (swapInputs old s) = fuses s := by
  unfold swapInputs
  simp only [↓fuses_modField]

theorem fuses_swapGangs (old : Nat → Nat) (s : State) : fuses (swapGangs old s) = fuses s := by
  unfold swapGangs
  simp only [↓fuses_setDo, ↓fuses_foldl, implies_true, ↓fuses_ite, ite_self]

theorem fuses_swapDisplay (was s : State) : fuses (swapDisplay was s) = fuses s := by
  unfold swapDisplay
  repeat' split
  all_goals simp only [↓fuses_modDsp, ↓fuses_sendFrame]

theorem fuses_holdSealValues (before s : State) : fuses (holdSealValues before s) = fuses s := by
  unfold holdSealValues
  split
  all_goals simp only [↓fuses_setPar, ↓fuses_foldl, implies_true, ↓fuses_mk, fuses_fold]

theorem fuses_swapSettings (s : State) (c : Nat) : fuses (swapSettings s c) = fuses s := by
  unfold swapSettings
  simp only [↓fuses_loadChartParams, ↓fuses_modCharts, ↓fuses_holdSealValues, ↓fuses_swapGangs, ↓fuses_swapInputs,
    ↓fuses_loadSafeVals, ↓fuses_anaSwap, ↓fuses_busSwap, ↓fuses_swapDisplay, ↓fuses_applyForce, ↓fuses_foldl,
    implies_true, ↓fuses_mk, fuses_fold]

theorem fuses_followTasks (before : List Nat) (s : State) : fuses (followTasks before s) = fuses s := by
  unfold followTasks
  split
  all_goals simp only [↓fuses_modSched]

theorem fuses_releaseForce (s : State) (k : Nat) : fuses (releaseForce s k) = fuses s := (rfl)

theorem fuses_putHooks (s : State) (hs : List (Nat × Word)) : fuses (putHooks s hs) = fuses s := by
  unfold putHooks
  simp only [↓fuses_mk, fuses_fold]

/-! ### Machine/ScanCore -/

theorem fuses_modEng (s : State) (f : Engine → Engine) : fuses (modEng s f) = fuses s := (rfl)

theorem fuses_modRing (s : State) (f : Ring → Ring) : fuses (modRing s f) = fuses s := (rfl)

theorem fuses_modRun (s : State) (f : Scan → Scan) : fuses (modRun s f) = fuses s := (rfl)

theorem fuses_sealFaultAt (s : State) (line : Nat) : fuses (sealFaultAt s line) = fuses s := by
  unfold sealFaultAt
  simp only [↓fuses_raiseFault]

theorem fuses_spillAt (s : State) (pos : Nat) : fuses (spillAt s pos).2 = fuses s := by
  unfold spillAt
  split
  all_goals simp only [↓fuses_modTask, ↓fuses_modEng]

theorem fuses_dropWindows (s : State) (t : Nat) : fuses (dropWindows s t) = fuses s := by
  unfold dropWindows
  simp only [↓fuses_modTask, ↓fuses_modEng]

theorem fuses_beginExecute (s : State) (t : Nat) (wpos : BitVec 4) : fuses (beginExecute s t wpos) = fuses s := by
  unfold beginExecute
  simp only [↓fuses_spillAt, ↓fuses_dropWindows, ↓fuses_modEng]

theorem fuses_answerRun (s : State) (start : Option Nat) : fuses (answerRun s start) = fuses s := by
  unfold answerRun
  dsimp only [State.draw]
  repeat' split
  all_goals simp only [↓fuses_doneNow, ↓fuses_mk, fuses_fold]

theorem fuses_startScan (s : State) (t ready promise : Nat) (wpos : BitVec 4) :
    fuses (startScan s t ready promise wpos) = fuses s := by
  unfold startScan
  simp only [↓fuses_modSched, ↓fuses_wdSyncMode, ↓fuses_beginExecute, ↓fuses_acquire, ↓fuses_answerRun]

theorem fuses_restoreContext (s : State) (t : Nat) (c : Context) : fuses (restoreContext s t c) = fuses s := by
  unfold restoreContext
  split
  all_goals simp only [↓fuses_modTask, ↓fuses_mk, fuses_fold]

theorem fuses_showOwnerErr (s : State) (b : Bool) : fuses (showOwnerErr s b) = fuses s := (rfl)

theorem fuses_resumeScan (s : State) (sc : Scan) (c : Context) (rest : List (Scan × Context)) :
    fuses (resumeScan s sc c rest) = fuses s := (rfl)

theorem fuses_dropWaiting (s : State) (t : Nat) : fuses (dropWaiting s t) = fuses s := (rfl)

theorem fuses_preemptNow (s : State) : fuses (preemptNow s) = fuses s := by
  unfold preemptNow
  repeat' split
  all_goals simp only [↓fuses_modSched, ↓fuses_startScan, ↓fuses_dropWaiting]

theorem fuses_runNext (s : State) : fuses (runNext s) = fuses s := by
  unfold runNext
  repeat' split
  all_goals simp only [↓fuses_startScan, ↓fuses_dropWaiting, ↓fuses_resumeScan]

theorem fuses_openRound (s : State) : fuses (openRound s) = fuses s := (rfl)

theorem fuses_closeRound (s : State) : fuses (closeRound s) = fuses s := by
  unfold closeRound
  split
  all_goals simp only [↓fuses_modSched]

theorem fuses_skipScan (s : State) (t : Nat) : fuses (skipScan s t) = fuses s := (rfl)

theorem fuses_dieOff (s : State) (m : PowerMode) : fuses (dieOff s m) = fuses s := (rfl)

theorem fuses_dormantLine (s : State) (l : Line) : fuses (dormantLine s l) = fuses s := by
  unfold dormantLine
  split
  all_goals simp only [↓fuses_modLine, ↓fuses_dropFrames]

theorem fuses_goDormant (s : State) (mask : BitVec 16) : fuses (goDormant s mask) = fuses s := by
  unfold goDormant
  simp only [↓fuses_dormantLine, ↓fuses_applySafe, ↓fuses_anaLockout, ↓fuses_modDsp, ↓fuses_cutUpdate, ↓fuses_modPower,
    ↓fuses_dieOff]

theorem fuses_handoverAfter (s : State) : fuses (handoverAfter s) = fuses s := by
  unfold handoverAfter
  dsimp only
  split
  all_goals simp only [↓fuses_modSched, ↓fuses_sendHandover]

theorem fuses_handoverIfIdle (s : State) : fuses (handoverIfIdle s) = fuses s := by
  unfold handoverIfIdle
  split
  all_goals simp only [↓fuses_handoverAfter]

theorem fuses_armSealing (s : State) : fuses (armSealing s) = fuses s := (rfl)

theorem fuses_takeSealing (s : State) : fuses (takeSealing s) = fuses s := by
  unfold takeSealing
  simp only [↓fuses_setPar, ↓fuses_foldl, implies_true, ↓fuses_mk, fuses_fold]

theorem fuses_beginSeal (s : State) (sc : Scan) : fuses (beginSeal s sc) = fuses s := by
  unfold beginSeal
  simp only [↓fuses_modCharts, ↓fuses_modSched, ↓fuses_armSealing, ↓fuses_ite, ite_self]

theorem fuses_watchReply (s : State) (sealTb : Nat) (c : CmdRef) (ch : List Nat) :
    fuses (watchReply s sealTb c ch) = fuses s := by
  unfold watchReply
  simp only [↓fuses_doneNow]

theorem fuses_answerWatches (s : State) (t : Nat) (changed : Nat → Bool) : fuses (answerWatches s t changed) = fuses s := by
  unfold answerWatches
  simp only [↓fuses_watchReply, ↓fuses_modSched, ↓fuses_foldl, implies_true]

theorem fuses_reEmitOwned (s : State) : fuses (reEmitOwned s) = fuses s := by
  unfold reEmitOwned
  simp only [↓fuses_putItem, ↓fuses_sendAreas, ↓fuses_emitAreas, ↓fuses_foldl, implies_true]

/-! ### Machine/Operands -/

theorem fuses_notePmovr (s : State) : fuses (notePmovr s) = fuses s := by
  unfold notePmovr
  repeat' split
  all_goals simp only [↓fuses_log, ↓fuses_modRun]

/-! ### Machine/Resume -/

theorem fuses_keepHandoverReq (s : State) : fuses (keepHandoverReq s) = fuses s := by
  unfold keepHandoverReq
  split
  all_goals simp only [↓fuses_recordSent]

theorem fuses_reEmitAll (s : State) : fuses (reEmitAll s) = fuses s := by
  unfold reEmitAll
  simp only [↓fuses_emitUnowned, ↓fuses_reEmitOwned, ↓fuses_keepHandoverReq, ↓fuses_modField]

theorem fuses_resumeRecovery (s : State) : fuses (resumeRecovery s) = fuses s := by
  unfold resumeRecovery
  split
  all_goals simp only [↓fuses_applySafe, ↓fuses_modSched, ↓fuses_mk, fuses_fold]

theorem fuses_wdApply (s : State) : fuses (wdApply s) = fuses s := by
  unfold wdApply
  simp only [↓fuses_wdSetLock, ↓fuses_wdEnable, ↓fuses_modWd, ↓fuses_ite, ite_self]

theorem fuses_startHealth (s : State) : fuses (startHealth s) = fuses s := by
  unfold startHealth
  repeat' split
  all_goals rfl

theorem fuses_finishStart (s : State) : fuses (finishStart s) = fuses s := by
  unfold finishStart
  simp only [↓fuses_openPorts, ↓fuses_syncMode, ↓fuses_modPower, ↓fuses_wdApply, ↓fuses_startLine, ↓fuses_startHealth]

/-! ### Machine/SlotOps -/

theorem fuses_pendEdit (s : State) (slot : Nat) (e : EditImage) : fuses (pendEdit s slot e) = fuses s := (rfl)

theorem fuses_logForceSet (s : State) (owner : Nat) (f : Force) : fuses (logForceSet s owner f) = fuses s := by
  unfold logForceSet
  simp only [↓fuses_log]

theorem fuses_logForceRelease (s : State) (owner k : Nat) : fuses (logForceRelease s owner k) = fuses s := by
  unfold logForceRelease
  simp only [↓fuses_log]

theorem fuses_putForce (s : State) (f : Force) : fuses (putForce s f) = fuses s := by
  unfold putForce
  simp only [↓fuses_applyForce, ↓fuses_mk, fuses_fold]

theorem fuses_writeItem (s : State) (x : Nat × Tagged) : fuses (writeItem s x) = fuses s := by
  unfold writeItem
  simp only [↓fuses_storeItem, ↓fuses_ite, ite_self]

/-! ### Machine/ScanRows -/

theorem fuses_scanReadyOp (s : State) : fuses (scanReadyOp s) = fuses s := by
  unfold scanReadyOp
  dsimp only
  repeat' split
  all_goals simp only [↓fuses_runNext, ↓fuses_openRound, ↓fuses_closeRound, ↓fuses_modSched, ↓fuses_skipScan,
    ↓fuses_startScan]

theorem fuses_releaseOp (s : State) (t : Nat) : fuses (releaseOp s t) = fuses s := by
  unfold releaseOp
  simp only [↓fuses_skipScan, ↓fuses_modSched, ↓fuses_runNext, ↓fuses_preemptNow, ↓fuses_ite, ite_self]

/-! ### Machine/Admission -/

theorem fuses_addBooking (s : State) (r : CmdRef) (b : Booking) : fuses (addBooking s r b) = fuses s := by
  unfold addBooking
  split
  all_goals simp only [↓fuses_mk, fuses_fold]

theorem fuses_dropBooking (s : State) (b : Booking) : fuses (dropBooking s b) = fuses s := by
  unfold dropBooking
  split
  all_goals simp only [↓fuses_mk, fuses_fold]

theorem fuses_placeReserved (s : State) (x : Cmd) (r : List Byte) : fuses (placeReserved s x r) = fuses s := by
  unfold placeReserved
  simp only [↓fuses_updCmd, ↓fuses_unreserve, ↓fuses_place]

theorem fuses_reserveTx (s : State) (x : Cmd) (n : Nat) : fuses (reserveTx s x n) = fuses s := by
  unfold reserveTx
  simp only [↓fuses_updCmd, ↓fuses_setPort]

theorem fuses_takeBookings (s : State) (x : Cmd) (b : Booking) (later : List Booking) :
    fuses (takeBookings s x b later) = fuses s := by
  unfold takeBookings
  split
  all_goals simp only [↓fuses_reserveTx, ↓fuses_updCmd, ↓fuses_placeReserved]

theorem fuses_acceptStage (s : State) (x : Cmd) (bs : List Booking) : fuses (acceptStage s x bs) = fuses s := by
  unfold acceptStage
  split
  all_goals simp only [↓fuses_takeBookings, ↓fuses_addBooking, ↓fuses_foldl, implies_true]

theorem fuses_holdStage (s : State) (x : Cmd) (res : BitVec 8) (earliest : Nat) :
    fuses (holdStage s x res earliest) = fuses s := by
  unfold holdStage
  simp only [↓fuses_updCmd, ↓fuses_placeReserved]

theorem fuses_nextStage (s : State) (x : Cmd) : fuses (nextStage s x) = fuses s := by
  unfold nextStage
  dsimp only
  repeat' split
  all_goals simp only [↓fuses_freeEnergy, ↓fuses_updCmd, ↓fuses_takeBookings, ↓fuses_acceptStage, ↓fuses_holdStage]

theorem fuses_cancelCmd (s : State) (x : Cmd) : fuses (cancelCmd s x) = fuses s := by
  unfold cancelCmd
  simp only [↓fuses_removeCmd, ↓fuses_dropBooking, ↓fuses_foldl, implies_true]

theorem fuses_ageOut (s : State) (x : Cmd) (reason : BitVec 8) : fuses (ageOut s x reason) = fuses s := by
  unfold ageOut
  simp only [↓fuses_finishNow]

theorem fuses_pruneBookings (s : State) : fuses (pruneBookings s) = fuses s := (rfl)

theorem fuses_takeShares (s : State) : fuses (takeShares s) = fuses s := by
  unfold takeShares
  simp only [↓fuses_setPar, ↓fuses_mk, fuses_fold, ↓fuses_ite, ite_self]

/-! ### Machine/ParamCore -/

theorem fuses_takeValue (s : State) (pid : Nat) (v : Option Nat) : fuses (takeValue s pid v) = fuses s := by
  unfold takeValue
  repeat' split
  all_goals simp only [↓fuses_setPar, ↓fuses_modHost, ↓fuses_wdApply]

theorem fuses_takeValues (s : State) (k : Applies) : fuses (takeValues s k) = fuses s := by
  unfold takeValues
  simp only [↓fuses_takeValue, ↓fuses_foldl, implies_true, ↓fuses_mk, fuses_fold]

theorem fuses_addWaits (s : State) (es : List (Nat × Option Nat)) : fuses (addWaits s es) = fuses s := (rfl)

theorem fuses_awaitSeal (s : State) : fuses (awaitSeal s) = fuses s := (rfl)

theorem fuses_commitSeal (s : State) : fuses (commitSeal s) = fuses s := by
  unfold commitSeal
  split
  all_goals simp only [↓fuses_awaitSeal, ↓fuses_takeValues]

theorem fuses_takeSealValues (s : State) : fuses (takeSealValues s) = fuses s := by
  unfold takeSealValues
  simp only [↓fuses_takeValues, ↓fuses_takeValue, ↓fuses_foldl, implies_true, ↓fuses_mk, fuses_fold]

theorem fuses_committedNow (s : State) : fuses (committedNow s) = fuses s := by
  unfold committedNow
  simp only [↓fuses_commitSeal, ↓fuses_takeValues, ↓fuses_requestRefresh, ↓fuses_ite, ite_self]

/-! ### Machine/HostLink -/

theorem fuses_echo (s : State) (p : Port) (bs : List Byte) (status reason : BitVec 8) (detail : Nat) :
    fuses (echo s p bs status reason detail) = fuses s := by
  unfold echo
  split
  all_goals simp only [↓fuses_place]

theorem fuses_receive (s : State) (p : Port) (bytes : List Byte) : fuses (receive s p bytes) = fuses s := by
  unfold receive
  simp only [↓fuses_setPort, ↓fuses_echo, ↓fuses_ite, ite_self]

theorem fuses_spiOut (s : State) (bs : List Byte) : fuses (spiOut s bs) = fuses s := (rfl)

theorem fuses_putOp (now : Tb) (bytes : List Byte) (s : State) : fuses (putOp now bytes s) = fuses s := by
  unfold putOp
  simp only [↓fuses_receive, ↓fuses_spiOut, ↓fuses_at]

theorem fuses_takeOp (now : Tb) (n : Nat) (s : State) : fuses (takeOp now n s) = fuses s := (rfl)

theorem fuses_repeatOp (now : Tb) (n : Nat) (s : State) : fuses (repeatOp now n s) = fuses s := (rfl)

theorem fuses_breakOp (s : State) (durUs : Nat) : fuses (breakOp s durUs) = fuses s := by
  unfold breakOp
  repeat' split
  all_goals simp only [↓fuses_modHost]

theorem fuses_maintByteOp (s : State) (b : Byte) : fuses (maintByteOp s b) = fuses s := by
  unfold maintByteOp
  simp only [↓fuses_receive, ↓fuses_modHost, ↓fuses_ite, ite_self]

theorem fuses_partialTimeout (s : State) (p : Port) : fuses (partialTimeout s p) = fuses s := by
  unfold partialTimeout
  simp only [↓fuses_setPort, ↓fuses_echo, ↓fuses_ite, ite_self]

theorem fuses_endSession (s : State) : fuses (endSession s) = fuses s := (rfl)

theorem fuses_afterRefusal (s : State) (i : Instr) : fuses (afterRefusal s i) = fuses s := by
  unfold afterRefusal
  split
  all_goals simp only [↓fuses_modHost]

theorem fuses_takeCmd (s : State) (x : Ask) (k : Packet) (bs : List Byte) (i : Instr) :
    fuses (takeCmd s x k bs i).1 = fuses s := by
  unfold takeCmd
  split
  all_goals simp only [↓fuses_modHost, ↓fuses_mk, fuses_fold]

theorem fuses_admitPacket (s : State) (p : Port) (k : Packet) (bs : List Byte) (i : Instr) :
    fuses (admitPacket s p k bs i) = fuses s := by
  unfold admitPacket
  dsimp only
  split
  all_goals simp only [↓fuses_takeCmd, ↓fuses_acceptStage, ↓fuses_reserveTx, ↓fuses_holdStage, ↓fuses_afterRefusal,
    ↓fuses_place]

theorem fuses_noteSession (s : State) (p : Port) : fuses (noteSession s p) = fuses s := by
  unfold noteSession
  simp only [↓fuses_modHost]

theorem fuses_arrive (s : State) (p : Port) : fuses (arrive s p) = fuses s := by
  unfold arrive
  dsimp only
  repeat' split
  all_goals simp only [↓fuses_noteSession, ↓fuses_setPort, ↓fuses_echo, ↓fuses_afterRefusal, ↓fuses_admitPacket]

theorem fuses_beginWork (s : State) (c : CmdRef) : fuses (beginWork s c) = fuses s := (rfl)

theorem fuses_emptyTarget (s : State) (u : Update) : fuses (emptyTarget s u) = fuses s := by
  unfold emptyTarget
  repeat' split
  all_goals rfl

theorem fuses_energyRefused (s : State) (c : CmdRef) (i : Instr) : fuses (energyRefused s c i) = fuses s := by
  unfold energyRefused
  dsimp only
  split
  all_goals simp only [↓fuses_afterRefusal, ↓fuses_refuseState, ↓fuses_emptyTarget]

theorem fuses_frankStage (s : State) (x : Cmd) : fuses (frankStage s x) = fuses s := by
  unfold frankStage
  dsimp only
  repeat' split
  all_goals simp only [↓fuses_requestAborted, ↓fuses_setPort, ↓fuses_finishNow, ↓fuses_afterRefusal, ↓fuses_updCmd,
    ↓fuses_nextStage]

theorem fuses_drawToken (s : State) : fuses (drawToken s).2 = fuses s := (rfl)

theorem fuses_beginSession (s : State) (x : Cmd) : fuses (beginSession s x) = fuses s := by
  unfold beginSession
  dsimp only [State.draw]
  simp only [↓fuses_drawToken, ↓fuses_updCmd, ↓fuses_finishNow, ↓fuses_modHost]

theorem fuses_finishClaim (s : State) (x : Cmd) (lost : List Byte) : fuses (finishClaim s x lost) = fuses s := by
  unfold finishClaim
  repeat' split
  all_goals simp only [↓fuses_place, ↓fuses_beginSession, ↓fuses_endSession]

theorem fuses_placeResult (s : State) (x : Cmd) (r : CmdResult) : fuses (placeResult s x r) = fuses s := by
  unfold placeResult
  repeat' split
  all_goals simp only [↓fuses_finishNow, ↓fuses_beginSession, ↓fuses_endSession, ↓fuses_finishClaim, ↓fuses_removeCmd,
    ↓fuses_placeReserved]

theorem fuses_takeBaud (s : State) : fuses (takeBaud s) = fuses s := by
  unfold takeBaud
  split
  all_goals simp only [↓fuses_modHost]

theorem fuses_maintSent (s : State) : fuses (maintSent s) = fuses s := by
  unfold maintSent
  repeat' split
  all_goals simp only [↓fuses_modHost, ↓fuses_takeBaud]

theorem fuses_idleTimeout (s : State) : fuses (idleTimeout s) = fuses s := by
  unfold idleTimeout
  repeat' split
  all_goals simp only [↓fuses_endSession]

theorem fuses_removeUnstarted (s : State) (keep : CmdRef) : fuses (removeUnstarted s keep).1 = fuses s := by
  unfold removeUnstarted
  simp only [↓fuses_cancelCmd, ↓fuses_foldl, implies_true]

theorem fuses_cancelSeq (s : State) (c : CmdRef) (q : BitVec 16) : fuses (cancelSeq s c q).2 = fuses s := by
  unfold cancelSeq
  repeat' split
  all_goals simp only [↓fuses_cancelCmd]

/-! ### Machine/ImageCmds -/

theorem fuses_queueSlot (s : State) (w : SlotWork) : fuses (queueSlot s w) = fuses s := by
  unfold queueSlot
  split
  all_goals simp only [↓fuses_modSched]

theorem fuses_watchExpired (s : State) (c : CmdRef) : fuses (watchExpired s c) = fuses s := by
  unfold watchExpired
  repeat' split
  all_goals simp only [↓fuses_doneNow, ↓fuses_modSched]

/-! ### Machine/ProgCmds -/

theorem fuses_storeSegment (s : State) (c : CmdRef) (op : BitVec 16) (g : Segment) :
    fuses (storeSegment s c op g) = fuses s := by
  unfold storeSegment
  simp only [↓fuses_done, ↓fuses_modHost]

theorem fuses_dropRequests (s : State) : fuses (dropRequests s) = fuses s := by
  unfold dropRequests
  simp only [↓fuses_modCharts, ↓fuses_doneNow, ↓fuses_foldl, implies_true]

theorem fuses_loadProgram (s : State) (slot : Nat) (img : ProgImage) : fuses (loadProgram s slot img) = fuses s := by
  unfold loadProgram
  simp only [↓fuses_setProgSlot, ↓fuses_modSched, ↓fuses_modRing, ↓fuses_swapSettings, ↓fuses_mk, fuses_fold]

theorem fuses_clearHeld (s : State) : fuses (clearHeld s) = fuses s := by
  unfold clearHeld
  dsimp only
  split
  all_goals simp only [↓fuses_putItem, ↓fuses_mk, fuses_fold]

/-! ### Machine/ChartCmds -/

theorem fuses_setChart (s : State) (c : Nat) (f : ChartSlot → ChartSlot) : fuses (setChart s c f) = fuses s := (rfl)

theorem fuses_writeCopy (s : State) (chart : Nat) (f : ChartCopy → ChartCopy) : fuses (writeCopy s chart f) = fuses s := (rfl)

theorem fuses_writeHeader (s : State) (chart : Nat) (bs : List Byte) : fuses (writeHeader s chart bs) = fuses s := (rfl)

theorem fuses_dropForces (s : State) (owner : Nat) : fuses (dropForces s owner) = fuses s := by
  unfold dropForces
  simp only [↓fuses_logForceRelease, ↓fuses_releaseForce, ↓fuses_foldl, implies_true]

theorem fuses_clearStore (s : State) (owner : Nat) : fuses (clearStore s owner) = fuses s := by
  unfold clearStore
  simp only [↓fuses_modTwin, ↓fuses_modRing, ↓fuses_modClock, ↓fuses_committedNow, ↓fuses_addWaits, ↓fuses_dropForces,
    ↓fuses_loadTrims, ↓fuses_mk, fuses_fold]

/-! ### Machine/PStore -/

theorem fuses_groupWrite {s t : State} {ws : List PWrite} (h : groupWrite s ws = some t) : fuses t = fuses s := by
  unfold groupWrite at h
  split at h
  · obtain rfl := Option.some.inj h
    exact fuses_mirrorGroup ..
  · cases h

theorem fuses_groupWriteOr (s : State) (ws : List PWrite) : fuses ((groupWrite s ws).getD s) = fuses s := by
  cases h : groupWrite s ws with
  | none => rfl
  | some t => exact fuses_groupWrite h

/-! ### Machine/TwinCore -/

theorem fuses_writeTerm (s : State) : fuses (writeTerm s) = fuses s := (fuses_groupWriteOr _ _).trans rfl

/-! ### Machine/Start -/

theorem fuses_rejectSlot (s : State) (i : Nat) : fuses (rejectSlot s i) = fuses s := by
  unfold rejectSlot
  simp only [↓fuses_log, ↓fuses_setFwSlot]

theorem fuses_chooseFirmware (n : Nat) (s : State) : fuses (chooseFirmware n s).2 = fuses s := by
  induction n generalizing s with
  | zero => rfl
  | succ n ih =>
    unfold chooseFirmware
    split
    · rfl
    · split
      · rfl
      · exact (ih _).trans (fuses_rejectSlot ..)

theorem fuses_bootFirmware (s : State) : fuses (bootFirmware s) = fuses s := by
  unfold bootFirmware
  have hchoice := fuses_chooseFirmware 2 (restoreSnapshot (rejectTrial (rejectTrial s 0) 1))
  simp only [↓fuses_restoreSnapshot, ↓fuses_rejectTrial] at hchoice
  split
  next i u hu =>
    rw [hu] at hchoice
    split <;> exact hchoice
  next u hu =>
    rw [hu] at hchoice
    split
    · exact hchoice
    · exact (fuses_log ..).trans hchoice

theorem fuses_closeUpdates (s : State) : fuses (closeUpdates s) = fuses s := by
  unfold closeUpdates
  split
  · rfl
  next u _ =>
    extract_lets built discarded
    have hbuilt : fuses built = fuses s := by
      simp only [built]
      split <;> exact fuses_unbuilt ..
    have hdiscarded : fuses discarded = fuses s := by
      simp only [discarded]
      split
      · exact (fuses_log ..).trans hbuilt
      · rfl
    split <;> exact hdiscarded

theorem fuses_readKeys (s : State) : fuses (readKeys s) = fuses s := by
  unfold readKeys
  extract_lets copies r vals use t
  have huse : ∀ u k, fuses (use u k) = fuses u := fun _ _ => rfl
  have ht : fuses t = fuses s := by
    simp only [t]
    split
    · exact fuses_log ..
    · rfl
  split
  · exact (fuses_log ..).trans (huse _ _)
  · exact (huse _ _).trans ht

/-! ### Machine/ChartOps -/

theorem fuses_replayDeferred (s : State) : fuses (replayDeferred s) = fuses s := by
  unfold replayDeferred
  refine (fuses_foldl (fun t r => ?_) _ _).trans (fuses_modCharts ..)
  split
  · exact fuses_requestSelect ..
  · rfl
  · exact fuses_requestRefresh ..

/-! ### Machine/ScanCore -/

theorem fuses_stateRecord (s : State) (sub : StateKind) (lines : List (Nat × RingLine)) :
    fuses (stateRecord s sub lines) = fuses s := by
  unfold stateRecord
  split
  next h => exact fuses_ringAppend h
  · exact fuses_sealFaultAt ..

theorem fuses_completeSeal (s : State) (sc : Scan) : fuses (completeSeal s sc) = fuses s := by
  unfold completeSeal
  dsimp only
  split
  · exact fuses_sealFaultAt ..
  next u h =>
    refine Eq.trans ?_ (fuses_ringAppend h)
    split <;> simp only [↓fuses_modSched, ↓fuses_log, ↓fuses_modRing, ↓fuses_modCharts, ↓fuses_modTask,
      ↓fuses_answerWatches, ↓fuses_sealLine, ↓fuses_foldl, implies_true]

end Sys2Proof.Machine
end

section
/-!
PROOFS. What the operations of scans, commands, the pair, the field, buses and clocks leave of the fuses (R9, R636, R643).
-/
namespace Sys2Proof.Machine

open Sys2Proof

/-! ### Machine/ScanCore -/

theorem fuses_writeLearned (s : State) : fuses (writeLearned s) = fuses s := by
  unfold writeLearned
  dsimp only
  split
  · rfl
  next h => exact (fuses_modClock ..).trans (fuses_groupWrite h)

/-! ### Machine/Start -/

theorem fuses_dieStart (s : State) (kind : Nat) : fuses (dieStart s kind) = fuses s := by
  unfold dieStart
  simp only [↓fuses_anchor, ↓fuses_log, ↓fuses_newWindow, ↓fuses_refSync, ↓fuses_modClock, ↓fuses_startPanel,
    ↓fuses_ite, ↓fuses_markFieldSafe, ite_self, ↓fuses_loadSafeVals, ↓fuses_startWatchdog, ↓fuses_applyForces,
    ↓fuses_loadForces, ↓fuses_loadChartParams, ↓fuses_rebuild, ↓fuses_readCharts, ↓fuses_readKeys, ↓fuses_startTwin,
    ↓fuses_loadMarks, ↓fuses_modPower, ↓fuses_countPowerCycle, ↓fuses_loadGlobals, ↓fuses_readPStore, ↓fuses_closeUpdates,
    ↓fuses_bootFirmware, ↓fuses_checkBackup, ↓fuses_mk, fuses_fold, ↓fuses_cutUpdate]

/-! ### Machine/ChartOps -/

theorem fuses_swapChart (s : State) (r : ChgReq) (sealTb : Nat) : fuses (swapChart s r sealTb) = fuses s := by
  unfold swapChart
  simp only [↓fuses_replayDeferred, ↓fuses_followTasks, ↓fuses_log, ↓fuses_doneNowOpt, ↓fuses_raiseEvent,
    ↓fuses_modTasks, ↓fuses_modCharts, ↓fuses_emitUnowned, ↓fuses_swapSettings]

theorem fuses_applyEdit (s : State) (ref : CmdRef) (e : EditImage) (sealTb : Nat) :
    fuses (applyEdit s ref e sealTb) = fuses s := by
  unfold applyEdit
  extract_lets typed free hooked edited released fs listed n logged marked
  have hedited : fuses edited = fuses hooked := by
    simp only [edited]
    split
    · rfl
    · exact fuses_setProgSlot ..
  have hreleased : fuses released = fuses edited := by
    simp only [released, ↓fuses_log, ↓fuses_groupWriteOr, ↓fuses_releaseForce, ↓fuses_foldl, implies_true]
  simp only [↓fuses_doneNow, ↓fuses_modSched]
  simp only [marked, logged, ↓fuses_modTasks, ↓fuses_followTasks, ↓fuses_log]
  rw [hreleased, hedited]
  exact fuses_putHooks ..

/-! ### Machine/ScanCore -/

theorem fuses_changeIfIdle (s : State) : fuses (changeIfIdle s) = fuses s := by
  unfold changeIfIdle
  dsimp only
  split
  · split
    · split
      · exact fuses_sealFaultAt ..
      next h =>
        rw [fuses_modSched, fuses_reEmitOwned, fuses_swapChart, fuses_modRing]
        exact (fuses_ringAppend h).trans (fuses_modCharts ..)
    · rfl
  · rfl

theorem fuses_editIfIdle (s : State) : fuses (editIfIdle s) = fuses s := by
  unfold editIfIdle
  dsimp only
  split
  · split
    · split
      · exact fuses_sealFaultAt ..
      next h =>
        rw [fuses_applyEdit, fuses_modRing]
        exact fuses_ringAppend h
    · rfl
  · rfl

/-! ### Machine/ScanRows -/

theorem fuses_carryRecord (s : State) : fuses (carryRecord s) = fuses s := by
  unfold carryRecord
  dsimp only
  split
  next h => exact (fuses_modRing ..).trans (fuses_ringAppend h)
  · exact fuses_sealFaultAt ..

theorem fuses_carryOwedLines (n : Nat) (s : State) : fuses (carryOwedLines n s) = fuses s := by
  induction n generalizing s with
  | zero => rfl
  | succ n ih =>
    unfold carryOwedLines
    split
    · rfl
    · exact (ih _).trans (fuses_carryRecord s)

/-! ### Machine/SlotOps -/

theorem fuses_imageRecord (s : State) (seq i n : Nat) (lines : List Nat) : fuses (imageRecord s seq i n lines) = fuses s := by
  unfold imageRecord
  split
  next h => exact fuses_ringAppend h
  · exact fuses_sealFaultAt ..

/-! ### Machine/Start -/

theorem fuses_watchdogReset (s : State) : fuses (watchdogReset s) = fuses s := by
  unfold watchdogReset
  simp only [↓fuses_dieStart, ↓fuses_dieStop, ↓fuses_tearMarkers, ↓fuses_wdResetSteps]

/-! ### Machine/ScanCore -/

theorem fuses_programStops (s : State) (m : StopMode) (refs : List CmdRef) : fuses (programStops s m refs) = fuses s := by
  unfold programStops
  split
  all_goals simp only [↓fuses_modSched, ↓fuses_stateRecord, ↓fuses_answerRun, ↓fuses_applySafe, ↓fuses_doneNow,
    ↓fuses_syncMode, ↓fuses_foldl, implies_true, ↓fuses_mk, fuses_fold]

theorem fuses_enterBackup (s : State) : fuses (enterBackup s) = fuses s := by
  unfold enterBackup
  simp only [↓fuses_writeLearned, ↓fuses_sendHandover, ↓fuses_modDsp, ↓fuses_dieOff, ↓fuses_log, ↓fuses_dieStart,
    ↓fuses_ite, ite_self]

theorem fuses_gracefulReset (s : State) (kind : Nat) : fuses (gracefulReset s kind) = fuses s := by
  unfold gracefulReset
  split
  all_goals simp only [↓fuses_log, ↓fuses_dieStart, ↓fuses_dieStop, ↓fuses_modPower]

theorem fuses_finishStop (s : State) : fuses (finishStop s) = fuses s := by
  unfold finishStop
  repeat' split
  all_goals simp only [↓fuses_enterBackup, ↓fuses_goDormant, ↓fuses_gracefulReset]

theorem fuses_finishWaits (s : State) : fuses (finishWaits s) = fuses s := by
  unfold finishWaits
  split
  all_goals simp only [↓fuses_finishStop]

theorem fuses_stopIfDue (s : State) : fuses (stopIfDue s) = fuses s := by
  unfold stopIfDue
  repeat' split
  all_goals simp only [↓fuses_finishStop, ↓fuses_handoverIfIdle, ↓fuses_programStops]

theorem fuses_endScan (s : State) (sc : Scan) : fuses (endScan s sc) = fuses s := by
  unfold endScan
  extract_lets sent done closed swapped edited handed
  have hclosed : fuses closed = fuses s := by
    simp only [closed, done, sent, ↓fuses_modSched, ↓fuses_modTask, ↓fuses_takeSealing, ↓fuses_sendAreas]
  have hswapped : fuses swapped = fuses closed := by
    simp only [swapped]
    split
    · exact fuses_swapChart ..
    · rfl
  have hedited : fuses edited = fuses swapped := by
    simp only [edited]
    split
    · exact fuses_applyEdit ..
    · rfl
  have hhanded : fuses handed = fuses edited := by
    simp only [handed]
    split
    · exact fuses_handoverAfter ..
    · rfl
  simp only [↓fuses_stopIfDue, ↓fuses_runNext, ↓fuses_closeRound]
  rw [hhanded, hedited, hswapped, hclosed]

theorem fuses_overrunOp (s : State) (cause : OverrunCause) : fuses (overrunOp s cause) = fuses s := by
  unfold overrunOp
  dsimp only [State.draw]
  repeat' split
  all_goals simp only [↓fuses_modEng, ↓fuses_withdrawChg, ↓fuses_dropWindows, ↓fuses_log, ↓fuses_restoreLine,
    ↓fuses_modTask, ↓fuses_modSched, ↓fuses_stopIfDue, ↓fuses_runNext, ↓fuses_closeRound, ↓fuses_guardedStop,
    ↓fuses_foldl, implies_true]

theorem fuses_idleChanges (s : State) : fuses (idleChanges s) = fuses s := by
  unfold idleChanges
  simp only [↓fuses_editIfIdle, ↓fuses_changeIfIdle]

/-! ### Machine/Operands -/

theorem fuses_engineIllegal (s : State) : fuses (engineIllegal s) = fuses s := by
  unfold engineIllegal
  repeat' split
  all_goals simp only [↓fuses_overrunOp]

/-! ### Machine/Resume -/

theorem fuses_resumeStopped (s : State) (m : StopMode) : fuses (resumeStopped s m) = fuses s := by
  unfold resumeStopped
  split
  all_goals simp only [↓fuses_modSched, ↓fuses_stateRecord, ↓fuses_applySafe, ↓fuses_mk, fuses_fold]

theorem fuses_resumeProgram (s : State) (out : Option Nat) : fuses (resumeProgram s out) = fuses s := by
  unfold resumeProgram
  simp only [↓fuses_log, ↓fuses_modSched, ↓fuses_modTasks, ↓fuses_resumeStopped, ↓fuses_ite, ite_self]

theorem fuses_resumeUnusable (s : State) (chart : Nat) : fuses (resumeUnusable s chart) = fuses s := by
  unfold resumeUnusable
  simp only [↓fuses_log, ↓fuses_modCharts, ↓fuses_resumeStopped, ↓fuses_applySafe, ↓fuses_modSched, ↓fuses_ite,
    ite_self]

theorem fuses_resumeNow (s : State) : fuses (resumeNow s) = fuses s := by
  unfold resumeNow
  dsimp only
  repeat' split
  all_goals simp only [↓fuses_resumeRecovery, ↓fuses_modRing, ↓fuses_stateRecord, ↓fuses_modField, ↓fuses_emitUnowned,
    ↓fuses_applySafe, ↓fuses_modSched, ↓fuses_resumeUnusable, ↓fuses_reEmitAll, ↓fuses_swapChart, ↓fuses_resumeProgram]

theorem fuses_reEmitOp (s : State) : fuses (reEmitOp s) = fuses s := by
  unfold reEmitOp
  repeat' split
  all_goals simp only [↓fuses_finishStart, ↓fuses_resumeNow, ↓fuses_openPorts, ↓fuses_syncMode, ↓fuses_modPower,
    ↓fuses_wdApply, ↓fuses_startLine, ↓fuses_startHealth]

/-! ### Machine/SlotOps -/

theorem fuses_imageRecords (s : State) (seq : Nat) (lines : List Nat) : fuses (imageRecords s seq lines) = fuses s := by
  unfold imageRecords
  simp only [↓fuses_imageRecord, ↓fuses_foldl, implies_true]

/-! ### Machine/ScanRows -/

theorem fuses_carryForSeals (s : State) : fuses (carryForSeals s) = fuses s := by
  unfold carryForSeals
  simp only [↓fuses_carryOwedLines]

/-! ### Machine/ParamCmds -/

theorem fuses_takesEffect (s : State) (k : Applies) : fuses (takesEffect s k) = fuses s := by
  unfold takesEffect
  repeat' split
  all_goals simp only [↓fuses_takeValues, ↓fuses_takeSealValues, ↓fuses_changeIfIdle]

/-! ### Machine/ProgCmds -/

theorem fuses_beginEdit (s : State) (c : CmdRef) (g : Segment) : fuses (beginEdit s c g) = fuses s := by
  unfold beginEdit
  dsimp only
  repeat' split
  all_goals simp only [↓fuses_modHost, ↓fuses_mirrorImage, ↓fuses_modSched, ↓fuses_pendEdit, ↓fuses_queueSlot,
    ↓fuses_idleChanges, ↓fuses_waitFor, ↓fuses_refuseState, ↓fuses_mk, fuses_fold]

theorem fuses_progRunOp (s : State) (c : CmdRef) : fuses (progRunOp s c) = fuses s := by
  unfold progRunOp
  simp only [↓fuses_clearHeld, ↓fuses_modTasks, ↓fuses_modSched, ↓fuses_stateRecord, ↓fuses_syncMode, ↓fuses_waitFor,
    ↓fuses_answerRun, ↓fuses_mk, fuses_fold, ↓fuses_ite, ite_self]

theorem fuses_progStopOp (s : State) (c : CmdRef) (mode : Nat) : fuses (progStopOp s c mode) = fuses s := by
  unfold progStopOp
  repeat' split
  all_goals simp only [↓fuses_refuseState, ↓fuses_done, ↓fuses_modSched, ↓fuses_applySafe, ↓fuses_stateRecord,
    ↓fuses_idleChanges, ↓fuses_stopIfDue, ↓fuses_waitFor]

/-! ### Machine/ChartCmds -/

theorem fuses_clearRing (s : State) : fuses (clearRing s) = fuses s := by
  unfold clearRing
  simp only [↓fuses_dropWatch, ↓fuses_stateRecord, ↓fuses_modRing, ↓fuses_applyForces, ↓fuses_mk, fuses_fold]

/-! ### Machine/Units -/

theorem fuses_islandDownOp (s : State) (c : Nat) : fuses (islandDownOp s c) = fuses s := by
  unfold islandDownOp
  simp only [↓fuses_modAna]

theorem fuses_displayDownOp (s : State) : fuses (displayDownOp s) = fuses s := by
  unfold displayDownOp
  simp only [↓fuses_modDsp, ↓fuses_cutUpdate]

theorem fuses_lineDownOp (s : State) (l : Line) : fuses (lineDownOp s l) = fuses s := by
  unfold lineDownOp
  simp only [↓fuses_modLine, ↓fuses_mk, fuses_fold]

theorem fuses_twinDownOp (s : State) : fuses (twinDownOp s) = fuses s := by
  unfold twinDownOp
  repeat' split
  all_goals simp only [↓fuses_dropWatch, ↓fuses_setPair, ↓fuses_modTwin]

theorem fuses_unitDownOp (s : State) (u : Nat) : fuses (unitDownOp s u) = fuses s := by
  unfold unitDownOp
  repeat' split
  all_goals simp only [↓fuses_lineDownOp, ↓fuses_twinDownOp, ↓fuses_cutUpdate, ↓fuses_modAna, ↓fuses_modField,
    ↓fuses_displayDownOp, ↓fuses_islandDownOp, ↓fuses_foldl, implies_true]

theorem fuses_closeUnit (s : State) (u cause : Nat) (ref : Option CmdRef) : fuses (closeUnit s u cause ref) = fuses s := by
  unfold closeUnit
  split
  all_goals simp only [↓fuses_abortedBy, ↓fuses_unitDownOp, ↓fuses_finishWaits, ↓fuses_modPower, ↓fuses_foldl,
    implies_true]

theorem fuses_resendField (s : State) : fuses (resendField s) = fuses s := by
  unfold resendField
  simp only [↓fuses_sendArea, ↓fuses_foldl, implies_true, ↓fuses_ite, ite_self]

theorem fuses_lineUpOp (s : State) (l : Line) : fuses (lineUpOp s l) = fuses s := by
  unfold lineUpOp
  simp only [↓fuses_modLine, ↓fuses_log, ↓fuses_startLine, ↓fuses_ite, ite_self]

theorem fuses_islandUpOp (s : State) (c : Nat) : fuses (islandUpOp s c) = fuses s := by
  unfold islandUpOp
  simp only [↓fuses_modAna, ↓fuses_anaRestart, ↓fuses_sendArea, ↓fuses_ite, ite_self]

theorem fuses_clearNonces (s : State) : fuses (clearNonces s) = fuses s := (rfl)

theorem fuses_unitUpOp (s : State) (u : Nat) : fuses (unitUpOp s u) = fuses s := by
  unfold unitUpOp
  repeat' split
  all_goals simp only [↓fuses_lineUpOp, ↓fuses_resendField, ↓fuses_modField, ↓fuses_modDsp, ↓fuses_clearNonces,
    ↓fuses_islandUpOp]

theorem fuses_reopenUnit (s : State) (u : Nat) : fuses (reopenUnit s u) = fuses s := by
  unfold reopenUnit
  repeat' split
  all_goals simp only [↓fuses_modPower, ↓fuses_doneNowOpt, ↓fuses_unitUpOp]

theorem fuses_unitFaultOp (s : State) (u : Nat) : fuses (unitFaultOp s u) = fuses s := by
  unfold unitFaultOp
  simp only [↓fuses_raiseFault, ↓fuses_closeUnit, ↓fuses_modPower, ↓fuses_log, ↓fuses_ite, ite_self]

/-! ### Machine/DevCmds -/

theorem fuses_selfTestOp (s : State) (c : CmdRef) (unit : Nat) : fuses (selfTestOp s c unit) = fuses s := by
  unfold selfTestOp
  repeat' split
  all_goals simp only [↓fuses_abortedBy, ↓fuses_done, ↓fuses_mk, fuses_fold]

theorem fuses_actAfterReceipt (s : State) : fuses (actAfterReceipt s) = fuses s := by
  unfold actAfterReceipt
  dsimp only
  repeat' split
  all_goals simp only [↓fuses_modPower, ↓fuses_stopIfDue, ↓fuses_modSched, ↓fuses_gracefulReset]

/-! ### Machine/TwinOps -/

theorem fuses_noteLive (s : State) : fuses (noteLive s) = fuses s := (rfl)

theorem fuses_learnTerm (s : State) (term head : Nat) : fuses (learnTerm s term head) = fuses s := by
  unfold learnTerm
  split
  all_goals simp only [↓fuses_modTwin, ↓fuses_groupWriteOr]

theorem fuses_watchOutputs (s : State) : fuses (watchOutputs s) = fuses s := by
  unfold watchOutputs
  simp only [↓fuses_dspSafe, ↓fuses_sendSafe, ↓fuses_modField]

theorem fuses_takeDisplay (s : State) : fuses (takeDisplay s) = fuses s := (rfl)

theorem fuses_quietLine (s : State) (l : Line) : fuses (quietLine s l) = fuses s := by
  unfold quietLine
  simp only [↓fuses_modLine, ↓fuses_dropFrames]

theorem fuses_settleWatch (s : State) (p : PairState) : fuses (settleWatch s p) = fuses s := by
  unfold settleWatch
  simp only [↓fuses_setPair, ↓fuses_modTwin, ↓fuses_takeDisplay, ↓fuses_syncMode, ↓fuses_watchOutputs, ↓fuses_ite,
    ite_self]

theorem fuses_settleHelm (s : State) (p : PairState) : fuses (settleHelm s p) = fuses s := by
  unfold settleHelm
  simp only [↓fuses_writeTerm, ↓fuses_modTwin, ↓fuses_setPair, ↓fuses_syncMode, ↓fuses_finishStart, ↓fuses_resumeNow,
    ↓fuses_ite, ite_self]

theorem fuses_helloOp (s : State) (f : HelloFrame) : fuses (helloOp s f) = fuses s := by
  unfold helloOp
  dsimp only
  repeat' split
  all_goals simp only [↓fuses_noteLive, ↓fuses_modTwin, ↓fuses_setPair, ↓fuses_settleWatch, ↓fuses_settleHelm,
    ↓fuses_learnTerm]

theorem fuses_logVote (s : State) (outcome : Nat) : fuses (logVote s outcome) = fuses s := by
  unfold logVote
  split
  all_goals simp only [↓fuses_log]

theorem fuses_startVote (s : State) : fuses (startVote s) = fuses s := by
  unfold startVote
  simp only [↓fuses_settleHelm, ↓fuses_logVote, ↓fuses_settleWatch, ↓fuses_ite, ite_self]

theorem fuses_takeRound (s : State) (releases : Option (List (Nat × Nat))) : fuses (takeRound s releases) = fuses s := by
  unfold takeRound
  split
  all_goals simp only [↓fuses_modSched]

theorem fuses_takeLine (s : State) (l : Line) : fuses (takeLine s l) = fuses s := by
  unfold takeLine
  simp only [↓fuses_modLine]

theorem fuses_takeOutputs (s : State) : fuses (takeOutputs s) = fuses s := by
  unfold takeOutputs
  dsimp only
  repeat' split
  all_goals simp only [↓fuses_modField, ↓fuses_emitUnowned, ↓fuses_applySafe, ↓fuses_modSched, ↓fuses_resumeUnusable,
    ↓fuses_reEmitAll, ↓fuses_swapChart]

theorem fuses_blankShared (s : State) : fuses (blankShared s) = fuses s := (rfl)

theorem fuses_takeOver (s : State) (cause term : Nat) (releases : Option (List (Nat × Nat))) :
    fuses (takeOver s cause term releases) = fuses s := by
  unfold takeOver
  simp only [↓fuses_modTwin, ↓fuses_doneNow, ↓fuses_twinSend, ↓fuses_blankShared, ↓fuses_writeTerm,
    ↓fuses_takeOutputs, ↓fuses_applyForces, ↓fuses_setPair, ↓fuses_log, ↓fuses_syncMode, ↓fuses_takeLine,
    ↓fuses_takeRound, ↓fuses_foldl, implies_true]

theorem fuses_handoverOp (s : State) (f : HandoverFrame) : fuses (handoverOp s f) = fuses s := by
  unfold handoverOp
  repeat' split
  all_goals simp only [↓fuses_setPair, ↓fuses_takeOver]

theorem fuses_silenceVote (s : State) : fuses (silenceVote s) = fuses s := by
  unfold silenceVote
  simp only [↓fuses_setPair, ↓fuses_logVote, ↓fuses_takeOver, ↓fuses_ite, ite_self]

theorem fuses_watchSilent (s : State) : fuses (watchSilent s) = fuses s := by
  unfold watchSilent
  repeat' split
  all_goals simp only [↓fuses_takeOver, ↓fuses_silenceVote, ↓fuses_setPair]

theorem fuses_leaveHelm (s : State) : fuses (leaveHelm s) = fuses s := by
  unfold leaveHelm
  simp only [↓fuses_quietLine, ↓fuses_stopEngine]

theorem fuses_takenOp (s : State) (term : Nat) : fuses (takenOp s term) = fuses s := by
  unfold takenOp
  simp only [↓fuses_endResync, ↓fuses_leaveHelm, ↓fuses_blankShared, ↓fuses_takeDisplay, ↓fuses_modTwin,
    ↓fuses_modSched, ↓fuses_setPair, ↓fuses_learnTerm, ↓fuses_log, ↓fuses_doneNow, ↓fuses_syncMode, ↓fuses_foldl,
    implies_true]

theorem fuses_giveUp (s : State) : fuses (giveUp s) = fuses s := by
  unfold giveUp
  simp only [↓fuses_leaveHelm, ↓fuses_logVote, ↓fuses_takeDisplay, ↓fuses_applySafe, ↓fuses_programStops,
    ↓fuses_modTwin, ↓fuses_endResync, ↓fuses_syncMode, ↓fuses_setPair, ↓fuses_modSched, ↓fuses_ite, ite_self]

theorem fuses_keepRole (s : State) : fuses (keepRole s) = fuses s := by
  unfold keepRole
  simp only [↓fuses_modTwin, ↓fuses_modSched, ↓fuses_finishNow, ↓fuses_setPair, ↓fuses_foldl, implies_true]

theorem fuses_requestChange (s : State) : fuses (requestChange s) = fuses s := by
  unfold requestChange
  repeat' split
  all_goals simp only [↓fuses_log, ↓fuses_handoverIfIdle, ↓fuses_modSched]

theorem fuses_followEdits (s : State) (n : Nat) : fuses (followEdits s n) = fuses s := by
  unfold followEdits
  repeat' split
  all_goals simp only [↓fuses_setProgSlot, ↓fuses_mk, fuses_fold]

theorem fuses_mirrorRecord (s : State) (r : RingRec) : fuses (mirrorRecord s r) = fuses s := by
  unfold mirrorRecord
  split
  all_goals simp only [↓fuses_mk, fuses_fold]

theorem fuses_applyMirrored (s : State) (r : RingRec) : fuses (applyMirrored s r) = fuses s := by
  unfold applyMirrored
  simp only [↓fuses_mirrorRecord, ↓fuses_followEdits, ↓fuses_swapSettings, ↓fuses_modTask, ↓fuses_mk, fuses_fold,
    ↓fuses_ite, ite_self]

theorem fuses_dropBase (s : State) : fuses (dropBase s) = fuses s := by
  unfold dropBase
  repeat' split
  all_goals simp only [↓fuses_groupWriteOr, ↓fuses_mk, fuses_fold]

theorem fuses_rejectRecord (s : State) (seq : Nat) : fuses (rejectRecord s seq) = fuses s := by
  unfold rejectRecord
  simp only [↓fuses_setPair, ↓fuses_twinSend]

theorem fuses_manifestOp (s : State) (ok : Bool) (r : RingRec) : fuses (manifestOp s ok r) = fuses s := by
  unfold manifestOp
  simp only [↓fuses_rejectRecord, ↓fuses_dropBase, ↓fuses_applyMirrored, ↓fuses_modTwin, ↓fuses_twinSend,
    ↓fuses_setPair, ↓fuses_ite, ite_self]

theorem fuses_takeBase (s : State) (seq line segSeq passes : Nat) :
    fuses (takeBase s seq line segSeq passes) = fuses s := by
  unfold takeBase
  simp only [↓fuses_groupWriteOr, ↓fuses_mk, fuses_fold]

theorem fuses_endOnWatch (s : State) : fuses (endOnWatch s) = fuses s := by
  unfold endOnWatch
  simp only [↓fuses_applyForces, ↓fuses_rebuild, ↓fuses_modTwin, ↓fuses_setPair, ↓fuses_twinSend, ↓fuses_log]

theorem fuses_resyncControl (s : State) (data : List Byte) : fuses (resyncControl s data) = fuses s := by
  unfold resyncControl
  repeat' split
  all_goals simp only [↓fuses_setPair, ↓fuses_modTwin, ↓fuses_log, ↓fuses_takeBase, ↓fuses_endOnWatch,
    ↓fuses_groupWriteOr]

theorem fuses_storeEdit (s : State) (e : EditImage) : fuses (storeEdit s e) = fuses s := by
  unfold storeEdit
  split
  all_goals simp only [↓fuses_setProgSlot]

theorem fuses_storeChart (s : State) (img : ChartImage) : fuses (storeChart s img) = fuses s := (rfl)

theorem fuses_storeProgram (s : State) (bytes : List Byte) (img : ProgImage) :
    fuses (storeProgram s bytes img) = fuses s := (rfl)

theorem fuses_joinImage (s : State) (kind : Nat) (data : List Byte) : fuses (joinImage s kind data).1 = fuses s := by
  unfold joinImage
  dsimp only
  repeat' split
  all_goals simp only [↓fuses_modTwin]

theorem fuses_storeImage (s : State) (kind : Nat) (bs : List Byte) : fuses (storeImage s kind bs) = fuses s := by
  unfold storeImage
  repeat' split
  all_goals simp only [↓fuses_storeEdit, ↓fuses_storeChart, ↓fuses_storeProgram]

theorem fuses_sendStore (s : State) : fuses (sendStore s) = fuses s := by
  unfold sendStore
  simp only [↓fuses_twinSend, ↓fuses_foldl, implies_true]

theorem fuses_resyncDone (s : State) : fuses (resyncDone s) = fuses s := by
  unfold resyncDone
  simp only [↓fuses_setPair, ↓fuses_modTwin, ↓fuses_doneNowOpt, ↓fuses_log]

/-! ### Machine/TwinCmds -/

theorem fuses_twinChangeOp (s : State) (c : CmdRef) : fuses (twinChangeOp s c) = fuses s := by
  unfold twinChangeOp
  repeat' split
  all_goals simp only [↓fuses_modTwin, ↓fuses_waitFor, ↓fuses_refuseState, ↓fuses_twinSend, ↓fuses_requestChange]

theorem fuses_laneOp (s : State) (lane : Fin 2) (aligned : Bool) : fuses (laneOp s lane aligned) = fuses s := by
  unfold laneOp
  simp only [↓fuses_modTwin, ↓fuses_twinSend, ↓fuses_setPair, ↓fuses_endResync, ↓fuses_dropWatch, ↓fuses_ite, ite_self]

theorem fuses_ackOp (s : State) (seq : Nat) (written : Bool) : fuses (ackOp s seq written) = fuses s := by
  unfold ackOp
  simp only [↓fuses_noteLive, ↓fuses_dropWatch, ↓fuses_modTwin, ↓fuses_modRun, ↓fuses_resyncDone, ↓fuses_ite, ite_self]

theorem fuses_heartbeatOp (s : State) (f : HeartbeatFrame) : fuses (heartbeatOp s f) = fuses s := by
  unfold heartbeatOp
  simp only [↓fuses_noteLive, ↓fuses_modTwin, ↓fuses_learnTerm, ↓fuses_keepRole, ↓fuses_ite, ite_self]

theorem fuses_heardOp (s : State) (l : Line) (role term seq : Nat) : fuses (heardOp s l role term seq) = fuses s := by
  unfold heardOp
  simp only [↓fuses_modTwin, ↓fuses_setPair, ↓fuses_ite, ite_self]

theorem fuses_serveSlice (s : State) : fuses (serveSlice s) = fuses s := by
  unfold serveSlice
  split
  all_goals simp only [↓fuses_updCmd]

/-! ### Machine/FieldRows -/

theorem fuses_setDi (s : State) (n : Nat) (f : DiCh → DiCh) : fuses (setDi s n f) = fuses s := (rfl)

theorem fuses_sampleGroup (s : State) (g : Fin 6) (currents : List Nat) : fuses (sampleGroup s g currents) = fuses s := by
  unfold sampleGroup
  simp only [↓fuses_setDi, ↓fuses_foldl, implies_true, ↓fuses_ite, ite_self]

theorem fuses_diagnoseOp (s : State) (n : Nat) (cond : OutCond) (present : Bool) :
    fuses (diagnoseOp s n cond present) = fuses s := by
  unfold diagnoseOp
  dsimp only
  repeat' split
  all_goals simp only [↓fuses_log, ↓fuses_setGang]

theorem fuses_abandonTest (s : State) : fuses (abandonTest s) = fuses s := by
  unfold abandonTest
  split
  all_goals simp only [↓fuses_doneNow, ↓fuses_setDi, ↓fuses_modField]

theorem fuses_dioTestOp (s : State) (c : CmdRef) (kind channel : Nat) : fuses (dioTestOp s c kind channel) = fuses s := by
  unfold dioTestOp
  repeat' split
  all_goals simp only [↓fuses_done, ↓fuses_modField, ↓fuses_waitFor, ↓fuses_setDi]

theorem fuses_testEndOp (s : State) (measured : Int) (offSeen onSeen : Bool) :
    fuses (testEndOp s measured offSeen onSeen) = fuses s := by
  unfold testEndOp
  dsimp only
  repeat' split
  all_goals simp only [↓fuses_modField, ↓fuses_doneNow, ↓fuses_setDi]

theorem fuses_enterCut (s : State) : fuses (enterCut s) = fuses s := by
  unfold enterCut
  dsimp only
  repeat' split
  all_goals simp only [↓fuses_modField, ↓fuses_abandonTest, ↓fuses_log]

theorem fuses_leaveCut (s : State) : fuses (leaveCut s) = fuses s := by
  unfold leaveCut
  simp only [↓fuses_log, ↓fuses_modField, ↓fuses_ite, ite_self]

theorem fuses_enterLockout (s : State) : fuses (enterLockout s) = fuses s := by
  unfold enterLockout
  simp only [↓fuses_closeUnit, ↓fuses_enterCut, ↓fuses_log, ↓fuses_modField, ↓fuses_anaLockout, ↓fuses_displayDownOp,
    ↓fuses_ite, ite_self]

theorem fuses_vfldWarn (s : State) (mv : Nat) : fuses (vfldWarn s mv) = fuses s := by
  unfold vfldWarn
  simp only [↓fuses_modField, ↓fuses_log, ↓fuses_ite, ite_self]

theorem fuses_vfldCut (s : State) (mv : Nat) : fuses (vfldCut s mv) = fuses s := by
  unfold vfldCut
  simp only [↓fuses_modField, ↓fuses_leaveCut, ↓fuses_enterCut, ↓fuses_ite, ite_self]

theorem fuses_vfldOp (s : State) (mv : Nat) : fuses (vfldOp s mv) = fuses s := by
  unfold vfldOp
  simp only [↓fuses_modField, ↓fuses_enterLockout, ↓fuses_vfldCut, ↓fuses_vfldWarn, ↓fuses_ite, ite_self]

theorem fuses_fieldRestart (s : State) : fuses (fieldRestart s) = fuses s := by
  unfold fieldRestart
  simp only [↓fuses_log, ↓fuses_modField, ↓fuses_modDsp, ↓fuses_modAna, ↓fuses_anaRestart, ↓fuses_reopenUnit,
    ↓fuses_loadSafeVals, ↓fuses_foldl, implies_true, ↓fuses_ite, ite_self]

/-! ### Machine/AnaRows -/

theorem fuses_outputUpdate (s : State) (c : Nat) : fuses (outputUpdate s c) = fuses s := by
  unfold outputUpdate
  simp only [↓fuses_modAna]

theorem fuses_sampleOp (s : State) (c : Nat) (code : Int) : fuses (sampleOp s c code) = fuses s := by
  unfold sampleOp
  simp only [↓fuses_modAna]

theorem fuses_trimResult (s : State) (c result : Nat) : fuses (trimResult s c result) = fuses s := by
  unfold trimResult
  split
  all_goals simp only [↓fuses_doneNow, ↓fuses_modAna]

theorem fuses_finishRelay (s : State) (r : CmdRef) : fuses (finishRelay s r) = fuses s := by
  unfold finishRelay
  simp only [↓fuses_modAna, ↓fuses_doneNow, ↓fuses_foldl, implies_true, ↓fuses_ite, ite_self]

theorem fuses_relayOutcome (s : State) (c o : Nat) : fuses (relayOutcome s c o) = fuses s := by
  unfold relayOutcome
  split
  all_goals simp only [↓fuses_finishRelay, ↓fuses_modAna]

theorem fuses_discardCal (s : State) (c wait : Nat) : fuses (discardCal s c wait) = fuses s := by
  unfold discardCal
  simp only [↓fuses_modAna, ↓fuses_relayOutcome, ↓fuses_trimResult]

theorem fuses_setStageFault (s : State) (c : Nat) (b v : Bool) : fuses (setStageFault s c b v) = fuses s := by
  unfold setStageFault
  split
  all_goals simp only [↓fuses_modAna, ↓fuses_log]

theorem fuses_setChFault (s : State) (c : Nat) (v : Bool) : fuses (setChFault s c v) = fuses s := by
  unfold setChFault
  split
  all_goals simp only [↓fuses_log, ↓fuses_modAna]

theorem fuses_temperatureOp (s : State) (c : Nat) (t : Int) : fuses (temperatureOp s c t) = fuses s := by
  unfold temperatureOp
  simp only [↓fuses_modAna, ↓fuses_discardCal, ↓fuses_ite, ite_self]

theorem fuses_hartSend (s : State) (c : Nat) (frame : List Byte) : fuses (hartSend s c frame) = fuses s := (rfl)

theorem fuses_hartHostNext (s : State) (c : Nat) : fuses (hartHostNext s c) = fuses s := by
  unfold hartHostNext
  dsimp only
  repeat' split
  all_goals simp only [↓fuses_hartSend, ↓fuses_modAna]

theorem fuses_startCal (s : State) (c : Nat) : fuses (startCal s c) = fuses s := (rfl)

theorem fuses_setTrim (s : State) (c : Nat) (b : Bool) (t : Trim) : fuses (setTrim s c b t) = fuses s := by
  unfold setTrim
  split
  all_goals simp only [↓fuses_modAna]

theorem fuses_tryStep4 (s : State) (c : Nat) : fuses (tryStep4 s c) = fuses s := by
  unfold tryStep4
  split
  all_goals simp only [↓fuses_modAna]

theorem fuses_calFailed (s : State) (c : Nat) : fuses (calFailed s c) = fuses s := by
  unfold calFailed
  simp only [↓fuses_setStageFault, ↓fuses_modAna, ↓fuses_relayOutcome, ↓fuses_trimResult]

theorem fuses_abortOp (s : State) (c : Nat) : fuses (abortOp s c) = fuses s := by
  unfold abortOp
  simp only [↓fuses_modAna, ↓fuses_setStageFault, ↓fuses_hartHostNext, ↓fuses_relayOutcome, ↓fuses_trimResult,
    ↓fuses_ite, ite_self]

theorem fuses_stageFailOp (s : State) (c : Nat) : fuses (stageFailOp s c) = fuses s := by
  unfold stageFailOp
  simp only [↓fuses_setChFault, ↓fuses_relayOutcome, ↓fuses_trimResult, ↓fuses_tryStep4, ↓fuses_modAna, ↓fuses_ite,
    ite_self]

theorem fuses_headroomOp (s : State) (c : Nat) (mv : Int) (present : Bool) :
    fuses (headroomOp s c mv present) = fuses s := by
  unfold headroomOp
  simp only [↓fuses_modAna, ↓fuses_log, ↓fuses_ite, ite_self]

theorem fuses_modeChanged (s : State) (c : Nat) : fuses (modeChanged s c) = fuses s := by
  unfold modeChanged
  simp only [↓fuses_modAna, ↓fuses_anaSafe, ↓fuses_ite, ite_self]

theorem fuses_anaTrimOp (s : State) (c : CmdRef) (ch : Nat) : fuses (anaTrimOp s c ch) = fuses s := by
  unfold anaTrimOp
  dsimp only
  repeat' split
  all_goals simp only [↓fuses_abortedBy, ↓fuses_done, ↓fuses_relayOutcome, ↓fuses_startCal, ↓fuses_modAna,
    ↓fuses_waitFor]

theorem fuses_relayStart (c : CmdRef) (s : State) (ch : Nat) : fuses (relayStart c s ch) = fuses s := by
  unfold relayStart
  simp only [↓fuses_modAna, ↓fuses_startCal, ↓fuses_ite, ite_self]

theorem fuses_anaRelayOp (s : State) (c : CmdRef) (mask : BitVec 8) : fuses (anaRelayOp s c mask) = fuses s := by
  unfold anaRelayOp
  dsimp only
  split
  all_goals simp only [↓fuses_abortedBy, ↓fuses_finishRelay, ↓fuses_relayStart, ↓fuses_waitFor, ↓fuses_foldl,
    implies_true]

/-! ### Machine/HartRows -/

theorem fuses_hartPollOp (s : State) (c : Nat) : fuses (hartPollOp s c) = fuses s := by
  unfold hartPollOp
  simp only [↓fuses_hartSend, ↓fuses_modAna, ↓fuses_ite, ite_self]

theorem fuses_cyclicReply (s : State) (c : Nat) (fr : List Byte) : fuses (cyclicReply s c fr) = fuses s := by
  unfold cyclicReply
  split
  all_goals simp only [↓fuses_modAna]

theorem fuses_cyclicMiss (s : State) (c : Nat) : fuses (cyclicMiss s c) = fuses s := by
  unfold cyclicMiss
  simp only [↓fuses_modAna, ↓fuses_ite, ite_self]

theorem fuses_hostReply (s : State) (c : Nat) (reply : Option (List Byte)) : fuses (hostReply s c reply) = fuses s := by
  unfold hostReply
  repeat' split
  all_goals simp only [↓fuses_modAna, ↓fuses_doneNow]

theorem fuses_hartReplyOp (s : State) (c : Nat) (reply : Option (List Byte)) : fuses (hartReplyOp s c reply) = fuses s := by
  unfold hartReplyOp
  dsimp only
  repeat' split
  all_goals simp only [↓fuses_modAna, ↓fuses_hostReply, ↓fuses_cyclicReply, ↓fuses_cyclicMiss, ↓fuses_hartHostNext]

theorem fuses_anaHartOp (s : State) (c : CmdRef) (ch : Nat) (frame : List Byte) :
    fuses (anaHartOp s c ch frame) = fuses s := by
  unfold anaHartOp
  repeat' split
  all_goals simp only [↓fuses_abortedBy, ↓fuses_done, ↓fuses_hartHostNext, ↓fuses_modAna, ↓fuses_waitFor]

theorem fuses_hartRequestOp (s : State) (c : Nat) (fr : List Byte) : fuses (hartRequestOp s c fr) = fuses s := by
  unfold hartRequestOp
  repeat' split
  all_goals simp only [↓fuses_modAna]

/-! ### Machine/BusRows -/

theorem fuses_notSent (s : State) (c : CmdRef) (reason : Nat) : fuses (notSent s c reason) = fuses s := by
  unfold notSent
  simp only [↓fuses_doneNow]

theorem fuses_unbook (s : State) (l : Line) (c : CmdRef) : fuses (unbook s l c) = fuses s := (rfl)

theorem fuses_cycleStartOp (s : State) (l : Line) : fuses (cycleStartOp s l) = fuses s := by
  unfold cycleStartOp
  dsimp only [State.draw]
  split
  all_goals simp only [↓fuses_modLine, ↓fuses_mk, fuses_fold]

theorem fuses_slotStart (s : State) (l : Line) (n : Nat) : fuses (slotStart s l n) = fuses s := by
  unfold slotStart
  split
  all_goals simp only [↓fuses_modLine]

theorem fuses_lateSync (s : State) (l : Line) : fuses (lateSync s l) = fuses s := by
  unfold lateSync
  simp only [↓fuses_modLine, ↓fuses_log, ↓fuses_ite, ite_self]

theorem fuses_noteActive (was : Bool) (s : State) (l : Line) : fuses (noteActive was s l) = fuses s := by
  unfold noteActive
  simp only [↓fuses_log, ↓fuses_ite, ite_self]

theorem fuses_ackFrame (s : State) (l : Line) (k : Nat) (f : TxFrame) : fuses (ackFrame s l k f) = fuses s := by
  unfold ackFrame
  repeat' split
  all_goals simp only [↓fuses_modLine, ↓fuses_noteActive, ↓fuses_modTwin, ↓fuses_doneNow, ↓fuses_unbook, ↓fuses_foldl,
    implies_true]

theorem fuses_transmitOp (s : State) (l : Line) (k : Nat) (o : TxOutcome) : fuses (transmitOp s l k o) = fuses s := by
  unfold transmitOp
  repeat' split
  all_goals simp only [↓fuses_modLine, ↓fuses_lateSync, ↓fuses_ackFrame]

theorem fuses_goBusOff (s : State) (l : Line) : fuses (goBusOff s l) = fuses s := by
  unfold goBusOff
  simp only [↓fuses_modLine, ↓fuses_dropFrames, ↓fuses_log]

theorem fuses_busErrorOp (s : State) (l : Line) (e : BusErr) : fuses (busErrorOp s l e) = fuses s := by
  unfold busErrorOp
  simp only [↓fuses_modLine, ↓fuses_log, ↓fuses_goBusOff, ↓fuses_ite, ite_self]

theorem fuses_inputFrame (s : State) (l : Line) (n idx : Nat) (f : CanFrame) :
    fuses (inputFrame s l n idx f) = fuses s := by
  unfold inputFrame
  simp only [↓fuses_modLine, ↓fuses_modStation, ↓fuses_ite, ite_self]

theorem fuses_confirmFrame (s : State) (l : Line) (n : Nat) (f : CanFrame) : fuses (confirmFrame s l n f) = fuses s := by
  unfold confirmFrame
  simp only [↓fuses_modLine, ↓fuses_modStation, ↓fuses_ite, ite_self]

theorem fuses_followSync (s : State) (l : Line) (f : CanFrame) : fuses (followSync s l f) = fuses s := by
  unfold followSync
  simp only [↓fuses_modLine]

theorem fuses_filterFrame (s : State) (l : Line) (f : CanFrame) : fuses (filterFrame s l f) = fuses s := by
  unfold filterFrame
  split
  all_goals simp only [↓fuses_modLine]

theorem fuses_receiveFrame (s : State) (l : Line) (f : CanFrame) : fuses (receiveFrame s l f) = fuses s := by
  unfold receiveFrame
  simp only [↓fuses_filterFrame, ↓fuses_followSync, ↓fuses_confirmFrame, ↓fuses_inputFrame, ↓fuses_ite, ite_self]

theorem fuses_publish (l : Line) (s : State) (n : Nat) : fuses (publish l s n) = fuses s := by
  unfold publish
  simp only [↓fuses_modStation, ↓fuses_ite, ite_self]

theorem fuses_setStation (s : State) (l : Line) (n : Nat) (x : StState) : fuses (setStation s l n x) = fuses s := by
  unfold setStation
  simp only [↓fuses_modStation, ↓fuses_log, ↓fuses_ite, ite_self]

theorem fuses_judgeStation (l : Line) (s : State) (n : Nat) : fuses (judgeStation l s n) = fuses s := by
  unfold judgeStation
  simp only [↓fuses_modStation, ↓fuses_setStation, ↓fuses_ite, ite_self]

theorem fuses_foreignWords (s : State) (l : Line) (k : Nat) (f : CanFrame) : fuses (foreignWords s l k f) = fuses s := by
  unfold foreignWords
  split
  all_goals simp only [↓fuses_modStation, ↓fuses_foldl, implies_true]

theorem fuses_drainOne (s : State) (l : Line) : fuses (drainOne s l) = fuses s := by
  unfold drainOne
  dsimp only
  repeat' split
  all_goals simp only [↓fuses_modLine, ↓fuses_foreignWords, ↓fuses_log]

theorem fuses_filterAged (s : State) (l : Line) (k : Nat) : fuses (filterAged s l k) = fuses s := by
  unfold filterAged
  simp only [↓fuses_modStation, ↓fuses_ite, ite_self]

theorem fuses_sleepEntry (s : State) (l : Line) : fuses (sleepEntry s l) = fuses s := by
  unfold sleepEntry
  split
  all_goals simp only [↓fuses_dropFrames, ↓fuses_modLine, ↓fuses_setStation, ↓fuses_doneNow, ↓fuses_foldl, implies_true]

theorem fuses_wakeOp (s : State) (l : Line) : fuses (wakeOp s l) = fuses s := by
  unfold wakeOp
  simp only [↓fuses_startLine, ↓fuses_log, ↓fuses_doneNow, ↓fuses_modLine, ↓fuses_foldl, implies_true, ↓fuses_ite,
    ite_self]

theorem fuses_busSleepOp (s : State) (c : CmdRef) (l : Line) (mode : Nat) : fuses (busSleepOp s c l mode) = fuses s := by
  unfold busSleepOp
  simp only [↓fuses_wakeOp, ↓fuses_modLine, ↓fuses_waitFor, ↓fuses_done, ↓fuses_ite, ite_self]

theorem fuses_busSendOp (s : State) (c : CmdRef) (l : Line) (f : CanFrame) : fuses (busSendOp s c l f) = fuses s := by
  unfold busSendOp
  simp only [↓fuses_done, ↓fuses_unbook, ↓fuses_modLine, ↓fuses_waitFor, ↓fuses_ite, ite_self]

theorem fuses_heartbeatDueOp (s : State) (l : Line) : fuses (heartbeatDueOp s l) = fuses s := by
  unfold heartbeatDueOp
  simp only [↓fuses_modLine, ↓fuses_ite, ite_self]

/-! ### Machine/DspRows -/

theorem fuses_lcdFrameOp (s : State) (mv : Nat) : fuses (lcdFrameOp s mv) = fuses s := by
  unfold lcdFrameOp
  simp only [↓fuses_modDsp, ↓fuses_dspCheckResult, ↓fuses_ite, ite_self]

theorem fuses_deferUpdate (s : State) (ms : Nat) : fuses (deferUpdate s ms) = fuses s := by
  unfold deferUpdate
  simp only [↓fuses_log, ↓fuses_modDsp, ↓fuses_ite, ite_self]

theorem fuses_startUpdate (s : State) (target : List Byte) (ps : List (Nat × Bool)) (full : Option Nat) :
    fuses (startUpdate s target ps full) = fuses s := by
  unfold startUpdate
  simp only [↓fuses_reserveEnergy, ↓fuses_modDsp, ↓fuses_deferUpdate, ↓fuses_ite, ite_self]

theorem fuses_updateStartOp (s : State) (mv : Nat) : fuses (updateStartOp s mv) = fuses s := by
  unfold updateStartOp
  simp only [↓fuses_modDsp, ↓fuses_startUpdate, ↓fuses_ite, ite_self]

theorem fuses_rewriteStartOp (s : State) : fuses (rewriteStartOp s) = fuses s := by
  unfold rewriteStartOp
  repeat' split
  all_goals simp only [↓fuses_startUpdate]

theorem fuses_clearIncomplete (s : State) : fuses (clearIncomplete s) = fuses s := by
  unfold clearIncomplete
  split
  all_goals simp only [↓fuses_groupWriteOr]

theorem fuses_panelCheck (s : State) : fuses (panelCheck s) = fuses s := by
  unfold panelCheck
  split
  all_goals simp only [↓fuses_dspCheckResult]

theorem fuses_endUpdate (s : State) (u : DspUpdate) : fuses (endUpdate s u) = fuses s := by
  unfold endUpdate
  dsimp only
  repeat' split
  all_goals simp only [↓fuses_freeEnergy, ↓fuses_modDsp, ↓fuses_log, ↓fuses_clearIncomplete, ↓fuses_panelCheck,
    ↓fuses_finishWaits]

theorem fuses_phaseEndOp (s : State) (mv : Nat) : fuses (phaseEndOp s mv) = fuses s := by
  unfold phaseEndOp
  dsimp only
  repeat' split
  all_goals simp only [↓fuses_modDsp, ↓fuses_pulseDone, ↓fuses_endUpdate]

theorem fuses_ntcOp (s : State) (t : Int) : fuses (ntcOp s t) = fuses s := by
  unfold ntcOp
  repeat' split
  all_goals simp only [↓fuses_log, ↓fuses_modDsp]

theorem fuses_crackOp (s : State) (ohm : Nat) : fuses (crackOp s ohm) = fuses s := by
  unfold crackOp
  simp only [↓fuses_modDsp, ↓fuses_log, ↓fuses_dspCheckResult, ↓fuses_ite, ite_self]

/-! ### Machine/ClockRows -/

theorem fuses_setSource (s : State) (source : Nat) : fuses (setSource s source) = fuses s := by
  unfold setSource
  split
  all_goals simp only [↓fuses_clockEvent, ↓fuses_setPar, ↓fuses_setLocked, ↓fuses_newWindow, ↓fuses_refSync,
    ↓fuses_modClock]

theorem fuses_dieAt (s : State) (now : Tb) : fuses (dieAt s now) = fuses s := by
  unfold dieAt
  split
  all_goals simp only [↓fuses_at]

theorem fuses_windowPoint (s : State) (ref rtc : Nat) : fuses (windowPoint s ref rtc) = fuses s := by
  unfold windowPoint
  simp only [↓fuses_modClock]

theorem fuses_lrefOp (s : State) (periodUs : Nat) : fuses (lrefOp s periodUs) = fuses s := by
  unfold lrefOp
  simp only [↓fuses_refSync, ↓fuses_modClock, ↓fuses_windowPoint, ↓fuses_ite, ite_self]

theorem fuses_useReference (s : State) (carried rtc : Nat) : fuses (useReference s carried rtc) = fuses s := by
  unfold useReference
  split
  all_goals simp only [↓fuses_setFromBus, ↓fuses_windowPoint]

theorem fuses_timeRefOp (s : State) (l : Line) (f : CanFrame) : fuses (timeRefOp s l f) = fuses s := by
  unfold timeRefOp
  dsimp only
  repeat' split
  all_goals simp only [↓fuses_modLine, ↓fuses_refSync, ↓fuses_useReference]

theorem fuses_timeRefAgeOp (s : State) (l : Line) : fuses (timeRefAgeOp s l) = fuses s := by
  unfold timeRefAgeOp
  simp only [↓fuses_refSync, ↓fuses_modLine, ↓fuses_ite, ite_self]

theorem fuses_learn (s : State) (t : Int) : fuses (learn s t) = fuses s := (rfl)

theorem fuses_steer (s : State) : fuses (steer s) = fuses s := by
  unfold steer
  dsimp only
  repeat' split
  all_goals simp only [↓fuses_clockEvent, ↓fuses_shiftBy]

theorem fuses_windowCounts (s : State) (err : Int) : fuses (windowCounts s err) = fuses s := by
  unfold windowCounts
  simp only [↓fuses_learn, ↓fuses_setLocked, ↓fuses_modClock, ↓fuses_writeLearned, ↓fuses_steer, ↓fuses_ite, ite_self]

theorem fuses_servoOp (s : State) : fuses (servoOp s) = fuses s := by
  unfold servoOp
  dsimp only
  repeat' split
  all_goals simp only [↓fuses_refSync, ↓fuses_newWindow, ↓fuses_windowCounts]

/-! ### Machine/EngBlocks -/

theorem fuses_setGapUnknown (s : State) : fuses (setGapUnknown s) = fuses s := (rfl)

/-! ### Machine/EngSys -/

theorem fuses_endExecute (s : State) : fuses (endExecute s) = fuses s := by
  unfold endExecute
  dsimp only
  repeat' split
  all_goals simp only [↓fuses_modEng, ↓fuses_modTask, ↓fuses_dropWindows, ↓fuses_beginSeal, ↓fuses_restoreContext]

theorem fuses_requestFrom (s : State) (t : Tagged) : fuses (requestFrom s t) = fuses s := by
  unfold requestFrom
  split
  all_goals simp only [↓fuses_logDiscard, ↓fuses_requestChg]

/-! ### Machine/LogRows -/

theorem fuses_modLog (s : State) (f : Logbook → Logbook) : fuses (modLog s f) = fuses s := (rfl)

theorem fuses_logClearOp (s : State) (c : CmdRef) (last : Nat) : fuses (logClearOp s c last) = fuses s := by
  unfold logClearOp
  simp only [↓fuses_logRaw, ↓fuses_modLog, ↓fuses_done]

theorem fuses_logMarkOp (s : State) (c : CmdRef) (code : Nat) (data : List Byte) :
    fuses (logMarkOp s c code data) = fuses s := by
  unfold logMarkOp
  simp only [↓fuses_logRaw, ↓fuses_done]

theorem fuses_suppressedOp (s : State) : fuses (suppressedOp s) = fuses s := by
  unfold suppressedOp
  split
  all_goals simp only [↓fuses_modLog, ↓fuses_logRaw]

/-! ### Machine/WdRows -/

theorem fuses_wdCtrlOp (s : State) (value : BitVec 32) (tick : Nat) : fuses (wdCtrlOp s value tick) = fuses s := by
  unfold wdCtrlOp
  simp only [↓fuses_modWd, ↓fuses_wdEnable, ↓fuses_wdDisable, ↓fuses_wdSetLock, ↓fuses_wdWritePeriod, ↓fuses_ite,
    ite_self]

/-! ### Machine/SecRows -/

theorem fuses_setOwner (s : State) (slot : Nat) (o : OwnerSlot) : fuses (setOwner s slot o) = fuses s := (rfl)

theorem fuses_keysDone (s : State) (c : CmdRef) (op slot state : Nat) : fuses (keysDone s c op slot state) = fuses s := by
  unfold keysDone
  simp only [↓fuses_done, ↓fuses_log]

/-! ### Machine/UpdRows -/

theorem fuses_modUpdate (s : State) (f : Update → Update) : fuses (modUpdate s f) = fuses s := (rfl)

theorem fuses_logUpdate (s : State) (slot code : Nat) : fuses (logUpdate s slot code) = fuses s := by
  unfold logUpdate
  split
  all_goals simp only [↓fuses_log]

theorem fuses_applyRefused (s : State) (c : CmdRef) (u : Update) (f : BitVec 8 × Nat) :
    fuses (applyRefused s c u f) = fuses s := by
  unfold applyRefused
  simp only [↓fuses_setResult, ↓fuses_emptyTarget]

theorem fuses_beginBuild (s : State) (u : Update) : fuses (beginBuild s u) = fuses s := by
  unfold beginBuild
  repeat' split
  all_goals simp only [↓fuses_setFwSlot, ↓fuses_setProgSlot]

theorem fuses_updConfirmOp (s : State) (c : CmdRef) : fuses (updConfirmOp s c) = fuses s := by
  unfold updConfirmOp
  simp only [↓fuses_done, ↓fuses_setFwSlot]

theorem fuses_updAbandonOp (s : State) (c : CmdRef) : fuses (updAbandonOp s c) = fuses s := by
  unfold updAbandonOp
  repeat' split
  all_goals simp only [↓fuses_refuseState, ↓fuses_setFwSlot, ↓fuses_setProgSlot, ↓fuses_done]

/-! ### Machine/PowerRows -/

theorem fuses_paceWarning (s : State) (ps : Nat) : fuses (paceWarning s ps) = fuses s := by
  unfold paceWarning
  simp only [↓fuses_log, ↓fuses_raiseEvent, ↓fuses_modPower, ↓fuses_ite, ite_self]

theorem fuses_paceOp (s : State) (ps : Nat) : fuses (paceOp s ps) = fuses s := by
  unfold paceOp
  simp only [↓fuses_modPower, ↓fuses_raiseFault, ↓fuses_openPorts, ↓fuses_paceWarning, ↓fuses_mk, fuses_fold,
    ↓fuses_ite, ite_self]

theorem fuses_junctionOp (s : State) (t : Int) : fuses (junctionOp s t) = fuses s := by
  unfold junctionOp
  split
  all_goals simp only [↓fuses_modPower, ↓fuses_raiseFault]

theorem fuses_badLine (s : State) (store index : Nat) : fuses (badLine s store index) = fuses s := by
  unfold badLine
  split
  all_goals simp only [↓fuses_mk, fuses_fold]

theorem fuses_haltRestartOp (s : State) : fuses (haltRestartOp s) = fuses s := by
  unfold haltRestartOp
  repeat' split
  all_goals simp only [↓fuses_gracefulReset, ↓fuses_modPower, ↓fuses_dieStart, ↓fuses_dieStop, ↓fuses_log]

theorem fuses_markIncomplete (s : State) : fuses (markIncomplete s) = fuses s := by
  unfold markIncomplete
  split
  all_goals simp only [↓fuses_groupWriteOr]

theorem fuses_abandonScans (s : State) : fuses (abandonScans s) = fuses s := (rfl)

theorem fuses_vinFailOp (s : State) : fuses (vinFailOp s) = fuses s := by
  unfold vinFailOp
  simp only [↓fuses_modPower, ↓fuses_finishStop, ↓fuses_markIncomplete, ↓fuses_abandonScans, ↓fuses_ite, ite_self]

theorem fuses_rstActs (s : State) (lowNs : Nat) : fuses (rstActs s lowNs).2 = fuses s := by
  unfold rstActs
  dsimp only [State.draw]
  repeat' split
  all_goals rfl

theorem fuses_rstOp (s : State) (lowNs : Nat) : fuses (rstOp s lowNs) = fuses s := by
  unfold rstOp
  simp only [↓fuses_rstActs, ↓fuses_tearMarkers, ↓fuses_dieStart, ↓fuses_dieStop, ↓fuses_modPower, ↓fuses_dieOff,
    ↓fuses_cutUpdate, ↓fuses_ite, ite_self]

theorem fuses_capacitanceOp (s : State) (deltaUv : Nat) : fuses (capacitanceOp s deltaUv) = fuses s := by
  unfold capacitanceOp
  simp only [↓fuses_modPower, ↓fuses_log, ↓fuses_syncMode, ↓fuses_ite, ite_self]

theorem fuses_energyOut (s : State) : fuses (energyOut s) = fuses s := by
  unfold energyOut
  simp only [↓fuses_tearMarkers, ↓fuses_modPower, ↓fuses_dieOff, ↓fuses_mk, fuses_fold]

theorem fuses_holdupOp (s : State) (mv : Nat) : fuses (holdupOp s mv) = fuses s := by
  unfold holdupOp
  simp only [↓fuses_modPower, ↓fuses_energyOut, ↓fuses_ite, ite_self]

theorem fuses_railLossOp (s : State) (ns : Nat) : fuses (railLossOp s ns) = fuses s := by
  unfold railLossOp
  split
  all_goals simp only [↓fuses_modPower, ↓fuses_modWd, ↓fuses_modClock]

theorem fuses_vbatOp (s : State) (mv : Nat) : fuses (vbatOp s mv) = fuses s := by
  unfold vbatOp
  simp only [↓fuses_modPower, ↓fuses_log, ↓fuses_ite, ite_self]

theorem fuses_operatingOp (s : State) : fuses (operatingOp s) = fuses s := by
  unfold operatingOp
  simp only [↓fuses_modPower, ↓fuses_spreadPut, ↓fuses_modLog, ↓fuses_mk, fuses_fold, ↓fuses_ite, ite_self]

end Sys2Proof.Machine
end

section
/-!
PROOFS. What an instruction of the logic engine leaves of the fuses, and the operations that follow a group of the store.
-/
namespace Sys2Proof.Machine

open Sys2Proof

/-! ### A body of the engine -/

/-- A body of an instruction keeps the fuses in what it leaves. -/
def bodyKept (body : State → Except OverrunCause EngOut) : Prop := ∀ s o, body s = .ok o → fuses o.st = fuses s

theorem bodyKept_ok {out : State → EngOut} (h : ∀ s, fuses (out s).st = fuses s) : bodyKept (fun s => .ok (out s)) := by
  intro s o ho
  obtain rfl := Except.ok.inj ho
  exact h s

theorem bodyKept_withScan {f : State → Scan → Except OverrunCause EngOut} (h : ∀ sc, bodyKept (fun s => f s sc)) :
    bodyKept (fun s => withScan s (f s)) := by
  intro s o ho
  simp only [withScan] at ho
  split at ho
  · obtain rfl := Except.ok.inj ho
    rfl
  next sc _ => exact h sc s o ho

theorem fuses_engineRunThen {body : State → Except OverrunCause EngOut} {after : Bool → State → State} (hb : bodyKept body)
    (ha : ∀ met s, fuses (after met s) = fuses s) (s : State) (g : Guard) (cost : Nat) (dests : List Dest) (isLoad : Bool) :
    fuses (engineRunThen s g cost dests isLoad body after) = fuses s := by
  unfold engineRunThen
  dsimp only
  split
  · rfl
  split
  · rfl
  generalize (if guardMet s.eng g = true then cost else 1) = beats
  generalize hout : (if guardMet s.eng g then body s else .ok (engOut s s.eng)) = out
  split
  · exact fuses_overrunOp ..
  cases out with
  | error c => exact fuses_overrunOp ..
  | ok o =>
    have hst : fuses o.st = fuses s := by
      split at hout
      · exact hb s o hout
      · obtain rfl := Except.ok.inj hout
        rfl
    dsimp only
    split
    · exact hst
    · rw [ha, fuses_notePmovr, fuses_modEng, hst]

theorem fuses_engineRun {body : State → Except OverrunCause EngOut} (hb : bodyKept body) (s : State) (g : Guard) (cost : Nat)
    (dests : List Dest) (isLoad : Bool) : fuses (engineRun s g cost dests isLoad body) = fuses s :=
  fuses_engineRunThen hb (fun _ s => fuses_preemptNow s) s g cost dests isLoad

theorem nextKept_engineRegs (s : State) (g : Guard) (cost : Nat) (dests : List Dest) (f : Engine → Engine) :
    nextKept s (engineRegs s g cost dests f) :=
  (nextKept_next ..).mpr (fuses_engineRun (bodyKept_ok fun _ => rfl) s g cost dests false)

/-! ### Stores -/

theorem fuses_wdAfter {s : State} {r : State × Bool} (h : fuses r.1 = fuses s) : fuses (wdAfter r) = fuses s := by
  unfold wdAfter
  split
  · exact (fuses_watchdogReset r.1).trans h
  · exact h

theorem fuses_sfWrite {s t : State} {n : Nat} {v : Word} (h : sfWrite s n v = some t) : fuses t = fuses s := by
  unfold sfWrite at h
  split at h
  case h_7 =>
    split at h <;> obtain rfl := Option.some.inj h
    · rfl
    · exact fuses_wdAfter (fuses_wdReplyAt ..)
  case h_8 => exact nomatch h
  all_goals
    obtain rfl := Option.some.inj h
    rfl

theorem fuses_sfStore (s : State) (n : Nat) (v : Word) : fuses (sfStore s n v) = fuses s := by
  unfold sfStore
  split
  · rfl
  split
  · rfl
  split
  next h => exact fuses_sfWrite h
  · exact fuses_modEng ..

theorem fuses_storeInto {s t : State} {sc : Scan} {k : Nat} {v : Word} {l : Bool} {q : Quality} {point : Bool}
    (h : storeInto s sc k v l q point = .ok t) : fuses t = fuses s := by
  unfold storeInto at h
  extract_lets old new kept at h
  split at h
  · split at h
    · obtain rfl := Except.ok.inj h
      rfl
    split at h
    · cases h
    · obtain rfl := Except.ok.inj h
      rfl
  · obtain rfl := Except.ok.inj h
    rfl

theorem fuses_discardStore (s : State) (k : Nat) : fuses (discardStore s k) = fuses s := by
  unfold discardStore
  simp only [↓fuses_ite, ↓fuses_showOwnerErr, ↓fuses_modRun, ite_self]

theorem fuses_storeWord {s t : State} {sc : Scan} {a : BitVec 24} {x : Tagged} {q : Quality}
    (h : storeWord s sc a x q = .ok t) : fuses t = fuses s := by
  unfold storeWord at h
  dsimp only at h
  split at h
  · split at h <;> obtain rfl := Except.ok.inj h
    next hw => exact fuses_sfWrite hw
    · rfl
  · split at h
    case h_1 => exact fuses_storeInto h
    all_goals obtain rfl := Except.ok.inj h
    · exact fuses_modEng ..
    · exact fuses_discardStore ..
    · exact fuses_discardStore ..
    · rfl

theorem fuses_storePoint {s t : State} {sc : Scan} {p : Point} {v l : Bool} {q : Quality}
    (h : storePoint s sc p v l q = .ok t) : fuses t = fuses s := by
  unfold storePoint at h
  split at h
  case h_1 => exact fuses_storeInto h
  all_goals obtain rfl := Except.ok.inj h
  · exact fuses_modEng ..
  · exact fuses_discardStore ..
  · exact (fuses_modEng ..).trans (fuses_discardStore ..)
  · rfl

theorem fuses_writeBlock {a : BitVec 24} {aq : Quality} {ws : List BlockWrite} {s t : State}
    (h : writeBlock s a aq ws = .ok t) : fuses t = fuses s := by
  induction ws generalizing s with
  | nil =>
    obtain rfl := Except.ok.inj h
    rfl
  | cons w ws ih =>
    simp only [writeBlock] at h
    split at h
    · obtain rfl := Except.ok.inj h
      rfl
    split at h
    · exact nomatch h
    next hw => exact (ih h).trans (fuses_storeWord hw)

theorem bodyKept_wordLoad (rd : Reg) (x : State → Ea) : bodyKept (fun s => wordLoad s rd (x s)) :=
  bodyKept_withScan fun _ => bodyKept_ok fun _ => rfl

theorem bodyKept_wordStore (rs : Reg) (x : State → Ea) : bodyKept (fun s => wordStore s rs (x s)) := by
  refine bodyKept_withScan fun sc s o ho => ?_
  dsimp only at ho
  split at ho
  · exact nomatch ho
  next h =>
    obtain rfl := Except.ok.inj ho
    exact (fuses_storeWord h :)

theorem bodyKept_pointStore (m : Mode) (v l : State → Bool) (q : State → Quality) :
    bodyKept (fun s => pointStore s m (v s) (l s) (q s)) := by
  refine bodyKept_withScan fun sc s o ho => ?_
  dsimp only at ho
  split at ho
  · exact nomatch ho
  next h =>
    obtain rfl := Except.ok.inj ho
    exact (fuses_storePoint h :)

theorem bodyKept_jumpTo (target : State → CodeAddr) : bodyKept (fun s => jumpTo s (target s)) :=
  bodyKept_ok fun _ => rfl

theorem bodyKept_callTo (target : State → CodeAddr) : bodyKept (fun s => callTo s (target s)) := by
  refine bodyKept_withScan fun sc s o ho => ?_
  dsimp only at ho
  split at ho
  · exact nomatch ho
  · obtain rfl := Except.ok.inj ho
    exact fuses_spillAt ..

theorem fuses_fillAt (s : State) (t pos depth : Nat) : fuses (fillAt s t pos depth) = fuses s := (rfl)

theorem bodyKept_retFrom : bodyKept retFrom := by
  refine bodyKept_withScan fun sc s o ho => ?_
  dsimp only at ho
  split at ho
  · exact nomatch ho
  · obtain rfl := Except.ok.inj ho
    dsimp only
    split
    · exact fuses_fillAt ..
    · rfl

theorem nextKept_blockRun (s : State) (g : Guard) (pd : BitVec 3) (x : BitVec 3) (k : BitVec 10) (n : Nat)
    (eval : State → Scan → BitVec 24 → BlockRes) : nextKept s (blockRun s g pd x k n eval) := by
  refine (nextKept_next ..).mpr (fuses_engineRun (bodyKept_withScan fun sc s o ho => ?_) s g 6 [.pred pd] false)
  dsimp only at ho
  split at ho
  · obtain rfl := Except.ok.inj ho
    rfl
  split at ho
  · exact nomatch ho
  next h =>
    obtain rfl := Except.ok.inj ho
    refine (fuses_writeBlock h).trans ?_
    split
    · exact fuses_setGapUnknown s
    · rfl

theorem fuses_branchOn (s : State) (g : Guard) (take : Bool) (target : CodeAddr) :
    fuses (branchOn s g take target) = fuses s :=
  fuses_engineRun (bodyKept_jumpTo _) ..

/-! ### What a group of the store precedes -/

theorem fuses_groupOrSame {s t : State} {p : Prop} [Decidable p] {ws : List PWrite}
    (h : (if p then some s else groupWrite s ws) = some t) : fuses t = fuses s := by
  split at h
  · obtain rfl := Option.some.inj h
    rfl
  · exact fuses_groupWrite h

theorem fuses_sharesOp (s : State) (c : CmdRef) (v p x d : Nat) : fuses (sharesOp s c v p x d) = fuses s := by
  unfold sharesOp
  dsimp only
  split
  · exact fuses_refuseState ..
  next h =>
    rw [fuses_modHost, fuses_done]
    exact (fuses_groupWrite h :)

theorem fuses_forceSetOp (s : State) (c : CmdRef) (es : List ForceArg) : fuses (forceSetOp s c es) = fuses s := by
  unfold forceSetOp
  split
  · rfl
  split
  · exact fuses_refuseState ..
  next h => exact (fuses_queueSlot ..).trans (fuses_groupWrite h)

theorem fuses_forceReleaseOp (s : State) (c : CmdRef) (as : List (BitVec 32)) :
    fuses (forceReleaseOp s c as) = fuses s := by
  unfold forceReleaseOp
  split
  · rfl
  extract_lets all standing gone
  split
  · exact fuses_refuseState ..
  next h => exact (fuses_queueSlot ..).trans (fuses_groupOrSame h)

theorem fuses_commitOp (s : State) (c : CmdRef) : fuses (commitOp s c) = fuses s := by
  unfold commitOp
  extract_lets es ws clear
  have hclear : ∀ u, fuses (clear u) = fuses u := fun u => fuses_afterRefusal ..
  split
  · exact (hclear _).trans (fuses_setResult ..)
  split
  · exact (hclear _).trans (fuses_refuseState ..)
  split
  · exact (hclear _).trans (fuses_refuseState ..)
  next h =>
    dsimp only
    rw [hclear, fuses_done, fuses_addWaits]
    exact fuses_groupOrSame h

theorem fuses_emptyForces {s t : State} {owner : Nat} (h : emptyForces s owner = some t) : fuses t = fuses s := by
  unfold emptyForces at h
  dsimp only at h
  split at h
  · exact nomatch h
  next u hu =>
    obtain rfl := Option.some.inj h
    rw [fuses_foldl (fun _ _ => fuses_logForceRelease ..)]
    exact (fuses_groupOrSame hu :)

theorem fuses_progLoadOp (s : State) (c : CmdRef) (slot : Nat) : fuses (progLoadOp s c slot) = fuses s := by
  unfold progLoadOp
  split
  · exact fuses_refuseState ..
  split
  · exact fuses_refuseState ..
  split
  · exact fuses_refuseState ..
  next h =>
    dsimp only
    rw [fuses_done, fuses_syncMode, fuses_stateRecord, fuses_loadProgram, fuses_dropRequests, fuses_dropWatch]
    split
    · exact (fuses_finishNow ..).trans (fuses_emptyForces h)
    · exact fuses_emptyForces h

theorem fuses_finishLoad (s : State) (c : CmdRef) (chart : Nat) (img : ChartImage) :
    fuses (finishLoad s c chart img) = fuses s := by
  unfold finishLoad
  dsimp only
  split
  · exact fuses_refuseState ..
  next h =>
    rw [fuses_done, fuses_mirrorImage, fuses_setChart]
    exact fuses_groupOrSame h

theorem fuses_retainStage (s : State) (c : CmdRef) (parts : BitVec 8) (x : Cmd) :
    fuses (retainStage s c parts x) = fuses s := by
  unfold retainStage
  extract_lets left n2 n1 owner ring store
  have hring : fuses ring = fuses s := by
    simp only [ring]
    split
    · exact fuses_clearRing s
    · rfl
  have hstore : fuses store = fuses s := by
    simp only [store]
    split
    · exact (fuses_clearStore ..).trans hring
    · exact hring
  clear_value store
  split
  · split
    · exact (fuses_refuseState ..).trans hstore
    next h =>
      rw [fuses_done, fuses_log, fuses_dropForces, fuses_groupOrSame h, hstore]
  split
  · rw [fuses_done, fuses_log, hstore]
  · exact hstore

theorem fuses_applyGroup (s : State) (ws : List PWrite) : fuses (applyGroup s ws) = fuses s := by
  unfold applyGroup
  dsimp only
  split
  · rfl
  next h =>
    simp only [↓fuses_ite, ↓fuses_applyForces, ↓fuses_loadForces, ↓fuses_commitSeal, ↓fuses_takeValues, ↓fuses_addWaits,
      ite_self]
    exact fuses_groupWrite h

theorem fuses_housekeepMark (s : State) (c : Nat) : fuses (housekeepMark s c) = fuses s := by
  unfold housekeepMark
  extract_lets a due
  split
  · rfl
  split
  · rfl
  next h => exact (fuses_modAna ..).trans (fuses_groupWrite h)

theorem fuses_timeSetOp (s : State) (c : CmdRef) (sec : Nat) : fuses (timeSetOp s c sec) = fuses s := by
  unfold timeSetOp
  split
  · exact fuses_refuseState ..
  next h => rw [fuses_waitFor, fuses_modClock, fuses_groupWrite h]

theorem fuses_timeShiftOp (s : State) (c : CmdRef) (n : Int) (d : Nat) : fuses (timeShiftOp s c n d) = fuses s := by
  unfold timeShiftOp
  split
  · exact fuses_refuseState ..
  next h =>
    dsimp only
    rw [fuses_done, fuses_shiftBy, fuses_groupWrite h]

theorem fuses_timeTrimOp (s : State) (c : CmdRef) (source : Nat) (fixed : Int) :
    fuses (timeTrimOp s c source fixed) = fuses s := by
  unfold timeTrimOp
  dsimp only
  split
  · exact fuses_refuseState ..
  next h => rw [fuses_done, fuses_setPar, fuses_setSource, fuses_groupWrite h]

/-! ### Held commands, slots and images -/

theorem fuses_serveHeld (xs : List Cmd) (s : State) : fuses (serveHeld xs s) = fuses s := by
  induction xs generalizing s with
  | nil => rfl
  | cons x xs ih =>
    unfold serveHeld
    split
    · exact (ih _).trans (fuses_ageOut ..)
    split
    · split
      · rfl
      · exact (ih _).trans (fuses_acceptStage ..)
    · rfl

theorem fuses_serveUnbooked (c : Cls) (s : State) : fuses (serveUnbooked c s) = fuses s := by
  unfold serveUnbooked
  refine fuses_foldl (fun t x => ?_) _ _
  split
  · exact fuses_acceptStage ..
  · rfl

theorem fuses_performSlot (s : State) (w : SlotWork) : fuses (performSlot s w) = fuses s := by
  unfold performSlot
  split
  case h_6 c vs =>
    extract_lets written recorded pended
    have hwritten : fuses written = fuses s := by
      refine fuses_foldl (fun t x => ?_) _ _
      split
      · rfl
      · exact fuses_putItem ..
    have hpended : fuses pended = fuses recorded := by
      simp only [pended]
      split
      · exact fuses_pendEdit ..
      · rfl
    rw [fuses_modSched, hpended, fuses_imageRecords, hwritten]
  all_goals simp only [↓fuses_done, ↓fuses_imageRecords, ↓fuses_writeItem, ↓fuses_putForce, ↓fuses_logForceSet,
    ↓fuses_releaseForce, ↓fuses_logForceRelease, ↓fuses_foldl, implies_true]

theorem fuses_imageFrame (s : State) (kind : Nat) (data : List Byte) : fuses (imageFrame s kind data) = fuses s := by
  have hjoin := fuses_joinImage s kind data
  unfold imageFrame
  split
  next u bs hu =>
    rw [hu] at hjoin
    exact (fuses_storeImage ..).trans hjoin
  next u hu =>
    rw [hu] at hjoin
    exact hjoin

theorem fuses_sendImages (s : State) : fuses (sendImages s) = fuses s := by
  unfold sendImages
  dsimp only
  split
  · rw [fuses_foldl, fuses_foldl (fun _ _ => fuses_sendImage ..), fuses_sendImage]
    intro t c
    split
    · exact fuses_sendImage ..
    · rfl
  · rfl

theorem fuses_carryAll (n : Nat) (s : State) (ls : List (Nat × RingLine)) : fuses (carryAll n s ls) = fuses s := by
  induction n generalizing s ls with
  | zero => unfold carryAll; rfl
  | succ n ih =>
    cases ls with
    | nil => rfl
    | cons l ls =>
      unfold carryAll
      split
      next h => exact (ih _ _).trans (fuses_ringAppend h)
      · exact fuses_sealFaultAt ..

theorem fuses_windowEnd (s : State) (l : Line) : fuses (windowEnd s l) = fuses s := by
  unfold windowEnd
  refine (fuses_foldl (fun t f => ?_) _ _).trans (fuses_modLine ..)
  split
  · rfl
  · exact (fuses_notSent ..).trans (fuses_unbook ..)

/-! ### Updates -/

theorem fuses_updBeginOp (s : State) (c : CmdRef) (target kind length : Nat) (hash : List Byte) :
    fuses (updBeginOp s c target kind length hash) = fuses s := by
  unfold updBeginOp
  simp only [↓fuses_done, ↓fuses_logUpdate]
  rfl

theorem fuses_finishApply (s : State) (c : CmdRef) (u : Update) : fuses (finishApply s c u) = fuses s := by
  unfold finishApply
  split
  · exact fuses_applyRefused ..
  split
  · exact fuses_applyRefused ..
  · dsimp only
    rw [fuses_done]
    split <;> exact fuses_beginBuild s u

theorem fuses_healthOp (s : State) : fuses (healthOp s) = fuses s := by
  unfold healthOp
  split
  · rfl
  split
  · rfl
  · exact (fuses_logUpdate ..).trans rfl

theorem fuses_imageSlotOp (s : State) : fuses (imageSlotOp s) = fuses s := by
  unfold imageSlotOp
  split
  all_goals simp only [↓fuses_modSched, ↓fuses_idleChanges, ↓fuses_performSlot, ↓fuses_foldl, implies_true]

theorem fuses_windowStart (s : State) : fuses (windowStart s) = fuses s := by
  unfold windowStart
  simp only [↓fuses_takeShares, ↓fuses_pruneBookings, ↓fuses_serveHeld, ↓fuses_serveUnbooked, ↓fuses_foldl,
    implies_true, ↓fuses_ite, ite_self]

theorem fuses_chartLoadStage (s : State) (c : CmdRef) (g : Segment) (x : Cmd) :
    fuses (chartLoadStage s c g x) = fuses s := by
  unfold chartLoadStage
  dsimp only
  repeat' split
  all_goals simp only [↓fuses_refuseState, ↓fuses_finishLoad, ↓fuses_modHost, ↓fuses_setResult, ↓fuses_writeCopy,
    ↓fuses_writeHeader]

theorem fuses_configOp (s : State) (kind : Nat) (data : List Byte) : fuses (configOp s kind data) = fuses s := by
  unfold configOp
  repeat' split
  all_goals simp only [↓fuses_applyGroup, ↓fuses_imageFrame, ↓fuses_resyncControl]

theorem fuses_resyncStep (s : State) (stage : Nat) : fuses (resyncStep s stage) = fuses s := by
  unfold resyncStep
  split
  all_goals simp only [↓fuses_modTwin, ↓fuses_setPair, ↓fuses_twinSend, ↓fuses_log, ↓fuses_sendImages, ↓fuses_sendStore,
    ↓fuses_carryAll]

theorem fuses_autoResync (s : State) : fuses (autoResync s) = fuses s := by
  unfold autoResync
  repeat' split
  all_goals simp only [↓fuses_resyncStep]

theorem fuses_twinResyncOp (s : State) (c : CmdRef) (x : Cmd) : fuses (twinResyncOp s c x) = fuses s := by
  unfold twinResyncOp
  simp only [↓fuses_done, ↓fuses_refuseState, ↓fuses_resyncStep, ↓fuses_modTwin, ↓fuses_waitFor, ↓fuses_ite, ite_self]

theorem fuses_handedOver (s : State) (c : Nat) : fuses (handedOver s c) = fuses s := by
  unfold handedOver
  simp only [↓fuses_modAna, ↓fuses_setStageFault, ↓fuses_startCal, ↓fuses_relayOutcome, ↓fuses_housekeepMark,
    ↓fuses_ite, ite_self]

theorem fuses_applyStage (s : State) (c : CmdRef) (x : Cmd) : fuses (applyStage s c x) = fuses s := by
  unfold applyStage
  dsimp only
  repeat' split
  all_goals simp only [↓fuses_refuseState, ↓fuses_applyRefused, ↓fuses_modUpdate, ↓fuses_finishApply, ↓fuses_beginBuild]

end Sys2Proof.Machine
end

section
/-!
PROOFS. Where fuses are burnt and the security version rises (R636, R643), and the work of a command.
-/
namespace Sys2Proof.Machine

open Sys2Proof

theorem fuses_calPassed (s : State) (c : Nat) : fuses (calPassed s c) = fuses s := by
  unfold calPassed
  extract_lets a idle trimmed learned cleared stopped
  have hlearned : fuses learned = fuses s := (fuses_modAna ..).trans (fuses_setTrim ..)
  have hstopped : fuses stopped = fuses s := by
    simp only [stopped, cleared, ↓fuses_modAna, ↓fuses_setChFault, ↓fuses_setStageFault]
    exact hlearned
  clear_value learned stopped
  split
  · split
    · split
      · exact (fuses_trimResult ..).trans hstopped
      next h => exact (fuses_trimResult ..).trans ((fuses_groupWrite h).trans hstopped)
    · rw [fuses_tryStep4, fuses_modAna, fuses_setChFault, fuses_setStageFault, hlearned]
  · rw [fuses_tryStep4, fuses_modAna, hlearned]

theorem fuses_stepEnd (s : State) (c : Nat) (measured : Int) : fuses (stepEnd s c measured) = fuses s := by
  unfold stepEnd
  dsimp only
  repeat' split
  all_goals simp only [↓fuses_modAna, ↓fuses_tryStep4, ↓fuses_calPassed, ↓fuses_calFailed, ↓fuses_hartHostNext,
    ↓fuses_handedOver]

/-! ### Where fuses are burnt and the security version rises -/

/-- No fuse is burnt back and the security version does not fall. -/
def fusesRise (s t : State) : Prop :=
  s.store.svfuse ≤ t.store.svfuse ∧ (s.store.wdlockf = true → t.store.wdlockf = true) ∧
    (s.store.wdwinSet = true → t.store.wdwinSet = true ∧ t.store.wdwin = s.store.wdwin)

theorem fusesRise_of_fuses {s s' t t' : State} (hs : fuses s = fuses s') (ht : fuses t = fuses t') (h : fusesRise s' t') :
    fusesRise s t := by
  simp only [fuses, Prod.mk.injEq] at hs ht
  obtain ⟨hs1, hs2, hs3, hs4⟩ := hs
  obtain ⟨ht1, ht2, ht3, ht4⟩ := ht
  unfold fusesRise
  rw [hs1, hs2, hs3, hs4, ht1, ht2, ht3, ht4]
  exact h

theorem fusesRise_refl (s : State) : fusesRise s s := ⟨Nat.le_refl _, id, fun h => ⟨h, rfl⟩⟩

theorem fusesRise_of_eq {s t : State} (h : fuses t = fuses s) : fusesRise s t := fusesRise_of_fuses rfl h (fusesRise_refl s)

/-- The DONE receipt of UPD.CONFIRM raises the security version to that of the running firmware (R636). -/
theorem finishUpdate_rises (s : State) (op : BitVec 16) : fusesRise s (finishUpdate s op) := by
  unfold finishUpdate
  dsimp only
  split
  · exact fusesRise_of_fuses rfl (fuses_log ..) ⟨Nat.le_max_left .., id, fun h => ⟨h, rfl⟩⟩
  refine fusesRise_of_eq ?_
  split
  · rfl
  split
  · refine (fuses_log ..).trans ?_
    split <;> rfl
  split
  · exact fuses_log ..
  · rfl

theorem stageComplete_rises (s : State) (c : CmdRef) : fusesRise s (stageComplete s c) := by
  unfold stageComplete
  split
  · exact fusesRise_refl s
  split
  · exact fusesRise_refl s
  split
  · exact fusesRise_of_eq (fuses_raiseFault ..)
  split
  · exact fusesRise_of_eq (fuses_frankStage ..)
  split
  · dsimp only
    split
    · split
      · refine fusesRise_of_eq ?_
        simp only [↓fuses_ite, ↓fuses_takeBaud, ↓fuses_committedNow, ↓fuses_placeResult, ite_self]
      split
      · exact fusesRise_of_fuses (fuses_placeResult ..).symm rfl (finishUpdate_rises ..)
      · exact fusesRise_of_eq (fuses_placeResult ..)
    · refine fusesRise_of_eq ?_
      simp only [↓fuses_ite, ↓fuses_nextStage, ite_self]
  · refine fusesRise_of_eq ?_
    simp only [↓fuses_ite, ↓fuses_nextStage, ite_self]

/-- A fuse is programmed only where it is not yet (R643). -/
theorem programFuse_rises (s : State) (fuse value : Nat) : fusesRise s (programFuse s fuse value).2 := by
  unfold programFuse
  split
  · split
    · exact fusesRise_refl s
    next h => exact ⟨Nat.le_refl _, id, fun hset => absurd hset h⟩
  · exact ⟨Nat.le_refl _, fun h => by simp [modStore, h], fun h => ⟨h, rfl⟩⟩

theorem secKeysOp_rises (s : State) (c : CmdRef) (op slot : Nat) (data : List Byte) :
    fusesRise s (secKeysOp s c op slot data) := by
  unfold secKeysOp
  split
  · refine fusesRise_of_eq ?_
    split
    · exact fuses_abortedBy ..
    · split
      · exact (fuses_keysDone ..).trans (fuses_setOwner ..)
      · exact fuses_setResult ..
  · exact fusesRise_of_eq ((fuses_keysDone ..).trans (fuses_setOwner ..))
  · exact fusesRise_of_fuses rfl (fuses_keysDone ..) (programFuse_rises ..)

/-! ### The work of a command -/

theorem runWork_fuses {now : Tb} {c : CmdRef} {i : Instr} {s : State} {f : State → Cmd → State} {t : State}
    (h : runWork now c i s f = .next t) : fuses t = fuses s ∨ ∃ u x, fuses u = fuses s ∧ t = f u x := by
  unfold runWork at h
  obtain rfl := Host.Outcome.next.inj h
  split
  · exact .inl rfl
  split
  · exact .inl rfl
  dsimp only
  have hbegin := fuses_beginWork (s.at now) c
  split
  · exact .inl ((fuses_afterRefusal ..).trans ((fuses_refuseState ..).trans hbegin))
  split
  · exact .inl ((fuses_requestAborted ..).trans hbegin)
  split
  · exact .inl ((fuses_energyRefused ..).trans hbegin)
  · exact .inr ⟨_, _, ((fuses_reserveEnergy ..).trans (fuses_updCmd ..)).trans hbegin, rfl⟩

theorem nextKept_runWork {f : State → Cmd → State} (hf : ∀ s x, fuses (f s x) = fuses s) (now : Tb) (c : CmdRef) (i : Instr)
    (s : State) : nextKept s (runWork now c i s f) := by
  intro t ht
  obtain h | ⟨u, x, hu, rfl⟩ := runWork_fuses ht
  · exact h
  · exact (hf u x).trans hu

theorem nextKept_runLast {f : State → State} (hf : ∀ s, fuses (f s) = fuses s) (now : Tb) (c : CmdRef) (i : Instr)
    (s : State) : nextKept s (runLast now c i s f) := by
  refine nextKept_runWork (fun u x => ?_) now c i s
  split
  · exact hf u
  · rfl

theorem nextKept_regs2 (s : State) (g : Guard) (cost : Nat) (rd rs1 rs2 : Reg)
    (f : Engine → Tagged → Tagged → Engine × Tagged) : nextKept s (regs2 s g cost rd rs1 rs2 f) :=
  nextKept_engineRegs s g cost _ _

theorem nextKept_regs1 (s : State) (g : Guard) (cost : Nat) (rd rs : Reg)
    (f : Engine → Tagged → Engine × Tagged) : nextKept s (regs1 s g cost rd rs f) :=
  nextKept_engineRegs s g cost _ _

end Sys2Proof.Machine
end

section
/-!
PROOFS. What each row of the command table leaves of the fuses (R9).
-/
namespace Sys2Proof.Machine

open Sys2Proof

/-! ### Machine/ScanRows -/

theorem nextKept_execScanReady (now : Tb) (s : State) : nextKept s (execScanReady now s) := by
  unfold execScanReady
  simp only [↓nextKept_next, ↓fuses_scanReadyOp, ↓fuses_at]

theorem nextKept_execRoundMinExpiry (now : Tb) (s : State) : nextKept s (execRoundMinExpiry now s) := by
  unfold execRoundMinExpiry
  simp only [↓nextKept_next, ↓fuses_at, ↓fuses_openRound, ↓fuses_ite, ite_self]

theorem nextKept_execFixedPeriodRelease (now : Tb) (task : BitVec 4) (s : State) :
    nextKept s (execFixedPeriodRelease now task s) := by
  unfold execFixedPeriodRelease
  simp only [↓nextKept_next, ↓fuses_releaseOp, ↓fuses_at]

theorem nextKept_execOverrun (now : Tb) (cause : OverrunCause) (s : State) : nextKept s (execOverrun now cause s) := by
  unfold execOverrun
  simp only [↓nextKept_next, ↓fuses_overrunOp, ↓fuses_at]

theorem nextKept_execSealPoint (now : Tb) (s : State) : nextKept s (execSealPoint now s) := by
  unfold execSealPoint
  dsimp only
  repeat' split
  all_goals simp only [↓nextKept_next, ↓fuses_at, ↓fuses_completeSeal]

theorem nextKept_execManifestAckDeadline (now : Tb) (s : State) : nextKept s (execManifestAckDeadline now s) := by
  unfold execManifestAckDeadline
  dsimp only
  repeat' split
  all_goals simp only [↓nextKept_next, ↓fuses_at, ↓fuses_dropWatch, ↓fuses_modSched]

theorem nextKept_execEmit (now : Tb) (s : State) : nextKept s (execEmit now s) := by
  unfold execEmit
  dsimp only
  repeat' split
  all_goals simp only [↓nextKept_next, ↓fuses_at, ↓fuses_emitAreas, ↓fuses_modSched]

theorem nextKept_execEmitEnd (now : Tb) (s : State) : nextKept s (execEmitEnd now s) := by
  unfold execEmitEnd
  dsimp only
  repeat' split
  all_goals simp only [↓nextKept_next, ↓fuses_at, ↓fuses_raiseFault, ↓fuses_carryForSeals, ↓fuses_idleChanges,
    ↓fuses_endScan]

theorem nextKept_execImageSlot (now : Tb) (s : State) : nextKept s (execImageSlot now s) := by
  unfold execImageSlot
  simp only [↓nextKept_next, ↓fuses_imageSlotOp, ↓fuses_at]

theorem nextKept_execCarryRecordWrite (now : Tb) (s : State) : nextKept s (execCarryRecordWrite now s) := by
  unfold execCarryRecordWrite
  simp only [↓nextKept_next, ↓fuses_at, ↓fuses_carryRecord, ↓fuses_ite, ite_self]

theorem nextKept_execSealFault (now : Tb) (line : Nat) (s : State) : nextKept s (execSealFault now line s) := by
  unfold execSealFault
  simp only [↓nextKept_next, ↓fuses_sealFaultAt, ↓fuses_at]

theorem nextKept_execChartPreloadComplete (now : Tb) (s : State) : nextKept s (execChartPreloadComplete now s) := by
  unfold execChartPreloadComplete
  dsimp only
  repeat' split
  all_goals simp only [↓nextKept_next, ↓fuses_at, ↓fuses_idleChanges, ↓fuses_modCharts, ↓fuses_logDiscard,
    ↓fuses_cancelReq]

theorem nextKept_execReEmit (now : Tb) (s : State) : nextKept s (execReEmit now s) := by
  unfold execReEmit
  simp only [↓nextKept_next, ↓fuses_reEmitOp, ↓fuses_at]

/-! ### Machine/Admission -/

theorem nextKept_execShareWindowStart (now : Tb) (s : State) : nextKept s (execShareWindowStart now s) := by
  unfold execShareWindowStart
  simp only [↓nextKept_next, ↓fuses_windowStart, ↓fuses_at]

theorem nextKept_execHeldCommandAgesOut (now : Tb) (c : CmdRef) (s : State) :
    nextKept s (execHeldCommandAgesOut now c s) := by
  unfold execHeldCommandAgesOut
  dsimp only
  repeat' split
  all_goals simp only [↓nextKept_next, ↓fuses_at, ↓fuses_ageOut]

/-! ### Machine/HostLink -/

theorem nextKept_execStatus (now : Tb) (s : State) : nextKept s (execStatus now s) := by
  unfold execStatus
  simp only [↓nextKept_next, ↓fuses_at, ↓fuses_spiOut]

theorem nextKept_execStatusClr (now : Tb) (mask : BitVec 32) (s : State) : nextKept s (execStatusClr now mask s) := by
  unfold execStatusClr
  split
  all_goals simp only [↓nextKept_next, ↓fuses_spiOut, ↓fuses_at, ↓fuses_modHost]

theorem nextKept_execPut (now : Tb) (bytes : List Byte) (s : State) : nextKept s (execPut now bytes s) := by
  unfold execPut
  simp only [↓nextKept_next, ↓fuses_putOp]

theorem nextKept_execPutQ (now : Tb) (bytes : List Byte) (s : State) : nextKept s (execPutQ now bytes s) := by
  unfold execPutQ
  simp only [↓nextKept_next, ↓fuses_putOp]

theorem nextKept_execTake (now : Tb) (n : Nat) (s : State) : nextKept s (execTake now n s) := by
  unfold execTake
  simp only [↓nextKept_next, ↓fuses_takeOp]

theorem nextKept_execTakeQ (now : Tb) (n : Nat) (s : State) : nextKept s (execTakeQ now n s) := by
  unfold execTakeQ
  simp only [↓nextKept_next, ↓fuses_takeOp]

theorem nextKept_execRepeatLast (now : Tb) (n : Nat) (s : State) : nextKept s (execRepeatLast now n s) := by
  unfold execRepeatLast
  simp only [↓nextKept_next, ↓fuses_repeatOp]

theorem nextKept_execRepeatLastQ (now : Tb) (n : Nat) (s : State) : nextKept s (execRepeatLastQ now n s) := by
  unfold execRepeatLastQ
  simp only [↓nextKept_next, ↓fuses_repeatOp]

theorem nextKept_execPortReset (now : Tb) (s : State) : nextKept s (execPortReset now s) := by
  unfold execPortReset
  simp only [↓nextKept_next, ↓fuses_spiOut, ↓fuses_at, ↓fuses_modHost]

theorem nextKept_execUnknownCommandByte (now : Tb) (b : Byte) (s : State) :
    nextKept s (execUnknownCommandByte now b s) := by
  unfold execUnknownCommandByte
  split
  all_goals simp only [↓nextKept_next, ↓fuses_modHost, ↓fuses_spiOut, ↓fuses_at]

theorem nextKept_execMaintBreak (now : Tb) (durUs : Nat) (s : State) : nextKept s (execMaintBreak now durUs s) := by
  unfold execMaintBreak
  simp only [↓nextKept_next, ↓fuses_breakOp, ↓fuses_at]

theorem nextKept_execMaintByteReceived (now : Tb) (b : Byte) (s : State) : nextKept s (execMaintByteReceived now b s) := by
  unfold execMaintByteReceived
  simp only [↓nextKept_next, ↓fuses_maintByteOp, ↓fuses_at]

theorem nextKept_execPartialPacketTimeout (now : Tb) (port : Port) (s : State) :
    nextKept s (execPartialPacketTimeout now port s) := by
  unfold execPartialPacketTimeout
  simp only [↓nextKept_next, ↓fuses_partialTimeout, ↓fuses_at]

theorem nextKept_execPacketArrival (now : Tb) (port : Port) (s : State) : nextKept s (execPacketArrival now port s) := by
  unfold execPacketArrival
  simp only [↓nextKept_next, ↓fuses_arrive, ↓fuses_at]

theorem nextKept_execMaintReceiptSent (now : Tb) (s : State) : nextKept s (execMaintReceiptSent now s) := by
  unfold execMaintReceiptSent
  simp only [↓nextKept_next, ↓fuses_maintSent, ↓fuses_at]

theorem nextKept_execSessionIdleTimeout (now : Tb) (s : State) : nextKept s (execSessionIdleTimeout now s) := by
  unfold execSessionIdleTimeout
  simp only [↓nextKept_next, ↓fuses_idleTimeout, ↓fuses_at]

theorem nextKept_execSegmentTransferTimeout (now : Tb) (s : State) : nextKept s (execSegmentTransferTimeout now s) := by
  unfold execSegmentTransferTimeout
  dsimp only
  repeat' split
  all_goals simp only [↓nextKept_next, ↓fuses_at, ↓fuses_modHost]

theorem nextKept_execSessionOpen (now : Tb) (c : CmdRef) (host : BitVec 32) (s : State) :
    nextKept s (execSessionOpen now c host s) := by
  unfold execSessionOpen
  refine nextKept_runWork (fun u x => ?_) now c _ s
  split
  all_goals simp only [↓fuses_refuseState, ↓fuses_done]

theorem nextKept_execSessionClose (now : Tb) (c : CmdRef) (s : State) : nextKept s (execSessionClose now c s) := by
  unfold execSessionClose
  refine nextKept_runWork (fun u x => ?_) now c _ s
  split
  all_goals simp only [↓fuses_refuseState, ↓fuses_removeUnstarted, ↓fuses_done, ↓fuses_modHost]

theorem nextKept_execSessionNonce (now : Tb) (c : CmdRef) (s : State) : nextKept s (execSessionNonce now c s) := by
  unfold execSessionNonce
  refine nextKept_runWork (fun u x => ?_) now c _ s
  dsimp only [State.draw]
  simp only [↓fuses_done, ↓fuses_setPort, ↓fuses_mk, fuses_fold]

theorem nextKept_execSessionClaim (now : Tb) (c : CmdRef) (host : BitVec 32) (s : State) :
    nextKept s (execSessionClaim now c host s) := by
  unfold execSessionClaim
  refine nextKept_runWork (fun u x => ?_) now c _ s
  simp only [↓fuses_removeUnstarted, ↓fuses_done]

theorem nextKept_execAdmitQuery (now : Tb) (c : CmdRef) (packet : List Byte) (s : State) :
    nextKept s (execAdmitQuery now c packet s) := by
  unfold execAdmitQuery
  refine nextKept_runWork (fun u x => ?_) now c _ s
  exact fuses_done ..

theorem nextKept_execAdmitShares (now : Tb) (c : CmdRef) (v p ps d : Nat) (s : State) :
    nextKept s (execAdmitShares now c v p ps d s) := by
  unfold execAdmitShares
  refine nextKept_runWork (fun u x => ?_) now c _ s
  exact fuses_sharesOp ..

/-! ### Machine/ImageCmds -/

theorem nextKept_execImageRead (now : Tb) (c : CmdRef) (space n start : Nat) (s : State) :
    nextKept s (execImageRead now c space n start s) := by
  unfold execImageRead
  refine nextKept_runWork (fun u x => ?_) now c _ s
  exact fuses_queueSlot ..

theorem nextKept_execImageWrite (now : Tb) (c : CmdRef) (space start : Nat) (vals : List Word) (s : State) :
    nextKept s (execImageWrite now c space start vals s) := by
  unfold execImageWrite
  refine nextKept_runWork (fun u x => ?_) now c _ s
  exact fuses_queueSlot ..

theorem nextKept_execImageWatch (now : Tb) (c : CmdRef) (task space : Nat) (addrs : List Nat) (timeoutUs : Nat) (s :
    State) :
    nextKept s (execImageWatch now c task space addrs timeoutUs s) := by
  unfold execImageWatch
  refine nextKept_runWork (fun u x => ?_) now c _ s
  simp only [↓fuses_waitFor, ↓fuses_modSched]

theorem nextKept_execImageWatchTimeout (now : Tb) (c : CmdRef) (s : State) :
    nextKept s (execImageWatchTimeout now c s) := by
  unfold execImageWatchTimeout
  simp only [↓nextKept_next, ↓fuses_watchExpired, ↓fuses_at]

theorem nextKept_execForceSet (now : Tb) (c : CmdRef) (entries : List ForceArg) (s : State) :
    nextKept s (execForceSet now c entries s) := by
  unfold execForceSet
  refine nextKept_runWork (fun u x => ?_) now c _ s
  exact fuses_forceSetOp ..

theorem nextKept_execForceRelease (now : Tb) (c : CmdRef) (addrs : List (BitVec 32)) (s : State) :
    nextKept s (execForceRelease now c addrs s) := by
  unfold execForceRelease
  refine nextKept_runWork (fun u x => ?_) now c _ s
  exact fuses_forceReleaseOp ..

theorem nextKept_execForceList (now : Tb) (c : CmdRef) (first : Nat) (s : State) :
    nextKept s (execForceList now c first s) := by
  unfold execForceList
  refine nextKept_runLast (fun u => ?_) now c _ s
  exact fuses_done ..

/-! ### Machine/ParamCmds -/

theorem nextKept_execParamRead (now : Tb) (c : CmdRef) (pids : List Nat) (s : State) :
    nextKept s (execParamRead now c pids s) := by
  unfold execParamRead
  refine nextKept_runWork (fun u x => ?_) now c _ s
  exact fuses_done ..

theorem nextKept_execParamWrite (now : Tb) (c : CmdRef) (entries : List (Nat × Nat)) (s : State) :
    nextKept s (execParamWrite now c entries s) := by
  unfold execParamWrite
  refine nextKept_runWork (fun u x => ?_) now c _ s
  simp only [↓fuses_done, ↓fuses_modHost]

theorem nextKept_execParamValueTakesEffect (now : Tb) (kind : Applies) (s : State) :
    nextKept s (execParamValueTakesEffect now kind s) := by
  unfold execParamValueTakesEffect
  simp only [↓nextKept_next, ↓fuses_takesEffect, ↓fuses_at]

theorem nextKept_execParamCommit (now : Tb) (c : CmdRef) (s : State) : nextKept s (execParamCommit now c s) := by
  unfold execParamCommit
  refine nextKept_runLast (fun u => ?_) now c _ s
  exact fuses_commitOp ..

/-! ### Machine/ProgCmds -/

theorem nextKept_execProgLoad (now : Tb) (c : CmdRef) (slot : Nat) (s : State) :
    nextKept s (execProgLoad now c slot s) := by
  unfold execProgLoad
  refine nextKept_runLast (fun u => ?_) now c _ s
  exact fuses_progLoadOp ..

theorem nextKept_execProgEdit (now : Tb) (c : CmdRef) (seg : Segment) (s : State) :
    nextKept s (execProgEdit now c seg s) := by
  unfold execProgEdit
  refine nextKept_runWork (fun u x => ?_) now c _ s
  repeat' split
  all_goals simp only [↓fuses_storeSegment, ↓fuses_beginEdit]

theorem nextKept_execProgRun (now : Tb) (c : CmdRef) (s : State) : nextKept s (execProgRun now c s) := by
  unfold execProgRun
  refine nextKept_runWork (fun u x => ?_) now c _ s
  exact fuses_progRunOp ..

theorem nextKept_execProgStop (now : Tb) (c : CmdRef) (mode : Nat) (s : State) :
    nextKept s (execProgStop now c mode s) := by
  unfold execProgStop
  refine nextKept_runWork (fun u x => ?_) now c _ s
  exact fuses_progStopOp ..

theorem nextKept_execProgTasks (now : Tb) (c : CmdRef) (s : State) : nextKept s (execProgTasks now c s) := by
  unfold execProgTasks
  refine nextKept_runWork (fun u x => ?_) now c _ s
  exact fuses_done ..

/-! ### Machine/ChartCmds -/

theorem nextKept_execChartLoad (now : Tb) (c : CmdRef) (seg : Segment) (s : State) :
    nextKept s (execChartLoad now c seg s) := by
  unfold execChartLoad
  refine nextKept_runWork (fun u x => ?_) now c _ s
  split
  all_goals simp only [↓fuses_storeSegment, ↓fuses_chartLoadStage]

theorem nextKept_execChartSelect (now : Tb) (c : CmdRef) (chart : Nat) (s : State) :
    nextKept s (execChartSelect now c chart s) := by
  unfold execChartSelect
  refine nextKept_runWork (fun u x => ?_) now c _ s
  simp only [↓fuses_requestSelect, ↓fuses_waitFor]

theorem nextKept_execChartInfo (now : Tb) (c : CmdRef) (chart : Nat) (s : State) :
    nextKept s (execChartInfo now c chart s) := by
  unfold execChartInfo
  refine nextKept_runWork (fun u x => ?_) now c _ s
  exact fuses_done ..

theorem nextKept_execSealStatus (now : Tb) (c : CmdRef) (s : State) : nextKept s (execSealStatus now c s) := by
  unfold execSealStatus
  refine nextKept_runWork (fun u x => ?_) now c _ s
  exact fuses_done ..

theorem nextKept_execRetainClear (now : Tb) (c : CmdRef) (parts : BitVec 8) (s : State) :
    nextKept s (execRetainClear now c parts s) := by
  unfold execRetainClear
  refine nextKept_runWork (fun u x => ?_) now c _ s
  exact fuses_retainStage ..

/-! ### Machine/Units -/

theorem nextKept_execCollarReopen (now : Tb) (unit : Nat) (s : State) : nextKept s (execCollarReopen now unit s) := by
  unfold execCollarReopen
  simp only [↓nextKept_next, ↓fuses_reopenUnit, ↓fuses_at]

theorem nextKept_execRequestToClosedCollar (now : Tb) (unit : Nat) (who : Requester) (s : State) :
    nextKept s (execRequestToClosedCollar now unit who s) := by
  unfold execRequestToClosedCollar
  simp only [↓nextKept_next, ↓fuses_requestAborted, ↓fuses_at]

theorem nextKept_execUnitReset (now : Tb) (c : CmdRef) (unit : Nat) (s : State) :
    nextKept s (execUnitReset now c unit s) := by
  unfold execUnitReset
  refine nextKept_runWork (fun u x => ?_) now c _ s
  split
  all_goals simp only [↓fuses_abortedBy, ↓fuses_closeUnit, ↓fuses_waitFor]

theorem nextKept_execUnitFault (now : Tb) (unit : Nat) (s : State) : nextKept s (execUnitFault now unit s) := by
  unfold execUnitFault
  simp only [↓nextKept_next, ↓fuses_at, ↓fuses_unitFaultOp, ↓fuses_ite, ite_self]

/-! ### Machine/DevCmds -/

theorem nextKept_execStatusGet (now : Tb) (c : CmdRef) (s : State) : nextKept s (execStatusGet now c s) := by
  unfold execStatusGet
  refine nextKept_runWork (fun u x => ?_) now c _ s
  exact fuses_done ..

theorem nextKept_execTestSelf (now : Tb) (c : CmdRef) (unit : Nat) (s : State) :
    nextKept s (execTestSelf now c unit s) := by
  unfold execTestSelf
  refine nextKept_runLast (fun u => ?_) now c _ s
  exact fuses_selfTestOp ..

theorem nextKept_execTestPace (now : Tb) (c : CmdRef) (s : State) : nextKept s (execTestPace now c s) := by
  unfold execTestPace
  refine nextKept_runLast (fun u => ?_) now c _ s
  exact fuses_done ..

theorem nextKept_execDevReset (now : Tb) (c : CmdRef) (kind : Nat) (s : State) :
    nextKept s (execDevReset now c kind s) := by
  unfold execDevReset
  refine nextKept_runWork (fun u x => ?_) now c _ s
  simp only [↓fuses_done, ↓fuses_modHost]

theorem nextKept_execDevDormant (now : Tb) (c : CmdRef) (mask : BitVec 16) (s : State) :
    nextKept s (execDevDormant now c mask s) := by
  unfold execDevDormant
  refine nextKept_runWork (fun u x => ?_) now c _ s
  simp only [↓fuses_done, ↓fuses_modHost]

theorem nextKept_execReceiptWaitExpiry (now : Tb) (s : State) : nextKept s (execReceiptWaitExpiry now s) := by
  unfold execReceiptWaitExpiry
  simp only [↓nextKept_next, ↓fuses_actAfterReceipt, ↓fuses_at]

/-! ### Machine/TwinCmds -/

theorem nextKept_execTwinStatus (now : Tb) (c : CmdRef) (s : State) : nextKept s (execTwinStatus now c s) := by
  unfold execTwinStatus
  refine nextKept_runWork (fun u x => ?_) now c _ s
  exact fuses_done ..

theorem nextKept_execTwinChange (now : Tb) (c : CmdRef) (s : State) : nextKept s (execTwinChange now c s) := by
  unfold execTwinChange
  refine nextKept_runWork (fun u x => ?_) now c _ s
  exact fuses_twinChangeOp ..

theorem nextKept_execTwinResync (now : Tb) (c : CmdRef) (s : State) : nextKept s (execTwinResync now c s) := by
  unfold execTwinResync
  refine nextKept_runWork (fun u x => ?_) now c _ s
  exact fuses_twinResyncOp ..

theorem nextKept_execLaneAlignmentChange (now : Tb) (lane : Fin 2) (aligned : Bool) (s : State) :
    nextKept s (execLaneAlignmentChange now lane aligned s) := by
  unfold execLaneAlignmentChange
  simp only [↓nextKept_next, ↓fuses_at, ↓fuses_laneOp, ↓fuses_ite, ite_self]

theorem nextKept_execHello (now : Tb) (f : HelloFrame) (s : State) : nextKept s (execHello now f s) := by
  unfold execHello
  simp only [↓nextKept_next, ↓fuses_at, ↓fuses_helloOp, ↓fuses_ite, ite_self]

theorem nextKept_execManifest (now : Tb) (ok : Bool) (r : RingRec) (s : State) : nextKept s (execManifest now ok r s) := by
  unfold execManifest
  simp only [↓nextKept_next, ↓fuses_at, ↓fuses_manifestOp, ↓fuses_noteLive, ↓fuses_ite, ite_self]

theorem nextKept_execAck (now : Tb) (seq : Nat) (written : Bool) (s : State) : nextKept s (execAck now seq written s) := by
  unfold execAck
  simp only [↓nextKept_next, ↓fuses_at, ↓fuses_ackOp, ↓fuses_ite, ite_self]

theorem nextKept_execLooseAckTimeout (now : Tb) (seq : Nat) (s : State) : nextKept s (execLooseAckTimeout now seq s) := by
  unfold execLooseAckTimeout
  simp only [↓nextKept_next, ↓fuses_at, ↓fuses_dropWatch, ↓fuses_ite, ite_self]

theorem nextKept_execHeartbeatDue (now : Tb) (s : State) : nextKept s (execHeartbeatDue now s) := by
  unfold execHeartbeatDue
  simp only [↓nextKept_next, ↓fuses_at, ↓fuses_setPair, ↓fuses_endResync, ↓fuses_twinSend, ↓fuses_ite, ite_self]

theorem nextKept_execHeartbeat (now : Tb) (f : HeartbeatFrame) (s : State) : nextKept s (execHeartbeat now f s) := by
  unfold execHeartbeat
  simp only [↓nextKept_next, ↓fuses_at, ↓fuses_heartbeatOp, ↓fuses_ite, ite_self]

theorem nextKept_execDrop (now : Tb) (reason : Nat) (s : State) : nextKept s (execDrop now reason s) := by
  unfold execDrop
  simp only [↓nextKept_next, ↓fuses_at, ↓fuses_setPair, ↓fuses_modTwin, ↓fuses_noteLive, ↓fuses_log, ↓fuses_ite,
    ite_self]

theorem nextKept_execConfig (now : Tb) (kind : Nat) (data : List Byte) (s : State) :
    nextKept s (execConfig now kind data s) := by
  unfold execConfig
  simp only [↓nextKept_next, ↓fuses_at, ↓fuses_configOp, ↓fuses_noteLive, ↓fuses_ite, ite_self]

theorem nextKept_execHandover (now : Tb) (f : HandoverFrame) (s : State) : nextKept s (execHandover now f s) := by
  unfold execHandover
  simp only [↓nextKept_next, ↓fuses_at, ↓fuses_handoverOp, ↓fuses_noteLive, ↓fuses_ite, ite_self]

theorem nextKept_execTaken (now : Tb) (term : Nat) (s : State) : nextKept s (execTaken now term s) := by
  unfold execTaken
  simp only [↓nextKept_next, ↓fuses_at, ↓fuses_takenOp, ↓fuses_noteLive, ↓fuses_ite, ite_self]

theorem nextKept_execWatchOutputsSafe (now : Tb) (s : State) : nextKept s (execWatchOutputsSafe now s) := by
  unfold execWatchOutputsSafe
  dsimp only
  repeat' split
  all_goals simp only [↓nextKept_next, ↓fuses_at, ↓fuses_modTwin, ↓fuses_watchOutputs]

theorem nextKept_execChangeReq (now : Tb) (s : State) : nextKept s (execChangeReq now s) := by
  unfold execChangeReq
  simp only [↓nextKept_next, ↓fuses_at, ↓fuses_requestChange, ↓fuses_noteLive, ↓fuses_ite, ite_self]

theorem nextKept_execWatchTimeout (now : Tb) (s : State) : nextKept s (execWatchTimeout now s) := by
  unfold execWatchTimeout
  simp only [↓nextKept_next, ↓fuses_at, ↓fuses_watchSilent, ↓fuses_ite, ite_self]

theorem nextKept_execSilenceVoteElapsed (now : Tb) (s : State) : nextKept s (execSilenceVoteElapsed now s) := by
  unfold execSilenceVoteElapsed
  simp only [↓nextKept_next, ↓fuses_at, ↓fuses_silenceVote, ↓fuses_ite, ite_self]

theorem nextKept_execHelmGivesUp (now : Tb) (s : State) : nextKept s (execHelmGivesUp now s) := by
  unfold execHelmGivesUp
  simp only [↓nextKept_next, ↓fuses_at, ↓fuses_giveUp, ↓fuses_ite, ite_self]

theorem nextKept_execTwinStartWaitExpiry (now : Tb) (s : State) : nextKept s (execTwinStartWaitExpiry now s) := by
  unfold execTwinStartWaitExpiry
  simp only [↓nextKept_next, ↓fuses_at, ↓fuses_startVote, ↓fuses_ite, ite_self]

theorem nextKept_execBusHeartbeatReceived (now : Tb) (line : Line) (side role term seq : Nat) (s : State) :
    nextKept s (execBusHeartbeatReceived now line side role term seq s) := by
  unfold execBusHeartbeatReceived
  simp only [↓nextKept_next, ↓fuses_at, ↓fuses_heardOp, ↓fuses_ite, ite_self]

theorem nextKept_execClassDSlice (now : Tb) (s : State) : nextKept s (execClassDSlice now s) := by
  unfold execClassDSlice
  simp only [↓nextKept_next, ↓fuses_at, ↓fuses_serveSlice, ↓fuses_modSched, ↓fuses_autoResync, ↓fuses_ite, ite_self]

/-! ### Machine/FieldRows -/

theorem nextKept_execDiSampleTick (now : Tb) (group : Fin 6) (currents : List Nat) (s : State) :
    nextKept s (execDiSampleTick now group currents s) := by
  unfold execDiSampleTick
  simp only [↓nextKept_next, ↓fuses_at, ↓fuses_sampleGroup, ↓fuses_ite, ite_self]

theorem nextKept_execOutputDiagnosis (now : Tb) (output : Fin 24) (cond : OutCond) (present : Bool) (s : State) :
    nextKept s (execOutputDiagnosis now output cond present s) := by
  unfold execOutputDiagnosis
  simp only [↓nextKept_next, ↓fuses_diagnoseOp, ↓fuses_at]

theorem nextKept_execDioTest (now : Tb) (c : CmdRef) (kind channel : Nat) (s : State) :
    nextKept s (execDioTest now c kind channel s) := by
  unfold execDioTest
  refine nextKept_runLast (fun u => ?_) now c _ s
  split
  all_goals simp only [↓fuses_abortedBy, ↓fuses_dioTestOp]

theorem nextKept_execDioTestEnd (now : Tb) (measured : Int) (offSeen onSeen : Bool) (s : State) :
    nextKept s (execDioTestEnd now measured offSeen onSeen s) := by
  unfold execDioTestEnd
  simp only [↓nextKept_next, ↓fuses_testEndOp, ↓fuses_at]

theorem nextKept_execDioStatus (now : Tb) (c : CmdRef) (s : State) : nextKept s (execDioStatus now c s) := by
  unfold execDioStatus
  refine nextKept_runWork (fun u x => ?_) now c _ s
  exact fuses_done ..

theorem nextKept_execVfldSample (now : Tb) (mv : Nat) (s : State) : nextKept s (execVfldSample now mv s) := by
  unfold execVfldSample
  simp only [↓nextKept_next, ↓fuses_vfldOp, ↓fuses_at]

theorem nextKept_execFieldDieRestart (now : Tb) (s : State) : nextKept s (execFieldDieRestart now s) := by
  unfold execFieldDieRestart
  simp only [↓nextKept_next, ↓fuses_at, ↓fuses_fieldRestart, ↓fuses_ite, ite_self]

theorem nextKept_execFieldLinkSilence (now : Tb) (s : State) : nextKept s (execFieldLinkSilence now s) := by
  unfold execFieldLinkSilence
  simp only [↓nextKept_next, ↓fuses_at, ↓fuses_applySafe, ↓fuses_ite, ite_self]

theorem nextKept_execSafeStateStaggerStep (now : Tb) (s : State) : nextKept s (execSafeStateStaggerStep now s) := by
  unfold execSafeStateStaggerStep
  dsimp only
  repeat' split
  all_goals simp only [↓nextKept_next, ↓fuses_at, ↓fuses_energiseTurn, ↓fuses_modField]

theorem nextKept_execRestoreStaggerStep (now : Tb) (s : State) : nextKept s (execRestoreStaggerStep now s) := by
  unfold execRestoreStaggerStep
  dsimp only
  repeat' split
  all_goals simp only [↓nextKept_next, ↓fuses_at, ↓fuses_energiseTurn, ↓fuses_modField]

/-! ### Machine/AnaRows -/

theorem nextKept_execAnaOutputUpdate (now : Tb) (ch : Fin 8) (s : State) : nextKept s (execAnaOutputUpdate now ch s) := by
  unfold execAnaOutputUpdate
  simp only [↓nextKept_next, ↓fuses_at, ↓fuses_outputUpdate, ↓fuses_ite, ite_self]

theorem nextKept_execAnaSample (now : Tb) (ch : Fin 8) (code : Int) (s : State) :
    nextKept s (execAnaSample now ch code s) := by
  unfold execAnaSample
  simp only [↓nextKept_next, ↓fuses_at, ↓fuses_sampleOp, ↓fuses_ite, ite_self]

theorem nextKept_execIslandTemperatureSample (now : Tb) (ch : Fin 8) (tenths : Int) (s : State) :
    nextKept s (execIslandTemperatureSample now ch tenths s) := by
  unfold execIslandTemperatureSample
  simp only [↓nextKept_next, ↓fuses_at, ↓fuses_temperatureOp, ↓fuses_ite, ite_self]

theorem nextKept_execRelayCalibrationDue (now : Tb) (ch : Fin 8) (s : State) :
    nextKept s (execRelayCalibrationDue now ch s) := by
  unfold execRelayCalibrationDue
  simp only [↓nextKept_next, ↓fuses_at, ↓fuses_startCal, ↓fuses_ite, ite_self]

theorem nextKept_execRelayCalibrationStepEnd (now : Tb) (ch : Fin 8) (measured : Int) (s : State) :
    nextKept s (execRelayCalibrationStepEnd now ch measured s) := by
  unfold execRelayCalibrationStepEnd
  simp only [↓nextKept_next, ↓fuses_at, ↓fuses_stepEnd, ↓fuses_ite, ite_self]

theorem nextKept_execHandoverAbort (now : Tb) (ch : Fin 8) (s : State) : nextKept s (execHandoverAbort now ch s) := by
  unfold execHandoverAbort
  simp only [↓nextKept_next, ↓fuses_at, ↓fuses_abortOp, ↓fuses_ite, ite_self]

theorem nextKept_execRelayHandoverBlocked (now : Tb) (ch : Fin 8) (s : State) :
    nextKept s (execRelayHandoverBlocked now ch s) := by
  unfold execRelayHandoverBlocked
  simp only [↓nextKept_next, ↓fuses_at, ↓fuses_discardCal, ↓fuses_ite, ite_self]

theorem nextKept_execActiveStageFailure (now : Tb) (ch : Fin 8) (s : State) :
    nextKept s (execActiveStageFailure now ch s) := by
  unfold execActiveStageFailure
  simp only [↓nextKept_next, ↓fuses_at, ↓fuses_stageFailOp, ↓fuses_ite, ite_self]

theorem nextKept_execLoopOpen (now : Tb) (ch : Fin 8) (present : Bool) (s : State) :
    nextKept s (execLoopOpen now ch present s) := by
  unfold execLoopOpen
  simp only [↓nextKept_next, ↓fuses_at, ↓fuses_log, ↓fuses_modAna, ↓fuses_ite, ite_self]

theorem nextKept_execComplianceLack (now : Tb) (ch : Fin 8) (headroomMv : Int) (present : Bool) (s : State) :
    nextKept s (execComplianceLack now ch headroomMv present s) := by
  unfold execComplianceLack
  simp only [↓nextKept_next, ↓fuses_at, ↓fuses_headroomOp, ↓fuses_ite, ite_self]

theorem nextKept_execModeChangeComplete (now : Tb) (ch : Fin 8) (s : State) :
    nextKept s (execModeChangeComplete now ch s) := by
  unfold execModeChangeComplete
  simp only [↓nextKept_next, ↓fuses_at, ↓fuses_modeChanged, ↓fuses_ite, ite_self]

theorem nextKept_execAnaStatus (now : Tb) (c : CmdRef) (s : State) : nextKept s (execAnaStatus now c s) := by
  unfold execAnaStatus
  refine nextKept_runWork (fun u x => ?_) now c _ s
  simp only [↓fuses_done, ↓fuses_mk, fuses_fold]

theorem nextKept_execAnaTrim (now : Tb) (c : CmdRef) (channel kind : Nat) (s : State) :
    nextKept s (execAnaTrim now c channel kind s) := by
  unfold execAnaTrim
  refine nextKept_runLast (fun u => ?_) now c _ s
  exact fuses_anaTrimOp ..

theorem nextKept_execAnaRelay (now : Tb) (c : CmdRef) (mask : BitVec 8) (s : State) :
    nextKept s (execAnaRelay now c mask s) := by
  unfold execAnaRelay
  refine nextKept_runLast (fun u => ?_) now c _ s
  exact fuses_anaRelayOp ..

/-! ### Machine/HartRows -/

theorem nextKept_execHartPoll (now : Tb) (ch : Fin 8) (s : State) : nextKept s (execHartPoll now ch s) := by
  unfold execHartPoll
  simp only [↓nextKept_next, ↓fuses_at, ↓fuses_hartPollOp, ↓fuses_ite, ite_self]

theorem nextKept_execHartReply (now : Tb) (ch : Fin 8) (reply : Option (List Byte)) (s : State) :
    nextKept s (execHartReply now ch reply s) := by
  unfold execHartReply
  simp only [↓nextKept_next, ↓fuses_at, ↓fuses_hartReplyOp, ↓fuses_ite, ite_self]

theorem nextKept_execAnaHart (now : Tb) (c : CmdRef) (channel : Nat) (frame : List Byte) (s : State) :
    nextKept s (execAnaHart now c channel frame s) := by
  unfold execAnaHart
  refine nextKept_runLast (fun u => ?_) now c _ s
  exact fuses_anaHartOp ..

theorem nextKept_execHartRequest (now : Tb) (ch : Fin 8) (frame : List Byte) (s : State) :
    nextKept s (execHartRequest now ch frame s) := by
  unfold execHartRequest
  simp only [↓nextKept_next, ↓fuses_at, ↓fuses_hartRequestOp, ↓fuses_ite, ite_self]

/-! ### Machine/BusRows -/

theorem nextKept_execBusCycleStart (now : Tb) (line : Line) (s : State) : nextKept s (execBusCycleStart now line s) := by
  unfold execBusCycleStart
  simp only [↓nextKept_next, ↓fuses_at, ↓fuses_cycleStartOp, ↓fuses_ite, ite_self]

theorem nextKept_execBusWindowStart (now : Tb) (line : Line) (w : BusWindow) (s : State) :
    nextKept s (execBusWindowStart now line w s) := by
  unfold execBusWindowStart
  dsimp only
  repeat' split
  all_goals simp only [↓nextKept_next, ↓fuses_at, ↓fuses_modLine, ↓fuses_slotStart]

theorem nextKept_execBusFrameTransmitted (now : Tb) (line : Line) (buf : Fin 3) (outcome : TxOutcome) (s : State) :
    nextKept s (execBusFrameTransmitted now line buf outcome s) := by
  unfold execBusFrameTransmitted
  simp only [↓nextKept_next, ↓fuses_at, ↓fuses_transmitOp, ↓fuses_ite, ite_self]

theorem nextKept_execWindowOrSlotEnd (now : Tb) (line : Line) (s : State) :
    nextKept s (execWindowOrSlotEnd now line s) := by
  unfold execWindowOrSlotEnd
  simp only [↓nextKept_next, ↓fuses_at, ↓fuses_windowEnd, ↓fuses_ite, ite_self]

theorem nextKept_execBusError (now : Tb) (line : Line) (err : BusErr) (s : State) :
    nextKept s (execBusError now line err s) := by
  unfold execBusError
  simp only [↓nextKept_next, ↓fuses_at, ↓fuses_busErrorOp, ↓fuses_ite, ite_self]

theorem nextKept_execBusOffRecovery (now : Tb) (line : Line) (s : State) : nextKept s (execBusOffRecovery now line s) := by
  unfold execBusOffRecovery
  simp only [↓nextKept_next, ↓fuses_at, ↓fuses_log, ↓fuses_modLine, ↓fuses_ite, ite_self]

theorem nextKept_execBusFrameReceived (now : Tb) (line : Line) (f : CanFrame) (s : State) :
    nextKept s (execBusFrameReceived now line f s) := by
  unfold execBusFrameReceived
  simp only [↓nextKept_next, ↓fuses_at, ↓fuses_modLine, ↓fuses_receiveFrame, ↓fuses_noteActive, ↓fuses_ite, ite_self]

theorem nextKept_execInputWindowEnd (now : Tb) (line : Line) (s : State) : nextKept s (execInputWindowEnd now line s) := by
  unfold execInputWindowEnd
  simp only [↓nextKept_next, ↓fuses_at, ↓fuses_publish, ↓fuses_foldl, implies_true, ↓fuses_ite, ite_self]

theorem nextKept_execConfirmationWindowEnd (now : Tb) (line : Line) (s : State) :
    nextKept s (execConfirmationWindowEnd now line s) := by
  unfold execConfirmationWindowEnd
  simp only [↓nextKept_next, ↓fuses_at, ↓fuses_judgeStation, ↓fuses_foldl, implies_true, ↓fuses_ite, ite_self]

theorem nextKept_execFifoDrain (now : Tb) (line : Line) (s : State) : nextKept s (execFifoDrain now line s) := by
  unfold execFifoDrain
  simp only [↓nextKept_next, ↓fuses_at, ↓fuses_drainOne, ↓fuses_ite, ite_self]

theorem nextKept_execFilterAgeExpiry (now : Tb) (line : Line) (filter : Fin 32) (s : State) :
    nextKept s (execFilterAgeExpiry now line filter s) := by
  unfold execFilterAgeExpiry
  simp only [↓nextKept_next, ↓fuses_at, ↓fuses_filterAged, ↓fuses_ite, ite_self]

theorem nextKept_execTransceiverSleepEntry (now : Tb) (line : Line) (s : State) :
    nextKept s (execTransceiverSleepEntry now line s) := by
  unfold execTransceiverSleepEntry
  simp only [↓nextKept_next, ↓fuses_sleepEntry, ↓fuses_at]

theorem nextKept_execBusWake (now : Tb) (line : Line) (s : State) : nextKept s (execBusWake now line s) := by
  unfold execBusWake
  simp only [↓nextKept_next, ↓fuses_at, ↓fuses_wakeOp, ↓fuses_ite, ite_self]

theorem nextKept_execBusSleep (now : Tb) (c : CmdRef) (line : Line) (mode : Nat) (s : State) :
    nextKept s (execBusSleep now c line mode s) := by
  unfold execBusSleep
  refine nextKept_runWork (fun u x => ?_) now c _ s
  split
  all_goals simp only [↓fuses_abortedBy, ↓fuses_busSleepOp]

theorem nextKept_execBusSend (now : Tb) (c : CmdRef) (line : Line) (frame : CanFrame) (s : State) :
    nextKept s (execBusSend now c line frame s) := by
  unfold execBusSend
  refine nextKept_runWork (fun u x => ?_) now c _ s
  split
  all_goals simp only [↓fuses_abortedBy, ↓fuses_busSendOp]

theorem nextKept_execBusStatus (now : Tb) (c : CmdRef) (line : Line) (s : State) :
    nextKept s (execBusStatus now c line s) := by
  unfold execBusStatus
  refine nextKept_runWork (fun u x => ?_) now c _ s
  exact fuses_done ..

theorem nextKept_execStationList (now : Tb) (c : CmdRef) (line : Line) (s : State) :
    nextKept s (execStationList now c line s) := by
  unfold execStationList
  refine nextKept_runWork (fun u x => ?_) now c _ s
  exact fuses_done ..

theorem nextKept_execBusHeartbeatDue (now : Tb) (line : Line) (s : State) :
    nextKept s (execBusHeartbeatDue now line s) := by
  unfold execBusHeartbeatDue
  simp only [↓nextKept_next, ↓fuses_at, ↓fuses_heartbeatDueOp, ↓fuses_ite, ite_self]

/-! ### Machine/DspRows -/

theorem nextKept_execDspWrite (now : Tb) (c : CmdRef) (first count : Nat) (bytes : List Byte) (s : State) :
    nextKept s (execDspWrite now c first count bytes s) := by
  unfold execDspWrite
  refine nextKept_runWork (fun u x => ?_) now c _ s
  exact fuses_queueSlot ..

theorem nextKept_execDspMode (now : Tb) (c : CmdRef) (owner : Nat) (s : State) :
    nextKept s (execDspMode now c owner s) := by
  unfold execDspMode
  refine nextKept_runWork (fun u x => ?_) now c _ s
  simp only [↓fuses_done, ↓fuses_modHost]

theorem nextKept_execDspCheck (now : Tb) (c : CmdRef) (s : State) : nextKept s (execDspCheck now c s) := by
  unfold execDspCheck
  refine nextKept_runWork (fun u x => ?_) now c _ s
  split
  all_goals simp only [↓fuses_abortedBy, ↓fuses_done]

theorem nextKept_execLcdFrameStart (now : Tb) (vdsp0Mv : Nat) (s : State) :
    nextKept s (execLcdFrameStart now vdsp0Mv s) := by
  unfold execLcdFrameStart
  simp only [↓nextKept_next, ↓fuses_lcdFrameOp, ↓fuses_at]

theorem nextKept_execBistableUpdateStart (now : Tb) (vdsp0Mv : Nat) (s : State) :
    nextKept s (execBistableUpdateStart now vdsp0Mv s) := by
  unfold execBistableUpdateStart
  simp only [↓nextKept_next, ↓fuses_updateStartOp, ↓fuses_at]

theorem nextKept_execFullRewrite (now : Tb) (s : State) : nextKept s (execFullRewrite now s) := by
  unfold execFullRewrite
  simp only [↓nextKept_next, ↓fuses_rewriteStartOp, ↓fuses_at]

theorem nextKept_execBistablePhaseEnd (now : Tb) (vdsp0Mv : Nat) (s : State) :
    nextKept s (execBistablePhaseEnd now vdsp0Mv s) := by
  unfold execBistablePhaseEnd
  simp only [↓nextKept_next, ↓fuses_phaseEndOp, ↓fuses_at]

theorem nextKept_execPanelImageCheck (now : Tb) (s : State) : nextKept s (execPanelImageCheck now s) := by
  unfold execPanelImageCheck
  simp only [↓nextKept_next, ↓fuses_at, ↓fuses_panelCheck, ↓fuses_ite, ite_self]

theorem nextKept_execDisplayNtcRead (now : Tb) (tenths : Int) (s : State) :
    nextKept s (execDisplayNtcRead now tenths s) := by
  unfold execDisplayNtcRead
  simp only [↓nextKept_next, ↓fuses_ntcOp, ↓fuses_at]

theorem nextKept_execCrackLoopMeasure (now : Tb) (ohm : Nat) (s : State) : nextKept s (execCrackLoopMeasure now ohm s) := by
  unfold execCrackLoopMeasure
  simp only [↓nextKept_next, ↓fuses_crackOp, ↓fuses_at]

/-! ### Machine/ClockRows -/

theorem nextKept_execTimeSet (now : Tb) (c : CmdRef) (year month day hour minute second : Nat) (s : State) :
    nextKept s (execTimeSet now c year month day hour minute second s) := by
  unfold execTimeSet
  refine nextKept_runWork (fun u x => ?_) now c _ s
  exact fuses_timeSetOp ..

theorem nextKept_execTimeGet (now : Tb) (c : CmdRef) (s : State) : nextKept s (execTimeGet now c s) := by
  unfold execTimeGet
  refine nextKept_runWork (fun u x => ?_) now c _ s
  exact fuses_done ..

theorem nextKept_execTimeShift (now : Tb) (c : CmdRef) (shift : Int) (divisor : Nat) (s : State) :
    nextKept s (execTimeShift now c shift divisor s) := by
  unfold execTimeShift
  refine nextKept_runWork (fun u x => ?_) now c _ s
  exact fuses_timeShiftOp ..

theorem nextKept_execTimeTrim (now : Tb) (c : CmdRef) (source : Nat) (fixed : Int) (s : State) :
    nextKept s (execTimeTrim now c source fixed s) := by
  unfold execTimeTrim
  refine nextKept_runWork (fun u x => ?_) now c _ s
  exact fuses_timeTrimOp ..

theorem nextKept_execCrystalTick (now : Tb) (s : State) : nextKept s (execCrystalTick now s) := by
  unfold execCrystalTick
  simp only [↓nextKept_next, ↓fuses_crystalTickOp, ↓fuses_dieAt]

theorem nextKept_execTrimSecond (now : Tb) (s : State) : nextKept s (execTrimSecond now s) := by
  unfold execTrimSecond
  simp only [↓nextKept_next, ↓fuses_dieAt, ↓fuses_trimSecondOp, ↓fuses_refSync, ↓fuses_ite, ite_self]

theorem nextKept_execShiftComplete (now : Tb) (s : State) : nextKept s (execShiftComplete now s) := by
  unfold execShiftComplete
  simp only [↓nextKept_next, ↓fuses_dieAt, ↓fuses_anchor, ↓fuses_modClock, ↓fuses_ite, ite_self]

theorem nextKept_execLrefZeroCrossing (now : Tb) (periodUs : Nat) (s : State) :
    nextKept s (execLrefZeroCrossing now periodUs s) := by
  unfold execLrefZeroCrossing
  split
  all_goals simp only [↓nextKept_next, ↓fuses_lrefOp, ↓fuses_at]

theorem nextKept_execTimeReferenceFrame (now : Tb) (line : Line) (f : CanFrame) (s : State) :
    nextKept s (execTimeReferenceFrame now line f s) := by
  unfold execTimeReferenceFrame
  split
  all_goals simp only [↓nextKept_next, ↓fuses_timeRefOp, ↓fuses_at]

theorem nextKept_execTimeReferenceAgeExpiry (now : Tb) (line : Line) (s : State) :
    nextKept s (execTimeReferenceAgeExpiry now line s) := by
  unfold execTimeReferenceAgeExpiry
  split
  all_goals simp only [↓nextKept_next, ↓fuses_timeRefAgeOp, ↓fuses_at]

theorem nextKept_execReferenceAbsentTimeout (now : Tb) (s : State) : nextKept s (execReferenceAbsentTimeout now s) := by
  unfold execReferenceAbsentTimeout
  dsimp only
  repeat' split
  all_goals simp only [↓nextKept_next, ↓fuses_refSync, ↓fuses_at, ↓fuses_setLocked]

theorem nextKept_execServoWindowEnd (now : Tb) (s : State) : nextKept s (execServoWindowEnd now s) := by
  unfold execServoWindowEnd
  split
  all_goals simp only [↓nextKept_next, ↓fuses_servoOp, ↓fuses_at]

theorem nextKept_execPeriodicAnchor (now : Tb) (s : State) : nextKept s (execPeriodicAnchor now s) := by
  unfold execPeriodicAnchor
  simp only [↓nextKept_next, ↓fuses_dieAt, ↓fuses_anchor, ↓fuses_ite, ite_self]

/-! ### Machine/EngSys -/

theorem nextKept_execSfPredStore (value : Word) (s : State) : nextKept s (execSfPredStore value s) := by
  unfold execSfPredStore
  simp only [↓nextKept_next, ↓fuses_sfStore]

theorem nextKept_execSfCtrlStore (value : Word) (s : State) : nextKept s (execSfCtrlStore value s) := by
  unfold execSfCtrlStore
  simp only [↓nextKept_next, ↓fuses_sfStore]

theorem nextKept_execSfRegisterWrite (addr : BitVec 12) (value : Word) (s : State) :
    nextKept s (execSfRegisterWrite addr value s) := by
  unfold execSfRegisterWrite
  simp only [↓nextKept_next, ↓fuses_sfStore]

/-! ### Machine/LogRows -/

theorem nextKept_execLogRead (now : Tb) (c : CmdRef) (first limit : Nat) (s : State) :
    nextKept s (execLogRead now c first limit s) := by
  unfold execLogRead
  refine nextKept_runWork (fun u x => ?_) now c _ s
  exact fuses_done ..

theorem nextKept_execLogClear (now : Tb) (c : CmdRef) (last : Nat) (s : State) :
    nextKept s (execLogClear now c last s) := by
  unfold execLogClear
  refine nextKept_runLast (fun u => ?_) now c _ s
  exact fuses_logClearOp ..

theorem nextKept_execLogClearOverwrite (now : Tb) (s : State) : nextKept s (execLogClearOverwrite now s) := by
  unfold execLogClearOverwrite
  dsimp only
  repeat' split
  all_goals simp only [↓nextKept_next, ↓fuses_at, ↓fuses_modLog]

theorem nextKept_execLogMark (now : Tb) (c : CmdRef) (code : Nat) (data : List Byte) (s : State) :
    nextKept s (execLogMark now c code data s) := by
  unfold execLogMark
  refine nextKept_runWork (fun u x => ?_) now c _ s
  exact fuses_logMarkOp ..

theorem nextKept_execSuppressedRecordDue (now : Tb) (s : State) : nextKept s (execSuppressedRecordDue now s) := by
  unfold execSuppressedRecordDue
  simp only [↓nextKept_next, ↓fuses_suppressedOp, ↓fuses_at]

/-! ### Machine/WdRows -/

theorem nextKept_execWdStatus (now : Tb) (c : CmdRef) (s : State) : nextKept s (execWdStatus now c s) := by
  unfold execWdStatus
  refine nextKept_runWork (fun u x => ?_) now c _ s
  exact fuses_done ..

theorem nextKept_execServiceProcessorCheckIn (now : Tb) (s : State) : nextKept s (execServiceProcessorCheckIn now s) := by
  unfold execServiceProcessorCheckIn
  simp only [↓nextKept_next, ↓fuses_dieAt, ↓fuses_wdCheckIn, ↓fuses_ite, ite_self]

theorem nextKept_execWdCtrlWrite (now : Tb) (value : BitVec 32) (tick : Nat) (s : State) :
    nextKept s (execWdCtrlWrite now value tick s) := by
  unfold execWdCtrlWrite
  simp only [↓nextKept_next, ↓fuses_dieAt, ↓fuses_wdCtrlOp, ↓fuses_ite, ite_self]

theorem nextKept_execWdKeyWrite (now : Tb) (value : BitVec 32) (tick : Nat) (s : State) :
    nextKept s (execWdKeyWrite now value tick s) := by
  unfold execWdKeyWrite
  simp only [↓nextKept_next, ↓fuses_dieAt, ↓fuses_wdKey, ↓fuses_modWd, ↓fuses_ite, ite_self]

/-! ### Machine/SecRows -/

theorem nextKept_execSecCert (now : Tb) (c : CmdRef) (which : Nat) (s : State) :
    nextKept s (execSecCert now c which s) := by
  unfold execSecCert
  refine nextKept_runWork (fun u x => ?_) now c _ s
  exact fuses_done ..

theorem nextKept_execSecAttest (now : Tb) (c : CmdRef) (nonce : List Byte) (s : State) :
    nextKept s (execSecAttest now c nonce s) := by
  unfold execSecAttest
  refine nextKept_runLast (fun u => ?_) now c _ s
  split
  all_goals simp only [↓fuses_abortedBy, ↓fuses_done]

/-! ### Machine/UpdRows -/

theorem nextKept_execUpdBegin (now : Tb) (c : CmdRef) (target kind length : Nat) (hash : List Byte) (s : State) :
    nextKept s (execUpdBegin now c target kind length hash s) := by
  unfold execUpdBegin
  refine nextKept_runLast (fun u => ?_) now c _ s
  exact fuses_updBeginOp ..

theorem nextKept_execUpdChunk (now : Tb) (c : CmdRef) (offset : Nat) (data : List Byte) (s : State) :
    nextKept s (execUpdChunk now c offset data s) := by
  unfold execUpdChunk
  refine nextKept_runWork (fun u x => ?_) now c _ s
  simp only [↓fuses_modUpdate, ↓fuses_done]

theorem nextKept_execUpdApply (now : Tb) (c : CmdRef) (s : State) : nextKept s (execUpdApply now c s) := by
  unfold execUpdApply
  refine nextKept_runWork (fun u x => ?_) now c _ s
  exact fuses_applyStage ..

theorem nextKept_execUpdConfirm (now : Tb) (c : CmdRef) (s : State) : nextKept s (execUpdConfirm now c s) := by
  unfold execUpdConfirm
  refine nextKept_runLast (fun u => ?_) now c _ s
  exact fuses_updConfirmOp ..

theorem nextKept_execUpdAbandon (now : Tb) (c : CmdRef) (s : State) : nextKept s (execUpdAbandon now c s) := by
  unfold execUpdAbandon
  refine nextKept_runLast (fun u => ?_) now c _ s
  exact fuses_updAbandonOp ..

theorem nextKept_execHealthWindowExpiry (now : Tb) (s : State) : nextKept s (execHealthWindowExpiry now s) := by
  unfold execHealthWindowExpiry
  split
  all_goals simp only [↓nextKept_next, ↓fuses_healthOp, ↓fuses_at]

/-! ### Machine/PowerRows -/

theorem nextKept_execPaceSample (now : Tb) (ps : Nat) (s : State) : nextKept s (execPaceSample now ps s) := by
  unfold execPaceSample
  split
  all_goals simp only [↓nextKept_next, ↓fuses_paceOp, ↓fuses_at]

theorem nextKept_execJunctionSample (now : Tb) (tenths : Int) (s : State) :
    nextKept s (execJunctionSample now tenths s) := by
  unfold execJunctionSample
  split
  all_goals simp only [↓nextKept_next, ↓fuses_junctionOp, ↓fuses_at]

theorem nextKept_execTbLockLost (now : Tb) (s : State) : nextKept s (execTbLockLost now s) := by
  unfold execTbLockLost
  split
  all_goals simp only [↓nextKept_next, ↓fuses_raiseFault, ↓fuses_modPower, ↓fuses_at]

theorem nextKept_execTbLockRegained (now : Tb) (s : State) : nextKept s (execTbLockRegained now s) := by
  unfold execTbLockRegained
  simp only [↓nextKept_next, ↓fuses_modPower, ↓fuses_dieAt, ↓fuses_openPorts, ↓fuses_ite, ite_self]

theorem nextKept_execPromiseBreach (now : Tb) (s : State) : nextKept s (execPromiseBreach now s) := by
  unfold execPromiseBreach
  dsimp only
  repeat' split
  all_goals simp only [↓nextKept_next, ↓fuses_dieAt, ↓fuses_raiseFault]

theorem nextKept_execUncorrectableMemoryError (now : Tb) (store index : Nat) (s : State) :
    nextKept s (execUncorrectableMemoryError now store index s) := by
  unfold execUncorrectableMemoryError
  simp only [↓nextKept_next, ↓fuses_badLine, ↓fuses_raiseFault, ↓fuses_at, ↓fuses_ite, ite_self]

theorem nextKept_execFaultHaltRestart (now : Tb) (s : State) : nextKept s (execFaultHaltRestart now s) := by
  unfold execFaultHaltRestart
  simp only [↓nextKept_next, ↓fuses_haltRestartOp, ↓fuses_dieAt]

theorem nextKept_execVinFail (now : Tb) (s : State) : nextKept s (execVinFail now s) := by
  unfold execVinFail
  simp only [↓nextKept_next, ↓fuses_vinFailOp, ↓fuses_dieAt]

theorem nextKept_execVinValid (s : State) : nextKept s (execVinValid s) := by
  unfold execVinValid
  simp only [↓nextKept_next, ↓fuses_modPower, ↓fuses_dieStart, ↓fuses_ite, ite_self]

theorem nextKept_execRstNReset (now : Tb) (lowNs : Nat) (s : State) : nextKept s (execRstNReset now lowNs s) := by
  unfold execRstNReset
  simp only [↓nextKept_next, ↓fuses_rstOp, ↓fuses_dieAt]

theorem nextKept_execDormantWake (source : WakeSource) (s : State) : nextKept s (execDormantWake source s) := by
  unfold execDormantWake
  split
  all_goals simp only [↓nextKept_next, ↓fuses_dieStart]

theorem nextKept_execHoldupCapacitanceMeasure (now : Tb) (deltaUv : Nat) (s : State) :
    nextKept s (execHoldupCapacitanceMeasure now deltaUv s) := by
  unfold execHoldupCapacitanceMeasure
  split
  all_goals simp only [↓nextKept_next, ↓fuses_capacitanceOp, ↓fuses_at]

theorem nextKept_execHoldupSample (now : Tb) (mv : Nat) (s : State) : nextKept s (execHoldupSample now mv s) := by
  unfold execHoldupSample
  split
  all_goals simp only [↓nextKept_next, ↓fuses_holdupOp, ↓fuses_at]

theorem nextKept_execHoldupFault (now : Tb) (s : State) : nextKept s (execHoldupFault now s) := by
  unfold execHoldupFault
  dsimp only
  repeat' split
  all_goals simp only [↓nextKept_next, ↓fuses_dieAt, ↓fuses_raiseFault]

theorem nextKept_execRetentionRailLoss (ns : Nat) (s : State) : nextKept s (execRetentionRailLoss ns s) := by
  unfold execRetentionRailLoss
  simp only [↓nextKept_next, ↓fuses_railLossOp]

theorem nextKept_execVbatMeasure (now : Tb) (mv : Nat) (s : State) : nextKept s (execVbatMeasure now mv s) := by
  unfold execVbatMeasure
  split
  all_goals simp only [↓nextKept_next, ↓fuses_vbatOp, ↓fuses_at]

theorem nextKept_execOperatingSecond (now : Tb) (s : State) : nextKept s (execOperatingSecond now s) := by
  unfold execOperatingSecond
  split
  all_goals simp only [↓nextKept_next, ↓fuses_operatingOp, ↓fuses_at]

theorem nextKept_execPstoreCompaction (now : Tb) (half : Fin 2) (s : State) :
    nextKept s (execPstoreCompaction now half s) := by
  unfold execPstoreCompaction
  simp only [↓nextKept_next, ↓fuses_dieAt, ↓fuses_mk, fuses_fold, ↓fuses_ite, ite_self]

end Sys2Proof.Machine
end

section
/-!
PROOFS. Over every step fuses are burnt once and the security version does not fall (R9, R636, R643).
-/
namespace Sys2Proof.Machine

open Sys2Proof

theorem nextKept_engineRun {body : State → Except OverrunCause EngOut} (hb : bodyKept body) (s : State) (g : Guard) (cost : Nat)
    (dests : List Dest) (isLoad : Bool) : nextKept s (.next (engineRun s g cost dests isLoad body)) :=
  (nextKept_next ..).mpr (fuses_engineRun hb s g cost dests isLoad)

theorem nextKept_orIllegal {s : State} {p : Prop} [Decidable p] {o : Host.Outcome State Fault Refusal} (h : nextKept s o) :
    nextKept s (if p then .next (engineIllegal s) else o) := by
  split
  · exact (nextKept_next ..).mpr (fuses_engineIllegal s)
  · exact h

theorem nextKept_execEos (g : Guard) (s : State) : nextKept s (execEos g s) := by
  refine (nextKept_next ..).mpr (fuses_engineRunThen (bodyKept_ok fun _ => rfl) (fun met u => ?_) s g 3 [] false)
  split
  · exact fuses_endExecute u
  · exact fuses_preemptNow u

/-- Sequences are cancelled one after another, each answered in turn (R78). -/
def cancelSeqs (c : CmdRef) (r : List Byte × State) (qs : List (BitVec 16)) : List Byte × State :=
  qs.foldl (fun (r : List Byte × State) q =>
    let (n, s) := cancelSeq r.2 c q
    (r.1 ++ le 2 q.toNat ++ [BitVec.ofNat 8 n, 0], s)) r

theorem fuses_cancelSeqs (c : CmdRef) (r : List Byte × State) (qs : List (BitVec 16)) :
    fuses (cancelSeqs c r qs).2 = fuses r.2 := by
  induction qs generalizing r with
  | nil => rfl
  | cons q qs ih => exact (ih _).trans (fuses_cancelSeq r.2 c q)

theorem nextKept_execAdmitCancel (now : Tb) (c : CmdRef) (seqs : List (BitVec 16)) (s : State) :
    nextKept s (execAdmitCancel now c seqs s) :=
  nextKept_runWork (fun u _ => (fuses_done ..).trans (fuses_cancelSeqs c ([], u) seqs)) now c _ s

theorem nextKept_execWdPeriodExpiry (now : Tb) (s : State) : nextKept s (execWdPeriodExpiry now s) := by
  refine (nextKept_next ..).mpr ?_
  split
  · exact fuses_wdAfter ((fuses_wdBad ..).trans (fuses_dieAt ..))
  · exact fuses_dieAt ..

theorem nextKept_execServiceProcessorReply (now : Tb) (tick : Nat) (s : State) :
    nextKept s (execServiceProcessorReply now tick s) := by
  refine (nextKept_next ..).mpr ?_
  split
  · exact fuses_wdAfter ((fuses_wdReplyAt ..).trans (fuses_dieAt ..))
  · exact fuses_dieAt ..

theorem nextKept_execWdReply (now : Tb) (value : Word) (tick : Nat) (s : State) :
    nextKept s (execWdReply now value tick s) := by
  refine (nextKept_next ..).mpr ?_
  split
  · exact fuses_dieAt ..
  split
  · exact fuses_wdAfter ((fuses_wdReplyAt ..).trans (fuses_dieAt ..))
  · exact fuses_dieAt ..

/-- Every instruction but the DONE of a stage and SEC.KEYS keeps the fuses. -/
theorem nextKept_exec {i : Instr} (hstage : ∀ now c, i ≠ .commandStageComplete now c)
    (hkeys : ∀ now c op slot data, i ≠ .secKeys now c op slot data) (s : State) : nextKept s (exec i s) := by
  cases i with
  | commandStageComplete now c => exact absurd rfl (hstage now c)
  | secKeys now c op slot data => exact absurd rfl (hkeys now c op slot data)
  | mpy | mac | msu | clra | mva | mvra | movImm | sel | movx | movm | movb | movn | setx | setm | setb | setn | rdx |
  pand | pnand | por | pnor | pxor | pmov | pmovr | nop =>
    simp only [exec, execMpy, execMac, execMsu, execClra, execMva, execMvra, execMovImm, execSel, execMovx, execMovm,
      execMovb, execMovn, execSetx, execSetm, execSetb, execSetn, execRdx, execPand, execPnand, execPor, execPnor,
      execPxor, execPmov, execPmovr, execNop, nextKept_engineRegs]
  | neg | abs | addi | andi | ori | xori | shli | shri | sari | fsqrt | fneg | fabs | itof | ftoi | ftrunc | mov |
  movh | qmax | tagr =>
    simp only [exec, execNeg, execAbs, execAddi, execAndi, execOri, execXori, execShli, execShri, execSari, execFsqrt,
      execFneg, execFabs, execItof, execFtoi, execFtrunc, execMov, execMovh, execQmax, execTagr, nextKept_regs1]
  | add | sub | and | or | xor | adds | subs | min | max | minu | maxu | shl | shr | sar | fadd | fsub | fmul | fdiv |
  fmin | fmax | mul | muls | div | divu | rem =>
    simp only [exec, execAdd, execSub, execAnd, execOr, execXor, execAdds, execSubs, execMin, execMax, execMinu,
      execMaxu, execShl, execShr, execSar, execFadd, execFsub, execFmul, execFdiv, execFmin, execFmax, execMul, execMuls,
      execDiv, execDivu, execRem, nextKept_regs2]
  | ton | tof | tp | ctu | ctd | ctud | rtrig | ftrig =>
    simp only [exec, execTon, execTof, execTp, execCtu, execCtd, execCtud, execRtrig, execFtrig, nextKept_blockRun]
  | cmp | cmpi | fcmp | btst | qtst => exact nextKept_orIllegal (nextKept_engineRegs s _ _ _ _)
  | bset | bclr => exact nextKept_orIllegal (nextKept_regs1 s _ _ _ _ _)
  | macd | msud => exact nextKept_engineRun (bodyKept_withScan fun _ => bodyKept_ok fun _ => rfl) s _ _ _ _
  | ldp | ldpr => exact nextKept_engineRun (bodyKept_ok fun _ => rfl) s _ _ _ _
  | br | jmp => exact nextKept_engineRun (bodyKept_jumpTo _) s _ _ _ _
  | beq | bne => exact (nextKept_next ..).mpr (fuses_branchOn ..)
  | call | calli => exact nextKept_engineRun (bodyKept_callTo _) s _ _ _ _
  | ret => exact nextKept_engineRun bodyKept_retFrom s _ _ _ _
  | ld | ldAbs => exact nextKept_orIllegal (nextKept_engineRun (bodyKept_wordLoad _ _) s _ _ _ _)
  | st | stAbs => exact nextKept_orIllegal (nextKept_engineRun (bodyKept_wordStore _ _) s _ _ _ _)
  | stp | stpr => exact nextKept_engineRun (bodyKept_pointStore _ _ _ _) s _ _ _ _
  | chg => exact nextKept_engineRun (bodyKept_ok fun _ => fuses_requestChg ..) s _ _ _ _
  | chgr => exact nextKept_engineRun (bodyKept_ok fun _ => fuses_requestFrom ..) s _ _ _ _
  | wdci => exact nextKept_engineRun (bodyKept_withScan fun sc => bodyKept_ok fun u => fuses_wdCheckIn u sc.task) s _ _ _ _
  | illegalInstruction => exact (nextKept_next ..).mpr (fuses_engineIllegal s)
  | _ => simp only [exec, nextKept_execScanReady, nextKept_execRoundMinExpiry, nextKept_execFixedPeriodRelease,
      nextKept_execOverrun, nextKept_execSealPoint, nextKept_execManifestAckDeadline, nextKept_execEmit,
      nextKept_execEmitEnd, nextKept_execImageSlot, nextKept_execCarryRecordWrite, nextKept_execSealFault,
      nextKept_execChartPreloadComplete, nextKept_execReEmit, nextKept_execShareWindowStart,
      nextKept_execHeldCommandAgesOut, nextKept_execStatus, nextKept_execStatusClr, nextKept_execPut, nextKept_execPutQ,
      nextKept_execTake, nextKept_execTakeQ, nextKept_execRepeatLast, nextKept_execRepeatLastQ, nextKept_execPortReset,
      nextKept_execUnknownCommandByte, nextKept_execMaintBreak, nextKept_execMaintByteReceived,
      nextKept_execPartialPacketTimeout, nextKept_execPacketArrival, nextKept_execMaintReceiptSent,
      nextKept_execSessionIdleTimeout, nextKept_execSegmentTransferTimeout, nextKept_execSessionOpen,
      nextKept_execSessionClose, nextKept_execSessionNonce, nextKept_execSessionClaim, nextKept_execAdmitQuery,
      nextKept_execAdmitCancel, nextKept_execAdmitShares, nextKept_execImageRead, nextKept_execImageWrite,
      nextKept_execImageWatch, nextKept_execImageWatchTimeout, nextKept_execForceSet, nextKept_execForceRelease,
      nextKept_execForceList, nextKept_execParamRead, nextKept_execParamWrite, nextKept_execParamValueTakesEffect,
      nextKept_execParamCommit, nextKept_execProgLoad, nextKept_execProgEdit, nextKept_execProgRun, nextKept_execProgStop,
      nextKept_execProgTasks, nextKept_execChartLoad, nextKept_execChartSelect, nextKept_execChartInfo,
      nextKept_execSealStatus, nextKept_execRetainClear, nextKept_execCollarReopen, nextKept_execRequestToClosedCollar,
      nextKept_execUnitReset, nextKept_execUnitFault, nextKept_execStatusGet, nextKept_execTestSelf,
      nextKept_execTestPace, nextKept_execDevReset, nextKept_execDevDormant, nextKept_execReceiptWaitExpiry,
      nextKept_execTwinStatus, nextKept_execTwinChange, nextKept_execTwinResync, nextKept_execLaneAlignmentChange,
      nextKept_execHello, nextKept_execManifest, nextKept_execAck, nextKept_execLooseAckTimeout,
      nextKept_execHeartbeatDue, nextKept_execHeartbeat, nextKept_execDrop, nextKept_execConfig, nextKept_execHandover,
      nextKept_execTaken, nextKept_execWatchOutputsSafe, nextKept_execChangeReq, nextKept_execWatchTimeout,
      nextKept_execSilenceVoteElapsed, nextKept_execHelmGivesUp, nextKept_execTwinStartWaitExpiry,
      nextKept_execBusHeartbeatReceived, nextKept_execClassDSlice, nextKept_execDiSampleTick,
      nextKept_execOutputDiagnosis, nextKept_execDioTest, nextKept_execDioTestEnd, nextKept_execDioStatus,
      nextKept_execVfldSample, nextKept_execFieldDieRestart, nextKept_execFieldLinkSilence,
      nextKept_execSafeStateStaggerStep, nextKept_execRestoreStaggerStep, nextKept_execAnaOutputUpdate,
      nextKept_execAnaSample, nextKept_execIslandTemperatureSample, nextKept_execRelayCalibrationDue,
      nextKept_execRelayCalibrationStepEnd, nextKept_execHandoverAbort, nextKept_execRelayHandoverBlocked,
      nextKept_execActiveStageFailure, nextKept_execLoopOpen, nextKept_execComplianceLack,
      nextKept_execModeChangeComplete, nextKept_execAnaStatus, nextKept_execAnaTrim, nextKept_execAnaRelay,
      nextKept_execHartPoll, nextKept_execHartReply, nextKept_execAnaHart, nextKept_execHartRequest,
      nextKept_execBusCycleStart, nextKept_execBusWindowStart, nextKept_execBusFrameTransmitted,
      nextKept_execWindowOrSlotEnd, nextKept_execBusError, nextKept_execBusOffRecovery, nextKept_execBusFrameReceived,
      nextKept_execInputWindowEnd, nextKept_execConfirmationWindowEnd, nextKept_execFifoDrain,
      nextKept_execFilterAgeExpiry, nextKept_execTransceiverSleepEntry, nextKept_execBusWake, nextKept_execBusSleep,
      nextKept_execBusSend, nextKept_execBusStatus, nextKept_execStationList, nextKept_execBusHeartbeatDue,
      nextKept_execDspWrite, nextKept_execDspMode, nextKept_execDspCheck, nextKept_execLcdFrameStart,
      nextKept_execBistableUpdateStart, nextKept_execFullRewrite, nextKept_execBistablePhaseEnd,
      nextKept_execPanelImageCheck, nextKept_execDisplayNtcRead, nextKept_execCrackLoopMeasure, nextKept_execTimeSet,
      nextKept_execTimeGet, nextKept_execTimeShift, nextKept_execTimeTrim, nextKept_execCrystalTick,
      nextKept_execTrimSecond, nextKept_execShiftComplete, nextKept_execLrefZeroCrossing, nextKept_execTimeReferenceFrame,
      nextKept_execTimeReferenceAgeExpiry, nextKept_execReferenceAbsentTimeout, nextKept_execServoWindowEnd,
      nextKept_execPeriodicAnchor, nextKept_execEos, nextKept_execSfPredStore, nextKept_execSfCtrlStore,
      nextKept_execSfRegisterWrite, nextKept_execLogRead, nextKept_execLogClear, nextKept_execLogClearOverwrite,
      nextKept_execLogMark, nextKept_execSuppressedRecordDue, nextKept_execWdStatus, nextKept_execWdPeriodExpiry,
      nextKept_execServiceProcessorCheckIn, nextKept_execServiceProcessorReply, nextKept_execWdReply,
      nextKept_execWdCtrlWrite, nextKept_execWdKeyWrite, nextKept_execSecCert, nextKept_execSecAttest,
      nextKept_execUpdBegin, nextKept_execUpdChunk, nextKept_execUpdApply, nextKept_execUpdConfirm,
      nextKept_execUpdAbandon, nextKept_execHealthWindowExpiry, nextKept_execPaceSample, nextKept_execJunctionSample,
      nextKept_execTbLockLost, nextKept_execTbLockRegained, nextKept_execPromiseBreach,
      nextKept_execUncorrectableMemoryError, nextKept_execFaultHaltRestart, nextKept_execVinFail, nextKept_execVinValid,
      nextKept_execRstNReset, nextKept_execDormantWake, nextKept_execHoldupCapacitanceMeasure, nextKept_execHoldupSample,
      nextKept_execHoldupFault, nextKept_execRetentionRailLoss, nextKept_execVbatMeasure, nextKept_execOperatingSecond,
      nextKept_execPstoreCompaction, nextKept_execEos]

theorem execSecKeys_rises {now : Tb} {c : CmdRef} {op slot : Nat} {data : List Byte} {s t : State}
    (h : execSecKeys now c op slot data s = .next t) : fusesRise s t := by
  unfold execSecKeys runLast at h
  obtain hk | ⟨u, x, hu, rfl⟩ := runWork_fuses h
  · exact fusesRise_of_eq hk
  · refine fusesRise_of_fuses hu.symm rfl ?_
    split
    · exact secKeysOp_rises ..
    · exact fusesRise_refl u

/-- Over one instruction fuses are burnt once and the security version does not fall. -/
theorem exec_rises {i : Instr} {s t : State} (h : exec i s = .next t) : fusesRise s t := by
  by_cases hstage : ∃ now c, i = .commandStageComplete now c
  · obtain ⟨now, c, rfl⟩ := hstage
    obtain rfl := Host.Outcome.next.inj h
    exact fusesRise_of_fuses (fuses_at s now).symm rfl (stageComplete_rises (s.at now) c)
  by_cases hkeys : ∃ now c op slot data, i = .secKeys now c op slot data
  · obtain ⟨now, c, op, slot, data, rfl⟩ := hkeys
    exact execSecKeys_rises h
  · exact fusesRise_of_eq (nextKept_exec (fun now c hi => hstage ⟨now, c, hi⟩)
      (fun now c op slot data hi => hkeys ⟨now, c, op, slot, data, hi⟩) s t h)

/-- Settles O60: only the DONE receipt of UPD.CONFIRM and SEC.KEYS reach the fuses, and both only burn. -/
theorem fusesOnlyBurn : Obligations.FusesOnlyBurn := by
  intro s t h
  unfold step at h
  split at h
  · obtain rfl := Host.Outcome.next.inj h
    exact fusesRise_refl s
  · exact (exec_rises h :)

end Sys2Proof.Machine
end

section
/-!
PROOFS. What the outputs, charts, images and the start of the lines leave of the pair: everything.
-/
namespace Sys2Proof.Machine

open Sys2Proof

theorem twin_ite (p : Prop) [Decidable p] (a b : State) : (if p then a else b).twin = if p then a.twin else b.twin :=
  apply_ite State.twin p a b

theorem twin_foldl {α : Type} {f : State → α → State} (h : ∀ s x, (f s x).twin = s.twin) (l : List α) (s : State) :
    (l.foldl f s).twin = s.twin := foldl_keeps State.twin f h l s

/-! ### Machine/Ops -/

theorem twin_putItem (s : State) (k : Nat) (t : Tagged) : (putItem s k t).twin = s.twin := (rfl)

theorem twin_storeItem (s : State) (k : Nat) (t : Tagged) : (storeItem s k t).twin = s.twin := (rfl)

theorem twin_modSched (s : State) (f : Sched → Sched) : (modSched s f).twin = s.twin := (rfl)

/-! ### Machine/Params -/

theorem twin_setPar (s : State) (pid v : Nat) : (setPar s pid v).twin = s.twin := (rfl)

/-! ### Machine/Receipts -/

theorem twin_doneNow (s : State) (c : CmdRef) (payload : List Byte) : (doneNow s c payload).twin = s.twin := by
  unfold doneNow
  simp only [↓twin_finishNow]

theorem twin_doneNowOpt (s : State) (c : Option CmdRef) (payload : List Byte) : (doneNow? s c payload).twin = s.twin := by
  unfold doneNow?
  split
  all_goals simp only [↓twin_doneNow]

theorem twin_discardCommands (s : State) (reason : BitVec 8) (detail : Nat) :
    (discardCommands s reason detail).twin = s.twin := by
  unfold discardCommands
  simp only [↓twin_finishNow, ↓twin_foldl, implies_true]

/-! ### Machine/AnaCore -/

theorem twin_modAna (s : State) (c : Nat) (f : Island → Island) : (modAna s c f).twin = s.twin := (rfl)

theorem twin_sendSetPoint (s : State) (c : Nat) (w : Word) (subst : Bool) : (sendSetPoint s c w subst).twin = s.twin := by
  unfold sendSetPoint
  simp only [↓twin_modAna, ↓twin_ite, ite_self]

theorem twin_anaSafe (s : State) (c : Nat) : (anaSafe s c).twin = s.twin := by
  unfold anaSafe
  simp only [↓twin_modAna, ↓twin_ite, ite_self]

theorem twin_anaSafeAll (s : State) : (anaSafeAll s).twin = s.twin := by
  unfold anaSafeAll
  simp only [↓twin_anaSafe, ↓twin_foldl, implies_true]

theorem twin_anaSwap (old : Nat → Nat) (s : State) (c : Nat) : (anaSwap old s c).twin = s.twin := by
  unfold anaSwap
  simp only [↓twin_modAna, ↓twin_ite, ite_self]

/-! ### Machine/ChartCore -/

theorem twin_loadChartParams (s : State) (c : Nat) : (loadChartParams s c).twin = s.twin := by
  unfold loadChartParams
  simp only []

/-! ### Machine/BusCore -/

theorem twin_modLine (s : State) (l : Line) (f : BusLine → BusLine) : (modLine s l f).twin = s.twin := by
  unfold modLine
  split
  all_goals rfl

theorem twin_modStation (s : State) (l : Line) (n : Nat) (f : Station → Station) : (modStation s l n f).twin = s.twin := by
  unfold modStation
  simp only [↓twin_modLine]

theorem twin_keepFrozen (s : State) (k : Nat) : (keepFrozen s k).twin = s.twin := by
  unfold keepFrozen
  split
  all_goals simp only [↓twin_modSched]

theorem twin_setItem (s : State) (k : Nat) (t : Tagged) : (setItem s k t).twin = s.twin := by
  unfold setItem
  simp only [↓twin_storeItem, ↓twin_keepFrozen]

theorem twin_dropFrames (s : State) (l : Line) (reason : Nat) : (dropFrames s l reason).twin = s.twin := by
  unfold dropFrames
  simp only [↓twin_modLine, ↓twin_doneNow, ↓twin_foldl, implies_true]

theorem twin_startLine (s : State) (l : Line) : (startLine s l).twin = s.twin := by
  unfold startLine
  simp only [↓twin_modLine]

theorem twin_removeStation (s : State) (l : Line) (n : Nat) : (removeStation s l n).twin = s.twin := by
  unfold removeStation
  simp only [↓twin_setItem, ↓twin_modLine, ↓twin_modStation, ↓twin_foldl, implies_true]

theorem twin_addStation (s : State) (l : Line) (n : Nat) : (addStation s l n).twin = s.twin := by
  unfold addStation
  simp only [↓twin_modStation, ↓twin_setItem, ↓twin_foldl, implies_true]

theorem twin_busSwap (old : Nat → Nat) (s : State) (l : Line) : (busSwap old s l).twin = s.twin := by
  unfold busSwap
  simp only [↓twin_removeStation, ↓twin_addStation, ↓twin_dropFrames, ↓twin_modLine, ↓twin_log, ↓twin_foldl,
    implies_true, ↓twin_ite, ite_self]

/-! ### Machine/DspCore -/

theorem twin_modDsp (s : State) (f : Display → Display) : (modDsp s f).twin = s.twin := (rfl)

theorem twin_sendFrame (s : State) (f : List Byte) : (sendFrame s f).twin = s.twin := (rfl)

theorem twin_dspSafe (s : State) (logic : Bool) : (dspSafe s logic).twin = s.twin := by
  unfold dspSafe
  split
  all_goals simp only [↓twin_modDsp]

/-! ### Machine/FieldCore -/

theorem twin_modField (s : State) (f : FieldSt → FieldSt) : (modField s f).twin = s.twin := (rfl)

theorem twin_setDo (s : State) (n : Nat) (f : DoCh → DoCh) : (setDo s n f).twin = s.twin := (rfl)

theorem twin_setGang (s : State) (lead : Nat) (f : DoCh → DoCh) : (setGang s lead f).twin = s.twin := by
  unfold setGang
  simp only [↓twin_setDo, ↓twin_foldl, implies_true]

theorem twin_markFieldSafe (s : State) : (markFieldSafe s).twin = s.twin := (rfl)

theorem twin_applySafe (s : State) (cause : Nat) : (applySafe s cause).twin = s.twin := by
  unfold applySafe
  simp only [↓twin_modSched, ↓twin_setDo, ↓twin_modField, ↓twin_log, ↓twin_markFieldSafe, ↓twin_dspSafe,
    ↓twin_anaSafeAll, ↓twin_foldl, implies_true, ↓twin_ite, ite_self]

theorem twin_loadSafeVals (s : State) : (loadSafeVals s).twin = s.twin := by
  unfold loadSafeVals
  simp only [↓twin_modField]

/-! ### Machine/WdCore -/

theorem twin_modWd (s : State) (f : Watchdog → Watchdog) : (modWd s f).twin = s.twin := (rfl)

theorem twin_wdPeriodStart (s : State) : (wdPeriodStart s).twin = s.twin := (rfl)

theorem twin_wdSyncMode (s : State) : (wdSyncMode s).twin = s.twin := by
  unfold wdSyncMode
  simp only [↓twin_modWd, ↓twin_wdPeriodStart, ↓twin_ite, ite_self]

theorem twin_wdEnable (s : State) : (wdEnable s).twin = s.twin := by
  unfold wdEnable
  split
  all_goals simp only [↓twin_wdPeriodStart, ↓twin_modWd]

theorem twin_wdSetLock (s : State) (b : Bool) : (wdSetLock s b).twin = s.twin := by
  unfold wdSetLock
  split
  all_goals simp only [↓twin_modWd]

/-! ### Machine/Faults -/

theorem twin_modPower (s : State) (f : Power → Power) : (modPower s f).twin = s.twin := (rfl)

theorem twin_modHost (s : State) (f : HostSt → HostSt) : (modHost s f).twin = s.twin := (rfl)

theorem twin_syncMode (s : State) : (syncMode s).twin = s.twin := by
  unfold syncMode
  dsimp only
  repeat' split
  all_goals simp only [↓twin_wdSyncMode, ↓twin_modPower]

theorem twin_stopEngine (s : State) : (stopEngine s).twin = s.twin := (rfl)

theorem twin_openPorts (s : State) : (openPorts s).twin = s.twin := by
  unfold openPorts
  split
  all_goals simp only [↓twin_modHost, ↓twin_modPower]

/-! ### Machine/Start -/

theorem twin_modStore (s : State) (f : Store → Store) : (modStore s f).twin = s.twin := (rfl)

theorem twin_applyForce (s : State) (f : Force) : (applyForce s f).twin = s.twin := by
  unfold applyForce
  split
  all_goals simp only [↓twin_setItem]

theorem twin_applyForces (s : State) : (applyForces s).twin = s.twin := by
  unfold applyForces
  simp only [↓twin_applyForce, ↓twin_foldl, implies_true]

/-! ### Machine/Acquire -/

theorem twin_modTask (s : State) (t : Nat) (f : TaskRt → TaskRt) : (modTask s t f).twin = s.twin := (rfl)

theorem twin_modTasks (s : State) (f : TaskRt → TaskRt) : (modTasks s f).twin = s.twin := (rfl)

/-! ### Machine/Emit -/

theorem twin_emitTag (s : State) (k : Nat) (r : Sent) : (emitTag s k r).twin = s.twin := by
  unfold emitTag
  split
  all_goals simp only [↓twin_putItem]

theorem twin_shadowChanged (s : State) (owner : Option Nat) (line : Nat) : (shadowChanged s owner line).twin = s.twin := by
  unfold shadowChanged
  split
  all_goals simp only [↓twin_modTask]

theorem twin_emitShadow (s : State) (owner : Option Nat) (k : Nat) (r : Sent) : (emitShadow s owner k r).twin = s.twin := by
  unfold emitShadow
  dsimp only
  repeat' split
  all_goals simp only [↓twin_shadowChanged, ↓twin_storeItem]

theorem twin_emitOne (owner : Option Nat) (s : State) (k : Nat) : (emitOne owner s k).twin = s.twin := by
  unfold emitOne
  simp only [↓twin_emitShadow, ↓twin_emitTag]

theorem twin_emitAreas (s : State) (areas : List Nat) : (emitAreas s areas).twin = s.twin := by
  unfold emitAreas
  simp only [↓twin_emitOne, ↓twin_foldl, implies_true]

theorem twin_recordSent (s : State) (k : Nat) (t : Tagged) : (recordSent s k t).twin = s.twin := (rfl)

theorem twin_commandGang (s : State) (lead : Nat) (v : Bool) : (commandGang s lead v).twin = s.twin := by
  unfold commandGang
  simp only [↓twin_log, ↓twin_setGang, ↓twin_modField, ↓twin_ite, ite_self]

theorem twin_endTest (s : State) (lead : Nat) (v : Bool) : (endTest s lead v).twin = s.twin := by
  unfold endTest
  repeat' split
  all_goals simp only [↓twin_doneNow, ↓twin_modField]

theorem twin_sendGroup (unsent : Nat → Bool) (s : State) (g : Nat) : (sendGroup unsent s g).twin = s.twin := by
  unfold sendGroup
  simp only [↓twin_commandGang, ↓twin_endTest, ↓twin_modField, ↓twin_foldl, implies_true]

theorem twin_sendChannel (s : State) (c : Nat) : (sendChannel s c).twin = s.twin := by
  unfold sendChannel
  dsimp only
  repeat' split
  all_goals simp only [↓twin_modAna, ↓twin_sendSetPoint]

theorem twin_sendSystem (s : State) (before : SMap Tagged) : (sendSystem s before).twin = s.twin := by
  unfold sendSystem
  simp only [↓twin_modPower, ↓twin_modDsp, ↓twin_modSched, ↓twin_log, ↓twin_ite, ite_self]

theorem twin_sendArea (unsent : Nat → Bool) (before : SMap Tagged) (s : State) (a : Nat) :
    (sendArea unsent before s a).twin = s.twin := by
  unfold sendArea
  repeat' split
  all_goals simp only [↓twin_sendGroup, ↓twin_sendChannel, ↓twin_sendFrame, ↓twin_sendSystem, ↓twin_modSched]

theorem twin_sendAreas (s : State) (areas : List Nat) : (sendAreas s areas).twin = s.twin := by
  unfold sendAreas
  simp only [↓twin_recordSent, ↓twin_sendArea, ↓twin_foldl, implies_true, ↓twin_ite, ite_self]

theorem twin_sendSafe (s : State) (areas : List Nat) : (sendSafe s areas).twin = s.twin := by
  unfold sendSafe
  simp only [↓twin_recordSent, ↓twin_sendArea, ↓twin_foldl, implies_true]

theorem twin_emitUnowned (s : State) : (emitUnowned s).twin = s.twin := by
  unfold emitUnowned
  simp only [↓twin_sendSafe]

/-! ### Machine/ChartOps -/

theorem twin_modCharts (s : State) (f : Charts → Charts) : (modCharts s f).twin = s.twin := (rfl)

theorem twin_raiseEvent (s : State) (b : Word) : (raiseEvent s b).twin = s.twin := (rfl)

theorem twin_setReq (s : State) (r : ChgReq) : (setReq s r).twin = s.twin := (rfl)

theorem twin_cancelReq (s : State) : (cancelReq s).twin = s.twin := by
  unfold cancelReq
  dsimp only
  repeat' split
  all_goals simp only [↓twin_doneNowOpt, ↓twin_modCharts, ↓twin_setReq]

theorem twin_requestSelect (s : State) (c : Nat) (ref : CmdRef) : (requestSelect s c ref).twin = s.twin := by
  unfold requestSelect
  repeat' split
  all_goals simp only [↓twin_modCharts, ↓twin_doneNow, ↓twin_cancelReq, ↓twin_log, ↓twin_doneNowOpt, ↓twin_setReq]

theorem twin_requestRefresh (s : State) : (requestRefresh s).twin = s.twin := by
  unfold requestRefresh
  repeat' split
  all_goals simp only [↓twin_modCharts, ↓twin_setReq]

theorem twin_swapInputs (old : Nat → Nat) (s : State) : (swapInputs old s).twin = s.twin := by
  unfold swapInputs
  simp only [↓twin_modField]

theorem twin_swapGangs (old : Nat → Nat) (s : State) : (swapGangs old s).twin = s.twin := by
  unfold swapGangs
  simp only [↓twin_setDo, ↓twin_foldl, implies_true, ↓twin_ite, ite_self]

theorem twin_swapDisplay (was s : State) : (swapDisplay was s).twin = s.twin := by
  unfold swapDisplay
  repeat' split
  all_goals simp only [↓twin_modDsp, ↓twin_sendFrame]

theorem twin_holdSealValues (before s : State) : (holdSealValues before s).twin = s.twin := by
  unfold holdSealValues
  split
  all_goals simp only [↓twin_setPar, ↓twin_foldl, implies_true]

theorem twin_swapSettings (s : State) (c : Nat) : (swapSettings s c).twin = s.twin := by
  unfold swapSettings
  simp only [↓twin_loadChartParams, ↓twin_modCharts, ↓twin_holdSealValues, ↓twin_swapGangs, ↓twin_swapInputs,
    ↓twin_loadSafeVals, ↓twin_anaSwap, ↓twin_busSwap, ↓twin_swapDisplay, ↓twin_applyForce, ↓twin_foldl, implies_true]

theorem twin_followTasks (before : List Nat) (s : State) : (followTasks before s).twin = s.twin := by
  unfold followTasks
  split
  all_goals simp only [↓twin_modSched]

/-! ### Machine/ScanCore -/

theorem twin_reEmitOwned (s : State) : (reEmitOwned s).twin = s.twin := by
  unfold reEmitOwned
  simp only [↓twin_putItem, ↓twin_sendAreas, ↓twin_emitAreas, ↓twin_foldl, implies_true]

/-! ### Machine/Resume -/

theorem twin_keepHandoverReq (s : State) : (keepHandoverReq s).twin = s.twin := by
  unfold keepHandoverReq
  split
  all_goals simp only [↓twin_recordSent]

theorem twin_reEmitAll (s : State) : (reEmitAll s).twin = s.twin := by
  unfold reEmitAll
  simp only [↓twin_emitUnowned, ↓twin_reEmitOwned, ↓twin_keepHandoverReq, ↓twin_modField]

theorem twin_wdApply (s : State) : (wdApply s).twin = s.twin := by
  unfold wdApply
  simp only [↓twin_wdSetLock, ↓twin_wdEnable, ↓twin_modWd, ↓twin_ite, ite_self]

theorem twin_startHealth (s : State) : (startHealth s).twin = s.twin := by
  unfold startHealth
  split
  all_goals simp only [↓twin_modStore]

theorem twin_finishStart (s : State) : (finishStart s).twin = s.twin := by
  unfold finishStart
  simp only [↓twin_openPorts, ↓twin_syncMode, ↓twin_modPower, ↓twin_wdApply, ↓twin_startLine, ↓twin_startHealth]

/-! ### Machine/TwinOps -/

theorem twin_watchOutputs (s : State) : (watchOutputs s).twin = s.twin := by
  unfold watchOutputs
  simp only [↓twin_dspSafe, ↓twin_sendSafe, ↓twin_modField]

theorem twin_quietLine (s : State) (l : Line) : (quietLine s l).twin = s.twin := by
  unfold quietLine
  simp only [↓twin_modLine, ↓twin_dropFrames]

theorem twin_logVote (s : State) (outcome : Nat) : (logVote s outcome).twin = s.twin := by
  unfold logVote
  split
  all_goals simp only [↓twin_log]

theorem twin_takeRound (s : State) (releases : Option (List (Nat × Nat))) : (takeRound s releases).twin = s.twin := by
  unfold takeRound
  split
  all_goals simp only [↓twin_modSched]

theorem twin_takeLine (s : State) (l : Line) : (takeLine s l).twin = s.twin := by
  unfold takeLine
  simp only [↓twin_modLine]

theorem twin_leaveHelm (s : State) : (leaveHelm s).twin = s.twin := by
  unfold leaveHelm
  simp only [↓twin_quietLine, ↓twin_stopEngine]

/-! ### Machine/ChartOps -/

theorem twin_replayDeferred (s : State) : (replayDeferred s).twin = s.twin := by
  unfold replayDeferred
  refine (twin_foldl (fun t r => ?_) _ _).trans (twin_modCharts ..)
  split
  · exact twin_requestSelect ..
  · rfl
  · exact twin_requestRefresh ..

theorem twin_swapChart (s : State) (r : ChgReq) (sealTb : Nat) : (swapChart s r sealTb).twin = s.twin := by
  unfold swapChart
  simp only [↓twin_replayDeferred, ↓twin_followTasks, ↓twin_log, ↓twin_doneNowOpt, ↓twin_raiseEvent, ↓twin_modTasks,
    ↓twin_modCharts, ↓twin_emitUnowned, ↓twin_swapSettings]

end Sys2Proof.Machine
end

section
/-!
PROOFS. What faults, records of the ring, stops and resumes leave of the pair: all but what goes out and who waits.
-/
namespace Sys2Proof.Machine

open Sys2Proof

/-- The pair's state but for what goes out and for who waits. -/
def pairCore (w : Twin) : Twin :=
  { w with sent := [], lastSent := 0, changeRefs := [], resyncRef := none, handoverSent := none }

/-- Of the pair's state nothing changes but what goes out and who waits, and nobody begins to wait for a change of watch. -/
def pairKept (s t : State) : Prop :=
  pairCore t.twin = pairCore s.twin ∧ (s.twin.changeRefs = [] → t.twin.changeRefs = [])

theorem pairKept_of_twin {s t : State} (h : t.twin = s.twin) : pairKept s t := ⟨by rw [h], fun hn => h ▸ hn⟩

theorem pairKept_refl (s : State) : pairKept s s := ⟨rfl, id⟩

theorem pairKept_trans {s t u : State} (h : pairKept s t) (h' : pairKept t u) : pairKept s u :=
  ⟨h'.1.trans h.1, fun hn => h'.2 (h.2 hn)⟩

/-- The fields that the rows of the pair speak of. -/
theorem pairKept_fields {s t : State} (h : pairKept s t) : t.twin.role = s.twin.role ∧ t.twin.pair = s.twin.pair ∧
    t.twin.term = s.twin.term ∧ t.twin.mark = s.twin.mark ∧ t.twin.changes = s.twin.changes ∧
    t.twin.resyncStage = s.twin.resyncStage ∧ t.twin.appliedSeq = s.twin.appliedSeq ∧ t.twin.safeAt = s.twin.safeAt := by
  obtain ⟨hcore, -⟩ := h
  exact ⟨(congrArg Twin.role hcore :), (congrArg Twin.pair hcore :), (congrArg Twin.term hcore :), (congrArg Twin.mark hcore :),
    (congrArg Twin.changes hcore :), (congrArg Twin.resyncStage hcore :), (congrArg Twin.appliedSeq hcore :),
    (congrArg Twin.safeAt hcore :)⟩

theorem pairKept_twinSend (s : State) (f : TwinFrame) : pairKept s (twinSend s f) := by
  obtain ⟨xs, n, hs⟩ := twinSend_keeps s f
  rw [hs]
  exact ⟨rfl, id⟩

theorem pairKept_sendHandover (s : State) (cause : Nat) : pairKept s (sendHandover s cause) := by
  unfold sendHandover
  split
  · exact pairKept_trans (pairKept_twinSend s _) ⟨rfl, id⟩
  · exact pairKept_refl s

theorem pairKept_clearWaits (s : State) : pairKept s (clearWaits s) := ⟨rfl, fun _ => rfl⟩

theorem pairKept_enterHalt (s : State) (code detail : Nat) (atOnce : Bool) (cause : Nat) :
    pairKept s (enterHalt s code detail atOnce cause) := by
  unfold enterHalt
  extract_lets halted known stopped cleared logged entered handed silent safe
  have hlogged : pairKept s logged := by
    have hdiscarded : pairKept s (discardCommands stopped (BitVec.ofNat 8 code) detail) :=
      pairKept_of_twin ((twin_discardCommands ..).trans (twin_stopEngine s))
    refine pairKept_trans (pairKept_trans hdiscarded (pairKept_clearWaits _)) (pairKept_of_twin ?_)
    simp only [logged, ↓twin_ite, ↓twin_log, ite_self, cleared]
  split
  · exact pairKept_trans hlogged (pairKept_of_twin rfl)
  · have hhanded : pairKept s handed := pairKept_trans (pairKept_trans hlogged (pairKept_of_twin rfl)) (pairKept_sendHandover ..)
    refine pairKept_trans hhanded (pairKept_of_twin ?_)
    simp only [safe, silent, ↓twin_wdSyncMode, ↓twin_ite, ↓twin_applySafe, ↓twin_modField, ite_self]

theorem pairKept_ringAppend {s t : State} {r : RingRec} (h : ringAppend s r = .ok t) : pairKept s t := by
  obtain ⟨g, xs, n, rfl⟩ := ringAppend_keeps h
  exact ⟨rfl, id⟩

theorem pairKept_stateRecord (s : State) (sub : StateKind) (lines : List (Nat × RingLine)) :
    pairKept s (stateRecord s sub lines) := by
  unfold stateRecord
  split
  next h => exact pairKept_ringAppend h
  · exact pairKept_enterHalt ..

theorem pairKept_mirrorGroup (s : State) (ws : List PWrite) : pairKept s (mirrorGroup s ws) := by
  unfold mirrorGroup
  split
  · exact ⟨rfl, id⟩
  · exact pairKept_refl s

theorem pairKept_groupWriteOr (s : State) (ws : List PWrite) : pairKept s ((groupWrite s ws).getD s) := by
  unfold groupWrite
  split
  · exact pairKept_trans (pairKept_of_twin rfl) (pairKept_mirrorGroup _ ws)
  · exact pairKept_refl s

/-! ### Stops and resumes -/

theorem pairKept_doneNows (refs : List CmdRef) (s : State) (payload : State → List Byte) :
    pairKept s (refs.foldl (fun s c => doneNow s c (payload s)) s) :=
  pairKept_of_twin (twin_foldl (fun _ _ => twin_doneNow ..) refs s)

theorem pairKept_resumeStopped (s : State) (m : StopMode) : pairKept s (resumeStopped s m) := by
  unfold resumeStopped
  extract_lets stopped recorded
  have hrecorded : pairKept s recorded := pairKept_trans (pairKept_of_twin rfl) (pairKept_stateRecord ..)
  split
  · exact pairKept_trans hrecorded (pairKept_of_twin (twin_applySafe ..))
  · exact hrecorded

theorem pairKept_resumeProgram (s : State) (out : Option Nat) : pairKept s (resumeProgram s out) := by
  unfold resumeProgram
  split
  · exact pairKept_refl s
  extract_lets m logged
  have hlogged : pairKept s logged := by
    refine pairKept_of_twin ?_
    simp only [logged, ↓twin_ite, ↓twin_log, ite_self]
  split
  · exact pairKept_trans hlogged (pairKept_of_twin rfl)
  · exact pairKept_trans hlogged (pairKept_resumeStopped ..)

theorem pairKept_resumeUnusable (s : State) (chart : Nat) : pairKept s (resumeUnusable s chart) := by
  unfold resumeUnusable
  extract_lets logged
  have hlogged : pairKept s logged := pairKept_of_twin ((twin_log ..).trans (twin_modCharts ..))
  split
  · exact pairKept_trans hlogged (pairKept_resumeStopped ..)
  · exact pairKept_trans hlogged (pairKept_of_twin (twin_applySafe ..))

theorem pairKept_resumeNow (s : State) : pairKept s (resumeNow s) := by
  unfold resumeNow
  split
  · exact pairKept_of_twin (twin_applySafe ..)
  extract_lets out counted alive reemitted swapped
  have halive : pairKept s alive := pairKept_trans (pairKept_stateRecord s .resume []) (pairKept_of_twin rfl)
  split
  · exact pairKept_trans halive (pairKept_of_twin (twin_emitUnowned ..))
  split
  · exact pairKept_trans halive (pairKept_of_twin (twin_applySafe ..))
  split
  · exact pairKept_trans halive (pairKept_resumeUnusable ..)
  · have hswapped : swapped.twin = alive.twin := by
      simp only [swapped]
      split
      · exact twin_reEmitAll ..
      · exact (twin_swapChart ..).trans (twin_reEmitAll ..)
    exact pairKept_trans (pairKept_trans halive (pairKept_of_twin hswapped)) (pairKept_resumeProgram ..)

theorem pairKept_takeOutputs (s : State) : pairKept s (takeOutputs s) := by
  unfold takeOutputs
  extract_lets alive reemitted
  have halive : pairKept s alive := pairKept_of_twin (twin_modField ..)
  split
  · exact pairKept_trans halive (pairKept_of_twin (twin_emitUnowned ..))
  split
  · exact pairKept_trans halive (pairKept_of_twin (twin_applySafe ..))
  split
  · exact pairKept_trans halive (pairKept_resumeUnusable ..)
  have hreemitted : pairKept s reemitted := pairKept_trans halive (pairKept_of_twin (twin_reEmitAll ..))
  split
  · exact hreemitted
  · exact pairKept_trans hreemitted (pairKept_of_twin (twin_swapChart ..))

/-- What ends the start of a device whose role is settled (R388). -/
theorem pairKept_ifResumed (s : State) :
    pairKept s (syncMode (if s.power.resumed then finishStart (resumeNow s) else s)) := by
  split
  · exact pairKept_trans (pairKept_resumeNow s) (pairKept_of_twin ((twin_syncMode ..).trans (twin_finishStart ..)))
  · exact pairKept_of_twin (twin_syncMode s)

end Sys2Proof.Machine
end

section
/-!
PROOFS. A pair whose lanes do not change their alignment (R372).
-/
namespace Sys2Proof.Machine

open Sys2Proof

/-- A Watch of a pair whose two lanes are down. -/
def lanesDownWatch : State := modTwin State.reset (fun t => { t with role := .watch, lane0 := false, lane1 := false })

/-- A lane of a pair is aligned while the other is down: both lanes are up neither before nor after. -/
theorem lanesDownWatch_oneLane : twinOn lanesDownWatch = true ∧ lanesDownWatch.twin.lane0 = false ∧
    lanesDownWatch.twin.lane1 = false :=
  ⟨rfl, rfl, rfl⟩

/-- Refutes O57: its clause on an event that leaves the alignment of both lanes as it was reads `was ↔ (is → …)`, for `→` binds
closer than `↔`, so it claims that both lanes are aligned before every event after which they are not. Here lane 0 of a Watch is
aligned while lane 1 stays down. -/
theorem not_twinLinkFrames : ¬ Obligations.TwinLinkFrames := by
  unfold Obligations.TwinLinkFrames
  intro h
  obtain ⟨-, -, -, hon⟩ := h lanesDownWatch 0 0 true false false
    { ok := false, serial := [], epoch := 0, side := 0, role := 0, term := 0, headSeq := 0, progHash := [], configCrc := 0 }
    { ok := false, role := 0, pairState := 0, term := 0, headSeq := 0, senderTb := 0 }
    { ok := false, lastSeq := 0, cause := 0, term := 0, releases := [] }
    (recHeader lanesDownWatch .carry .none []) 0 0 0 0 []
  obtain ⟨hpair, hlane0, hlane1⟩ := lanesDownWatch_oneLane
  obtain ⟨halign, -⟩ := hon hpair
  have hnotIs : ¬ (true = true ∧ lanesDownWatch.twin.lane1 = true) := by simp [hlane1]
  have hwas : lanesDownWatch.twin.lane0 = true ∧ lanesDownWatch.twin.lane1 = true :=
    halign.2 (fun his => absurd his hnotIs)
  simp [hlane0] at hwas

end Sys2Proof.Machine
end

section
/-!
PROOFS. Pair states, terms and roles (R385-R391), and what they leave of scans, image and program.
-/
namespace Sys2Proof.Machine

open Sys2Proof

/-! ### Pair states, terms and roles -/

/-- A pair state is entered; a requested change that was under way is over (R395). -/
theorem setPair_twin (s : State) (p : PairState) : ∃ refs h, (setPair s p).twin =
    { s.twin with pair := p, changeRefs := refs, handoverSent := h } ∧ (s.twin.changeRefs = [] → refs = []) := by
  unfold setPair
  split
  next h => exact ⟨s.twin.changeRefs, s.twin.handoverSent, by rw [← h], id⟩
  · extract_lets old ended sev
    have hended : ∃ refs h, ended.twin = { s.twin with changeRefs := refs, handoverSent := h } ∧
        (s.twin.changeRefs = [] → refs = []) := by
      simp only [ended]
      split
      · exact ⟨[], _, twin_foldl (fun _ _ => twin_finishNow ..) _ _, fun _ => rfl⟩
      · exact ⟨_, _, rfl, id⟩
    obtain ⟨refs, h, htwin, hrefs⟩ := hended
    refine ⟨refs, h, ?_, hrefs⟩
    rw [twin_log]
    show { ended.twin with pair := p } = _
    rw [htwin]

theorem endResync_twin (s : State) : (endResync s).twin = { s.twin with resyncStage := 0, resyncRef := none } := by
  unfold endResync
  dsimp only
  split
  · exact twin_finishNow ..
  · rfl

/-- Another pair state is entered; the role stays (R408). -/
theorem setPair_enters (s : State) (p : PairState) : (setPair s p).twin.role = s.twin.role ∧ (setPair s p).twin.pair = p := by
  obtain ⟨refs, h, htwin, -⟩ := setPair_twin s p
  exact ⟨(congrArg Twin.role htwin :), (congrArg Twin.pair htwin :)⟩

theorem writeTerm_kept (s : State) : pairKept (modTwin s (fun t => { t with
    term := s.twin.term + 1, mark := some (s.twin.term + 1, s.ring.nextSeq, s.store.serial) })) (writeTerm s) :=
  pairKept_groupWriteOr _ _

/-- Learning a term writes the device mark and changes the pair's data alone (R391). -/
theorem learnTerm_rest (s : State) (term head : Nat) :
    { learnTerm s term head with pstore := s.pstore, store := s.store, twin := s.twin } = s := by
  unfold learnTerm
  split
  · rfl
  · dsimp only
    generalize hw : groupWrite _ _ = o
    cases o with
    | none => rfl
    | some v => exact (congrArg (fun t : State => { t with twin := s.twin }) (groupWrite_keeps hw) :)

/-- A Watch learns a term (R391): the highest known, and nothing else of the pair. -/
theorem learnTerm_learns (s : State) (term head : Nat) : (learnTerm s term head).twin.role = s.twin.role ∧
    (learnTerm s term head).twin.pair = s.twin.pair ∧ (learnTerm s term head).twin.term = max s.twin.term term ∧
    (learnTerm s term head).twin.lastLive = s.twin.lastLive ∧ (learnTerm s term head).twin.changes = s.twin.changes ∧
    (learnTerm s term head).twin.safeAt = s.twin.safeAt ∧
    (s.twin.changeRefs = [] → (learnTerm s term head).twin.changeRefs = []) := by
  unfold learnTerm
  split
  next h => exact ⟨rfl, rfl, (Nat.max_eq_left h).symm, rfl, rfl, rfl, id⟩
  next h =>
    extract_lets holder _ learned
    obtain ⟨hcore, hrefs⟩ := pairKept_groupWriteOr learned [_]
    exact ⟨(congrArg Twin.role hcore :), (congrArg Twin.pair hcore :),
      (congrArg Twin.term hcore :).trans (Nat.max_eq_right (Nat.le_of_not_le h)).symm,
      (congrArg Twin.lastLive hcore :), (congrArg Twin.changes hcore :), (congrArg Twin.safeAt hcore :), hrefs⟩

theorem settleWatch_settles (s : State) (p : PairState) :
    (settleWatch s p).twin.role = .watch ∧ (settleWatch s p).twin.pair = p := by
  unfold settleWatch
  extract_lets settled
  obtain ⟨refs, h, htwin, -⟩ := setPair_twin (modTwin (takeDisplay s) (fun t => { t with
    role := .watch, startTest := decide (p = .isolated) })) p
  have hout : (syncMode (if settled.power.resumed then watchOutputs settled else settled)).twin = settled.twin := by
    simp only [↓twin_syncMode, ↓twin_ite, ↓twin_watchOutputs, ite_self]
  rw [hout]
  exact ⟨congrArg Twin.role htwin, congrArg Twin.pair htwin⟩

/-- A starting device becomes Helm with a term higher by one (R388, R391). -/
theorem settleHelm_settles (s : State) (p : PairState) : (settleHelm s p).twin.role = .helm ∧ (settleHelm s p).twin.pair = p ∧
    (settleHelm s p).twin.term = s.twin.term + 1 ∧
    (settleHelm s p).twin.mark = some (s.twin.term + 1, s.ring.nextSeq, s.store.serial) := by
  unfold settleHelm
  extract_lets written paired
  obtain ⟨hrole, -, hterm, hmark, -⟩ := pairKept_fields (writeTerm_kept (modTwin s (fun t => { t with
    role := .helm, startTest := false })))
  obtain ⟨refs, h, htwin, -⟩ := setPair_twin written p
  obtain ⟨hr, hp, ht, hm, -⟩ := pairKept_fields (pairKept_ifResumed paired)
  exact ⟨hr.trans ((congrArg Twin.role htwin).trans hrole), hp.trans (congrArg Twin.pair htwin),
    ht.trans ((congrArg Twin.term htwin).trans hterm), hm.trans ((congrArg Twin.mark htwin).trans hmark)⟩

/-! ### Scans, image and program -/

/-- The scans in progress, the image and the state of the program. -/
def scanView (s : State) : Option Scan × List (Scan × Context) × SMap Tagged × ProgState :=
  (s.sched.running, s.sched.suspended, s.image, s.pstate)

theorem scanView_of_hostRest {s t : State} (h : hostRest t = hostRest s) : scanView t = scanView s :=
  (congrArg scanView h :)

theorem scanView_of_dropRest {s t : State} (h : dropRest t = dropRest s) : scanView t = scanView s :=
  (congrArg scanView h :)

theorem scanView_of_haltRest {s t : State} (h : haltRest t = haltRest s) : scanView t = scanView s :=
  (congrArg scanView h :)

theorem scanView_doneNows (refs : List CmdRef) (s : State) (payload : State → List Byte) :
    scanView (refs.foldl (fun s c => doneNow s c (payload s)) s) = scanView s :=
  foldl_keeps scanView _ (fun _ _ => scanView_of_hostRest (hostRest_finishNow ..)) refs s

theorem scanView_syncMode (s : State) : scanView (syncMode s) = scanView s := by
  obtain ⟨w, m, h⟩ := syncMode_keeps s
  rw [h]
  rfl

theorem scanView_learnTerm (s : State) (term head : Nat) : scanView (learnTerm s term head) = scanView s :=
  (congrArg scanView (learnTerm_rest s term head) :)

theorem scanView_modLine (s : State) (l : Line) (f : BusLine → BusLine) : scanView (modLine s l f) = scanView s := by
  unfold modLine
  split
  · rfl
  · rfl

theorem scanView_quietLine (s : State) (l : Line) : scanView (quietLine s l) = scanView s := by
  unfold quietLine dropFrames
  rw [scanView_modLine]
  exact (scanView_doneNows _ _ _).trans (scanView_modLine ..)

/-- No scan is in progress on a device that leaves the Helm role (R398, R400). -/
theorem scanView_leaveHelm (s : State) : scanView (leaveHelm s) = (none, [], s.image, s.pstate) :=
  (scanView_quietLine _ .b).trans (scanView_quietLine _ .a)

/-- No scan is in progress in a fault halt, whose entry leaves the image and the program's state (R674). -/
theorem scanView_enterHalt (s : State) (code detail : Nat) (atOnce : Bool) (cause : Nat) :
    scanView (enterHalt s code detail atOnce cause) = (none, [], s.image, s.pstate) := by
  unfold enterHalt
  extract_lets halted known stopped cleared logged entered handed silent safe
  have hcleared : scanView cleared = (none, [], s.image, s.pstate) :=
    scanView_of_hostRest (hostRest_discardCommands stopped (BitVec.ofNat 8 code) detail)
  have hlogged : scanView logged = scanView cleared := by
    simp only [logged]
    split
    · rfl
    · exact scanView_of_haltRest (haltRest_log ..)
  split
  · exact hlogged.trans hcleared
  · have hhanded : scanView handed = scanView entered := scanView_of_haltRest (haltRest_sendHandover ..)
    have hsafe : scanView safe = scanView silent := by
      simp only [safe]
      split
      · exact scanView_of_haltRest (haltRest_applySafe ..)
      · rfl
    exact (scanView_of_haltRest (haltRest_wdSyncMode ..)).trans (hsafe.trans ((hhanded.trans (hlogged.trans hcleared)) :))

/-- While no scan is in progress a record leaves scans, image and program, even as a seal fault (R336). -/
theorem scanView_stateRecord {s : State} {image : SMap Tagged} {pstate : ProgState} (h : scanView s = (none, [], image, pstate))
    (sub : StateKind) (lines : List (Nat × RingLine)) : scanView (stateRecord s sub lines) = (none, [], image, pstate) := by
  unfold stateRecord
  split
  next hr =>
    obtain ⟨g, xs, n, rfl⟩ := ringAppend_keeps hr
    exact h
  · rw [← h]
    simp only [scanView, Prod.mk.injEq] at h
    obtain ⟨hrun, hsusp, -, -⟩ := h
    exact (scanView_enterHalt ..).trans (by simp only [scanView, hrun, hsusp])

theorem scanView_answerRun (s : State) (start : Option Nat) : scanView (answerRun s start) = scanView s := by
  unfold answerRun
  split
  · rfl
  next x _ =>
    split
    · exact scanView_of_hostRest (hostRest_finishNow ..)
    · exact (scanView_of_hostRest (hostRest_finishNow s.draw.2 x.ref stDone 0 0 (le 8 s.draw.1.toNat)) :)

/-- PROG.STOP takes effect while no scan is in progress (R179). -/
theorem scanView_programStops {s : State} (hrun : s.sched.running = none) (hsusp : s.sched.suspended = []) (m : StopMode)
    (refs : List CmdRef) : scanView (programStops s m refs) = (none, [], s.image, .stopped) := by
  unfold programStops
  extract_lets stopped left recorded answered
  have hleft : scanView left = (none, [], s.image, .stopped) := by
    simp only [scanView, left, stopped, modSched, hrun, hsusp]
  have hanswered : scanView answered = scanView recorded := by
    simp only [answered]
    rw [scanView_answerRun]
    split
    · exact scanView_of_haltRest (haltRest_applySafe ..)
    · rfl
  exact (scanView_doneNows refs _ fun s => le 8 s.ring.lastSealTb).trans
    ((scanView_syncMode _).trans (hanswered.trans (scanView_stateRecord hleft _ [])))

end Sys2Proof.Machine
end

section
/-!
PROOFS. What a change of watch leaves on either side (R397-R400).
-/
namespace Sys2Proof.Machine

open Sys2Proof

section
variable {s : State}

theorem scanView_setPair (s : State) (p : PairState) : scanView (setPair s p) = scanView s :=
  scanView_of_dropRest (dropRest_setPair s p)

theorem scanView_endResync (s : State) : scanView (endResync s) = scanView s := scanView_of_dropRest (dropRest_endResync s)

theorem scanView_log (s : State) (type sev src subject code : Nat) (vals : List Byte) :
    scanView (log s type sev src subject code vals) = scanView s := scanView_of_dropRest (dropRest_log ..)

theorem scanView_applySafe (s : State) (cause : Nat) : scanView (applySafe s cause) = scanView s :=
  scanView_of_haltRest (haltRest_applySafe s cause)

theorem scanView_logVote (s : State) (outcome : Nat) : scanView (logVote s outcome) = scanView s := by
  unfold logVote
  exact scanView_log ..

/-- The components of the view. -/
theorem scanView_eq_iff {s : State} {r : Option Scan} {l : List (Scan × Context)} {i : SMap Tagged} {p : ProgState} :
    scanView s = (r, l, i, p) ↔ s.sched.running = r ∧ s.sched.suspended = l ∧ s.image = i ∧ s.pstate = p := by
  simp only [scanView, Prod.mk.injEq]

/-! ### A Watch becomes Helm (R397, R399) -/

/-- A Watch that takes over is Helm, with a term higher than every known one, and no change is requested any more (R397). -/
theorem takeOver_helms (s : State) (cause term : Nat) (releases : Option (List (Nat × Nat))) :
    (takeOver s cause term releases).twin.role = .helm ∧
    (takeOver s cause term releases).twin.term = max s.twin.term term + 1 ∧
    (takeOver s cause term releases).twin.changes = s.twin.changes + 1 ∧
    (takeOver s cause term releases).twin.changeRefs = [] := by
  unfold takeOver
  extract_lets high refs epoch helm answered sent written paired logged
  have hanswered : pairKept helm answered := pairKept_doneNows refs helm fun s => le 8 s.tb
  have hsent : pairKept helm sent := pairKept_trans hanswered (pairKept_twinSend (blankShared answered) _)
  have hout : pairKept helm (takeOutputs (applyForces sent)) :=
    pairKept_trans hsent (pairKept_trans (pairKept_of_twin (twin_applyForces sent)) (pairKept_takeOutputs _))
  have hwritten := writeTerm_kept (takeOutputs (applyForces sent))
  have hrefs : written.twin.changeRefs = [] := hwritten.2 (hout.2 rfl)
  obtain ⟨hrole, -, hterm, -, hchanges, -⟩ := pairKept_fields hout
  obtain ⟨hrole', -, hterm', -, hchanges', -⟩ := pairKept_fields hwritten
  obtain ⟨prefs, h, hpaired, hp⟩ := setPair_twin written (if cause = 0 ∧ linkUp written then .inStep
    else if written.twin.lane0 || written.twin.lane1 || partnerOnBus written then .outOfStep else .noPartner)
  have hend : (syncMode (takeLine (takeLine (takeRound logged releases) .a) .b)).twin = paired.twin := by
    simp only [↓twin_syncMode, ↓twin_takeLine, ↓twin_takeRound, logged, ↓twin_log]
  have hpaired' : paired.twin = _ := hpaired
  rw [hend, hpaired']
  exact ⟨hrole'.trans hrole, hterm'.trans (congrArg (· + 1) hterm), hchanges'.trans hchanges, hp hrefs⟩

/-! ### A Helm becomes Watch (R398, R400) -/

theorem tb_quietLine (s : State) (l : Line) : (quietLine s l).tb = s.tb := by
  unfold quietLine dropFrames
  rw [modLine_tb]
  have hdone : ∀ (t : State) (c : CmdRef), (doneNow t c ([0, BitVec.ofNat 8 5] ++ le 8 0)).tb = t.tb := fun t c =>
    (congrArg State.tb (hostRest_finishNow t c stDone 0 0 _) :)
  exact (foldl_keeps State.tb _ hdone _ _).trans (modLine_tb ..)

theorem tb_leaveHelm (s : State) : (leaveHelm s).tb = s.tb := (tb_quietLine _ .b).trans (tb_quietLine _ .a)

/-- TAKEN on the Helm (R398). -/
theorem takenOp_watches (s : State) (term : Nat) : (takenOp s term).twin.role = .watch ∧ (takenOp s term).twin.pair = .hello ∧
    (takenOp s term).twin.changes = s.twin.changes + 1 ∧ (takenOp s term).twin.term = max s.twin.term term ∧
    (takenOp s term).twin.safeAt = some (s.tb + usToTb 100) ∧ (takenOp s term).twin.changeRefs = [] := by
  unfold takenOp
  extract_lets cause head left refs watch free paired logged
  have hleft : left.twin = { s.twin with resyncStage := 0, resyncRef := none } := by
    simp only [left]
    rw [endResync_twin, twin_leaveHelm]
    rfl
  have htb : left.tb = s.tb := by
    have hresync : ∀ t : State, (endResync t).tb = t.tb := fun t => (congrArg State.tb (dropRest_endResync t) :)
    simp only [left]
    rw [hresync, tb_leaveHelm]
    rfl
  obtain ⟨hrole, -, hterm, -, hchanges, hsafe, hrefs⟩ := learnTerm_learns free term head
  obtain ⟨prefs, h, hpaired, hp⟩ := setPair_twin (learnTerm free term head) .hello
  have hend : (refs.foldl (fun s c => doneNow s c (le 8 s.tb)) (syncMode logged)).twin = paired.twin := by
    rw [twin_foldl (fun _ _ => twin_doneNow ..), twin_syncMode]
    exact twin_log ..
  clear_value left
  have hpaired' : paired.twin = _ := hpaired
  rw [hend, hpaired']
  refine ⟨hrole, rfl, hchanges.trans ?_, hterm.trans ?_, hsafe.trans ?_, hp (hrefs rfl)⟩
  · exact congrArg (·.changes + 1) hleft
  · exact congrArg (max ·.term term) hleft
  · exact congrArg (fun n => some (n + usToTb 100)) htb

theorem scanView_takenOp (s : State) (term : Nat) : scanView (takenOp s term) = (none, [], s.image, s.pstate) := by
  unfold takenOp
  extract_lets cause head left refs watch free paired logged
  have hleft : scanView left = (none, [], s.image, s.pstate) := by
    simp only [left]
    rw [scanView_endResync, scanView_leaveHelm]
    rfl
  have hpaired : scanView paired = scanView free := by
    simp only [paired]
    rw [scanView_setPair, scanView_learnTerm]
  clear_value left
  have hfree : scanView free = scanView left := rfl
  have hlogged : scanView logged = scanView paired := by
    simp only [logged]
    rw [scanView_log]
  have hend := (scanView_doneNows refs (syncMode logged) fun s => le 8 s.tb).trans (scanView_syncMode logged)
  rw [hend, hlogged, hpaired, hfree, hleft]

/-- A Helm that gives up is an isolated Watch, on which no program runs (R400). -/
theorem giveUp_isolates (s : State) : (giveUp s).twin.role = .watch ∧ (giveUp s).twin.pair = .isolated ∧
    (giveUp s).pstate ≠ .running ∧ (giveUp s).sched.running = none := by
  unfold giveUp
  extract_lets refs left stopped watch
  have hvote : scanView (logVote (takeDisplay s) 4) = scanView s := scanView_logVote ..
  have hleft : scanView left = (none, [], s.image, s.pstate) := by
    obtain ⟨-, -, himage, hpstate⟩ := scanView_eq_iff.mp hvote
    simp only [left]
    rw [scanView_leaveHelm, himage, hpstate]
  obtain ⟨hrun, hsusp, himage, hpstate⟩ := scanView_eq_iff.mp hleft
  have hstopped : ∃ p, scanView stopped = (none, [], s.image, p) ∧ p ≠ .running := by
    simp only [stopped]
    split
    next h => exact ⟨_, (scanView_applySafe left 3).trans hleft, by simp [← hpstate, h]⟩
    next h => exact ⟨_, (scanView_programStops hrun hsusp .safe refs).trans (by rw [himage]), by decide⟩
  obtain ⟨p, hview, hp⟩ := hstopped
  clear_value stopped
  obtain ⟨prefs, h, hpaired, -⟩ := setPair_twin (modSched watch (fun x => { x with handoverReq := none, noMoreScans := false }))
    .isolated
  generalize hfree : modSched watch _ = free at hpaired ⊢
  have hfreed : scanView free = scanView stopped := by
    rw [← hfree]
    exact (scanView_endResync stopped :)
  have hend : scanView (syncMode (setPair free .isolated)) = (none, [], s.image, p) := by
    rw [scanView_syncMode, scanView_setPair, hfreed, hview]
  have hrole : free.twin.role = .watch := by rw [← hfree]; rfl
  rw [twin_syncMode, hpaired]
  obtain ⟨hrun, -, -, hpstate⟩ := scanView_eq_iff.mp hend
  exact ⟨hrole, rfl, hpstate ▸ hp, hrun⟩

end

end Sys2Proof.Machine
end

section
/-!
PROOFS. HANDOVER, TAKEN, silence and the votes (R390, R397-R400).
-/
namespace Sys2Proof.Machine

open Sys2Proof

/-- A device has become Helm with this term, its pair's state before being w (R397). -/
def becomesHelm (w : Twin) (x : Host.Outcome State Fault Refusal) (term : Nat) : Prop :=
  ∃ t, x = .next t ∧ t.twin.role = .helm ∧ t.twin.term = term ∧ t.twin.changes = w.changes + 1 ∧ t.twin.changeRefs = []

/-- A device is Watch in this pair state. -/
def settlesAs (x : Host.Outcome State Fault Refusal) (p : PairState) : Prop :=
  ∃ t, x = .next t ∧ t.twin.role = .watch ∧ t.twin.pair = p

theorem twinOn_at (s : State) (now : Tb) : twinOn (s.at now) = twinOn s := rfl

theorem becomesHelm_takeOver (s : State) (cause term : Nat) (releases : Option (List (Nat × Nat))) :
    becomesHelm s.twin (.next (takeOver s cause term releases)) (max s.twin.term term + 1) :=
  ⟨_, rfl, takeOver_helms s cause term releases⟩

theorem settlesAs_setPair {s : State} (h : s.twin.role = .watch) (p : PairState) : settlesAs (.next (setPair s p)) p :=
  ⟨_, rfl, (setPair_enters s p).1.trans h, (setPair_enters s p).2⟩

section
variable {s : State} {now : Tb} (hon : twinOn s = true)
include hon

/-! ### HANDOVER, TAKEN and CHANGE_REQ -/

theorem exec_handover_ok {f : HandoverFrame} (hok : f.ok = true) (hw : s.twin.role = .watch) :
    exec (.handover now f) s = .next (handoverOp (noteLive (s.at now)) f) :=
  congrArg Host.Outcome.next (if_pos (by simp [twinOn_at, hon, hok, hw]))

/-- HANDOVER (R397). -/
theorem handover_takesOver (f : HandoverFrame) :
    (f.ok = false → exec (.handover now f) s = .next (s.at now)) ∧
    (f.ok = true → s.twin.role = .watch → s.twin.pair ≠ .inStep → exec (.handover now f) s = .next (noteLive (s.at now))) ∧
    (f.ok = true → s.twin.role = .watch → s.twin.pair = .inStep → s.ring.nextSeq ≤ f.lastSeq →
      settlesAs (exec (.handover now f) s) .outOfStep) ∧
    (f.ok = true → s.twin.role = .watch → s.twin.pair = .inStep → f.lastSeq < s.ring.nextSeq →
      becomesHelm s.twin (exec (.handover now f) s) (max s.twin.term f.term + 1)) := by
  refine ⟨fun hok => congrArg Host.Outcome.next (if_neg (by simp [hok])), fun hok hw hp => ?_, fun hok hw hp hseq => ?_,
    fun hok hw hp hseq => ?_⟩
  · rw [exec_handover_ok hon hok hw]
    exact congrArg Host.Outcome.next (if_pos hp)
  · have hop : handoverOp (noteLive (s.at now)) f = setPair (noteLive (s.at now)) .outOfStep :=
      (if_neg (not_not.mpr hp)).trans (if_pos hseq)
    rw [exec_handover_ok hon hok hw, hop]
    exact settlesAs_setPair (s := noteLive (s.at now)) hw .outOfStep
  · have hop : handoverOp (noteLive (s.at now)) f = takeOver (noteLive (s.at now)) f.cause f.term (some f.releases) :=
      (if_neg (not_not.mpr hp)).trans (if_neg (Nat.not_le.mpr hseq))
    rw [exec_handover_ok hon hok hw, hop]
    exact becomesHelm_takeOver (noteLive (s.at now)) f.cause f.term (some f.releases)

/-- TAKEN (R398). -/
theorem taken_watches (term : Nat) (hh : s.twin.role = .helm) : ∃ t, exec (.taken now term) s = .next t ∧
    t.twin.role = .watch ∧ t.twin.pair = .hello ∧ t.twin.changes = s.twin.changes + 1 ∧ t.twin.term = max s.twin.term term ∧
    t.twin.safeAt = some ((s.at now).tb + usToTb 100) ∧ t.sched.running = none ∧ t.sched.suspended = [] ∧
    t.image = s.image ∧ t.twin.changeRefs = [] := by
  obtain ⟨hrole, hpair, hchanges, hterm, hsafe, hrefs⟩ := takenOp_watches (noteLive (s.at now)) term
  obtain ⟨hrun, hsusp, himage, -⟩ := scanView_eq_iff.mp (scanView_takenOp (noteLive (s.at now)) term)
  exact ⟨_, congrArg Host.Outcome.next (if_pos (by simp [twinOn_at, hon, hh])), hrole, hpair, hchanges, hterm, hsafe, hrun,
    hsusp, himage, hrefs⟩

theorem exec_changeReq_helm (hh : s.twin.role = .helm) : exec (.changeReq now) s = .next (requestChange (noteLive (s.at now))) :=
  congrArg Host.Outcome.next (if_pos (by simp [twinOn_at, hon, hh]))

end

theorem sendHandover_keeps (s : State) (cause : Nat) : ∃ xs n h, sendHandover s cause =
    { s with twin := { s.twin with sent := xs, lastSent := n, handoverSent := h } } := by
  unfold sendHandover
  split
  · obtain ⟨xs, n, hs⟩ := twinSend_keeps s (.handover (s.ring.nextSeq - 1) cause s.twin.term (releaseList s))
    exact ⟨xs, n, some (s.tb, cause), (congrArg (modTwin · (fun t => { t with handoverSent := some (s.tb, cause) })) hs :)⟩
  · exact ⟨_, _, _, rfl⟩

/-- A requested change goes on as a HANDOVER at once while no scan can run; nobody stops waiting for it (R395). -/
theorem handoverIfIdle_keeps (s : State) : ∃ nm xs n h, handoverIfIdle s =
    { s with sched := { s.sched with noMoreScans := nm },
             twin := { s.twin with sent := xs, lastSent := n, handoverSent := h } } := by
  unfold handoverIfIdle
  split
  · unfold handoverAfter
    extract_lets closed
    split
    · exact ⟨true, _, _, _, rfl⟩
    · obtain ⟨xs, n, h, hs⟩ := sendHandover_keeps closed 0
      exact ⟨true, xs, n, h, hs⟩
  · exact ⟨_, _, _, _, rfl⟩

/-- A change that is asked for while the Watch is IN_STEP is requested (R395). -/
theorem requestChange_requests {s : State} (h : s.twin.pair = .inStep) : ∃ q nm xs n g, q.isSome = true ∧ requestChange s =
    { s with sched := { s.sched with handoverReq := q, noMoreScans := nm },
             twin := { s.twin with sent := xs, lastSent := n, handoverSent := g } } := by
  unfold requestChange
  rw [if_neg (not_not.mpr h)]
  split
  next hq => exact ⟨_, _, _, _, _, hq, rfl⟩
  · obtain ⟨nm, xs, n, g, hs⟩ := handoverIfIdle_keeps (modSched s (fun x => { x with handoverReq := some none }))
    exact ⟨_, nm, xs, n, g, rfl, hs⟩

/-! ### Silence and the votes (R390, R399, R400) -/

theorem any_later_iff (k : Nat) (t : Option Nat) : t.any (fun u => decide (k < u)) = true ↔ ∃ u, t = some u ∧ k < u := by
  simp [Option.any_eq_true]

/-- The vote of R399. -/
theorem silenceVote_outcomes (s : State) :
    let late := fun (t : Option Nat) => ∃ u, t = some u ∧ s.twin.lastLive + hbSpan s 1 < u
    let heard := late s.twin.heardHelm.1 ∨ late s.twin.heardHelm.2
    (heard → silenceVote s = setPair (logVote s 3) .outOfStep) ∧
    (¬ heard → helmOnBus s = false → ownAcked s 3 = true → silenceVote s = takeOver (logVote s 2) 4 s.twin.term none) ∧
    (¬ heard → helmOnBus s = true ∨ ownAcked s 3 = false → silenceVote s = logVote s 0) := by
  intro late heard
  have hheard : (s.twin.heardHelm.1.any (fun t => decide (s.twin.lastLive + hbSpan s 1 < t)) ||
      s.twin.heardHelm.2.any (fun t => decide (s.twin.lastLive + hbSpan s 1 < t))) = true ↔ heard := by
    rw [Bool.or_eq_true, any_later_iff, any_later_iff]
  refine ⟨fun h => if_pos (hheard.mpr h), fun h hbus hown => ?_, fun h hno => ?_⟩
  · exact (if_neg (mt hheard.mp h)).trans (if_pos (by simp [hbus, hown]))
  · refine (if_neg (mt hheard.mp h)).trans (if_neg ?_)
    rcases hno with hbus | hown
    · simp [hbus]
    · simp [hown]

section
variable {s : State} {now : Tb} (hon : twinOn s = true)
include hon

/-- The Helm's silence with a lane still up, and on a Watch that is not in step (R399). -/
theorem watchTimeout_settles :
    let silent := s.twin.lastLive + watchTimeout s ≤ (s.at now).tb
    (s.twin.role ≠ .watch ∨ ¬ silent → exec (.watchTimeout now) s = .next (s.at now)) ∧
    (s.twin.role = .watch → silent → s.twin.pair ≠ .inStep → linkUp s = true →
      exec (.watchTimeout now) s = .next (s.at now)) ∧
    (s.twin.role = .watch → silent → s.twin.pair ≠ .inStep → linkUp s = false →
      settlesAs (exec (.watchTimeout now) s) .isolated) ∧
    (s.twin.role = .watch → silent → s.twin.pair = .inStep → (s.twin.lane0 || s.twin.lane1) = true →
      becomesHelm s.twin (exec (.watchTimeout now) s) (s.twin.term + 1)) := by
  intro silent
  have hsilent : partnerSilent (s.at now) = decide silent := rfl
  have hrow : s.twin.role = .watch → silent → exec (.watchTimeout now) s = .next (watchSilent (s.at now)) := fun hw hs =>
    congrArg Host.Outcome.next (if_pos (by simp [twinOn_at, hon, hw, hsilent, hs]))
  refine ⟨fun h => congrArg Host.Outcome.next (if_neg ?_), fun hw hs hp hl => ?_, fun hw hs hp hl => ?_, fun hw hs hp hl => ?_⟩
  · rcases h with h | h
    · simp [h]
    · simp [hsilent, h]
  · rw [hrow hw hs]
    exact congrArg Host.Outcome.next ((if_neg hp).trans (if_pos hl))
  · have hop : watchSilent (s.at now) = setPair (s.at now) .isolated :=
      (if_neg hp).trans (if_neg (by rw [show linkUp (s.at now) = false from hl]; decide))
    rw [hrow hw hs, hop]
    exact settlesAs_setPair (s := s.at now) hw .isolated
  · have hop : watchSilent (s.at now) = takeOver (s.at now) 4 s.twin.term none := (if_pos hp).trans (if_pos hl)
    have hhelm := becomesHelm_takeOver (s.at now) 4 s.twin.term none
    rw [show max (s.at now).twin.term s.twin.term = s.twin.term from Nat.max_self _] at hhelm
    rw [hrow hw hs, hop]
    exact hhelm

/-- The vote with both lanes down (R399). -/
theorem silenceVoteElapsed_votes :
    let silent := s.twin.lastLive + watchTimeout s ≤ (s.at now).tb
    let down := s.twin.lane0 = false ∧ s.twin.lane1 = false
    let late := fun (t : Option Nat) => ∃ u, t = some u ∧ s.twin.lastLive + hbSpan s 1 < u
    let heard := late s.twin.heardHelm.1 ∨ late s.twin.heardHelm.2
    let votes := exec (.silenceVoteElapsed now) s
    (s.twin.role ≠ .watch ∨ s.twin.pair ≠ .inStep ∨ ¬ silent ∨ (s.twin.lane0 || s.twin.lane1) = true →
      votes = .next (s.at now)) ∧
    (s.twin.role = .watch → s.twin.pair = .inStep → silent → down →
      (heard → settlesAs votes .outOfStep) ∧
      (¬ heard → helmOnBus (s.at now) = false → ownAcked (s.at now) 3 = true → becomesHelm s.twin votes (s.twin.term + 1)) ∧
      (¬ heard → helmOnBus (s.at now) = true ∨ ownAcked (s.at now) 3 = false → settlesAs votes .inStep)) := by
  intro silent down late heard votes
  have hsilent : partnerSilent (s.at now) = decide silent := rfl
  refine ⟨fun h => congrArg Host.Outcome.next (if_neg ?_), fun hw hp hs hdown => ?_⟩
  · rcases h with h | h | h | h
    · simp [h]
    · simp [h]
    · simp [hsilent, h]
    · rcases Bool.or_eq_true_iff.mp h with h | h
      · simp [h]
      · simp [h]
  · obtain ⟨h0, h1⟩ := hdown
    have hrow : votes = .next (silenceVote (s.at now)) :=
      congrArg Host.Outcome.next (if_pos (by simp [twinOn_at, hon, hw, hp, hsilent, hs, h0, h1]))
    obtain ⟨hlate, hwins, hstays⟩ := silenceVote_outcomes (s.at now)
    have htwin : ∀ n, (logVote (s.at now) n).twin = s.twin := fun n => twin_logVote ..
    refine ⟨fun h => ?_, fun h hbus hown => ?_, fun h hno => ?_⟩
    · rw [hrow, hlate h]
      exact settlesAs_setPair (by rw [htwin, hw]) .outOfStep
    · have hhelm := becomesHelm_takeOver (logVote (s.at now) 2) 4 s.twin.term none
      rw [htwin, Nat.max_self] at hhelm
      rw [hrow, hwins h hbus hown]
      exact hhelm
    · rw [hrow, hstays h hno]
      exact ⟨_, rfl, by rw [htwin, hw], by rw [htwin, hp]⟩

/-- A Helm that hears nobody (R400). -/
theorem helmGivesUp_isolates :
    let gives := s.twin.role = .helm ∧ s.power.mode ≠ .halt ∧ s.twin.lastLive + watchTimeout s ≤ (s.at now).tb ∧
      ownAcked (s.at now) 2 = false
    (¬ gives → exec (.helmGivesUp now) s = .next (s.at now)) ∧
    (gives → ∃ t, exec (.helmGivesUp now) s = .next t ∧ t.twin.role = .watch ∧ t.twin.pair = .isolated ∧
      t.pstate ≠ .running ∧ t.sched.running = none) := by
  intro gives
  have hsilent : partnerSilent (s.at now) = decide (s.twin.lastLive + watchTimeout s ≤ (s.at now).tb) := rfl
  have hgives : (twinOn (s.at now) && decide ((s.at now).twin.role = .helm ∧ (s.at now).power.mode ≠ .halt) &&
      partnerSilent (s.at now) && !ownAcked (s.at now) 2) = true ↔ gives := by
    simp only [twinOn_at, hon, hsilent, Bool.and_eq_true, decide_eq_true_eq, Bool.not_eq_true', true_and, and_assoc]
    exact Iff.rfl
  exact ⟨fun h => congrArg Host.Outcome.next (if_neg (mt hgives.mp h)),
    fun h => ⟨_, congrArg Host.Outcome.next (if_pos (hgives.mpr h)), giveUp_isolates _⟩⟩

/-- The start without a link (R390). -/
theorem twinStartWait_settles :
    let n := s.at now
    let w := s.twin
    let starts := w.role = .starting ∨ (w.role = .watch ∧ w.startTest = true)
    let start := exec (.twinStartWaitExpiry now) s
    let tests := starts ∧ linkUp s = false ∧ msToTb (par s 0x0606) ≤ n.tb ∧ s.power.mode ≠ .halt
    (¬ tests → start = .next n) ∧
    (tests →
      (helmOnBus n = true ∨ outranked n w.heardStart.1 = true ∨ outranked n w.heardStart.2 = true ∨ ownAcked n 3 = false →
        settlesAs start .isolated) ∧
      (helmOnBus n = false → outranked n w.heardStart.1 = false → outranked n w.heardStart.2 = false → ownAcked n 3 = true →
        ∃ t, start = .next t ∧ t.twin.role = .helm ∧ t.twin.pair = .noPartner ∧ t.twin.term = w.term + 1)) := by
  intro n w starts start tests
  have htests : (twinOn n && decide (n.twin.role = .starting ∨ (n.twin.role = .watch ∧ n.twin.startTest = true)) && !linkUp n
      && decide (msToTb (par n 0x0606) ≤ n.tb) && decide (n.power.mode ≠ .halt)) = true ↔ tests := by
    have hlink : linkUp n = linkUp s := rfl
    have hpar : par n 0x0606 = par s 0x0606 := rfl
    have hon' : twinOn n = true := hon
    simp only [hon', hlink, hpar, Bool.and_eq_true, decide_eq_true_eq, Bool.not_eq_true', true_and, and_assoc]
    exact Iff.rfl
  refine ⟨fun h => congrArg Host.Outcome.next (if_neg (mt htests.mp h)), fun h => ?_⟩
  have hrow : start = .next (startVote n) := congrArg Host.Outcome.next (if_pos (htests.mpr h))
  have htwin : ∀ k, (logVote n k).twin = w := fun k => twin_logVote ..
  rw [hrow]
  refine ⟨fun hlost => ?_, fun hbus h1 h2 hown => ?_⟩
  · have hvote : startVote n = if (logVote n 0).twin.role = .watch ∧ (logVote n 0).twin.pair = .isolated then logVote n 0
        else settleWatch (logVote n 0) .isolated := by
      refine if_neg ?_
      rcases hlost with h | h | h | h
      · simp [h]
      · simp [show outranked n n.twin.heardStart.1 = true from h]
      · simp [show outranked n n.twin.heardStart.2 = true from h]
      · simp [h]
    rw [hvote]
    split
    next hiso => exact ⟨_, rfl, hiso.1, hiso.2⟩
    · exact ⟨_, rfl, settleWatch_settles ..⟩
  · have hvote : startVote n = settleHelm (logVote n 1) .noPartner :=
      if_pos (by simp [hbus, show outranked n n.twin.heardStart.1 = false from h1,
        show outranked n n.twin.heardStart.2 = false from h2, hown])
    obtain ⟨hrole, hpair, hterm, -⟩ := settleHelm_settles (logVote n 1) .noPartner
    rw [hvote]
    exact ⟨_, rfl, hrole, hpair, hterm.trans (by rw [htwin])⟩

end

end Sys2Proof.Machine
end

section
/-!
PROOFS. TWIN.CHANGE, TWIN.RESYNC and the old Helm's outputs (R395, R398, R401-R406).
-/
namespace Sys2Proof.Machine

open Sys2Proof

/-! ### The old Helm's outputs (R398) -/

theorem watchOutputsSafe_rests (s : State) (now : Tb) :
    (s.twin.safeAt = none → exec (.watchOutputsSafe now) s = .next (s.at now)) ∧
    ∀ at_, s.twin.safeAt = some at_ →
      ((s.at now).tb < at_ → exec (.watchOutputsSafe now) s = .next (s.at now)) ∧
      (at_ ≤ (s.at now).tb → ∃ t, exec (.watchOutputsSafe now) s = .next t ∧
        (s.field.linkAlive = false ∨ s.twin.role ≠ .watch → t = modTwin (s.at now) (fun w => { w with safeAt := none })) ∧
        t.twin.safeAt = none) := by
  have hrow : ∀ {m}, s.twin.safeAt = m → exec (.watchOutputsSafe now) s = .next (match m with
      | none => s.at now
      | some t => if (s.at now).tb < t then s.at now else
          let u := modTwin (s.at now) (fun x => { x with safeAt := none })
          if u.field.linkAlive ∧ u.twin.role = .watch then watchOutputs u else u) := fun h => h ▸ rfl
  refine ⟨fun h => hrow h, fun at_ h => ⟨fun hlt => ?_, fun hle => ⟨_, (hrow h).trans
    (congrArg Host.Outcome.next (if_neg (Nat.not_lt.mpr hle))), fun hoff => if_neg ?_, ?_⟩⟩⟩
  · exact (hrow h).trans (congrArg Host.Outcome.next (if_pos hlt))
  · rcases hoff with hoff | hoff
    · exact fun hk => absurd hk.1 (by rw [show (modTwin (s.at now) _).field.linkAlive = false from hoff]; decide)
    · exact fun hk => hoff hk.2
  · simp only [↓twin_ite, ↓twin_watchOutputs, ite_self]
    rfl

/-! ### TWIN.CHANGE and TWIN.RESYNC -/

theorem twinSend_sent {s : State} {f : TwinFrame} (h : carried s f = true) : (twinSend s f).twin.sent = s.twin.sent ++ [f] := by
  unfold twinSend
  rw [if_pos h]
  rfl

/-- A TWIN.CHANGE that waits for the change (R406). -/
def changeAsked (b : State) (c : CmdRef) : State :=
  modTwin (waitFor b c) (fun t => { t with changeRefs := t.changeRefs ++ [c] })

section
variable {b : State} {c : CmdRef} {x : Cmd} (hc : findCmd b c = some x)
include hc

/-- TWIN.CHANGE (R395, R406). -/
theorem twinChangeOp_asks :
    (b.twin.role = .watch → b.twin.pair = .inStep → waits (twinChangeOp b c) c ∧ c ∈ (twinChangeOp b c).twin.changeRefs ∧
      ((b.twin.lane0 && b.twin.lane1) = true → (twinChangeOp b c).twin.sent = b.twin.sent ++ [.changeReq])) ∧
    (b.twin.role = .helm → b.twin.pair = .inStep → waits (twinChangeOp b c) c ∧ c ∈ (twinChangeOp b c).twin.changeRefs ∧
      (twinChangeOp b c).sched.handoverReq.isSome = true) ∧
    (b.twin.pair ≠ .inStep ∨ (b.twin.role ≠ .watch ∧ b.twin.role ≠ .helm) →
      refuses (twinChangeOp b c) c stState 0x05 ∧ sameButResults b (twinChangeOp b c)) := by
  have hwaits := waits_waitFor hc
  have hmem : c ∈ b.twin.changeRefs ++ [c] := List.mem_append_right _ (List.mem_singleton_self c)
  refine ⟨fun hw hp => ?_, fun hh hp => ?_, fun hno => ?_⟩
  · have hop : twinChangeOp b c = twinSend (changeAsked b c) .changeReq := (if_neg (not_not.mpr hp)).trans (if_pos hw)
    rw [hop]
    obtain ⟨xs, n, hs⟩ := twinSend_keeps (changeAsked b c) .changeReq
    refine ⟨?_, ?_, fun hlanes => twinSend_sent (s := changeAsked b c) (f := .changeReq) hlanes⟩
    · rw [hs]
      exact hwaits
    · rw [hs]
      exact hmem
  · have hnw : ¬ b.twin.role = .watch := by rw [hh]; decide
    have hop : twinChangeOp b c = requestChange (changeAsked b c) :=
      (if_neg (not_not.mpr hp)).trans ((if_neg hnw).trans (if_pos hh))
    obtain ⟨q, nm, xs, n, g, hq, hs⟩ := requestChange_requests (s := changeAsked b c) hp
    rw [hop, hs]
    exact ⟨hwaits, hmem, hq⟩
  · have hop : twinChangeOp b c = refuseState b c 0x05 := by
      unfold twinChangeOp
      rcases hno with hp | ⟨hw, hh⟩
      · simp [hp]
      · simp [hw, hh]
    rw [hop]
    exact refuseState_refuses hc 0x05

end

theorem pairKept_foldl {α : Type} {f : State → α → State} (h : ∀ s x, pairKept s (f s x)) (l : List α) (s : State) :
    pairKept s (l.foldl f s) := by
  induction l generalizing s with
  | nil => exact pairKept_refl s
  | cons x l ih => exact pairKept_trans (h s x) (ih (f s x))

theorem pairKept_sendImage (s : State) (kind : Nat) (bytes : List Byte) : pairKept s (sendImage s kind bytes) :=
  pairKept_foldl (fun _ _ => pairKept_twinSend ..) _ s

theorem pairKept_sendImages (s : State) : pairKept s (sendImages s) := by
  unfold sendImages
  extract_lets diff
  split
  next p _ =>
    extract_lets sent edits
    refine pairKept_trans (pairKept_trans (pairKept_sendImage ..) (pairKept_foldl (fun _ _ => pairKept_sendImage ..) _ sent))
      (pairKept_foldl (fun t k => ?_) _ edits)
    split
    · exact pairKept_sendImage ..
    · exact pairKept_refl t
  · exact pairKept_refl s

theorem pairKept_sendStore (s : State) : pairKept s (sendStore s) :=
  pairKept_trans (pairKept_twinSend s _) (pairKept_foldl (fun _ _ => pairKept_twinSend ..) _ _)

theorem pairKept_carryAll (n : Nat) (s : State) (ls : List (Nat × RingLine)) : pairKept s (carryAll n s ls) := by
  induction n generalizing s ls with
  | zero => exact pairKept_refl s
  | succ n ih =>
    cases ls with
    | nil => exact pairKept_refl s
    | cons l ls =>
      unfold carryAll
      split
      next h => exact pairKept_trans (pairKept_ringAppend h) (ih _ _)
      · exact pairKept_enterHalt ..

/-- A stage of a resynchronisation leaves the Helm its role, and counts (R401). -/
theorem resyncStep_stage (s : State) (stage : Nat) :
    (resyncStep s stage).twin.role = s.twin.role ∧ (resyncStep s stage).twin.resyncStage = stage := by
  have hkeeps : ∀ {t u : State}, t.twin.role = s.twin.role ∧ t.twin.resyncStage = stage → pairKept t u →
      u.twin.role = s.twin.role ∧ u.twin.resyncStage = stage := fun ⟨hr, hs⟩ hk => by
    obtain ⟨hrole, -, -, -, -, hstage, -⟩ := pairKept_fields hk
    exact ⟨hrole.trans hr, hstage.trans hs⟩
  unfold resyncStep
  extract_lets begun paired line
  have hbegun : begun.twin.role = s.twin.role ∧ begun.twin.resyncStage = stage := ⟨rfl, rfl⟩
  split
  · obtain ⟨refs, h, hpaired, -⟩ := setPair_twin begun .resync
    refine hkeeps (t := paired) ?_ (pairKept_trans (pairKept_of_twin (twin_log ..)) (pairKept_twinSend ..))
    exact ⟨(congrArg Twin.role hpaired :), (congrArg Twin.resyncStage hpaired :)⟩
  · exact hkeeps hbegun (pairKept_sendImages begun)
  · exact hkeeps hbegun (pairKept_sendStore begun)
  · exact hkeeps (by exact hbegun) (pairKept_twinSend ..)
  · exact hkeeps hbegun (pairKept_carryAll ..)
  · exact hkeeps (by exact hbegun) (pairKept_twinSend ..)

/-- Stage 1 marks the pair as resynchronising (R401). -/
theorem resyncStep_begins (s : State) :
    (resyncStep s 1).twin.pair = .resync ∧ (resyncStep s 1).image = s.image := by
  have hstep : resyncStep s 1 = twinSend (log (setPair (modTwin s (fun t => { t with resyncStage := 1 })) .resync) 0x54 sevInfo
      0x05 (pairCode (setPair (modTwin s (fun t => { t with resyncStage := 1 })) .resync).twin.pair) 0 []) (.config 5 [1]) := rfl
  generalize hm : modTwin s (fun t => { t with resyncStage := 1 }) = marked at hstep
  have himage : (setPair marked .resync).image = s.image := by
    rw [(scanView_eq_iff.mp (scanView_setPair marked .resync)).2.2.1, ← hm]
    rfl
  rw [hstep]
  obtain ⟨xs, n, hs⟩ := twinSend_keeps (log (setPair marked .resync) 0x54 sevInfo 0x05
    (pairCode (setPair marked .resync).twin.pair) 0 []) (.config 5 [1])
  rw [hs]
  refine ⟨(congrArg Twin.pair (twin_log ..)).trans (setPair_pair marked .resync), ?_⟩
  rw [log_image, himage]

/-- The last stages send the end of the resynchronisation and leave the host link (R401 stage 6). -/
theorem resyncStep_host {stage : Nat} (h : 6 ≤ stage) (s : State) : (resyncStep s stage).host = s.host := by
  have hstep : resyncStep s stage = twinSend (modTwin s (fun t => { t with resyncStage := stage, resyncAck := headSeq s }))
      (.config 5 [6]) := by
    match stage, h with
    | n + 6, _ => rfl
  obtain ⟨xs, n, hs⟩ := twinSend_keeps (modTwin s (fun t => { t with resyncStage := stage, resyncAck := headSeq s }))
    (.config 5 [6])
  rw [hstep, hs]
  rfl

section
variable {b : State} {c : CmdRef} {x : Cmd} (hc : findCmd b c = some x)
include hc

/-- TWIN.RESYNC (R401, R404). -/
theorem twinResyncOp_steps (y : Cmd) :
    let stage := 7 - y.stages.length
    let t := twinResyncOp b c y
    (b.twin.pair = .inStep → onlyAnswers b t c (le 8 b.tb)) ∧
    (b.twin.pair ≠ .inStep → b.twin.role ≠ .helm ∨ linkUp b = false ∨ (stage ≠ 1 ∧ b.twin.pair ≠ .resync) →
      refuses t c stState 0x05 ∧ sameButResults b t) ∧
    (b.twin.pair ≠ .inStep → b.twin.role = .helm → linkUp b = true → stage = 1 → t.twin.pair = .resync ∧
      t.twin.resyncStage = 1 ∧ t.image = b.image ∧ t.twin.role = .helm) ∧
    (b.twin.pair = .resync → b.twin.role = .helm → linkUp b = true → 1 ≤ stage →
      t.twin.resyncStage = stage ∧ t.twin.role = .helm ∧ (lastStage y = true → waits t c ∧ t.twin.resyncRef = some c)) := by
  intro stage t
  have hrow : b.twin.pair ≠ .inStep → ¬ (b.twin.role ≠ .helm ∨ ¬ linkUp b = true ∨ (stage ≠ 1 ∧ b.twin.pair ≠ .resync)) →
      t = if lastStage y then modTwin (waitFor (resyncStep b stage) c) (fun t => { t with resyncRef := some c })
        else resyncStep b stage := fun hp hn => (if_neg hp).trans (if_neg hn)
  refine ⟨fun hp => ?_, fun hp hno => ?_, fun hp hh hl hs => ?_, fun hp hh hl hs => ?_⟩
  · have ht : t = done b c (le 8 b.tb) := if_pos hp
    rw [ht]
    exact done_onlyAnswers hc _
  · have ht : t = refuseState b c 0x05 := (if_neg hp).trans (if_pos (by simpa using hno))
    rw [ht]
    exact refuseState_refuses hc 0x05
  · rw [hrow hp (by simp [hh, hl, hs]), hs]
    obtain ⟨hrole, hstage⟩ := resyncStep_stage b 1
    obtain ⟨hpair, himage⟩ := resyncStep_begins b
    split
    · exact ⟨hpair, hstage, himage, hrole.trans hh⟩
    · exact ⟨hpair, hstage, himage, hrole.trans hh⟩
  · rw [hrow (by rw [hp]; decide) (by simp [hh, hl, hp])]
    obtain ⟨hrole, hstage⟩ := resyncStep_stage b stage
    split
    next hlast =>
      have hlen : 6 ≤ stage := by
        have := of_decide_eq_true hlast
        omega
      have hfind : findCmd (resyncStep b stage) c = some x := by
        unfold findCmd
        rw [resyncStep_host hlen]
        exact hc
      exact ⟨hstage, hrole.trans hh, fun _ => ⟨waits_waitFor hfind, rfl⟩⟩
    next hlast => exact ⟨hstage, hrole.trans hh, fun h => absurd h hlast⟩

end

end Sys2Proof.Machine
end

section
/-!
PROOFS. The change of watch, votes and the commands of the pair.
-/
namespace Sys2Proof.Machine

open Sys2Proof

section
variable {s : State} {now : Tb} (hon : twinOn s = true)
include hon

/-- CHANGE_REQ (R395). -/
theorem changeReq_requests (hh : s.twin.role = .helm) :
    (s.twin.pair ≠ .inStep → ∃ t, exec (.changeReq now) s = .next t ∧ { t with log := s.log } = noteLive (s.at now)) ∧
    (s.twin.pair = .inStep → ∃ t, exec (.changeReq now) s = .next t ∧ t.sched.handoverReq.isSome = true ∧
      t.twin.role = .helm ∧ t.image = s.image) := by
  rw [exec_changeReq_helm hon hh]
  refine ⟨fun hp => ⟨_, rfl, ?_⟩, fun hp => ⟨_, rfl, ?_⟩⟩
  · have hop : requestChange (noteLive (s.at now)) = log (noteLive (s.at now)) 0x56 sevNotice 0x05 (pairCode s.twin.pair) 0 [] :=
      if_pos hp
    rw [hop]
    exact log_only ..
  · obtain ⟨q, nm, xs, n, g, hq, hs⟩ := requestChange_requests (s := noteLive (s.at now)) hp
    rw [hs]
    exact ⟨hq, hh, rfl⟩

end

/-- Settles O58, event by event: what each of them leaves of role, pair and term. -/
theorem changeOfWatch : Obligations.ChangeOfWatch := by
  unfold Obligations.ChangeOfWatch
  intro s now c f term at_
  obtain ⟨hnone, hsome⟩ := watchOutputsSafe_rests s now
  refine ⟨fun hon => ?_, hnone, fun h => (hsome at_ h).1, fun h => (hsome at_ h).2, ?_, ?_⟩
  · obtain ⟨hnotOk, hnotInStep, hbehind, htakes⟩ := handover_takesOver (now := now) hon f
    obtain ⟨hheard, hlink, hlost, hlanes⟩ := watchTimeout_settles (now := now) hon
    obtain ⟨hnoVote, hvote⟩ := silenceVoteElapsed_votes (now := now) hon
    obtain ⟨hkeeps, hgives⟩ := helmGivesUp_isolates (now := now) hon
    obtain ⟨hnoTest, htest⟩ := twinStartWait_settles (now := now) hon
    exact ⟨hnotOk, hnotInStep, hbehind, htakes, taken_watches hon term, fun hh => (changeReq_requests hon hh).1,
      fun hh => (changeReq_requests hon hh).2, hheard, hlink, hlost, hlanes, hnoVote, hvote, hkeeps, hgives, hnoTest, htest⟩
  · exact works_of (Eq.refl (execTwinChange now c s)) fun x hx => twinChangeOp_asks (findCmd_workState hx)
  · exact works_of (Eq.refl (execTwinResync now c s)) fun x hx => twinResyncOp_steps (findCmd_workState hx) x

end Sys2Proof.Machine
end
